-- ==== Sys2Proof/Word.lean ====
section
/-! DEFINITION. The word types of the model. Bit 0 is the least significant bit and every
multi-byte value in memory is little-endian (R7). -/

namespace Sys2Proof

abbrev Byte := BitVec 8
abbrev Half := BitVec 16
/-- An FP32 bit pattern, a schedule entry field, or any other 32-bit word. -/
abbrev Word := BitVec 32
/-- A mark, a step number, a register word, a metadata word. -/
abbrev DWord := BitVec 64
/-- A check value, a proof sum, a digest under the hash of R446. -/
abbrev QWord := BitVec 128

end Sys2Proof
end

