-- ==== Sys2Proof/Syntax.lean ====
section
/-! DEFINITION. The commands of the block: one constructor of `Instr` per row of the opcode table,
with the operands the spec gives that row. Field names and widths are those of the spec's field
tables, so no operand can leave its field. -/

namespace Sys2Proof

/-! ### Places (R4) -/

/-- A logical engine: plate (E = 0, W = 1), cluster 0–35, logical engine L0–L7 (R4, R18). -/
structure EngineLoc where
  plate : Fin 2
  cluster : Fin 36
  lengine : Fin 8
  deriving DecidableEq, Repr

/-- A cluster of a plate (R4). -/
structure ClusterLoc where
  plate : Fin 2
  cluster : Fin 36
  deriving DecidableEq, Repr

/-- A Selector, E.S0 to W.S1 (R4). -/
structure SelectorLoc where
  plate : Fin 2
  index : Fin 2
  deriving DecidableEq, Repr

/-- An update unit, by plate and number within the plate (R4, R48). -/
structure UnitLoc where
  plate : Fin 2
  index : Fin 5
  deriving DecidableEq, Repr

/-- A relay: the Seam relay of a plate or the Kazin relay of a port K0–K15 (R17, R267). -/
inductive RelayLoc where
  | seam (plate : Fin 2)
  | kazin (port : Fin 16)
  deriving DecidableEq, Repr

/-- The station that carries a mark command (R72: any station's stream can). -/
inductive StationRef where
  | fetch (e : EngineLoc)
  | etch (e : EngineLoc)
  | finish (e : EngineLoc)
  | store (e : EngineLoc)
  | counterproof (c : ClusterLoc)
  | burnisher (c : ClusterLoc)
  | stipple (c : ClusterLoc)
  | selector (x : SelectorLoc)
  | updateUnit (u : UnitLoc)
  | relay (r : RelayLoc)
  deriving DecidableEq, Repr

/-- One receiving end of a link: a Kazin port, or a Seam channel as received by a plate (R251, R277). -/
inductive LinkRef where
  | kazin (port : Fin 16)
  | seam (plate : Fin 2) (channel : Fin 48)
  deriving DecidableEq, Repr

/-- The frame part of a station command word: ISSUE_CYCLE and STROKE (R49). -/
structure Issue where
  cycle : BitVec 22
  stroke : BitVec 10
  deriving DecidableEq, Repr

/-! ### Fields of the station commands -/

/-- LOAD_A, LOAD_S and LOAD_DIAG (R73, R75). -/
structure LoadArgs where
  space : BitVec 2
  addr : BitVec 36
  qsel : BitVec 1
  rowsM1 : BitVec 9
  fmt : BitVec 2
  rowLen : BitVec 3
  runM1 : BitVec 6
  runStride : BitVec 24
  deriving DecidableEq, Repr

/-- LOAD_META (R76). -/
structure LoadMetaArgs where
  space : BitVec 2
  metaAddr : BitVec 36
  cls : BitVec 1
  trans : BitVec 1
  slot : BitVec 4
  metaStride : BitVec 24
  deriving DecidableEq, Repr

/-- LOAD_W (R77). -/
structure LoadWArgs where
  space : BitVec 2
  addr : BitVec 36
  srcFmt : BitVec 2
  dstFmt : BitVec 2
  mode : BitVec 3
  trans : BitVec 1
  rowStride : BitVec 24
  deriving DecidableEq, Repr

/-- PASS (R81). -/
structure PassArgs where
  form : BitVec 3
  osp : BitVec 1
  start : BitVec 2
  fmt : BitVec 2
  qsel : BitVec 1
  rowsM1 : BitVec 9
  accBase : BitVec 9
  deriving DecidableEq, Repr

/-- DRAIN (R84). -/
structure DrainArgs where
  accBase : BitVec 9
  rowsM1 : BitVec 9
  func : BitVec 6
  outFmt : BitVec 2
  sr : BitVec 1
  gauge : BitVec 1
  gaugeId : BitVec 8
  digest : BitVec 1
  digestSlot : BitVec 12
  tileIndex : BitVec 24
  psel : BitVec 2
  protate : BitVec 1
  src : BitVec 1
  srcAddr : BitVec 12
  deriving DecidableEq, Repr

/-- PARAM (R88). -/
structure ParamArgs where
  space : BitVec 2
  addr : BitVec 36
  deriving DecidableEq, Repr

/-- WRITE (R89). -/
structure WriteArgs where
  space : BitVec 2
  addr : BitVec 36
  rowsM1 : BitVec 9
  runM1 : BitVec 6
  runStride : BitVec 24
  sumsq : BitVec 1
  deriving DecidableEq, Repr

/-- MARK_WAIT (R91). -/
structure MarkWaitArgs where
  mark : BitVec 12
  cmp : BitVec 2
  value : DWord
  deriving DecidableEq, Repr

/-- MARK_SIGNAL (R92). -/
structure MarkSignalArgs where
  mark : BitVec 12
  op : BitVec 1
  value : DWord
  deriving DecidableEq, Repr

/-- MARK_REMOTE (R93). -/
structure MarkRemoteArgs where
  mark : BitVec 12
  role : BitVec 3
  port : BitVec 3
  value : DWord
  deriving DecidableEq, Repr

/-- BURNISH (R144). -/
structure BurnishArgs where
  space : BitVec 2
  descAddr : BitVec 36
  firstBrow : BitVec 20
  browsM1 : BitVec 16
  pace : BitVec 4
  deriving DecidableEq, Repr

/-- TOPB (R164). -/
structure TopbArgs where
  descAddr : BitVec 36
  firstGroup : BitVec 13
  ngM1 : BitVec 13
  deriving DecidableEq, Repr

/-- SETWIN (R166). -/
structure SetwinArgs where
  win : BitVec 4
  arm : BitVec 1
  descAddr : BitVec 36
  deriving DecidableEq, Repr

/-- SAMPLE, in MODE 0 and in MODE 1 (R168). -/
structure SampleArgs where
  descAddr : BitVec 36
  firstRow : BitVec 20
  rowsM1 : BitVec 12
  deriving DecidableEq, Repr

/-- CLEAR (R174). -/
structure ClearArgs where
  space : BitVec 2
  descAddr : BitVec 36
  deriving DecidableEq, Repr

/-- ACCUM (R175). -/
structure AccumArgs where
  space : BitVec 2
  keyAddr : BitVec 36
  vecAddr : BitVec 36
  neM1 : BitVec 13
  record : BitVec 1
  deriving DecidableEq, Repr

/-- GATHER (R177). -/
structure GatherArgs where
  listAddr : BitVec 36
  sliceMaxM1 : BitVec 16
  reserve : BitVec 22
  deriving DecidableEq, Repr

/-- FOLD (R179). -/
structure FoldArgs where
  reserve : BitVec 22
  deriving DecidableEq, Repr

/-- COPY (R207). -/
structure CopyArgs where
  space : BitVec 2
  descAddr : BitVec 36
  firstTile : BitVec 20
  tilesM1 : BitVec 20
  deriving DecidableEq, Repr

/-- UPDATE (R221). -/
structure UpdateArgs where
  descAddr : BitVec 36
  first : BitVec 32
  chunksM1 : BitVec 16
  pace : BitVec 4
  deriving DecidableEq, Repr

/-- NORM (R228). -/
structure NormArgs where
  mode : BitVec 1
  scope : BitVec 1
  deriving DecidableEq, Repr

/-- SEND (R268). -/
structure SendArgs where
  srcAddr : BitVec 36
  wordsM1 : BitVec 24
  destRole : BitVec 3
  conv : BitVec 1
  seg : BitVec 6
  firstCh : BitVec 6
  widthM1 : BitVec 6
  deriving DecidableEq, Repr

/-- RECV (R270). -/
structure RecvArgs where
  dstAddr : BitVec 36
  wordsM1 : BitVec 24
  op : BitVec 1
  firstCh : BitVec 6
  widthM1 : BitVec 6
  reserve : BitVec 17
  deriving DecidableEq, Repr

/-- FXEXP (R272): bits [82:74] hold CONTRIB_M1 in place of DST_ADDR. -/
structure FxexpArgs where
  srcAddr : BitVec 36
  contribM1 : BitVec 9
  seg : BitVec 6
  lenM1 : BitVec 12
  deriving DecidableEq, Repr

/-- FXSET, FXADD and FXOUT (R272). -/
structure FxArgs where
  srcAddr : BitVec 36
  dstAddr : BitVec 36
  seg : BitVec 6
  lenM1 : BitVec 12
  deriving DecidableEq, Repr

/-! ### What lands on a link -/

/-- The header of a flit (R257). -/
structure FlitHeader where
  destRole : BitVec 3
  epoch : BitVec 16
  kind : BitVec 2
  seq : BitVec 12
  srcRole : BitVec 3
  ctype : BitVec 8
  poison : BitVec 1
  deriving DecidableEq, Repr

/-- A stroke-close message (R266, type 1). -/
structure CloseMsg where
  dataFlits : BitVec 32
  ctrlFlits : BitVec 32
  stroke : DWord
  deriving DecidableEq, Repr

/-- A stop notice (R266, type 4). -/
structure StopMsg where
  code : BitVec 16
  role : BitVec 8
  step : DWord
  stroke : DWord
  deriving DecidableEq, Repr

/-- A norm-total message (R266, type 5): `mode` and `aligned` are bits 0 and 1 of byte 249; `total`
is bytes 0–3 in MODE 0; `expMax` bytes 0–1 in MODE 1; `slots` the ten aligned partials, each a
16-byte slot of R271 read as a 128-bit number. -/
structure NormMsg where
  mode : BitVec 1
  aligned : BitVec 1
  total : Word
  expMax : BitVec 16
  slots : List QWord
  deriving DecidableEq, Repr

/-- A board-time check (R286, type 7). -/
structure CheckMsg where
  txTime : DWord
  echoTx : DWord
  echoRx : DWord
  launchAt : DWord
  baseStep : DWord
  edition : BitVec 32
  roleEpoch : BitVec 16
  slot : BitVec 3
  hasRole : BitVec 1
  role : BitVec 3
  groupSize : BitVec 4
  gearReq : BitVec 2
  gearNow : BitVec 2
  runState : BitVec 3
  strokeQuanta : BitVec 10
  deriving DecidableEq, Repr

/-- A role-stale report (R293, type 8). -/
structure StaleMsg where
  staleDestRole : BitVec 3
  staleEpoch : BitVec 16
  staleSrcRole : BitVec 3
  staleKind : BitVec 2
  staleSeq : BitVec 40
  rxSlot : BitVec 3
  rxHasRole : BitVec 1
  rxRole : BitVec 3
  rxEpoch : BitVec 16
  staleCount : BitVec 32
  stroke : DWord
  deriving DecidableEq, Repr

/-- What a peer names of itself at the end of training (R252, R282): its board slot, the role it
holds, if any, and its port. -/
structure PeerId where
  slot : BitVec 3
  role : Option (BitVec 3)
  port : BitVec 4
  deriving DecidableEq, Repr

/-! ### What the sensors and the boot find -/

/-- The kinds of sensors (R407). Junction sensor n of plate p, HBM stack, bed-die sensor, rail. -/
inductive SensorId where
  | junction (plate : Fin 2) (n : Fin 26)
  | stack (n : Fin 10)
  | bed (n : Fin 2)
  | rail (n : Fin 9)
  | droop (n : Fin 64)
  deriving DecidableEq, Repr

/-- What one sample of a sensor reads. Temperatures are in units of 0.25 °C (R411), rail voltages
in mV and currents in mA, droop in events since the last sample. -/
structure SensorReading where
  value : Int
  current : Nat
  selfTestOk : Bool
  deriving DecidableEq, Repr

/-- What the boot finds in the physical device (R459, R414, R484, R498): the strap of BOARD_SLOT,
per plate whether its PLL locks, its self-test passes and its five stacks train, whether the Seam
trains, and the 1 ms average of each core rail in mV (R484). -/
structure BootFacts where
  boardSlot : BitVec 3
  plateEOk : Bool
  plateWOk : Bool
  seamOk : Bool
  vSetE : Nat
  vSetW : Nat
  deriving DecidableEq, Repr

/-- A hardware trip sensor: one of 16, or a stack's report (R501). -/
inductive TripSensor where
  | trip (n : Fin 16)
  | stack (n : Fin 10)
  deriving DecidableEq, Repr

/-- The value that one physical engine (0–8) reduces its random-operand test to (R443). -/
structure EngineResult where
  cluster : ClusterLoc
  phys : Fin 9
  value : QWord
  deriving DecidableEq, Repr

/-- What a flash write of the log mirror meets (R423, R425, R426): the SRAM entries, by LOG_SEQ,
that read with an uncorrectable error; whether the backup log reads so; whether the flash program
succeeds. -/
structure MirrorFacts where
  sramBad : List Nat
  backupBad : Bool
  programOk : Bool
  deriving DecidableEq, Repr

/-- How a key-store update ends (R390, R392): completed; read-back mismatch in step 3; or power
failing in a step, with what became of a program of step 5. -/
inductive CommitOutcome where
  | done
  | readBackMismatch
  | powerFail (step : Fin 7) (programEnded : Bool)
  deriving DecidableEq, Repr

/-! ### Requests of the host, the tenant and the management network -/

/-- The two channels on which the device answers SPDM: the DOE mailbox (R375) and MCTP (R416). -/
inductive Chan where
  | doe
  | mctp
  deriving DecidableEq, Repr

/-- What a NEGOTIATE_ALGORITHMS offers, one flag per selection of R376. -/
structure AlgOffer where
  ecdsaP384 : Bool
  baseSha384 : Bool
  measSha384 : Bool
  secp384r1 : Bool
  aes256gcm : Bool
  spdmSchedule : Bool
  dmtf : Bool
  deriving DecidableEq, Repr

/-- A selective IDE stream as its registers are set when it goes over to a key set: the BARs that its address-association
block covers, and whether PCRC and the TEE-limited option are on (R379). -/
structure IdeStream where
  bar0 : Bool
  bar2 : Bool
  pcrc : Bool
  teeLimited : Bool
  deriving DecidableEq, Repr

/-- A VENDOR_DEFINED_REQUEST of a tenant command: the session that carries it, its vendor ID, the OPCODE, the reserved
bits, PAYLOAD_LEN and the TAG of its header, and the bytes that follow (R382). The OPCODE is that of the command, or one
that R383 does not list. -/
structure TenantReq where
  session : BitVec 32
  vendor : BitVec 16
  opcode : BitVec 8
  rsvd : BitVec 8
  payloadLen : BitVec 16
  tag : BitVec 32
  payload : List Byte
  deriving DecidableEq, Repr

/-- A management request: its path and the session it comes in, if any (R417, R420). -/
structure MgmtReq where
  pcie : Bool
  session : Option (BitVec 32)
  deriving DecidableEq, Repr

/-- A telemetry request: its path, its requester's outstanding requests before it (R419, R420). -/
structure TelemetryReq where
  pcie : Bool
  outstanding : BitVec 8
  deriving DecidableEq, Repr

/-- One IDE key place: stream 0–1, key set K0 or K1, receive or transmit, sub-stream (R379). -/
structure IdeKeyLoc where
  stream : BitVec 8
  keySet : BitVec 1
  rxTx : BitVec 1
  subStream : BitVec 4
  deriving DecidableEq, Repr

/-- One access of the host through BAR2 or a window: a read of `len` bytes, or a write. -/
inductive HostAccess where
  | read (len : Nat)
  | write (data : List Byte)
  deriving DecidableEq, Repr

/-- How a ring copy ends: all of its data is served, or an access made for it ends in a PCIe error at a bus address
when that many 64-byte words have been moved (R327). -/
inductive CopyEnd where
  | served
  | busError (addr : DWord) (moved : BitVec 26)
  deriving DecidableEq, Repr

/-- A ring copy that is stopped at its next 4 KiB boundary, after that many 4 KiB blocks of it (R341, R342). -/
structure CopyStop where
  ring : BitVec 12
  blocks : BitVec 20
  deriving DecidableEq, Repr

/-! ### The commands -/

/-- The commands of the block, in the order of the opcode table. -/
inductive Instr where
  -- Fetch
  | loadA (e : EngineLoc) (i : Issue) (a : LoadArgs)
  | loadW (e : EngineLoc) (i : Issue) (a : LoadWArgs)
  | loadMeta (e : EngineLoc) (i : Issue) (a : LoadMetaArgs)
  | loadS (e : EngineLoc) (i : Issue) (a : LoadArgs)
  | loadDiag (e : EngineLoc) (i : Issue) (a : LoadArgs)
  -- Etch
  | pass (e : EngineLoc) (i : Issue) (a : PassArgs)
  | swap (e : EngineLoc) (i : Issue)
  -- Finish and Store
  | drain (e : EngineLoc) (i : Issue) (a : DrainArgs)
  | param (e : EngineLoc) (i : Issue) (a : ParamArgs)
  | write (e : EngineLoc) (i : Issue) (a : WriteArgs)
  -- marks
  | markWait (st : StationRef) (i : Issue) (a : MarkWaitArgs)
  | markSignal (st : StationRef) (i : Issue) (a : MarkSignalArgs)
  | markRemote (st : StationRef) (i : Issue) (a : MarkRemoteArgs)
  -- cluster and plate stations
  | burnish (c : ClusterLoc) (i : Issue) (a : BurnishArgs)
  | topb (x : SelectorLoc) (i : Issue) (a : TopbArgs)
  | setwin (x : SelectorLoc) (i : Issue) (a : SetwinArgs)
  | sample (x : SelectorLoc) (i : Issue) (a : SampleArgs)
  | fill (x : SelectorLoc) (i : Issue) (a : SampleArgs)
  | clear (c : ClusterLoc) (i : Issue) (a : ClearArgs)
  | accum (c : ClusterLoc) (i : Issue) (a : AccumArgs)
  | gather (c : ClusterLoc) (i : Issue) (a : GatherArgs)
  | stippleInsert (c : ClusterLoc)
  | fold (c : ClusterLoc) (i : Issue) (a : FoldArgs)
  | copy (c : ClusterLoc) (i : Issue) (a : CopyArgs)
  | update (u : UnitLoc) (i : Issue) (a : UpdateArgs)
  | norm (u : UnitLoc) (i : Issue) (a : NormArgs)
  -- relays
  | send (r : RelayLoc) (i : Issue) (a : SendArgs)
  | recv (r : RelayLoc) (i : Issue) (a : RecvArgs)
  | fxexp (r : RelayLoc) (i : Issue) (a : FxexpArgs)
  | fxset (r : RelayLoc) (i : Issue) (a : FxArgs)
  | fxadd (r : RelayLoc) (i : Issue) (a : FxArgs)
  | fxout (r : RelayLoc) (i : Issue) (a : FxArgs)
  -- the step sequencer
  | strokeStart
  | strokeTail (seedReadFails : Bool)
  | stepBegin
  | gateAlarm
  | closingRefresh
  | refreshSlot (stack : Fin 10) (k : BitVec 12)
  -- links
  | strokeCloseSend
  | strokeClose (l : LinkRef) (h : FlitHeader) (m : CloseMsg)
  | dataFlit (l : LinkRef) (h : FlitHeader) (payload : List Byte)
  | frame (l : LinkRef) (n : DWord) (symbols : List (BitVec 10))
  | replaySend (l : LinkRef)
  | replayTimeout (l : LinkRef) (control : Bool) (number : Nat)
  | gateNotice (port : Fin 16) (h : FlitHeader) (step ready : DWord)
  | stopNotice (port : Fin 16) (h : FlitHeader) (m : StopMsg)
  | remoteMark (port : Fin 16) (h : FlitHeader) (mark : BitVec 16) (value : DWord)
  | normTotal (port : Fin 16) (h : FlitHeader) (m : NormMsg)
  | exponentMaxima (port : Fin 16) (h : FlitHeader) (maxima : List (BitVec 16))
  | roleStaleReport (port : Fin 16) (h : FlitHeader) (m : StaleMsg)
  | boardTimeCheckSend (port : Fin 16)
  | boardTimeCheck (port : Fin 16) (h : FlitHeader) (m : CheckMsg) (landing16 : Nat)
  | laneLossOfLock (port : Fin 16) (lane : Fin 8)
  | laneSwap (port : Fin 16) (receive : Bool) (lane : Fin 8)
  | spareLaneRestore (port : Fin 16) (receive : Bool)
  | laneWindow (port : Fin 16) (corrected : List Nat) (prbsErrors : Nat)
  | portEnable (port : Fin 16)
  | portDisable (port : Fin 16)
  | portTrained (port : Fin 16) (peer : PeerId)
  | portTrainingTimeout (port : Fin 16)
  | portDrainEnd (port : Fin 16)
  | seamLossOfLock (plate : Fin 2) (channel : Fin 48)
  | seamRetrained
  | seamRetrainTimeout
  -- launch, abort and roles
  | launchAt (value : DWord)
  | launchCheck (seedReadFails : Bool)
  | launch
  | abort
  | abortComplete (stops : List CopyStop)
  | faultClear
  | counterClear
  | roleCommit
  | syncFire
  | syncIn
  | remoteSignal (mark : BitVec 12) (role : BitVec 3)
  | remoteSignalSend
  -- loading
  | loadTrigger
  | loadCheck (deliveryMet : Bool)
  -- rings and records
  | ringContextWrite (ring : BitVec 12) (word : Fin 8) (value : DWord)
  | ringEnable (ring : BitVec 12)
  | ringDisable (ring : BitVec 12)
  | ringDrainEnd (ring : BitVec 12) (blocks : BitVec 20) (busError : Option DWord)
  | doorbell (ring : BitVec 12) (value : DWord)
  | inCopyDone (ring : BitVec 12) (at_ : DWord) (end_ : CopyEnd)
  | outDescriptor (ring : BitVec 12) (end_ : CopyEnd)
  | recordWrite (busError : Option DWord)
  | recordsLost (ring : BitVec 12)
  | coalesceTimeout (ring : BitVec 12)
  -- marks and watches of the host
  | markWrite (mark : BitVec 12) (value : DWord)
  | markAdd (mark : BitVec 12) (value : DWord)
  | watchArm (watch : BitVec 8) (value : DWord)
  | watchDisarm (watch : BitVec 8) (value : DWord)
  -- power gates
  | clusterEnable (c : ClusterLoc)
  | clusterDisable (c : ClusterLoc)
  | clusterDrainEnd (c : ClusterLoc)
  | clusterPowered (c : ClusterLoc)
  -- debug
  | debugEn (value : DWord)
  | capArmed (value : DWord)
  | capDisarm (value : DWord)
  | debugRefusalReport
  | storeWindowAccess (offset : BitVec 16) (access : HostAccess)
  | winBase (value : DWord)
  -- host memory access and registers
  | bar2Access (offset : BitVec 36) (access : HostAccess)
  | bar2Aperture (value : DWord)
  | namedRings (value : DWord)
  | gearFloor (value : DWord)
  | generatorCounterWrite (index : Fin 2320) (value : DWord)
  | gaugeSettingWrite (index : BitVec 8) (value : DWord)
  | refusedClear (value : DWord)
  | registerWrite (offset : BitVec 26) (bytes : Nat) (value : DWord)
  | flr
  -- reset, boot, power and clocks
  | perstNAssert
  | boot (facts : BootFacts)
  | bootReady
  | watchdogExpiry
  | pgoodDeassert (group : Fin 6)
  | pwrFailNAssert
  | pwrFailNDeassert
  | refclkLoss
  | thermalTrip (sensor : TripSensor)
  | scrubComplete
  -- grain source and checks
  | seedReady (samples : List Byte)
  | grainHealthFailure
  | grainRestart (samples : List Byte)
  | checkStroke (results : List EngineResult)
  -- management subsystem
  | sensorSample (sensor : SensorId) (reading : SensorReading)
  | gearPolicyTick
  | telemetryWindow
  | logMirror (facts : MirrorFacts)
  | sensorRead (r : TelemetryReq) (sensor : SensorId)
  | getStatus (r : TelemetryReq)
  | logRead (r : MgmtReq) (seq : DWord)
  | setPowerCap (r : MgmtReq) (watts : BitVec 16)
  | editionRevert (r : MgmtReq)
  | cperAck (r : MgmtReq) (recordId : DWord)
  -- firmware update
  | queryDeviceIdentifiers (r : MgmtReq)
  | getFirmwareParameters (r : MgmtReq)
  | requestUpdate (r : MgmtReq) (components : BitVec 16)
  | passComponentTable (r : MgmtReq) (classification identifier : BitVec 16)
  | updateComponent (r : MgmtReq) (classification identifier : BitVec 16) (size : BitVec 32)
  | firmwareData (offset : BitVec 32) (block : List Byte) (programOk : Bool)
  | transferComplete (r : MgmtReq)
  | verifyComplete (r : MgmtReq)
  | applyComplete (r : MgmtReq)
  | activateFirmware (r : MgmtReq)
  | pldmGetStatus (r : MgmtReq)
  | cancelUpdateComponent (r : MgmtReq)
  | cancelUpdate (r : MgmtReq)
  -- SPDM
  | doeDiscovery (index : BitVec 8)
  | getVersion (c : Chan)
  | getCapabilities (c : Chan)
  | negotiateAlgorithms (c : Chan) (offer : AlgOffer)
  | getDigests (c : Chan) (session : Option (BitVec 32))
  | getCertificate (c : Chan) (session : Option (BitVec 32)) (slot : BitVec 8) (offset length : BitVec 16)
  | challenge (c : Chan) (slot : BitVec 8) (nonce : BitVec 256)
  | getMeasurements (c : Chan) (session : Option (BitVec 32)) (index : BitVec 8) (sign : Bool) (nonce : BitVec 256)
  | keyExchange (c : Chan) (exportSecret : BitVec 384)
  | finishSession (c : Chan) (session : BitVec 32) (macOk : Bool) (root : Option (BitVec 384))
      (transcript : BitVec 384)
  | heartbeat (c : Chan) (session : BitVec 32)
  | keyUpdate (c : Chan) (session : BitVec 32)
  | endSession (c : Chan) (session : BitVec 32)
  | sessionTimeout (c : Chan) (session : BitVec 32)
  -- tenant commands
  | tenantBegin (r : TenantReq)
  | tenantEnd (r : TenantReq)
  | rekey (r : TenantReq)
  | policySet (r : TenantReq)
  | importBegin (r : TenantReq)
  | importSegment (busError : Bool)
  | status (r : TenantReq)
  | bind (r : TenantReq)
  | tenantResponse
  | keyStoreCommit (outcome : CommitOutcome)
  -- IDE and TDISP
  | query (session : BitVec 32)
  | keyProg (session : BitVec 32) (loc : IdeKeyLoc) (key : BitVec 256)
  | kSetGo (session : BitVec 32) (loc : IdeKeyLoc) (stream : IdeStream)
  | kSetStop (session : BitVec 32) (loc : IdeKeyLoc)
  | getTdispVersion (session : BitVec 32)
  | getTdispCapabilities (session : BitVec 32)
  | lockInterfaceRequest (session : BitVec 32)
  | getDeviceInterfaceReport (session : BitVec 32)
  | getDeviceInterfaceState (session : BitVec 32)
  | startInterfaceRequest (session : BitVec 32)
  | stopInterfaceRequest (session : BitVec 32)
  -- JTAG
  | bypass
  | idcode
  | samplePreload (cells : List Bool)
  | extest
  | clamp
  | highz
  -- clocks, supplies and bus addresses
  | pllLockTimeout (plate : Fin 2)
  | sequencingViolation (groups : BitVec 6)
  | endpointIdAssignment (eid : BitVec 8)
  | dynamicAddressAssignment (address : BitVec 7)
  deriving DecidableEq, Repr

end Sys2Proof
end

