-- ==== Sys2Proof/Config.lean ====
section
/-! DEFINITION. The free values of the model: constants with no body, so that nothing in Lean can
evaluate them or prove a value of them. Each stands for a value that the spec leaves open. -/

namespace Sys2Proof

/-- The distance of the algorithm's GELU, SILU, EXP and RECIP of an argument from the correctly rounded value, plus 2, in
units in the last place (R87: at most 2). Log entry 3. -/
opaque Config.geluError : Word → Fin 5
opaque Config.siluError : Word → Fin 5
opaque Config.expError : Word → Fin 5
opaque Config.recipError : Word → Fin 5

/-- The distance of the normal pair of R316 from its correctly rounded values, plus 4, in units in the last place, for
the 24 bits of u1 and of u2. Log entry 3. -/
opaque Config.normalError : BitVec 24 → BitVec 24 → Fin 9 × Fin 9

/-- The signature of the identity key over a digest (R374, R375). Log entry 8. -/
opaque Config.identitySign : BitVec 384 → BitVec 768

/-- Whether an ECDSA P-384 signature verifies: key digest or key, digest, signature (R430, R464,
R474). Log entry 8. -/
opaque Config.ecdsaVerify : BitVec 768 → BitVec 384 → BitVec 768 → Bool

/-- The Tolusk firmware key, whose digest is in the boot ROM (R464). Log entry 8. -/
opaque Config.firmwareKey : BitVec 768

/-- How a record encodes the condition of R410, R411 or R355 that changed the gear request: HOT, CALM, a critical
temperature, the host's floor. Log entry 23. -/
opaque Config.gearCondition : Fin 4 → BitVec 8

/-- The direction that 0x0305 and 0x0306 name of a port that changes as a whole. Log entry 23. -/
opaque Config.portDirection : BitVec 8

/-- How event 0x0551 encodes its cause: a command, or failed boots. Log entry 23. -/
opaque Config.revokeCause : Bool → BitVec 8

/-- Tolusk's JEP106 code in IDCODE (R497). Log entry 24. -/
opaque Config.jep106 : BitVec 11

/-- What a telemetry answer gives where no window with a sample has closed, and what GET_STATUS gives as the
highest LOG_SEQ of an empty log. Log entry 24. -/
opaque Config.noSample : BitVec 32
opaque Config.noLogSeq : BitVec 64

/-- The nonce of an SPDM answer, by a fresh number: SPDM has it random. Log entry 24. -/
opaque Config.spdmNonce : Nat → BitVec 256

/-- The PCI-SIG vendor ID of the endpoint's configuration header (R382, R417). Log entry 24. -/
opaque Config.pciVendor : BitVec 16

/-- A free value by the things that it may depend on: the rule that leaves it open, then the step, the stroke, the
station and the place. Log entry 4. -/
opaque Config.freeWord : List Nat → Word

/-- The device address under which a record names a word of a cluster's Stipple slots. Log entry 58. -/
opaque Config.slotAddress : Nat → Nat → BitVec 64

/-- A fresh free byte, for the value of a counter held in the state. Log entry 4. -/
opaque Config.freeByte : Nat → Byte

/-- How many refresh commands a controller issues in a slot of a stroke, or in a closing refresh (`true`), by gear and by
band, 2× (`true`) or 1× (R31, R41, R412). Log entry 69. -/
opaque Config.refreshCommands : Bool → BitVec 2 → Bool → Nat

end Sys2Proof
end

