-- ==== Sys2Proof/Machine/Bits.lean ====
section
/-! DEFINITION. Bit fields, byte order and the small numeric helpers of the model. Bit 0 is the
least significant bit and multi-byte values are little-endian (R7). -/

namespace Sys2Proof.Machine

/-- Bits [lo + w − 1 : lo] of a number. -/
def field (x lo w : Nat) : Nat := (x >>> lo) % 2 ^ w

/-- Bit `i` of a number. -/
def bitAt (x i : Nat) : Bool := field x i 1 == 1

/-- 1 for true. -/
def boolNat (b : Bool) : Nat := if b then 1 else 0

/-- The `n` bytes of a number, lowest first (R7). -/
def leBytes : Nat → Nat → List Byte
  | 0, _ => []
  | n + 1, x => BitVec.ofNat 8 x :: leBytes n (x >>> 8)

/-- The number that bytes spell, lowest first (R7). -/
def ofLe : List Byte → Nat
  | [] => 0
  | b :: r => b.toNat + 256 * ofLe r

/-- The bytes of a number, highest first, as the published digests and nonces write them. -/
def beBytes (n x : Nat) : List Byte := (leBytes n x).reverse

/-- The number that bytes spell, highest first. -/
def ofBe (l : List Byte) : Nat := ofLe l.reverse

/-- The signed value of a `w`-bit field. -/
def signed (w x : Nat) : Int :=
  if x % 2 ^ w < 2 ^ (w - 1) then (x % 2 ^ w : Nat) else ((x % 2 ^ w : Nat) : Int) - 2 ^ w

/-- A signed number as a `w`-bit two's complement field. -/
def unsigned (w : Nat) (x : Int) : Nat := (x % (2 ^ w : Nat)).toNat

/-- Ceiling of a quotient. -/
def ceilDiv (a b : Nat) : Nat := (a + b - 1) / b

/-- The least multiple of `m` that is not below `x` (the roundup of R39). -/
def roundUp (x m : Nat) : Nat := ceilDiv x m * m

/-- A list padded at its end to `n` entries. -/
def padTo {α : Type} (n : Nat) (d : α) (l : List α) : List α := l ++ List.replicate (n - l.length) d

/-- A list cut into pieces of `n`, at most `fuel` of them. -/
def chunksFuel {α : Type} : Nat → Nat → List α → List (List α)
  | 0, _, _ => []
  | _ + 1, _, [] => []
  | f + 1, n, l => l.take n :: chunksFuel f n (l.drop n)

/-- A list cut into pieces of `n`; the last may be shorter. -/
def chunks {α : Type} (n : Nat) (l : List α) : List (List α) := chunksFuel (l.length + 1) n l

/-- The 8-byte word that holds a byte address. -/
def wordOf (a : Nat) : Nat := a / 8

/-- Unsigned sum of a list. -/
def sumNat (l : List Nat) : Nat := l.foldl (· + ·) 0

/-- The entry of a list at an index, or a default. -/
def nth {α : Type} (d : α) (l : List α) (i : Nat) : α := (l[i]?).getD d

/-- Replace the entry of a list at an index; a list too short is unchanged. -/
def setNth {α : Type} : List α → Nat → α → List α
  | [], _, _ => []
  | _ :: r, 0, v => v :: r
  | x :: r, i + 1, v => x :: setNth r i v

/-- Whether two half-open ranges share a number. -/
def overlap (a la b lb : Nat) : Bool := decide (a < b + lb) && decide (b < a + la) && decide (0 < la) && decide (0 < lb)

/-- Whether [a, a + la) lies inside [b, b + lb). -/
def inside (a la b lb : Nat) : Bool := decide (b ≤ a) && decide (a + la ≤ b + lb)

end Sys2Proof.Machine
end

