-- ==== Sys2Proof/Machine/Elementary.lean ====
section
/-! DEFINITION. The elementary functions that R85, R311 and R316 name, on fixed-point numbers with 160 fraction bits:
the exact values that the error bounds of R87 and R316 are measured from, to far below a unit in the last place. -/

namespace Sys2Proof.Machine

/-- Fraction bits of a fixed-point number. -/
def fixBits : Nat := 160

/-- 1, ln 2 and π. -/
def fixOne : Nat := 2 ^ 160
def fixLn2 : Nat := 1013035739299659071135698605846798551586536899366
def fixPi : Nat := 4591442807048218921384805199743311128454155024418

/-- Product and quotient. -/
def fixMul (a b : Nat) : Nat := (a * b) >>> fixBits
def fixDiv (a b : Nat) : Nat := (a <<< fixBits) / b

/-- The largest number whose square is at most `n`, by binary digits from `2^k` down. -/
def isqrtFuel : Nat → Nat → Nat → Nat
  | 0, _, acc => acc
  | k + 1, n, acc =>
    let t := acc + 2 ^ k
    isqrtFuel k n (if t * t ≤ n then t else acc)

def isqrt (n : Nat) : Nat := if n = 0 then 0 else isqrtFuel ((Nat.log2 n + 1) / 2 + 1) n 0

def fixSqrt (a : Nat) : Nat := isqrt (a <<< fixBits)

/-- e^r for r below 1: the first 40 terms of its series, by Horner's rule. -/
def fixExpSeries (r : Nat) : Nat :=
  (List.range 40).foldr (fun n acc => fixOne + fixMul r acc / (n + 1)) fixOne

/-- e^x as a mantissa with 160 fraction bits and a power of two: x = k ln 2 + r. -/
def fixExp (x : Int) : Nat × Int :=
  let k := x / (fixLn2 : Int)
  (fixExpSeries (x - k * fixLn2).toNat, k)

/-- ln f for f from 1 to 2: 2 (z + z³/3 + …) with z = (f − 1) / (f + 1). -/
def fixLn (f : Nat) : Nat :=
  let z := fixDiv (f - fixOne) (f + fixOne)
  let q := fixMul z z
  2 * fixMul z ((List.range 56).foldr (fun n acc => fixOne / (2 * n + 1) + fixMul q acc) 0)

/-- sin a and cos a for a from 0 to π/2: the first terms of their series, the alternating sign in the subtraction. -/
def fixSinSeries (a first : Nat) : Nat :=
  let q := fixMul a a
  (List.range 30).foldr (fun n acc => fixOne - fixMul q acc / ((2 * n + first) * (2 * n + first + 1))) fixOne

def fixSin (a : Nat) : Nat := fixMul a (fixSinSeries a 2)
def fixCos (a : Nat) : Nat := fixSinSeries a 1

/-- cos and sin of 2π t / 2²⁴, each as a sign and a magnitude: the quarter turn and the rest. -/
def turnCosSin (t : Nat) : (Bool × Nat) × (Bool × Nat) :=
  let r := t % 2 ^ 22
  let a := (fixPi * r) >>> 23
  let c := fixCos a
  let s := fixSin a
  match (t / 2 ^ 22) % 4 with
  | 0 => ((false, c), (false, s))
  | 1 => ((true, s), (false, c))
  | 2 => ((true, c), (true, s))
  | _ => ((false, s), (true, c))

/-- √(−2 ln (n / 2²⁴)) for n from 1 to 2²⁴ (R316). -/
def normalRadius (n : Nat) : Nat :=
  let k := Nat.log2 n
  let lnN := k * fixLn2 + fixLn (n <<< (fixBits - k))
  fixSqrt (2 * (24 * fixLn2 - lnN))

end Sys2Proof.Machine
end

