-- ==== Sys2Proof/Machine/Fp.lean ====
section
/-! DEFINITION. The number formats and the FP32 arithmetic of the 8320 (R96–R113, R225, R235,
R243–R246). Every operation is computed on exact dyadic values and rounded once, to nearest with
ties to even; subnormals are kept (R97) and every NaN produced is canonical (R98). -/

namespace Sys2Proof.Machine

/-- The formats of R96 that are rounded to or read from. -/
inductive FpFmt where
  | e4m3
  | e5m2
  | bf16
  | fp32
  | e2m1
  deriving DecidableEq, Repr

/-- An exact value: a NaN, an infinity, or ± m × 2^e (m = 0 for a zero of either sign). -/
inductive FVal where
  | nan
  | inf (neg : Bool)
  | fin (neg : Bool) (m : Nat) (e : Int)
  deriving DecidableEq, Repr

/-- Width of the exponent field (R96). -/
def FpFmt.expBits : FpFmt → Nat
  | .e4m3 => 4 | .e5m2 => 5 | .bf16 => 8 | .fp32 => 8 | .e2m1 => 2

/-- Width of the mantissa field (R96). -/
def FpFmt.manBits : FpFmt → Nat
  | .e4m3 => 3 | .e5m2 => 2 | .bf16 => 7 | .fp32 => 23 | .e2m1 => 1

/-- Exponent bias (R96). -/
def FpFmt.bias : FpFmt → Nat
  | .e4m3 => 7 | .e5m2 => 15 | .bf16 => 127 | .fp32 => 127 | .e2m1 => 1

/-- Bytes of one element; an MXFP4 element takes half a byte and is handled apart (R204). -/
def FpFmt.bytes : FpFmt → Nat
  | .e4m3 => 1 | .e5m2 => 1 | .bf16 => 2 | .fp32 => 4 | .e2m1 => 1

/-- Total width without the sign. -/
def FpFmt.magBits (f : FpFmt) : Nat := f.expBits + f.manBits

/-- The magnitude code of the largest finite value (R96). -/
def FpFmt.maxCode : FpFmt → Nat
  | .e4m3 => 0x7E | .e5m2 => 0x7B | .bf16 => 0x7F7F | .fp32 => 0x7F7F_FFFF | .e2m1 => 0x7

/-- The canonical NaN (R98); E2M1 has none. -/
def FpFmt.nanCode : FpFmt → Nat
  | .e4m3 => 0x7F | .e5m2 => 0x7E | .bf16 => 0x7FC0 | .fp32 => 0x7FC0_0000 | .e2m1 => 0

/-- The code of +∞, where the format has one (R96). -/
def FpFmt.infCode? : FpFmt → Option Nat
  | .e4m3 => none | .e5m2 => some 0x7C | .bf16 => some 0x7F80 | .fp32 => some 0x7F80_0000
  | .e2m1 => none

/-- The exact value of a code (R96). -/
def decodeFp (f : FpFmt) (x : Nat) : FVal :=
  let mag := x % 2 ^ f.magBits
  let neg := bitAt x f.magBits
  let ex := mag >>> f.manBits
  let mn := mag % 2 ^ f.manBits
  if f = .e4m3 ∧ mag = 0x7F then .nan
  else if (f = .e5m2 ∨ f = .bf16 ∨ f = .fp32) ∧ ex = 2 ^ f.expBits - 1 then
    (if mn = 0 then .inf neg else .nan)
  else if ex = 0 then .fin neg mn (1 - (f.bias : Int) - f.manBits)
  else .fin neg (mn + 2 ^ f.manBits) ((ex : Int) - f.bias - f.manBits)

/-- The number of bits of a number. -/
def bitLen (m : Nat) : Nat := if m = 0 then 0 else Nat.log2 m + 1

/-- m × 2^e (plus a little, when `sticky`) rounded to the grid of a format, with the exponent
unbounded above and the subnormal grid below (R99, R110): the rounded mantissa and its exponent. -/
def roundMag (f : FpFmt) (m : Nat) (e : Int) (sticky : Bool) : Nat × Int :=
  let p := f.manBits + 1
  let q : Int := max (e + (bitLen m : Int) - p) (1 - (f.bias : Int) - f.manBits)
  if q ≤ e then (m <<< (e - q).toNat, q)
  else
    let d := (q - e).toNat
    let hi := m >>> d
    let rem := m % 2 ^ d
    let half := 2 ^ (d - 1)
    if rem > half ∨ (rem = half ∧ (sticky ∨ hi % 2 = 1)) then (hi + 1, q) else (hi, q)

/-- The magnitude code of m × 2^q, which lies on the grid of the format; codes above `maxCode` stand
for magnitudes above the largest finite value. -/
def magCode (f : FpFmt) (m : Nat) (q : Int) : Nat :=
  if m = 0 then 0
  else
    let l := bitLen m
    let ex : Int := q + l - 1
    if ex < 1 - (f.bias : Int) then m
    else
      let frac := if l ≤ f.manBits + 1 then m <<< (f.manBits + 1 - l) else m >>> (l - (f.manBits + 1))
      ((ex + f.bias).toNat <<< f.manBits) + (frac - 2 ^ f.manBits)

/-- A code with its sign. -/
def withSign (f : FpFmt) (neg : Bool) (mag : Nat) : Nat :=
  mag + boolNat neg * 2 ^ f.magBits

/-- The code of a magnitude above the largest finite value (R110, R103 step 3). -/
def overflowCode (f : FpFmt) : Nat := (f.infCode?).getD f.maxCode

/-- ± m × 2^e rounded to a format, with the overflow of R110. -/
def encodeFin (f : FpFmt) (neg : Bool) (m : Nat) (e : Int) (sticky : Bool) : Nat :=
  let r := roundMag f m e sticky
  let c := magCode f r.1 r.2
  withSign f neg (if c > f.maxCode then overflowCode f else c)

/-- The code of an infinity (R101, R110): the canonical NaN in E4M3. -/
def encodeInf (f : FpFmt) (neg : Bool) : Nat :=
  match f.infCode? with
  | some c => withSign f neg c
  | none => f.nanCode

/-- Round-to-nearest-even to a format (R110). -/
def encodeFp (f : FpFmt) : FVal → Nat
  | .nan => f.nanCode
  | .inf neg => encodeInf f neg
  | .fin neg m e => encodeFin f neg m e false

/-- Whether a value saturates at ±448 when converted to E4M3 (R111). -/
def saturates (f : FpFmt) : FVal → Bool
  | .fin _ m e => f == .e4m3 && decide ((let r := roundMag f m e false; magCode f r.1 r.2) > f.maxCode)
  | _ => false

/-- The exact value of an FP32 word. -/
def fval (w : Word) : FVal := decodeFp .fp32 w.toNat

/-- A value rounded once to FP32 (round_fp32). -/
def round32 (v : FVal) : Word := BitVec.ofNat 32 (encodeFp .fp32 v)

def canonNan : Word := 0x7FC0_0000#32
def posInf : Word := 0x7F80_0000#32
def oneF : Word := 0x3F80_0000#32

/-- The same value with exponent `e'` at most its own. -/
def alignTo (m : Nat) (e e' : Int) : Nat := m <<< (e - e').toNat

/-- An exact sum (R98, R108). -/
def addV : FVal → FVal → FVal
  | .nan, _ => .nan
  | _, .nan => .nan
  | .inf a, .inf b => if a = b then .inf a else .nan
  | .inf a, .fin .. => .inf a
  | .fin .., .inf b => .inf b
  | .fin a m e, .fin b n k =>
    let q := min e k
    let x := alignTo m e q
    let y := alignTo n k q
    if a = b then .fin a (x + y) q
    else if x = y then .fin false 0 q
    else if x > y then .fin a (x - y) q
    else .fin b (y - x) q

/-- An exact product (R98, R99). -/
def mulV : FVal → FVal → FVal
  | .nan, _ => .nan
  | _, .nan => .nan
  | .inf a, .inf b => .inf (a != b)
  | .inf a, .fin b n _ => if n = 0 then .nan else .inf (a != b)
  | .fin a m _, .inf b => if m = 0 then .nan else .inf (a != b)
  | .fin a m e, .fin b n k => .fin (a != b) (m * n) (e + k)

/-- A value times 2^k, exactly. -/
def scaleV (k : Int) : FVal → FVal
  | .fin a m e => .fin a m (e + k)
  | v => v

def negV : FVal → FVal
  | .nan => .nan
  | .inf a => .inf (!a)
  | .fin a m e => .fin (!a) m e

/-- One FP32 addition, rounded once. -/
def fadd (a b : Word) : Word := round32 (addV (fval a) (fval b))
def fsub (a b : Word) : Word := round32 (addV (fval a) (negV (fval b)))
def fmul (a b : Word) : Word := round32 (mulV (fval a) (fval b))

/-- ⌊log₂⌋ of a finite non-zero magnitude. -/
def log2V (m : Nat) (e : Int) : Int := (Nat.log2 m : Int) + e

/-- Division, correctly rounded (R225, R311). -/
def fdiv (a b : Word) : Word :=
  match fval a, fval b with
  | .nan, _ => canonNan
  | _, .nan => canonNan
  | .inf _, .inf _ => canonNan
  | .inf x, .fin y .. => BitVec.ofNat 32 (encodeInf .fp32 (x != y))
  | .fin x .., .inf y => BitVec.ofNat 32 (withSign .fp32 (x != y) 0)
  | .fin x m e, .fin y n k =>
    if n = 0 then (if m = 0 then canonNan else BitVec.ofNat 32 (encodeInf .fp32 (x != y)))
    else if m = 0 then BitVec.ofNat 32 (withSign .fp32 (x != y) 0)
    else
      let num := m <<< 64
      BitVec.ofNat 32 (encodeFin .fp32 (x != y) (num / n) (e - k - 64) (num % n != 0))

/-- Square root, correctly rounded (R225, R230). The root of a negative number is NaN and that of
−0 is −0, as IEEE 754 has it. -/
def fsqrt (a : Word) : Word :=
  match fval a with
  | .nan => canonNan
  | .inf neg => if neg then canonNan else posInf
  | .fin neg m e =>
    if m = 0 then a
    else if neg then canonNan
    else
      let odd := if e % 2 = 0 then (m, e) else (m * 2, e - 1)
      let n := odd.1 <<< 64
      let r := isqrt n
      BitVec.ofNat 32 (encodeFin .fp32 false r (odd.2 / 2 - 32) (r * r != n))

/-- Sign of an exact comparison of two finite values: −1, 0 or 1. -/
def cmpFin (a : Bool) (m : Nat) (e : Int) (b : Bool) (n : Nat) (k : Int) : Int :=
  let q := min e k
  let x : Int := (if a then -1 else 1) * (alignTo m e q : Int)
  let y : Int := (if b then -1 else 1) * (alignTo n k q : Int)
  if x < y then -1 else if x = y then 0 else 1

/-- Whether x > y; infinities compare as values, zeros are equal, a NaN compares false. -/
def gtV : FVal → FVal → Bool
  | .nan, _ => false
  | _, .nan => false
  | .inf a, .inf b => !a && b
  | .inf a, .fin .. => !a
  | .fin .., .inf b => b
  | .fin a m e, .fin b n k => decide (cmpFin a m e b n k > 0)

def fgt (a b : Word) : Bool := gtV (fval a) (fval b)
def isNan (w : Word) : Bool := fval w == .nan
def isFinite (w : Word) : Bool := match fval w with | .fin .. => true | _ => false
def isZero (w : Word) : Bool := match fval w with | .fin _ m _ => m == 0 | _ => false
def fabs (w : Word) : Word := if isNan w then canonNan else w &&& 0x7FFF_FFFF#32
def fge (a b : Word) : Bool := fgt a b || (!isNan a && !isNan b && !fgt b a)

/-- The exact widening of a code of a narrower format to FP32 (R147, R155, R209). -/
def widen (f : FpFmt) (x : Nat) : Word := round32 (decodeFp f x)

/-- The conversion of an FP32 value to an output format by round-to-nearest-even (R110). -/
def convert (f : FpFmt) (w : Word) : Nat :=
  match f with
  | .fp32 => if isNan w then FpFmt.nanCode .fp32 else w.toNat
  | _ => encodeFp f (fval w)

/-- Stochastic rounding (R112): the grid point below |v|, raised when q + r reaches 65,536. -/
def convertSr (f : FpFmt) (w : Word) (r : Nat) : Nat :=
  match fval w with
  | .fin neg m e =>
    let p := f.manBits + 1
    let q : Int := max (e + (bitLen m : Int) - p) (1 - (f.bias : Int) - f.manBits)
    let lo := if q ≤ e then m <<< (e - q).toNat else m >>> (q - e).toNat
    let frac := if q ≤ e then 0 else ((m % 2 ^ (q - e).toNat) <<< 16) >>> (q - e).toNat
    let up := if frac + r ≥ 65536 then lo + 1 else lo
    let c := magCode f up q
    withSign f neg (if c > f.maxCode then overflowCode f else c)
  | v => encodeFp f v

/-- Whether a stochastic rounding to E4M3 saturates (R111). -/
def saturatesSr (f : FpFmt) (w : Word) (r : Nat) : Bool :=
  match fval w with
  | .fin _ m e =>
    let p := f.manBits + 1
    let q : Int := max (e + (bitLen m : Int) - p) (1 - (f.bias : Int) - f.manBits)
    let lo := if q ≤ e then m <<< (e - q).toNat else m >>> (q - e).toNat
    let frac := if q ≤ e then 0 else ((m % 2 ^ (q - e).toNat) <<< 16) >>> (q - e).toNat
    let up := if frac + r ≥ 65536 then lo + 1 else lo
    f == .e4m3 && decide (magCode f up q > f.maxCode)
  | _ => false

/-- Row descaling and the PRELOAD scaling (R105, R109): RNE_FP32(v × 2^k). -/
def fscale (w : Word) (k : Int) : Word := round32 (scaleV k (fval w))

/-! ### The functions of Finish (R85, R87, R108) -/

/-- `w` moved by a number of units in the last place of FP32, for a finite value; its sign stays. -/
def ulpShift (w : Word) (d : Int) : Word :=
  BitVec.ofNat 32 (withSign .fp32 (bitAt w.toNat 31) ((w.toNat % 2 ^ 31 : Nat) + d).toNat)

/-- What the fixed algorithm of R87 gives for a value rounded once: a zero and an infinity stay, and a finite value may
differ by at most 2 units. Log entry 3. -/
def within2 (err : Fin 5) (w : Word) : Word :=
  if isFinite w && !isZero w then ulpShift w ((err.val : Int) - 2) else w

/-- ± m × 2^e as a fixed-point number, rounded down. -/
def fixOf (neg : Bool) (m : Nat) (e : Int) : Int :=
  let x : Int := if neg then -(m : Int) else m
  let k := e + fixBits
  if 0 ≤ k then x * 2 ^ k.toNat else x / 2 ^ (-k).toNat

/-- Beyond these magnitudes an exponential's value in FP32 no longer changes. -/
def fixFar (m : Nat) (e : Int) : Bool := m != 0 && decide (log2V m e ≥ 9)

/-- EXP (R85, R87, R108). -/
def fexp (v : Word) : Word :=
  match fval v with
  | .nan => canonNan
  | .inf neg => if neg then 0#32 else posInf
  | .fin neg m e =>
    let r := fixExp (if fixFar m e then (if neg then -(2 ^ 169) else 2 ^ 169) else fixOf neg m e)
    within2 (Config.expError v) (BitVec.ofNat 32 (encodeFin .fp32 false r.1 (r.2 - fixBits) true))

/-- RECIP (R85, R87, R108). -/
def frecip (v : Word) : Word :=
  match fval v with
  | .nan => canonNan
  | .inf neg => BitVec.ofNat 32 (withSign .fp32 neg 0)
  | .fin .. => within2 (Config.recipError v) (fdiv oneF v)

/-- v / (1 + e^(−x)) for v = ± m × 2^e and a fixed-point x of the same sign, rounded once: for x below 0 it is
v e^x / (1 + e^x). -/
def logistic (neg : Bool) (m : Nat) (e : Int) (x : Int) : Word :=
  let r := fixExp (-(x.natAbs : Int))
  let small := if r.2 < -1000 then 0 else r.1 >>> (-r.2).toNat
  let num := if neg then m * r.1 else m <<< fixBits
  let q := (num <<< (2 * fixBits)) / (fixOne + small)
  BitVec.ofNat 32 (encodeFin .fp32 neg q (e - 2 * fixBits + (if neg then r.2 else 0)) (m != 0))

/-- GELU (R85, R87, R108): 0.5 v (1 + tanh u) is v / (1 + e^(−2u)). -/
def fgelu (v : Word) : Word :=
  match fval v with
  | .nan => canonNan
  | .inf neg => if neg then 0x8000_0000#32 else posInf
  | .fin neg m e =>
    let x := if fixFar m e then (if neg then -(2 ^ 171) else 2 ^ 171) else
      let f := fixOf neg m e
      let cube := f * f * f / 2 ^ (2 * fixBits)
      2 * 79788456 * (1000 * f + cube * 44715 / 1000) / (100000000 * 1000)
    within2 (Config.geluError v) (logistic neg m e x)

/-- SILU (R85, R87, R108). -/
def fsilu (v : Word) : Word :=
  match fval v with
  | .nan => canonNan
  | .inf neg => if neg then 0x8000_0000#32 else posInf
  | .fin neg m e =>
    let x := if fixFar m e then (if neg then -(2 ^ 169) else 2 ^ 169) else fixOf neg m e
    within2 (Config.siluError v) (logistic neg m e x)

/-- One value of the normal pair (R316): within 4 units of the exact one, its magnitude at most √(−2 ln 2⁻²⁴). -/
def normalValue (err : Fin 9) (radius : Nat) (c : Bool × Nat) : Word :=
  let w := BitVec.ofNat 32 (encodeFin .fp32 c.1 (radius * c.2) (-(2 * fixBits : Nat)) false)
  let r := ulpShift w ((err.val : Int) - 4)
  if r.toNat % 2 ^ 31 > 0x40B8_9455 then BitVec.ofNat 32 (withSign .fp32 c.1 0x40B8_9455) else r

/-- The normal pair of R316 for the words w_a and w_b: ρ cos(2π u2) and ρ sin(2π u2). -/
def normalPair (wa wb : Word) : Word × Word :=
  let a := BitVec.ofNat 24 (wa.toNat >>> 8)
  let b := BitVec.ofNat 24 (wb.toNat >>> 8)
  let radius := normalRadius (a.toNat + 1)
  let t := turnCosSin b.toNat
  let err := Config.normalError a b
  (normalValue err.1 radius t.1, normalValue err.2 radius t.2)

/-- RELU: v if v > 0, else +0; NaN stays NaN. -/
def frelu (v : Word) : Word := if isNan v then canonNan else if fgt v 0#32 then v else 0#32

/-- MAX_P: NaN if either is NaN; +0 when the zeros differ, −0 only when both are −0. -/
def fmaxP (a b : Word) : Word :=
  if isNan a || isNan b then canonNan
  else if isZero a && isZero b then a &&& b
  else if fgt a b then a else b

/-- The value of COPY: the FP32 value, with a NaN canonical (R98). -/
def fcopy (v : Word) : Word := if isNan v then canonNan else v

/-- The functions of R85; `none` for a FUNC that the load check refuses. R108 follows IEEE 754 and yet has a function
return NaN for a NaN argument alone: a product of zero and an infinity, and a sum of opposite infinities, are NaN here.
DESIGN CHOICE, log entry 74. -/
def finishFunc (func : Nat) (v p : Word) : Option Word :=
  match func with
  | 0 => some (fcopy v)
  | 1 => some (fadd v p)
  | 2 => some (fmul v p)
  | 3 => some (frelu v)
  | 4 => some (frelu (fadd v p))
  | 5 => some (fgelu v)
  | 6 => some (fgelu (fadd v p))
  | 7 => some (fsilu v)
  | 8 => some (fsilu (fadd v p))
  | 9 => some (fexp v)
  | 10 => some (frecip v)
  | 11 => some (fmul v v)
  | 12 => some (fmaxP v p)
  | _ => none

/-! ### Format codes -/

/-- The operand and plane formats of R72; code 3, MXFP4, is read as its element format. -/
def operandFmt (code : Nat) : FpFmt :=
  match code with | 0 => .e4m3 | 1 => .e5m2 | 2 => .bf16 | _ => .e2m1

/-- The output formats of DRAIN (R84). -/
def outFmt (code : Nat) : FpFmt :=
  match code with | 0 => .e4m3 | 1 => .e5m2 | 2 => .bf16 | _ => .fp32

/-- The elements of a row of bytes, as codes. MXFP4 packs two to a byte, the even one low (R204). -/
def rowCodes (f : FpFmt) : List Byte → List Nat :=
  match f with
  | .e2m1 => fun l => l.flatMap fun b => [b.toNat % 16, b.toNat / 16]
  | .e4m3 => fun l => l.map (·.toNat)
  | .e5m2 => fun l => l.map (·.toNat)
  | .bf16 => fun l => (chunks 2 l).map ofLe
  | .fp32 => fun l => (chunks 4 l).map ofLe

/-- A row of bytes as FP32 words. -/
def rowWords (l : List Byte) : List Word := (chunks 4 l).map fun c => BitVec.ofNat 32 (ofLe c)

/-- FP32 words as bytes. -/
def wordsBytes (l : List Word) : List Byte := l.flatMap fun w => leBytes 4 w.toNat

/-! ### Fixed-point reduction (R243–R246, R271) -/

/-- The exponent of a finite non-zero FP32 value; `none` otherwise (R243). -/
def expOf (w : Word) : Option Int :=
  match fval w with
  | .fin _ m e => if m = 0 then none else some (log2V m e)
  | _ => none

/-- The larger of two optional exponents. -/
def maxExp : Option Int → Option Int → Option Int
  | none, b => b
  | a, none => a
  | some a, some b => some (max a b)

/-- The largest exponent of a list of values (R243). -/
def maxExps (l : List Word) : Option Int := l.foldl (fun a w => maxExp a (expOf w)) none

/-- X of R244, as a 96-bit two's complement number. -/
def alignX (segE : Int) (w : Word) : Nat :=
  match fval w with
  | .fin neg m e =>
    let k := e + 86 - segE
    let mag := if 0 ≤ k then m <<< k.toNat else m >>> (-k).toNat
    if neg then unsigned 96 (-(mag : Int)) else mag % 2 ^ 96
  | _ => 0

/-- The flags that a special value sets in byte 12 of a slot: +∞, −∞, NaN (R271). -/
def specialFlag (w : Word) : Nat :=
  match fval w with
  | .nan => 4
  | .inf neg => if neg then 2 else 1
  | .fin .. => 0

/-- A 16-byte slot with a value added: integers modulo 2⁹⁶, flags joined (R271, R272). -/
def slotAdd (slot x flags : Nat) : Nat :=
  (slot % 2 ^ 96 + x) % 2 ^ 96 + ((slot >>> 96) ||| flags) <<< 96

/-- The 96-bit pattern of an aligned value on the link (R271). -/
def linkPattern (segE : Int) (w : Word) : Nat :=
  match specialFlag w with
  | 4 => 2 ^ 95
  | 1 => 2 ^ 95 - 1
  | 2 => 2 ^ 95 + 1
  | _ => alignX segE w

/-- A landed 96-bit pattern added to a slot (R271). -/
def slotAddPattern (slot x : Nat) : Nat :=
  if x = 2 ^ 95 then slotAdd slot 0 4
  else if x = 2 ^ 95 - 1 then slotAdd slot 0 1
  else if x = 2 ^ 95 + 1 then slotAdd slot 0 2
  else slotAdd slot x 0

/-- The result of a slot: R246 when flags are set, else R245. -/
def slotResult (segE : Int) (slot : Nat) : Word :=
  let flags := (slot >>> 96) % 8
  if flags ≥ 4 ∨ flags = 3 then canonNan
  else if flags = 1 then posInf
  else if flags = 2 then 0xFF80_0000#32
  else
    let s := signed 96 slot
    if s = 0 then 0#32 else round32 (.fin (decide (s < 0)) s.natAbs (segE - 86))

end Sys2Proof.Machine
end

