-- ==== Sys2Proof/Machine/Crypto.lean ====
section
/-! DEFINITION. The published algorithms that the spec names: SHA-384 and HKDF (R47, R300, R381,
R513), AES and the GCM multiplication (R397, R446), AES-XTS with ciphertext stealing (R393–R395),
AES-256-GCM (R396), Philox4x32-10 (R303), the CRCs of R421 and R466. PRESUMED: their texts are
published standards and stand outside the spec; log entry 9. -/

namespace Sys2Proof.Machine

/-! ### SHA-384 -/

def rotr64 (x n : Nat) : Nat := ((x >>> n) ||| (x <<< (64 - n))) % 2 ^ 64

def shaK0 : List Nat :=
  [
   0x428A2F98D728AE22, 0x7137449123EF65CD, 0xB5C0FBCFEC4D3B2F, 0xE9B5DBA58189DBBC,
   0x3956C25BF348B538, 0x59F111F1B605D019, 0x923F82A4AF194F9B, 0xAB1C5ED5DA6D8118,
   0xD807AA98A3030242, 0x12835B0145706FBE, 0x243185BE4EE4B28C, 0x550C7DC3D5FFB4E2,
   0x72BE5D74F27B896F, 0x80DEB1FE3B1696B1, 0x9BDC06A725C71235, 0xC19BF174CF692694,
   0xE49B69C19EF14AD2, 0xEFBE4786384F25E3, 0x0FC19DC68B8CD5B5, 0x240CA1CC77AC9C65]

def shaK1 : List Nat :=
  [
   0x2DE92C6F592B0275, 0x4A7484AA6EA6E483, 0x5CB0A9DCBD41FBD4, 0x76F988DA831153B5,
   0x983E5152EE66DFAB, 0xA831C66D2DB43210, 0xB00327C898FB213F, 0xBF597FC7BEEF0EE4,
   0xC6E00BF33DA88FC2, 0xD5A79147930AA725, 0x06CA6351E003826F, 0x142929670A0E6E70,
   0x27B70A8546D22FFC, 0x2E1B21385C26C926, 0x4D2C6DFC5AC42AED, 0x53380D139D95B3DF,
   0x650A73548BAF63DE, 0x766A0ABB3C77B2A8, 0x81C2C92E47EDAEE6, 0x92722C851482353B]

def shaK2 : List Nat :=
  [
   0xA2BFE8A14CF10364, 0xA81A664BBC423001, 0xC24B8B70D0F89791, 0xC76C51A30654BE30,
   0xD192E819D6EF5218, 0xD69906245565A910, 0xF40E35855771202A, 0x106AA07032BBD1B8,
   0x19A4C116B8D2D0C8, 0x1E376C085141AB53, 0x2748774CDF8EEB99, 0x34B0BCB5E19B48A8,
   0x391C0CB3C5C95A63, 0x4ED8AA4AE3418ACB, 0x5B9CCA4F7763E373, 0x682E6FF3D6B2B8A3,
   0x748F82EE5DEFB2FC, 0x78A5636F43172F60, 0x84C87814A1F0AB72, 0x8CC702081A6439EC]

def shaK3 : List Nat :=
  [
   0x90BEFFFA23631E28, 0xA4506CEBDE82BDE9, 0xBEF9A3F7B2C67915, 0xC67178F2E372532B,
   0xCA273ECEEA26619C, 0xD186B8C721C0C207, 0xEADA7DD6CDE0EB1E, 0xF57D4F7FEE6ED178,
   0x06F067AA72176FBA, 0x0A637DC5A2C898A6, 0x113F9804BEF90DAE, 0x1B710B35131C471B,
   0x28DB77F523047D84, 0x32CAAB7B40C72493, 0x3C9EBE0A15C9BEBC, 0x431D67C49C100D4C,
   0x4CC5D4BECB3E42B6, 0x597F299CFC657E2A, 0x5FCB6FAB3AD6FAEC, 0x6C44198C4A475817]

def shaK : List Nat := shaK0 ++ shaK1 ++ shaK2 ++ shaK3

def sha384Init : List Nat :=
  [
   0xCBBB9D5DC1059ED8, 0x629A292A367CD507, 0x9159015A3070DD17, 0x152FECD8F70E5939,
   0x67332667FFC00B31, 0x8EB44A8768581511, 0xDB0C2E0D64F98FA7, 0x47B5481DBEFA4FA4]

/-- The message schedule, newest word first. -/
def shaSchedule : Nat → List Nat → List Nat
  | 0, w => w
  | n + 1, w =>
    let x15 := nth 0 w 14
    let x2 := nth 0 w 1
    let s0 := (rotr64 x15 1) ^^^ (rotr64 x15 8) ^^^ (x15 >>> 7)
    let s1 := (rotr64 x2 19) ^^^ (rotr64 x2 61) ^^^ (x2 >>> 6)
    shaSchedule n (((nth 0 w 15 + s0 + nth 0 w 6 + s1) % 2 ^ 64) :: w)

/-- The eight working variables of SHA-512. -/
structure ShaState where
  a : Nat
  b : Nat
  c : Nat
  d : Nat
  e : Nat
  f : Nat
  g : Nat
  h : Nat
  deriving DecidableEq, Repr

def shaRounds : List (Nat × Nat) → ShaState → ShaState
  | [], s => s
  | (k, w) :: r, s =>
    let s1 := (rotr64 s.e 14) ^^^ (rotr64 s.e 18) ^^^ (rotr64 s.e 41)
    let ch := (s.e &&& s.f) ^^^ ((2 ^ 64 - 1 - s.e) &&& s.g)
    let t1 := (s.h + s1 + ch + k + w) % 2 ^ 64
    let s0 := (rotr64 s.a 28) ^^^ (rotr64 s.a 34) ^^^ (rotr64 s.a 39)
    let maj := (s.a &&& s.b) ^^^ (s.a &&& s.c) ^^^ (s.b &&& s.c)
    let t2 := (s0 + maj) % 2 ^ 64
    shaRounds r ⟨(t1 + t2) % 2 ^ 64, s.a, s.b, s.c, (s.d + t1) % 2 ^ 64, s.e, s.f, s.g⟩

def shaBlock (h : List Nat) (block : List Byte) : List Nat :=
  let w := (chunks 8 block).map ofBe
  let ws := (shaSchedule 64 w.reverse).reverse
  let s := shaRounds (shaK.zip ws)
    ⟨nth 0 h 0, nth 0 h 1, nth 0 h 2, nth 0 h 3, nth 0 h 4, nth 0 h 5, nth 0 h 6, nth 0 h 7⟩
  [(nth 0 h 0 + s.a) % 2 ^ 64, (nth 0 h 1 + s.b) % 2 ^ 64, (nth 0 h 2 + s.c) % 2 ^ 64,
   (nth 0 h 3 + s.d) % 2 ^ 64, (nth 0 h 4 + s.e) % 2 ^ 64, (nth 0 h 5 + s.f) % 2 ^ 64,
   (nth 0 h 6 + s.g) % 2 ^ 64, (nth 0 h 7 + s.h) % 2 ^ 64]

def shaPad (m : List Byte) : List Byte :=
  let z := (128 - (m.length + 17) % 128) % 128
  m ++ [0x80#8] ++ List.replicate z 0#8 ++ beBytes 16 (8 * m.length)

/-- SHA-384 of a byte string: 48 bytes. -/
def sha384 (m : List Byte) : List Byte :=
  (((chunks 128 (shaPad m)).foldl shaBlock sha384Init).take 6).flatMap (beBytes 8)

def xorBytes (a b : List Byte) : List Byte := (a.zip b).map fun p => p.1 ^^^ p.2

/-- HMAC with SHA-384. -/
def hmac384 (key m : List Byte) : List Byte :=
  let k := padTo 128 0#8 (if key.length > 128 then sha384 key else key)
  sha384 (xorBytes k (List.replicate 128 0x5C#8) ++
    sha384 (xorBytes k (List.replicate 128 0x36#8) ++ m))

def hkdfExtract (salt ikm : List Byte) : List Byte := hmac384 salt ikm

def hkdfBlocks : Nat → Nat → List Byte → List Byte → List Byte → List Byte
  | 0, _, _, _, _ => []
  | n + 1, i, prk, prev, info =>
    let t := hmac384 prk (prev ++ info ++ [BitVec.ofNat 8 i])
    t ++ hkdfBlocks n (i + 1) prk t info

/-- HKDF-Expand with SHA-384. -/
def hkdfExpand (prk info : List Byte) (len : Nat) : List Byte :=
  (hkdfBlocks (ceilDiv len 48) 1 prk [] info).take len

/-- The ASCII bytes of a string. -/
def ascii (s : String) : List Byte := s.toList.map fun c => BitVec.ofNat 8 c.toNat

/-! ### AES -/

/-- Multiplication by x in GF(2⁸) modulo x⁸ + x⁴ + x³ + x + 1. -/
def xtime (b : Nat) : Nat := let y := b * 2; if y ≥ 256 then (y - 256) ^^^ 0x1B else y

def gmulFuel : Nat → Nat → Nat → Nat → Nat
  | 0, _, _, acc => acc
  | n + 1, a, b, acc => gmulFuel n (xtime a) (b / 2) (if b % 2 = 1 then acc ^^^ a else acc)

def gmul (a b : Nat) : Nat := gmulFuel 8 a b 0

/-- The inverse in GF(2⁸): the 254th power. -/
def ginv (a : Nat) : Nat :=
  let a2 := gmul a a
  let a3 := gmul a2 a
  let a6 := gmul a3 a3
  let a12 := gmul a6 a6
  let a15 := gmul a12 a3
  let a30 := gmul a15 a15
  let a60 := gmul a30 a30
  let a120 := gmul a60 a60
  let a240 := gmul a120 a120
  gmul (gmul a240 a12) a2

def rotl8 (x n : Nat) : Nat := ((x <<< n) ||| (x >>> (8 - n))) % 256

def sboxOf (b : Nat) : Nat :=
  let i := ginv b
  i ^^^ rotl8 i 1 ^^^ rotl8 i 2 ^^^ rotl8 i 3 ^^^ rotl8 i 4 ^^^ 0x63

def sboxInvOf (b : Nat) : Nat := ginv (rotl8 b 1 ^^^ rotl8 b 3 ^^^ rotl8 b 6 ^^^ 5)

def aesExpand : Nat → Nat → Nat → Nat → List (List Nat) → List (List Nat)
  | 0, _, _, _, w => w
  | n + 1, i, nk, rcon, w =>
    let prev := nth [] w 0
    let back := nth [] w (nk - 1)
    let sub := prev.map sboxOf
    let t := if i % nk = 0 then
        (match prev with
         | a :: r => (r ++ [a]).map sboxOf |>.mapIdx fun j x => if j = 0 then x ^^^ rcon else x
         | [] => [])
      else if nk = 8 ∧ i % nk = 4 then sub else prev
    let rcon' := if i % nk = 0 then xtime rcon else rcon
    aesExpand n (i + 1) nk rcon' ((back.zip t).map (fun p => p.1 ^^^ p.2) :: w)

/-- The round keys, 16 bytes each, from a key of 16 or 32 bytes. -/
def aesKeys (key : List Byte) : List (List Nat) :=
  let nk := key.length / 4
  let w0 := (chunks 4 (key.map (·.toNat))).reverse
  let total := 4 * (nk + 7)
  let ws := (aesExpand (total - nk) nk nk 1 w0).reverse
  (chunks 4 ws).map List.flatten

def xorN (a b : List Nat) : List Nat := (a.zip b).map fun p => p.1 ^^^ p.2

/-- ShiftRows on 16 bytes in column order: byte r + 4c comes from column c + r. -/
def shiftRows (s : List Nat) : List Nat :=
  (List.range 16).map fun j => nth 0 s (j % 4 + 4 * ((j / 4 + j % 4) % 4))

def invShiftRows (s : List Nat) : List Nat :=
  (List.range 16).map fun j => nth 0 s (j % 4 + 4 * ((j / 4 + 4 - j % 4) % 4))

def mixCol (k0 k1 k2 k3 : Nat) (c : List Nat) : List Nat :=
  let a := nth 0 c 0
  let b := nth 0 c 1
  let d := nth 0 c 2
  let e := nth 0 c 3
  [gmul k0 a ^^^ gmul k1 b ^^^ gmul k2 d ^^^ gmul k3 e,
   gmul k3 a ^^^ gmul k0 b ^^^ gmul k1 d ^^^ gmul k2 e,
   gmul k2 a ^^^ gmul k3 b ^^^ gmul k0 d ^^^ gmul k1 e,
   gmul k1 a ^^^ gmul k2 b ^^^ gmul k3 d ^^^ gmul k0 e]

def mixColumns (s : List Nat) : List Nat := (chunks 4 s).flatMap (mixCol 2 3 1 1)
def invMixColumns (s : List Nat) : List Nat := (chunks 4 s).flatMap (mixCol 14 11 13 9)

def aesRounds : List (List Nat) → List Nat → List Nat
  | [], s => s
  | [k], s => xorN (shiftRows (s.map sboxOf)) k
  | k :: r, s => aesRounds r (xorN (mixColumns (shiftRows (s.map sboxOf))) k)

/-- One AES block encryption under expanded keys. -/
def aesEncK (ks : List (List Nat)) (b : List Byte) : List Byte :=
  match ks with
  | [] => b
  | k :: r => (aesRounds r (xorN (b.map (·.toNat)) k)).map (BitVec.ofNat 8)

def aesInvRounds : List (List Nat) → List Nat → List Nat
  | [], s => s
  | [k], s => xorN ((invShiftRows s).map sboxInvOf) k
  | k :: r, s => aesInvRounds r (invMixColumns (xorN ((invShiftRows s).map sboxInvOf) k))

/-- One AES block decryption under expanded keys. -/
def aesDecK (ks : List (List Nat)) (b : List Byte) : List Byte :=
  match ks.reverse with
  | [] => b
  | k :: r => (aesInvRounds r (xorN (b.map (·.toNat)) k)).map (BitVec.ofNat 8)

def aesEnc (key b : List Byte) : List Byte := aesEncK (aesKeys key) b

/-! ### GCM multiplication and the hash of R446 -/

/-- GCM multiplication in GF(2¹²⁸): numbers are the blocks read highest byte first, so the
coefficient of x⁰ is bit 127. -/
def gcmMulFuel : Nat → Nat → Nat → Nat → Nat
  | 0, _, _, z => z
  | n + 1, x, v, z =>
    gcmMulFuel n x (if v % 2 = 1 then (v / 2) ^^^ (0xE1 <<< 120) else v / 2)
      (if bitAt x n then z ^^^ v else z)

def gcmMul (x y : Nat) : Nat := gcmMulFuel 128 x y 0

def ghash (h : Nat) (blocks : List (List Byte)) (y : Nat) : Nat :=
  blocks.foldl (fun y b => gcmMul (y ^^^ ofBe (padTo 16 0#8 b)) h) y

/-- H_K(i, T) of R446, as the 16 bytes of its last encryption. -/
def hashHBytes (key : List Byte) (i : Nat) (t : List Byte) : List Byte :=
  let ks := aesKeys key
  let h := ofBe (aesEncK ks (List.replicate 16 0#8))
  let y := ghash h (chunks 16 t) 0
  let l := ofBe (beBytes 8 i ++ beBytes 8 t.length)
  aesEncK ks (beBytes 16 (gcmMul (y ^^^ l) h))

/-- H_K(i, T) as a number, in the byte order of R7. -/
def hashH (key : List Byte) (i : Nat) (t : List Byte) : Nat := ofLe (hashHBytes key i t)

/-! ### AES-XTS -/

/-- The next tweak of XTS: multiplication by x, lowest byte first. -/
def xtsNext (t : Nat) : Nat :=
  let y := t * 2
  if y ≥ 2 ^ 128 then (y - 2 ^ 128) ^^^ 0x87 else y

def xtsBlock (ks : List (List Nat)) (enc : Bool) (t : Nat) (b : List Byte) : List Byte :=
  let tw := leBytes 16 t
  xorBytes ((if enc then aesEncK ks else aesDecK ks) (xorBytes b tw)) tw

/-- One 16-byte block of HBM under the 64-byte key, its tweak the block number (R394). -/
def xtsCrypt (key : List Byte) (enc : Bool) (tweak : Nat) (b : List Byte) : List Byte :=
  let t := ofLe (aesEnc (key.drop 32) (leBytes 16 tweak))
  xtsBlock (aesKeys (key.take 32)) enc t b

def xtsRun (ks : List (List Nat)) (enc : Bool) : Nat → List (List Byte) → List Byte
  | _, [] => []
  | t, [p] => if p.length = 16 then xtsBlock ks enc t p else p
  | t, p :: q :: rest =>
    if q.length = 16 ∨ rest ≠ [] then xtsBlock ks enc t p ++ xtsRun ks enc (xtsNext t) (q :: rest)
    else
      let t2 := xtsNext t
      let first := if enc then t else t2
      let second := if enc then t2 else t
      let c := xtsBlock ks enc first p
      xtsBlock ks enc second (q ++ c.drop q.length) ++ c.take q.length

/-- A byte string under XTS with ciphertext stealing, one data unit with the given tweak (R395). -/
def xtsString (key : List Byte) (enc : Bool) (tweak : Nat) (m : List Byte) : List Byte :=
  let t := ofLe (aesEnc (key.drop 32) (leBytes 16 tweak))
  xtsRun (aesKeys (key.take 32)) enc t (chunks 16 m)

/-! ### AES-256-GCM (R396) -/

def gcmCtr (ks : List (List Nat)) (nonce : List Byte) : Nat → List (List Byte) → List Byte
  | _, [] => []
  | c, b :: r => xorBytes b (aesEncK ks (nonce ++ beBytes 4 c)) ++ gcmCtr ks nonce (c + 1) r

/-- The tag of a ciphertext. -/
def gcmTag (key nonce aad c : List Byte) : List Byte :=
  let ks := aesKeys key
  let h := ofBe (aesEncK ks (List.replicate 16 0#8))
  let y := ghash h (chunks 16 aad ++ chunks 16 c ++ [beBytes 8 (8 * aad.length) ++ beBytes 8 (8 * c.length)]) 0
  xorBytes (beBytes 16 y) (aesEncK ks (nonce ++ beBytes 4 1))

/-- Decryption; `none` when the tag does not verify. -/
def gcmOpen (key nonce aad c tag : List Byte) : Option (List Byte) :=
  if gcmTag key nonce aad c = tag then some (gcmCtr (aesKeys key) nonce 2 (chunks 16 c)) else none

/-! ### Philox4x32-10 (R303) -/

def philoxRounds : Nat → Nat × Nat × Nat × Nat → Nat × Nat → Nat × Nat × Nat × Nat
  | 0, c, _ => c
  | n + 1, (c0, c1, c2, c3), (k0, k1) =>
    let p0 := 0xD2511F53 * c0
    let p1 := 0xCD9E8D57 * c2
    philoxRounds n
      ((p1 >>> 32) ^^^ c1 ^^^ k0, p1 % 2 ^ 32, (p0 >>> 32) ^^^ c3 ^^^ k1, p0 % 2 ^ 32)
      ((k0 + 0x9E3779B9) % 2 ^ 32, (k1 + 0xBB67AE85) % 2 ^ 32)

/-- The 128-bit output x0 + x1 × 2³² + x2 × 2⁶⁴ + x3 × 2⁹⁶ for a 128-bit counter and a key. -/
def philox (k0 k1 ctr : Nat) : Nat :=
  let r := philoxRounds 10 (field ctr 0 32, field ctr 32 32, field ctr 64 32, field ctr 96 32) (k0, k1)
  r.1 + r.2.1 * 2 ^ 32 + r.2.2.1 * 2 ^ 64 + r.2.2.2 * 2 ^ 96

/-! ### CRCs -/

def crcStep (poly width : Nat) : Nat → Nat → Nat
  | 0, c => c
  | n + 1, c => crcStep poly width n (if bitAt c (width - 1) then ((c * 2) % 2 ^ width) ^^^ poly else c * 2)

/-- CRC-16, polynomial 0x1021, initial value 0xFFFF (R421). -/
def crc16 (m : List Byte) : Nat :=
  m.foldl (fun c b => crcStep 0x1021 16 8 (c ^^^ (b.toNat <<< 8))) 0xFFFF

def crc32Step : Nat → Nat → Nat
  | 0, c => c
  | n + 1, c => crc32Step n (if c % 2 = 1 then (c / 2) ^^^ 0xEDB88320 else c / 2)

/-- CRC-32 of IEEE 802.3 (R466). -/
def crc32 (m : List Byte) : Nat :=
  (m.foldl (fun c b => crc32Step 8 (c ^^^ b.toNat)) 0xFFFFFFFF) ^^^ 0xFFFFFFFF

end Sys2Proof.Machine
end

