-- ==== Sys2Proof/Machine/SMap.lean ====
section
/-! DEFINITION. Sparse data by key: a list of (key, value) pairs in one canonical form. Keys rise
strictly and no listed value equals the value an unlisted key reads as, so equal contents are equal
lists. -/

namespace Sys2Proof.Machine

abbrev SMap (α : Type) := List (Nat × α)

/-- The value at a key; `d` is what an unlisted key reads as. -/
def smapGet {α : Type} (d : α) : SMap α → Nat → α
  | [], _ => d
  | (k, v) :: r, x => if x = k then v else smapGet d r x

/-- Write a value; writing `d` removes the entry. -/
def smapPut {α : Type} [DecidableEq α] (d : α) : SMap α → Nat → α → SMap α
  | [], x, v => if v = d then [] else [(x, v)]
  | (k, w) :: r, x, v =>
    if x < k then (if v = d then (k, w) :: r else (x, v) :: (k, w) :: r)
    else if x = k then (if v = d then r else (x, v) :: r)
    else (k, w) :: smapPut d r x v

/-- Whether every key of a map lies above `k`. -/
def smapAbove {α : Type} (k : Nat) : SMap α → Bool
  | [] => true
  | (x, _) :: r => decide (k < x) && smapAbove k r

/-- The canonical form: keys strictly rising, no entry equal to the default. -/
def smapWf {α : Type} [DecidableEq α] (d : α) : SMap α → Bool
  | [] => true
  | (k, v) :: r => decide (v ≠ d) && smapAbove k r && smapWf d r

/-- Change the value at a key. -/
def smapMod {α : Type} [DecidableEq α] (d : α) (m : SMap α) (k : Nat) (f : α → α) : SMap α :=
  smapPut d m k (f (smapGet d m k))

/-- Remove every key in [lo, hi). -/
def smapDrop {α : Type} (m : SMap α) (lo hi : Nat) : SMap α :=
  m.filter (fun p => !(decide (lo ≤ p.1) && decide (p.1 < hi)))

/-- Change every listed value; an entry that becomes the default is removed. -/
def smapMap {α : Type} [DecidableEq α] (d : α) (f : α → α) : SMap α → SMap α
  | [] => []
  | (k, v) :: r => if f v = d then smapMap d f r else (k, f v) :: smapMap d f r

/-- Write a list of values at consecutive keys. -/
def smapPutList {α : Type} [DecidableEq α] (d : α) (m : SMap α) (k : Nat) : List α → SMap α
  | [] => m
  | v :: r => smapPutList d (smapPut d m k v) (k + 1) r

/-- Read `n` values at consecutive keys. -/
def smapGetList {α : Type} (d : α) (m : SMap α) (k : Nat) : Nat → List α
  | 0 => []
  | n + 1 => smapGet d m k :: smapGetList d m (k + 1) n

end Sys2Proof.Machine
end

