-- ==== Sys2Proof/Machine/State.lean ====
section
/-! DEFINITION. The state of the block, as plain data: every register, memory, queue, counter and mode
that the spec gives the CMN-8320, the commands that wait, and the machine after reset. -/

namespace Sys2Proof.Machine

/-! ### How a step can stop -/

/-- The faults of the model: none of them is a fault of the 8320, whose faults are records. -/
inductive Fault where
  /-- An access to a device address that R182 does not list. Raised by no command: the load check refuses what would
  make one (R71). Safe: the model stops. -/
  | unmapped (address : Nat)
  deriving DecidableEq, Repr

/-- The refusals of the model. -/
inductive Refusal where
  /-- No meaning for the command. Raised by no command. Safe: the model stops. -/
  | notModelled (mnemonic : String)
  /-- A station command that no cartoon can hold at this point, because the load check refuses it (R53): the reason is
  the check's. Raised by the station commands. Safe: the model stops, and the 8320 never has such a command. -/
  | loadCheck (reason : Nat)
  deriving DecidableEq, Repr

/-! ### Memory -/

/-- What the check bits of an 8-byte word say (R194). -/
inductive EccMark where
  | unwritten
  | good
  | correctable
  | poison
  deriving DecidableEq, Repr

/-- A write of the present stroke, or one that the stroke before has left to it (R69, R190): what the bytes and the
marks of the words it touched were before it. Its cycle is its service cycle in HBM, and the cycle of the write in a
store, from the start of the current stroke. -/
structure EarlyWrite where
  addr : Nat
  cycle : Int
  bytes : List Byte
  marks : List EccMark
  deriving DecidableEq, Repr

/-- The device address space of R182 (HBM and store windows) and the host's memory. -/
structure Memory where
  bytes : SMap Byte
  marks : SMap EccMark
  /-- Engine-store words written since the stroke began (R29), by word address. -/
  fresh : SMap Bool
  early : List EarlyWrite
  host : SMap Byte
  deriving DecidableEq, Repr

/-! ### An engine (R58, R65, R104) -/

/-- A cell: the weight and its select; lane 1 of an MXFP4 plane (R58). -/
structure Cell where
  w : Half
  sel : BitVec 2
  w1 : BitVec 4
  sel1 : BitVec 2
  deriving DecidableEq, Repr

/-- A weight plane: its mode (none until a LOAD_W writes it, R29), format, direction, plane scale
exponent (R100), cells (row by row; empty stands for all zero) and MXFP4 scale row (R78). -/
structure Plane where
  mode : Option (BitVec 3)
  fmt : BitVec 2
  trans : Bool
  scaleExp : Int
  cells : List Cell
  scales : List Byte
  deriving DecidableEq, Repr

def Plane.empty : Plane := ⟨none, 0#2, false, 0, [], []⟩

/-- One entry of Q0–Q3: its push cycle and its bytes; the format and row length of its load (R65). -/
structure QEntry where
  time : Nat
  fmt : BitVec 2
  rowLen : BitVec 3
  bytes : List Byte
  deriving DecidableEq, Repr

/-- One entry of QF: push cycle, OUT_FMT and bytes (R65). -/
structure OutRow where
  time : Nat
  fmt : BitVec 2
  bytes : List Byte
  deriving DecidableEq, Repr

/-- A LOAD_META: whether a LOAD_W has taken it, and the codes that it has read and checked (R76, R124); `none`
where the word failed. -/
structure MetaLoad where
  cycle : Nat
  args : LoadMetaArgs
  taken : Bool
  codes : List (List (Option (BitVec 7)))
  deriving DecidableEq, Repr

/-- A plane on its way into the shadow plane: first and last cycle of its window (R79). -/
structure PlaneLoad where
  first : Nat
  last : Nat
  plane : Plane
  deriving DecidableEq, Repr

/-- An accumulator row as a landing left it (R104, R105). -/
structure AccRow where
  cycle : Nat
  vals : List Word
  t : Int
  deriving DecidableEq, Repr

/-- A pass with rows still to enter the array (R61, R67): the next row and its row slot. -/
structure PassJob where
  cycle : Nat
  args : PassArgs
  row : Nat
  slot : Nat
  deriving DecidableEq, Repr

/-- An operand row in the array (R61): the cycle in which it lands, its pass and its number in it, the entries that it
entered with, and the plane that it meets. -/
structure Landing where
  cycle : Nat
  args : PassArgs
  row : Nat
  x : QEntry
  y : QEntry
  plane : Plane
  deriving DecidableEq, Repr

/-- A DRAIN with rows still to read: the next row, the issue cycle on the Finish pipeline's own count,
once its first row is read, and what its current gauge tile and digest tile hold (R433, R448). -/
structure DrainJob where
  cycle : Nat
  start : Option Nat
  args : DrainArgs
  row : Nat
  beyond : Nat
  nonfinite : Nat
  largest : Word
  hashed : List Byte
  deriving DecidableEq, Repr

/-- A WRITE with rows still to pop: the next row and its waits so far (R68, R89). -/
structure WriteJob where
  cycle : Nat
  args : WriteArgs
  row : Nat
  waits : Nat
  deriving DecidableEq, Repr

/-- What one engine holds within a stroke. -/
structure Engine where
  active : Plane
  shadow : Plane
  loads : List PlaneLoad
  metas : List MetaLoad
  q0 : List QEntry
  q1 : List QEntry
  q2 : List QEntry
  q3 : List QEntry
  passes : List PassJob
  /-- The operand rows in the array, by landing cycle (R83). -/
  landings : List Landing
  /-- First cycle at which no operand row is in the array (R59, R61). -/
  arrayFree : Nat
  /-- First cycle at which a further pass may issue (R62). -/
  nextPass : Nat
  acc : SMap (List AccRow)
  /-- Loads of P, newest first: cycle from which DRAIN reads use them, and the 128 values (R88). -/
  params : List (Nat × List Word)
  drains : List DrainJob
  /-- First cycle at which a further DRAIN may issue (R84), and a further WRITE (R89). -/
  nextDrain : Nat
  nextWrite : Nat
  qf : List OutRow
  /-- Cycles from which each free place of QF can take a row (R65, R66). -/
  qfFree : List Nat
  /-- Rows that have drawn random values in this stroke (R305). -/
  drawn : Nat
  /-- Drain bubbles so far: the pipeline count at which each stall falls, and its length (R68). -/
  stalls : List (Nat × Nat)
  writes : List WriteJob
  deriving DecidableEq, Repr

def Engine.empty : Engine :=
  { active := .empty, shadow := .empty, loads := [], metas := [], q0 := [], q1 := [], q2 := [],
    q3 := [], passes := [], landings := [], arrayFree := 0, nextPass := 0, acc := [], params := [], drains := [],
    nextDrain := 0, nextWrite := 0, qf := [], qfFree := List.replicate 16 0, drawn := 0, stalls := [], writes := [] }

/-- The run counters of a logical engine (R366). -/
structure EngineCounts where
  feedBubbles : DWord
  drainBubbles : DWord
  saturations : DWord
  storeWaits : DWord
  deriving DecidableEq, Repr

def EngineCounts.zero : EngineCounts := ⟨0, 0, 0, 0⟩

/-! ### Cluster and plate stations -/

/-- A slot of a Stipple (R169): the key and the vector of 32 FP32 values; what the check bits of its 17 words say, the
key's word first (R194), where one of them is not good. -/
structure StSlot where
  key : Word
  vec : List Word
  marks : List EccMark
  deriving DecidableEq, Repr

/-- The operation descriptor of a CLEAR (R174), with addresses in 8-byte units. -/
structure StOp where
  spillBase : Nat
  spillCap : Nat
  outBase : Nat
  outCap : Nat
  countAddr : Nat
  dBase : Nat
  dPitch : Nat
  dBf16 : Bool
  dRows : Nat
  deriving DecidableEq, Repr

/-- A run that has closed and is to be inserted (R170, R171): the cycle it closed, its command's
issue cycle, and the first cycle past its command's reservation, if it has one. -/
structure StRun where
  key : Word
  vec : List Word
  closed : Nat
  cycle : Nat
  limit : Option Nat
  deriving DecidableEq, Repr

/-- A cluster's Stipple: its slots by position (R169), the operation under way, the records in the
spill region, and the runs that wait for their insertion. -/
structure Stipple where
  slots : SMap (Option StSlot)
  /-- A CLEAR has begun an operation that no FOLD has ended (R172). -/
  open_ : Bool
  /-- The operation's descriptor, once it has been read. -/
  op : Option StOp
  /-- The CLEAR under way: its issue cycle, and the sets that it has invalidated (R174). -/
  clearing : Option (Nat × Nat)
  spilled : Nat
  runs : List StRun
  /-- Words that the command's accesses have taken of its reservation, by stack, read or write, and cycle
  (R191). -/
  claims : SMap Nat
  deriving DecidableEq, Repr

def Stipple.empty : Stipple := ⟨[], false, none, none, 0, [], []⟩

/-- A pick entry: its value at the start of the stroke, and the values written in the stroke with their cycles,
latest first (R157, R159). -/
structure PickEntry where
  value : BitVec 16
  writes : List (Nat × BitVec 16)
  deriving DecidableEq, Repr

def PickEntry.zero : PickEntry := ⟨0, []⟩

/-- The window descriptor of R166. -/
structure WinDesc where
  winBase : Nat
  tgtBase : Nat
  slotWords : Nat
  b : Nat
  pickBase : Nat
  ng : Nat
  nblk : Nat
  deriving DecidableEq, Repr

/-- A pick window: what it is armed with, and the changes that take effect at a later cycle (R159). -/
structure PickWin where
  cur : Option WinDesc
  next : List (Int × Option WinDesc)
  deriving DecidableEq, Repr

def PickWin.empty : PickWin := ⟨none, []⟩

/-! ### Work under way -/

/-- Bytes of an access that share a service cycle: the first byte, their number, the cycle (R189, R191). -/
structure Served where
  addr : Nat
  bytes : Nat
  service : Nat
  deriving DecidableEq, Repr

/-- What a BURNISH has of the metadata word whose blocks it rewrites (R152, R153): the word's bytes and poisoned
words, the outcome of its check, and the new codes so far. -/
structure BurnWord where
  bytes : List Byte
  poison : List Nat
  outcome : Nat
  codes : List Nat
  deriving DecidableEq, Repr

/-- What a command's summary counts (R153). -/
structure BurnCounts where
  changed : Nat
  grown : Nat
  nonfinite : Nat
  deriving DecidableEq, Repr

/-- The step's factors of an UPDATE (R218). -/
structure Schedule where
  lrMult : Word
  bc1 : Word
  bc2 : Word
  deriving DecidableEq, Repr

/-- A non-zero of a GATHER by its place in the list (R176): slice and entry within it, the slice's key, and whether
it is the slice's last. -/
structure GatherEntry where
  slice : Nat
  j : Nat
  key : Word
  last : Bool
  deriving DecidableEq, Repr

/-- A row of D on its way: its entry, the VALUE, and what has been read of it, none where INDEX has no row. -/
structure GatherRow where
  entry : GatherEntry
  value : Word
  read : Option (List Served)
  deriving DecidableEq, Repr

/-- A GATHER under way (R177): the descriptor of its operation; the cycles from its first header read on, the number of slices, the
header reads that have not arrived, the slices whose entries have still to be read (key, non-zeros, number) and the
next of them, the entry reads that have not arrived, the entry that has just arrived with its INDEX and VALUE, the
rows that have not, the partial of the current slice, and the run that the pre-combiner holds (R170). -/
structure GatherProg where
  op : StOp
  d : Nat
  ns : Nat
  heads : List (List Served)
  slices : List (Word × Nat × Nat)
  next : Nat
  entries : List (GatherEntry × List Served)
  arrived : Option (GatherEntry × Nat × Word)
  rows : List GatherRow
  part : Option (List Word)
  enter : Option (Word × List Word)
  run : Option (Word × List Word)
  deriving DecidableEq, Repr

/-- A FOLD under way (R178, R179): the descriptor of its operation; records written, rounds, spill records read,
whether 0x0121 is raised; then, in a round, the cycle in which its flush visits slot position 0, the cycle at which the
flush ended, the reads of the records still to arrive, the records of the round, and the run that the pre-combiner
holds. -/
structure FoldProg where
  op : StOp
  written : Nat
  rounds : Nat
  read : Nat
  beyond : Bool
  base : Nat
  ended : Nat
  left : List (List Served)
  count : Nat
  run : Option (Word × List Word)
  deriving DecidableEq, Repr

/-- A queue of the array (R65, R73, R75). -/
inductive LoadKind where
  | a
  | s
  | diag
  deriving DecidableEq, Repr

/-- The fixed-point commands that rewrite slots (R272). -/
inductive FxKind where
  | set
  | add
  | out
  deriving DecidableEq, Repr

/-- What a command that has issued still has to do: its arguments, the bytes of its descriptor as a number where it
has one, and how far it has come. -/
inductive Job where
  /-- Row `i` of a load. -/
  | load (e : EngineLoc) (k : LoadKind) (a : LoadArgs) (i : Nat)
  /-- The words of a LOAD_META. -/
  | words (e : EngineLoc) (a : LoadMetaArgs)
  /-- The plane of a LOAD_W, with the issue cycle of its LOAD_META. -/
  | plane (e : EngineLoc) (a : LoadWArgs) (m : Option Nat)
  | params (e : EngineLoc) (a : ParamArgs)
  /-- The descriptor that the command names arrives (R512). -/
  | copyDesc (c : ClusterLoc) (a : CopyArgs)
  | burnDesc (c : ClusterLoc) (a : BurnishArgs)
  | topbDesc (x : SelectorLoc) (a : TopbArgs)
  | setwinDesc (x : SelectorLoc) (a : SetwinArgs)
  | sampleDesc (x : SelectorLoc) (a : SampleArgs)
  | clearDesc (c : ClusterLoc) (a : ClearArgs)
  | updateDesc (u : UnitLoc) (a : UpdateArgs) (clip : Option Word) (skip : Bool)
  /-- The last set of a Stipple's slots is invalid (R174). -/
  | cleared (c : ClusterLoc)
  /-- Tile `i` of a COPY; the scale fields of the tiles of its segment so far. -/
  | copy (c : ClusterLoc) (a : CopyArgs) (desc i : Nat) (segs : List (List Nat))
  /-- Block `i` of a BURNISH. -/
  | burn (c : ClusterLoc) (a : BurnishArgs) (desc i : Nat) (w : BurnWord) (n : BurnCounts)
  /-- Group `g` of a TOPB, with the groups so far that held a NaN. -/
  | topb (x : SelectorLoc) (a : TopbArgs) (desc g nans : Nat)
  /-- Row `r` of a SAMPLE, with the rows so far that held a NaN. -/
  | sample (x : SelectorLoc) (a : SampleArgs) (desc r nans : Nat)
  /-- Group `g` of a fill. -/
  | fill (x : SelectorLoc) (a : SampleArgs) (desc g : Nat)
  /-- The schedule of an UPDATE. -/
  | schedule (u : UnitLoc) (a : UpdateArgs) (desc : Nat) (clip : Option Word) (skip : Bool)
  /-- Chunk `i` of an UPDATE. -/
  | chunk (u : UnitLoc) (a : UpdateArgs) (desc : Nat) (clip : Option Word) (skip : Bool) (sc : Schedule) (i : Nat)
  /-- Entry `i` of an ACCUM, or the close of its last run; the run that the pre-combiner holds. -/
  | accum (c : ClusterLoc) (a : AccumArgs) (i : Nat) (run : Option (Word × List Word))
  /-- The insertion of the oldest closed run of a Stipple. -/
  | insert (c : ClusterLoc)
  /-- The count word of a GATHER; then its cycles; then its completion. -/
  | count (c : ClusterLoc) (a : GatherArgs) (read : List Served)
  | gather (c : ClusterLoc) (a : GatherArgs) (g : GatherProg)
  | gathered (c : ClusterLoc)
  /-- A slot position that the flush of a FOLD's round visits, or the end of the flush; a record of the round that
  arrives, or the close of the last run. -/
  | flush (c : ClusterLoc) (a : FoldArgs) (g : FoldProg)
  | refill (c : ClusterLoc) (a : FoldArgs) (g : FoldProg)
  /-- A read that found no place in its reservation: the command stops (R180). -/
  | halt (c : ClusterLoc)
  /-- Flit `j` of a SEND: the next source word, the bytes of the stream that wait, and whether one of them is of a
  poisoned word. -/
  | send (r : RelayLoc) (a : SendArgs) (j i : Nat) (buf : List Byte) (bad : Bool)
  /-- Read `i` of an FXEXP. -/
  | fxexp (r : RelayLoc) (a : FxexpArgs) (i : Nat)
  /-- Group `i` of an FXSET, FXADD or FXOUT. -/
  | fx (k : FxKind) (r : RelayLoc) (a : FxArgs) (i : Nat)
  /-- A message to every other role leaves: its type, its payload (R231). -/
  | sendAll (ctype : Nat) (payload : List Byte)
  /-- A MARK_SIGNAL takes effect: the watches of its mark test their conditions (R338). -/
  | watch (m : BitVec 12)
  deriving DecidableEq, Repr

/-- A job with the cycle of its next action, its place among those of one cycle, and its command's issue cycle. -/
structure Work where
  due : Nat
  rank : Nat
  cycle : Nat
  job : Job
  deriving DecidableEq, Repr

/-- A write that has issued: the cycle in which the memory takes it (the service cycle in HBM), the writer's source,
its bytes and the words that take the poison pattern. -/
structure WriteDue where
  due : Nat
  source : Nat
  addr : Nat
  bytes : List Byte
  poison : List Nat
  deriving DecidableEq, Repr

/-- What the load check has placed later than its cycle (R189): the variant and the stroke, the access's cycle and
rank, the place that the load check gave it, and the service cycle of the words from there. -/
structure Deferral where
  variant : Nat
  stroke : Nat
  t : Nat
  rank : Nat
  write : Bool
  addr : Nat
  bytes : Nat
  service : Nat
  deriving DecidableEq, Repr

/-- A stream of the cartoon: its station's source, its variant, its place in the image and its commands (R48,
R49). -/
structure StreamPlace where
  source : Nat
  variant : Nat
  offset : Nat
  words : Nat
  deriving DecidableEq, Repr

/-- A row of squares that a WRITE charges to a norm partial, at its cycle and in the order of its engine
(R90, R227). -/
structure Charge where
  unit : Nat
  cycle : Nat
  order : Nat
  vals : List Word
  deriving DecidableEq, Repr

/-- An event that waits for the stroke tail (R153, R181): source, code, fields. -/
structure TailEvent where
  source : Nat
  code : Nat
  payload : BitVec 704
  deriving DecidableEq, Repr

/-! ### Links -/

/-- A landed or queued flit: header, payload, its full number (R259) and, at its sender, the slot of its latest sending
(R254). -/
structure Flit where
  header : FlitHeader
  number : Nat
  payload : List Byte
  slot : Nat := 0
  deriving DecidableEq, Repr

/-- A RECV of the stroke (R262, R270): its relay and command, and what has landed of it, by the flit's
index within the RECV. -/
structure OpenRecv where
  relay : RelayLoc
  cycle : Nat
  args : RecvArgs
  landed : SMap (Option Flit)
  /-- The last reserved cycle that each stack has served, and the words of it that are taken (R271). -/
  served : SMap (Nat × Nat) := []
  /-- The first flit that the reservation has ended before. -/
  missed : Option Nat := none
  deriving DecidableEq, Repr

/-- A link as one end holds it: a Kazin port, or a Seam channel as one plate has it. -/
structure Link where
  /-- Numbers of the next data flit and control flit to be sent (R259). -/
  txData : Nat
  txCtrl : Nat
  /-- Flits sent and not acknowledged, and flits that wait for a place among them (R259). -/
  txUnacked : List Flit
  txCtrlUnacked : List Flit
  sendQueue : List Flit
  ctrlQueue : List Flit
  /-- Flits to be resent, oldest loss first: control or data, and number (R258, R260). -/
  replayQueue : List (Bool × Nat)
  /-- Resends in this stroke (R265). -/
  replayed : Nat
  /-- Control number that follows the last stroke close sent (R263). -/
  ctrlAtClose : Nat
  /-- Lowest data number of this stroke that has not landed, and the landed numbers beyond it. -/
  rxNext : Nat
  rxAhead : List Nat
  rxCtrlNext : Nat
  rxCtrlAhead : List Nat
  /-- The landing buffer: flits that no RECV has taken yet, by number (R271). -/
  rxBuffer : List Flit
  /-- The stroke close that landed in this stroke, and its control number. -/
  rxClose : Option CloseMsg
  rxCloseNumber : Nat
  /-- Flits that outgoing frames still have to name as lost: control or data, and number (R256, R260). -/
  nacks : List (Bool × Nat)
  /-- Control numbers that landed at or after the count at which this stroke's tail begins (R263). -/
  rxLate : List Nat
  /-- The first slot that is still free for a data, a control and a replayed flit (R258). -/
  dataFrom : Nat
  ctrlFrom : Nat
  replayFrom : Nat
  /-- Flits by the slots of the frames that have not gone out, and the symbols of the latest outgoing frame (R254). -/
  sent : List Flit
  frameOut : List (BitVec 10)
  /-- Bits [35:5] of the peer's board time, as its latest frame carried them (R256). -/
  peerTime : BitVec 31
  deriving DecidableEq, Repr

def Link.empty : Link :=
  { txData := 0, txCtrl := 0, txUnacked := [], txCtrlUnacked := [], sendQueue := [], ctrlQueue := [],
    replayQueue := [], replayed := 0, ctrlAtClose := 0, rxNext := 0, rxAhead := [], rxCtrlNext := 0,
    rxCtrlAhead := [], rxBuffer := [], rxClose := none, rxCloseNumber := 0, nacks := [],
    rxLate := [], dataFrom := 0, ctrlFrom := 0, replayFrom := 0, sent := [], frameOut := [], peerTime := 0 }

/-- The state of a port (R275, R360). -/
inductive PortState where
  | off
  | training
  | up
  | draining
  | failed
  deriving DecidableEq, Repr

/-- Which physical lane a direction of a port keeps as its spare (R274), what the spare is counted
for, and a swap that waits. -/
structure LaneDir where
  /-- Physical lane of each active position 0–7. -/
  active : List (Fin 9)
  spare : Option (Fin 9)
  /-- A replaced lane on probation carries PRBS31 until it becomes the spare. -/
  probation : Option (Fin 9)
  /-- A swap that has been requested: position, urgent (R274). -/
  request : Option (Fin 8 × Bool)
  /-- The frame whose SPARE_ACK has answered the request. -/
  acked : Option Nat
  /-- Bit errors of the PRBS31 that the lane beside the active ones carries, and corrected symbols of each active
  position in the window of R413. -/
  prbsErrors : Nat
  corrected : List Nat
  deriving DecidableEq, Repr

/-- The direction after reset: lane 8 is the spare (R5). -/
def LaneDir.reset : LaneDir :=
  { active := [0, 1, 2, 3, 4, 5, 6, 7], spare := some 8, probation := none, request := none, acked := none,
    prbsErrors := 0, corrected := [] }

/-- A peer's latest board-time check as it landed on a port (R286, R287, R289). -/
structure LandedCheck where
  msg : CheckMsg
  landing16 : Nat
  deriving DecidableEq, Repr

/-- A Kazin port beside its link. -/
structure Port where
  state : PortState
  pending : Bool
  tx : LaneDir
  rx : LaneDir
  check : Option LandedCheck
  /-- The offset of the previous check on this port (R287), in units of 1/16 count. -/
  offset : Option Int
  /-- Stale flits of this stroke, or of this period of 65,536 counts (R291). -/
  staleRun : Nat
  stalePeriod : Nat
  /-- The port has left UP in the run, and takes no further part in it (R276). -/
  left : Bool
  /-- The tick of the latest check that the port has sent, plus one (R286). -/
  checkTick : Nat
  /-- Counters of R366. -/
  stale : DWord
  replaySlots : DWord
  correctedSymbols : DWord
  uncorrectable : DWord
  drainDiscards : DWord
  laneSwaps : DWord
  deriving DecidableEq, Repr

def Port.reset : Port :=
  { state := .off, pending := false, tx := .reset, rx := .reset, check := none, offset := none,
    staleRun := 0, stalePeriod := 0, left := false, checkTick := 0, stale := 0, replaySlots := 0, correctedSymbols := 0,
    uncorrectable := 0, drainDiscards := 0, laneSwaps := 0 }

/-- The counters of a Seam channel (R366) and whether it is locked (R360). -/
structure SeamChan where
  locked : Bool
  replaySlots : DWord
  correctedSymbols : DWord
  uncorrectable : DWord
  deriving DecidableEq, Repr

def SeamChan.up : SeamChan := ⟨true, 0, 0, 0⟩

/-! ### Records and the log -/

/-- A record of R331. Bits [1023:320] are the payload. -/
structure Record where
  code : BitVec 16
  kind : BitVec 2
  role : BitVec 3
  hasRole : Bool
  epoch : BitVec 16
  source : BitVec 24
  seq : DWord
  stroke : DWord
  step : DWord
  time : DWord
  payload : BitVec 704
  deriving DecidableEq, Repr

/-- A log entry of R421; its CRC is formed when its bytes are. -/
structure LogEntry where
  code : BitVec 16
  kind : BitVec 2
  timeBase : BitVec 2
  source : BitVec 24
  boot : BitVec 16
  seq : DWord
  time : DWord
  step : DWord
  stroke : DWord
  detail : BitVec 672
  dropped : BitVec 16
  deriving DecidableEq, Repr

/-- How severe a CPER record is (R427). -/
inductive Severity where
  | recoverable
  | fatal
  | corrected
  | informational
  deriving DecidableEq, Repr

/-- A CPER record that CPER_ACK has not acknowledged (R427, R428): its section is the device record
or the log entry. -/
structure Cper where
  recordId : DWord
  severity : Severity
  body : List Byte
  /-- Sent on MCTP, in a management session. -/
  sent : Bool
  deriving DecidableEq, Repr

/-- An item of the check value of R438: its cycle, its station in the order Fetch, Finish, Store, and
the bytes that are hashed. -/
structure CheckItem where
  cycle : Nat
  station : Nat
  bytes : List Byte
  deriving DecidableEq, Repr

/-- A step-ending fault that has arisen (R43): arrival cycle, tie order of R133, its source, what its
fault record carries, and whether an event record reports it too. -/
structure PendingFault where
  code : Nat
  cycle : Nat
  order : Nat
  source : Nat
  aux : BitVec 25
  fields : BitVec 256
  reported : Bool
  deriving DecidableEq, Repr

/-! ### Rings, marks and watches -/

inductive RingState where
  | off
  | active
  | draining
  | error
  deriving DecidableEq, Repr

/-- A ring context (R325), the holding buffer of a REC ring (R335) and what signalling needs (R334). -/
structure Ring where
  kind : BitVec 3
  log2Size : BitVec 5
  vector : BitVec 11
  irqEn : Bool
  coalCount : BitVec 12
  coalTime : BitVec 16
  depth : BitVec 16
  base : DWord
  shadow : DWord
  hostPtr : Word
  devPtr : Word
  state : RingState
  pending : Bool
  /-- A copy was under way when the drain began, and has not ended (R342). -/
  started : Bool
  held : List Record
  /-- Events dropped since the last 0x0242, and the lowest and highest STEP among them (R335). -/
  dropped : Nat
  dropLow : DWord
  dropHigh : DWord
  /-- Records or completions visible and not signalled, when the first of them became visible, and
  when the ring last signalled (R334). -/
  unsignalled : Nat
  firstUnsignalled : DWord
  lastSignal : Option DWord
  deriving DecidableEq, Repr

def Ring.reset : Ring :=
  { kind := 0, log2Size := 4, vector := 0, irqEn := false, coalCount := 0, coalTime := 0, depth := 0,
    base := 0, shadow := 0, hostPtr := 0, devPtr := 0, state := .off, pending := false, started := false, held := [],
    dropped := 0, dropLow := 0, dropHigh := 0, unsignalled := 0, firstUnsignalled := 0,
    lastSignal := none }

/-- A mark watch (R338, R362). -/
structure Watch where
  mark : BitVec 12
  cmp : BitVec 2
  vector : BitVec 11
  armed : Bool
  hit : Bool
  value : DWord
  deriving DecidableEq, Repr

def Watch.reset : Watch := ⟨0, 0, 0, false, false, 0⟩

/-- A remote mark update that waits for a stroke tail (R94, R339). -/
structure RemoteMark where
  mark : BitVec 12
  value : DWord
  deriving DecidableEq, Repr

/-- A station mark update and the cycle of this stroke in which it takes effect (R92, R94). -/
structure MarkUpdate where
  cycle : Nat
  mark : BitVec 12
  set : Bool
  value : DWord
  deriving DecidableEq, Repr

/-- A gauge setting (R367). -/
structure Gauge where
  maxAbs : Word
  maxNonfinite : BitVec 16
  deriving DecidableEq, Repr

def Gauge.reset : Gauge := ⟨0x7F80_0000#32, 0xFFFF#16⟩

/-- A proof slot (R448). -/
structure ProofSlot where
  sum : QWord
  tiles : Word
  deriving DecidableEq, Repr

def ProofSlot.zero : ProofSlot := ⟨0, 0⟩

/-- An MSI-X table entry (R373), as the PCIe layout has it. -/
structure MsixEntry where
  address : DWord
  data : Word
  control : Word
  deriving DecidableEq, Repr

/-- A vector is masked at reset, as PCIe has it. Log entry 13. -/
def MsixEntry.reset : MsixEntry := ⟨0, 0, 1⟩

/-! ### The cartoon, the run -/

/-- The run states of R54. -/
inductive RunState where
  | idle
  | loaded
  | armed
  | running
  | waiting
  | faulted
  deriving DecidableEq, Repr

/-- Where the sequencer stands between the events of the table: outside a run; a stroke to start;
inside a stroke; the start of a step to decide; a check stroke to run (R442). -/
inductive Phase where
  | none
  | strokeDue
  | inStroke
  | stepDue
  | checkDue
  deriving DecidableEq, Repr

/-- A variant entry (R36), with the bytes of its update-parameter block. -/
structure Variant where
  strokesM1 : BitVec 10
  gate : Bool
  probe : Bool
  checkpoint : Bool
  gateRing : BitVec 12
  seedSel : BitVec 2
  seed : BitVec 256
  params : List Byte
  deriving DecidableEq, Repr

/-- A rule entry (R37). -/
structure Rule where
  period : Word
  phase : Word
  variant : BitVec 3
  deriving DecidableEq, Repr

/-- A constant-data segment: where it is copied (R48) and its length. -/
structure ConstData where
  dest : Nat
  length : Nat
  deriving DecidableEq, Repr

/-- The held cartoon (R35–R37, R47). -/
structure Cartoon where
  groupSize : BitVec 4
  role : BitVec 3
  plateMask : BitVec 2
  quanta : BitVec 10
  maskEpoch : Word
  digest : BitVec 384
  stepLimit : Word
  variants : List Variant
  rules : List Rule
  consts : List ConstData
  streams : List StreamPlace
  /-- The accesses that the load check has placed later than their cycle (R189). -/
  deferred : List Deferral
  /-- The half of the cartoon region that holds the image (R323). -/
  half : Bool
  deriving DecidableEq, Repr

/-- The step sequencer. -/
structure Seq where
  state : RunState
  phase : Phase
  cartoon : Option Cartoon
  curStep : DWord
  curStroke : DWord
  strokeInStep : Nat
  variant : Nat
  /-- The step that is to begin next, and the strokes begun since LAUNCH_AT. -/
  nextStep : DWord
  strokesRun : Nat
  /-- Ports that were UP at LAUNCH_AT (R276). -/
  upAtLaunch : List Nat
  /-- Steps completed in this run, and F of R329: the last completed step plus 1, once one is. -/
  stepsDone : Nat
  firstOpen : Option DWord
  /-- Base step of the run under way or of the latest run, and the step that its fault record ended. -/
  runBase : DWord
  faultStep : Option DWord
  /-- Host pointers of OUT rings when the device entered LOADED: entries below are skipped unless their step
  has ended (R330). -/
  outSkip : SMap (Option Word)
  launchAt : DWord
  /-- Board-time counts: start of the current stroke; end of the previous step as R39 takes it. -/
  strokeStart : DWord
  prevEnd : DWord
  /-- This device's ready counts, keyed ring × 2⁶⁴ + step (R38), and the gate notices landed, keyed
  8 × step + role. -/
  ready : SMap (Option DWord)
  notices : SMap (Option DWord)
  /-- Gate wait of the current step (R40); whether its gate alarm has been written. -/
  wait : DWord
  alarmed : Bool
  seed : BitVec 256
  seedAuto : Bool
  seedReplayed : Bool
  /-- Automatic seed taken for the step to come (R306), or the fault that taking it raised. -/
  nextSeed : Option (BitVec 256 × Bool)
  seedFault : Option PendingFault
  faults : List PendingFault
  /-- A stop notice that has landed: code, role (R44). Abort wanted at the end of a stroke (R340). -/
  stopBy : Option (BitVec 16 × BitVec 8)
  abortAt : Option Nat
  /-- The ring work of an abort or of the end of a run is still to be completed (R341). -/
  abortPending : Bool
  launchOk : Bool
  closing : Bool
  /-- The stroke closes of this stroke have been sent (R263). -/
  closeSent : Bool
  refreshDone : List (Nat × Nat)
  events : Word
  proof : SMap ProofSlot
  /-- What the shadowed engine of each cluster, and its spare, have formed their check values from in
  this stroke (R438). -/
  shadowItems : SMap (List CheckItem)
  spareItems : SMap (List CheckItem)
  spareEcc : SMap Bool
  checkClusters : List Nat
  checkFault : Bool
  /-- The 256-bit seed of the last check stroke (R443). -/
  checkSeed : BitVec 256
  gearPending : Option (BitVec 2)
  /-- Norm totals and exponent maxima that have landed in this stroke, by role (R231, R273). -/
  normMsgs : List (BitVec 3 × NormMsg)
  maxima : List (BitVec 3 × List (BitVec 16))
  staleReports : List (Nat × StaleMsg × Bool)
  seamFailed : Bool
  /-- The model's own field: set in the device over which a load check tries an image's commands (R53). -/
  trial : Bool
  /-- A copy of constant data has been written since the load: a descriptor may differ from the one that the load
  check has verified (R512). -/
  loose : Bool
  /-- Gears requested in the checks that have landed: tick, role, gear (R294). -/
  gearChecks : List (Nat × Nat × BitVec 2)
  deriving DecidableEq, Repr

/-! ### Norm and clip (R227–R233) -/

/-- The NORM of the step: the partials it closed, by device unit number, and how far it has come. -/
structure NormJob where
  mode : BitVec 1
  scope : BitVec 1
  cycle : Nat
  partials : List (Nat × Word)
  /-- 0: partials closing; 1: contribution formed, waiting for the tail of stroke s; 2: waiting for
  the tail of stroke s + 1. -/
  stage : Nat
  expMax : Option Int
  deriving DecidableEq, Repr

/-- The clip factor: its value, its flag, and the cycle of this stroke from which it is valid. -/
structure ClipState where
  factor : Word
  nonfinite : Bool
  validFrom : Option Nat
  deriving DecidableEq, Repr

/-! ### The edition in force (R353, R469–R473) -/

/-- One lane-map entry (R472). -/
structure LaneMapEntry where
  use : BitVec 2
  peerSlot : BitVec 3
  peerPort : BitVec 4
  deriving DecidableEq, Repr

/-- One HBM_MAP word (R473). -/
structure HbmMap where
  cartBase : BitVec 18
  cartSize : BitVec 16
  ckptBase : BitVec 22
  deriving DecidableEq, Repr

/-- The active edition (R469–R473). -/
structure Edition where
  number : Word
  floor : Word
  qMin : BitVec 10
  qMax : BitVec 10
  gearFast : BitVec 2
  gearSlow : BitVec 2
  genMode : Bool
  fallbackPlate : BitVec 1
  offer : BitVec 2
  spareAuto : Bool
  xcheck : Bool
  mctpBind : Bool
  debugAllowed : Bool
  slot : BitVec 3
  roleEpoch : BitVec 16
  roleMap : Word
  tHot : BitVec 8
  tCool : BitVec 8
  tCrit : BitVec 8
  tHbmHot : BitVec 8
  tHbmMax : BitVec 8
  tHbmCrit : BitVec 8
  pLimit : BitVec 16
  droopLimit : BitVec 16
  droopLevel : BitVec 8
  holdMs : BitVec 16
  laneThresh : Word
  gaugeFault : BitVec 256
  lanes : List LaneMapEntry
  hbm : List HbmMap
  mgmtRoot : BitVec 384
  /-- The place that the record was read from (R475). -/
  place : Nat
  digest : BitVec 384
  deriving DecidableEq, Repr

/-- The edition with the values that the edition tool writes when given no other (R470–R473), number 1,
slot 0 holding role 0. Log entry 2. -/
def Edition.default : Edition :=
  { number := 1, floor := 0, qMin := 8, qMax := 800, gearFast := 0, gearSlow := 3, genMode := false,
    fallbackPlate := 0, offer := 3, spareAuto := true, xcheck := true, mctpBind := false,
    debugAllowed := true, slot := 0, roleEpoch := 1, roleMap := 0x8, tHot := 95, tCool := 88,
    tCrit := 105, tHbmHot := 85, tHbmMax := 95, tHbmCrit := 100, pLimit := 1500, droopLimit := 64,
    droopLevel := 30, holdMs := 200, laneThresh := 4096, gaugeFault := 0,
    lanes := List.replicate 16 ⟨0, 0, 0⟩,
    hbm := List.replicate 2 ⟨159744, 4096, 2555903⟩, mgmtRoot := 0, place := 0, digest := 0 }

/-! ### Security -/

/-- How far an SPDM connection has come: GET_VERSION, GET_CAPABILITIES and NEGOTIATE_ALGORITHMS answered. -/
structure Spdm where
  version : Bool
  capabilities : Bool
  algorithms : Bool
  deriving DecidableEq, Repr

def Spdm.reset : Spdm := ⟨false, false, false⟩

/-- An SPDM session (R375, R378, R416): it opens at KEY_EXCHANGE and is in use from FINISH on. `keyUpdates`
counts the updates of its message keys. -/
structure Session where
  id : BitVec 32
  open_ : Bool
  exportSecret : BitVec 384
  transcript : BitVec 384
  lastMessage : DWord
  keyUpdates : Nat
  deriving DecidableEq, Repr

/-- The tenant that the slot in force holds (R388). -/
structure Tenant where
  tenantId : QWord
  tmk : BitVec 256
  generation : DWord
  policy : List Byte
  deriving DecidableEq, Repr

/-- What a key-store update is for (R386, R387). -/
inductive CommitFor where
  | begin_
  | end_
  | rekey
  | policy
  deriving DecidableEq, Repr

/-- A key-store update under way: its purpose, the session that asked, the new slot's tenant; whether a power
failure has stopped it. -/
structure CommitJob where
  purpose : CommitFor
  session : BitVec 32
  tenant : Option Tenant
  stopped : Bool
  deriving DecidableEq, Repr

/-- The scrub under way: when it began, and the event of the tenant change that it ends (R386). -/
structure ScrubJob where
  started : DWord
  after : Option (BitVec 16)
  deriving DecidableEq, Repr

/-- A response that is due 400 µs after its request (R400), or a refusal that becomes visible then
(R401). -/
structure DueResponse where
  due : DWord
  session : BitVec 32
  bytes : List Byte
  deriving DecidableEq, Repr

structure DueRefusal where
  due : DWord
  offset : BitVec 26
  deriving DecidableEq, Repr

/-- An import under way (R396, R397). -/
structure ImportJob where
  hostAddr : DWord
  header : List Byte
  devAddr : Nat
  segments : Nat
  nonce : BitVec 96
  session : BitVec 32
  deriving DecidableEq, Repr

/-- Who uses the seal engine (R398): the import, the key-store digests, or the MSS. -/
inductive SealUser where
  | tenantImport
  | keyStore
  | mss
  deriving DecidableEq, Repr

/-- The seal engine: who holds its two contexts, and who waits, the longest first (R398). -/
structure SealEngine where
  held : List SealUser
  waiting : List SealUser
  deriving DecidableEq, Repr

/-- How the latest import stands (R399). -/
inductive ImportState where
  | none
  | running
  | done
  | failed
  deriving DecidableEq, Repr

/-- The states of the TDI (R379, R380). -/
inductive TdiState where
  | unlocked
  | locked
  | run
  | error
  deriving DecidableEq, Repr

/-- An IDE key place: the key programmed, and whether the stream uses it (R379). -/
structure IdeKey where
  key : BitVec 256
  programmed : Bool
  inUse : Bool
  deriving DecidableEq, Repr

def IdeKey.none : IdeKey := ⟨0, false, false⟩

/-- A stream that no key set has been put to use for. -/
def noStream : IdeStream := ⟨false, false, false, false⟩

/-- Sealing, attestation and keys. -/
structure Security where
  /-- The key-store array: two 4 KiB slots, then nothing; erased bytes read 0xFF (R388). -/
  slots : SMap Byte
  cell0 : DWord
  cell1 : DWord
  /-- Commit in force and the slot it names. -/
  commitCount : BitVec 48
  activeSlot : BitVec 1
  tenant : Option Tenant
  sealed : Bool
  bar2Closed : Bool
  job : Option CommitJob
  /-- Accepted updates that wait for the one under way and for its scrub, oldest first (R383, R386). -/
  waiting : List CommitJob
  scrub : Option ScrubJob
  sessions : List Session
  nextSession : BitVec 32
  tenantSession : Option (BitVec 32)
  spdm : Spdm
  importJob : Option ImportJob
  importState : ImportState
  importDone : Word
  sealEngine : SealEngine
  responses : List DueResponse
  refusals : List DueRefusal
  tdi : TdiState
  ide : SMap IdeKey
  ideStreams : SMap IdeStream
  /-- The 128-bit key SK of R438. -/
  sk : QWord
  /-- The last answer given on the DOE mailbox, and on MCTP. -/
  doeAnswer : List Byte
  mctpAnswer : List Byte
  deriving DecidableEq, Repr

/-! ### Management -/

/-- A sensor's latest reading with the count of its sample, on board time or on the REFCLK count (R407); its
window of R408 so far, and the last one that has closed. -/
structure Sensor where
  value : Int
  current : Nat
  failed : Bool
  time : DWord
  onBoardTime : Bool
  sum : Int
  currentSum : Nat
  count : Nat
  windowSum : Int
  windowCurrent : Nat
  windowCount : Nat
  deriving DecidableEq, Repr

def Sensor.reset : Sensor := ⟨0, 0, false, 0, false, 0, 0, 0, 0, 0, 0⟩

/-- A stack's refresh band: 2× or not; since when its readings have stayed below (R412). -/
structure RefreshBand where
  double : Bool
  below : Option DWord
  deriving DecidableEq, Repr

def RefreshBand.reset : RefreshBand := ⟨false, none⟩

/-- The firmware update under way (R429–R431). -/
inductive FwState where
  | idle
  | learn
  | readyXfer
  | download
  | verify
  | apply
  | activate
  deriving DecidableEq, Repr

structure FwUpdate where
  state : FwState
  size : Word
  /-- Bytes received so far. -/
  received : Nat
  failed : Bool
  /-- An activation is pending: the slot that the next boot tries first. -/
  pendingSlot : Option (BitVec 1)
  deriving DecidableEq, Repr

/-- The management subsystem. -/
structure Mss where
  sensors : SMap Sensor
  choice : BitVec 2
  powerCap : BitVec 16
  /-- Gear limit of the measured V_SET (R484), and the V_SET in mV. -/
  vGear : BitVec 2
  vSet : Nat
  packagePower : Nat
  /-- Package power at each rail sample of the last 10 ms, in µW, newest first (R410). -/
  powers : List (DWord × Nat)
  /-- The gears that this device has requested, newest first, each from its count on (R294). -/
  gearReqs : List (DWord × BitVec 2)
  /-- When the condition CALM began to hold, and when the gear in force took effect (R410). -/
  calmSince : Option DWord
  gearSince : DWord
  /-- HOT has held at a sample since the previous tick. -/
  hotSeen : Bool
  droops : List Nat
  bands : SMap RefreshBand
  /-- The band that each stack's controller refreshes in, from its latest refresh on, and the refresh commands that it
  has issued (R31, R412). -/
  bandInForce : SMap Bool
  refreshes : SMap Nat
  plateFailed : BitVec 2
  restarts : Nat
  alert : Bool
  mgmtAlert : Bool
  -- the log
  sram : List LogEntry
  unmirrored : Nat
  nextSeq : DWord
  dropped : Nat
  degraded : Bool
  backup : List LogEntry
  backupFailed : Bool
  mirrorPos : Nat
  retiredSectors : List Nat
  lastMirror : DWord
  /-- A direct write to flash is under way (R426). -/
  writing : Bool
  -- CPER records not acknowledged, and those dropped
  cper : List Cper
  cperDropped : Nat
  -- firmware update, management network
  fw : FwUpdate
  sessions : List Session
  spdm : Spdm
  eid : BitVec 8
  dynamicAddress : Option (BitVec 7)
  deriving DecidableEq, Repr

/-! ### Boot, power, pins -/

inductive BootPhase where
  | inReset
  | booting
  | stopped
  | ready
  deriving DecidableEq, Repr

/-- What the VDD_AUX domain latches for the next boot (R486, R492, R501). -/
structure AuxLatches where
  trip : Option TripSensor
  sequencing : Option (BitVec 6)
  refclkLost : Bool
  deriving DecidableEq, Repr

/-- The instruction in the JTAG instruction register (R497). -/
inductive JtagInstr where
  | bypass
  | idcode
  | sample
  | extest
  | clamp
  | highz
  deriving DecidableEq, Repr

structure Boot where
  phase : BootPhase
  boardSlot : BitVec 3
  /-- BOARD_SLOT has been sampled since PERST_N was last asserted (R458). -/
  slotHeld : Bool
  recovery : Bool
  plates : BitVec 2
  uniqueId : DWord
  ownerKeyDigest : Option (BitVec 384)
  romDigest : BitVec 384
  /-- The flash, erased bytes reading 0xFF, and the two floor cells (R463, R476). -/
  flash : SMap Byte
  floor0 : DWord
  floor1 : DWord
  editionFloor : Word
  fwFloor : BitVec 16
  fwVersion : Word
  fwSlot : BitVec 1
  fwDigest : BitVec 384
  fwSvnFloor : BitVec 16
  /-- Power-up count, by its low 16 bits (R421). -/
  bootCount : Word
  /-- The supplies' good pins PGOOD_1–PGOOD_6 (R490). -/
  pgood : BitVec 6
  perstLow : Bool
  pwrFail : Bool
  thermTrip : Bool
  latches : AuxLatches
  jtag : JtagInstr
  /-- What the data register that the instruction selects shifts out. -/
  jtagData : Word
  boundary : List Bool
  deriving DecidableEq, Repr

/-! ### The grain source -/

structure Grain where
  seeds : List (BitVec 256)
  failed : Bool
  /-- Whether the start-up test of R300 has passed since reset or since the last failure (R301). -/
  startUp : Bool
  /-- The run of identical samples at the end of those tested, and its sample (R300). -/
  run : Nat
  lastSample : Option Byte
  deriving DecidableEq, Repr

/-! ### Registers -/

/-- A 32-bit half of a register that waits for its other half (R350). -/
structure HeldHalf where
  offset : BitVec 26
  value : Word
  deriving DecidableEq, Repr

/-- The registers of BAR0 that hold a value of their own; the others show state kept elsewhere. -/
structure Regs where
  refused : Bool
  refusedAt : BitVec 26
  heldWrite : Option HeldHalf
  readLatch : Option HeldHalf
  /-- What the last read through BAR0, BAR2 or the store window returned; none for an Unsupported
  Request, and whether the completion was poisoned. -/
  readData : List Byte
  readPoisoned : Bool
  unsupported : Bool
  gateAlarm : DWord
  gearFloor : BitVec 2
  gearNow : BitVec 2
  gearReq : BitVec 2
  syncLoad : DWord
  baseStep : DWord
  roleMap : Word
  roleEpoch : BitVec 16
  nextMap : Word
  nextEpoch : BitVec 16
  remoteValue : DWord
  remoteBusy : Option (BitVec 12 × BitVec 3 × DWord)
  loadAddr : DWord
  loadSize : DWord
  loadBusy : Bool
  /-- Address and size of the load under way, as they stood at its trigger (R323). -/
  loadFrom : DWord
  loadBytes : DWord
  loadStatus : BitVec 2
  loadReason : BitVec 5
  abortDone : Bool
  abortVector : BitVec 11
  abortIrqEn : Bool
  completionRing : BitVec 12
  eventRing : BitVec 12
  proofRing : BitVec 12
  seedRing : BitVec 12
  seedReplay : Bool
  bar2Aperture : BitVec 3
  debug : Bool
  capStep : DWord
  capStroke : BitVec 10
  capCluster : BitVec 6
  capPlate : BitVec 1
  capLengine : BitVec 3
  capArmed : Bool
  capDone : Bool
  capture : List Byte
  winBase : BitVec 48
  deriving DecidableEq, Repr

/-- The power gate of a cluster (R344). -/
inductive GateState where
  | on
  | draining
  | off
  | powering
  deriving DecidableEq, Repr

structure Gate where
  state : GateState
  pending : Bool
  deriving DecidableEq, Repr

def Gate.reset : Gate := ⟨.on, false⟩

/-- A cluster's remap word (R55, R364) and the mapping that a tail will apply. -/
structure Remap where
  lmap : List (Fin 9)
  spare : Option (Fin 9)
  retired : BitVec 9
  deriving DecidableEq, Repr

def Remap.reset : Remap := ⟨[0, 1, 2, 3, 4, 5, 6, 7], some 8, 0⟩

/-- The cumulative counters of a cluster and of a stack (R366). -/
structure ClusterCounts where
  cpSaturations : DWord
  sramCorrected : DWord
  deriving DecidableEq, Repr

def ClusterCounts.zero : ClusterCounts := ⟨0, 0⟩

structure StackCounts where
  corrected : DWord
  poisonReads : DWord
  deriving DecidableEq, Repr

def StackCounts.zero : StackCounts := ⟨0, 0⟩

/-! ### The whole state -/

structure State where
  pending : List Instr
  boardTime : DWord
  timeValid : Bool
  /-- REFCLK edges since reset (R421). -/
  refclk : DWord
  /-- SYNC_OUT is high until this REFCLK edge (R285, R494). -/
  syncEnds : DWord
  mem : Memory
  engines : SMap Engine
  counts : SMap EngineCounts
  remaps : SMap Remap
  nextRemaps : SMap Remap
  gates : SMap Gate
  clusterCounts : SMap ClusterCounts
  stackCounts : SMap StackCounts
  lanes : SMap DWord
  picks : SMap PickEntry
  windows : SMap PickWin
  stipples : SMap Stipple
  /-- Cycle at which each station's command completes, by source (R332). -/
  busy : SMap Nat
  /-- First cycle of this stroke at which each station may issue its next command (R50). -/
  nextIssue : SMap Nat
  /-- Commands that each station has taken of its stream in this step. -/
  taken : SMap Nat
  /-- The cycle of the stroke up to which everything has happened. -/
  clock : Nat
  /-- What the commands that have issued still do, by cycle; the writes that have issued, by cycle; the deferred
  accesses of the stroke. -/
  works : List Work
  writes : List WriteDue
  deferred : List Deferral
  tailEvents : List TailEvent
  /-- Reports of this stroke, by report kind and source (R133, R195, R202, R435). -/
  reports : SMap Nat
  partials : SMap Word
  /-- Charges of this stroke that its partials have not taken in yet. -/
  charges : List Charge
  norm : Option NormJob
  clip : ClipState
  /-- Fixed-point segments: E in force, and the local maximum, if FXEXP has started it (R273). -/
  segE : SMap Int
  segMax : SMap (Option (Option Int))
  markUpdates : List MarkUpdate
  remoteMarks : List RemoteMark
  marks : SMap DWord
  watches : SMap Watch
  seq : Seq
  links : SMap Link
  /-- The RECVs of this stroke, in the order of their issue. -/
  recvs : List OpenRecv
  ports : SMap Port
  seam : SMap SeamChan
  seamRetraining : Bool
  -- records
  sourceSeq : SMap DWord
  opened : List Record
  closed : List Record
  written : DWord
  rings : SMap Ring
  msix : SMap MsixEntry
  msixPending : List Nat
  gauges : SMap Gauge
  regs : Regs
  edition : Edition
  grain : Grain
  sec : Security
  mss : Mss
  boot : Boot
  /-- The model's own field: how many free values have been used. Log entry 4. -/
  freeCount : Nat
  deriving DecidableEq, Repr

/-! ### Reset -/

def Seq.reset : Seq :=
  { state := .idle, phase := .none, cartoon := none, curStep := BitVec.allOnes 64,
    curStroke := BitVec.allOnes 64, strokeInStep := 0, variant := 0, nextStep := 0, strokesRun := 0,
    upAtLaunch := [], stepsDone := 0, firstOpen := none,
    runBase := 0, faultStep := none, outSkip := [], launchAt := 0, strokeStart := 0, prevEnd := 0, ready := [],
    notices := [], wait := 0, alarmed := false, seed := 0, seedAuto := false, seedReplayed := false,
    nextSeed := none, seedFault := none, faults := [], stopBy := none, abortAt := none,
    abortPending := false, launchOk := false, closing := false, closeSent := false, refreshDone := [], events := 0,
    proof := [], shadowItems := [], spareItems := [], spareEcc := [], checkClusters := [],
    checkFault := false, checkSeed := 0, gearPending := none, normMsgs := [], maxima := [], staleReports := [],
    seamFailed := false, trial := false, loose := false, gearChecks := [] }

def Security.reset : Security :=
  { slots := [], cell0 := 0x3800_0000_0000_0000, cell1 := 0x3800_0000_0000_0000, commitCount := 0,
    activeSlot := 0, tenant := none, sealed := false, bar2Closed := false, job := none, waiting := [], scrub := none,
    sessions := [], nextSession := 1, tenantSession := none, spdm := Spdm.reset,
    importJob := none, importState := .none, importDone := 0, sealEngine := ⟨[], []⟩, responses := [], refusals := [],
    tdi := .unlocked, ide := [], ideStreams := [], sk := 0, doeAnswer := [], mctpAnswer := [] }

def Mss.reset : Mss :=
  { sensors := [], choice := 3, powerCap := 0, vGear := 0, vSet := 800, packagePower := 0, powers := [], gearReqs := [(0, 3)],
    calmSince := none, gearSince := 0, hotSeen := false, droops := [0, 0], bands := [], bandInForce := [], refreshes := [],
    plateFailed := 0, restarts := 0,
    alert := false, mgmtAlert := false, sram := [], unmirrored := 0, nextSeq := 0, dropped := 0,
    degraded := false, backup := [], backupFailed := false, mirrorPos := 0, retiredSectors := [],
    lastMirror := 0, writing := false, cper := [], cperDropped := 0,
    fw := { state := .idle, size := 0, received := 0, failed := false, pendingSlot := none },
    sessions := [], spdm := Spdm.reset, eid := 0, dynamicAddress := none }

def Boot.reset : Boot :=
  { phase := .ready, boardSlot := 0, slotHeld := false, recovery := false, plates := 3, uniqueId := 0,
    ownerKeyDigest := none, romDigest := 0, flash := [], floor0 := BitVec.allOnes 64,
    floor1 := BitVec.allOnes 64, editionFloor := 0, fwFloor := 0, fwVersion := 0, fwSlot := 0,
    fwDigest := 0, fwSvnFloor := 0, bootCount := 0, pgood := 0x3F, perstLow := false,
    pwrFail := false, thermTrip := false,
    latches := { trip := none, sequencing := none, refclkLost := false }, jtag := .idcode, jtagData := 0,
    boundary := [] }

def Regs.reset : Regs :=
  { refused := false, refusedAt := 0, heldWrite := none, readLatch := none, readData := [],
    readPoisoned := false, unsupported := false, gateAlarm := 10000000, gearFloor := 0, gearNow := 3,
    gearReq := 3, syncLoad := 0, baseStep := 0, roleMap := 0x8, roleEpoch := 1, nextMap := 0x8,
    nextEpoch := 1, remoteValue := 1, remoteBusy := none, loadAddr := 0, loadSize := 0,
    loadBusy := false, loadFrom := 0, loadBytes := 0, loadStatus := 0, loadReason := 0, abortDone := false, abortVector := 0,
    abortIrqEn := false, completionRing := 0, eventRing := 1, proofRing := 2, seedRing := 3,
    seedReplay := false, bar2Aperture := 0, debug := false, capStep := 0, capStroke := 0,
    capCluster := 0, capPlate := 0, capLengine := 0, capArmed := false, capDone := false,
    capture := [], winBase := 0x0080_0000_0000#48 }

/-- The machine at the end of the start-up, *ready* (R460). Log entries 1 and 2. -/
def State.reset : State :=
  { pending := [], boardTime := 0, timeValid := false, refclk := 0, syncEnds := 0,
    mem := { bytes := [], marks := [], fresh := [], early := [], host := [] },
    engines := [], counts := [], remaps := [], nextRemaps := [], gates := [], clusterCounts := [],
    stackCounts := [], lanes := [], picks := [], windows := [], stipples := [], busy := [],
    nextIssue := [], taken := [], clock := 0, works := [], writes := [], deferred := [], tailEvents := [],
    reports := [], partials := [], charges := [], norm := none,
    clip := { factor := 0x3F80_0000#32, nonfinite := false, validFrom := none },
    segE := [], segMax := [], markUpdates := [], remoteMarks := [], marks := [], watches := [],
    seq := Seq.reset, links := [], recvs := [], ports := [], seam := [], seamRetraining := false, sourceSeq := [],
    opened := [], closed := [], written := 0, rings := [], msix := [], msixPending := [],
    gauges := [], regs := Regs.reset, edition := Edition.default,
    grain := { seeds := [], failed := false, startUp := false, run := 0, lastSample := none }, sec := Security.reset,
    mss := Mss.reset, boot := Boot.reset, freeCount := 0 }

end Sys2Proof.Machine
end

