-- ==== Sys2Proof/Machine/Ops.lean ====
section
/-! DEFINITION. The shared operations over the state: places and sources, board time, records, events,
faults and the log. -/

namespace Sys2Proof.Machine

abbrev Out := Host.Outcome State Fault Refusal

/-! ### Places (R4, R332) -/

def clusterIdx (c : ClusterLoc) : Nat := 36 * c.plate.val + c.cluster.val
def clOf (e : EngineLoc) : ClusterLoc := ⟨e.plate, e.cluster⟩
def engineIdx (e : EngineLoc) : Nat := (36 * e.plate.val + e.cluster.val) * 8 + e.lengine.val
def unitIdx (u : UnitLoc) : Nat := 5 * u.plate.val + u.index.val
def selectorIdx (x : SelectorLoc) : Nat := 2 * x.plate.val + x.index.val

/-- Source IDs of R332. -/
def srcEngine (e : EngineLoc) (station : Nat) : Nat :=
  e.plate.val <<< 19 + e.cluster.val <<< 13 + e.lengine.val <<< 10 + station <<< 8
def srcCluster (c : ClusterLoc) (station : Nat) : Nat :=
  1 <<< 20 + c.plate.val <<< 19 + c.cluster.val <<< 13 + station <<< 8
def srcSelector (x : SelectorLoc) : Nat := 2 <<< 20 + x.plate.val <<< 19 + x.index.val <<< 8
def srcUnit (u : UnitLoc) : Nat := 3 <<< 20 + u.plate.val <<< 19 + u.index.val <<< 8
def srcPort (k : Nat) : Nat := 4 <<< 20 + k <<< 8
def srcSeam (n : Nat) : Nat := 5 <<< 20 + n <<< 8
def srcStack (n : Nat) : Nat := 6 <<< 20 + n <<< 8
def srcRing (n : Nat) : Nat := 7 <<< 20 + n
def srcSeq : Nat := 8 <<< 20
def srcMss : Nat := 9 <<< 20
def srcGrain : Nat := 10 <<< 20
def srcRelay : RelayLoc → Nat
  | .kazin k => srcPort k.val
  | .seam p => srcSeam (48 + p.val)
def srcLink : LinkRef → Nat
  | .kazin k => srcPort k.val
  | .seam _ ch => srcSeam ch.val

def srcStation : StationRef → Nat
  | .fetch e => srcEngine e 0
  | .etch e => srcEngine e 1
  | .finish e => srcEngine e 2
  | .store e => srcEngine e 3
  | .counterproof c => srcCluster c 0
  | .burnisher c => srcCluster c 1
  | .stipple c => srcCluster c 2
  | .selector x => srcSelector x
  | .updateUnit u => srcUnit u
  | .relay r => srcRelay r

/-- The station kind of R48. -/
def stationKind : StationRef → Nat
  | .fetch _ => 0 | .etch _ => 1 | .finish _ => 2 | .store _ => 3 | .counterproof _ => 4
  | .burnisher _ => 5 | .stipple _ => 6 | .selector _ => 7 | .updateUnit _ => 8
  | .relay (.seam _) => 9 | .relay (.kazin _) => 10

def stationEngine : StationRef → Option EngineLoc
  | .fetch e => some e | .etch e => some e | .finish e => some e | .store e => some e
  | _ => none

def stationPlate : StationRef → Fin 2
  | .fetch e => e.plate | .etch e => e.plate | .finish e => e.plate | .store e => e.plate
  | .counterproof c => c.plate | .burnisher c => c.plate | .stipple c => c.plate
  | .selector x => x.plate | .updateUnit u => u.plate
  | .relay (.seam p) => p
  | .relay (.kazin k) => if k.val < 8 then 0 else 1

def stationCluster : StationRef → Option ClusterLoc
  | .counterproof c => some c | .burnisher c => some c | .stipple c => some c
  | .selector _ => none | .updateUnit _ => none | .relay _ => none
  | .fetch e => some (clOf e) | .etch e => some (clOf e) | .finish e => some (clOf e) | .store e => some (clOf e)

/-- The number of a station among those of its kind. -/
def stationNumber : StationRef → Nat
  | .selector x => selectorIdx x
  | .updateUnit u => unitIdx u
  | .relay (.seam p) => 48 + p.val
  | .relay (.kazin k) => k.val
  | st => match stationCluster st with | some c => clusterIdx c | none => 0

/-- The number of a station as R48 numbers it: Selector, update unit or Kazin port within its plate, zero for the
others, whose place the engine fields give. Log entry 15. -/
def stationUnit : StationRef → Nat
  | .selector x => x.index.val
  | .updateUnit u => u.index.val
  | .relay (.kazin k) => k.val % 8
  | .relay (.seam _) => 0
  | .fetch _ => 0 | .etch _ => 0 | .finish _ => 0 | .store _ => 0
  | .counterproof _ => 0 | .burnisher _ => 0 | .stipple _ => 0

/-- The order of the stations in one cycle (R189). Log entry 28. -/
def stationRank : StationRef → Nat
  | .updateUnit u => unitIdx u
  | .fetch e => 1024 + engineIdx e
  | .etch e => 1024 + engineIdx e
  | .finish e => 2048 + engineIdx e
  | .store e => 3072 + engineIdx e
  | .counterproof c => 4096 + clusterIdx c
  | .burnisher c => 5120 + clusterIdx c
  | .selector x => 6144 + selectorIdx x
  | .relay (.kazin k) => 7168 + (if k.val < 8 then 0 else 16) + k.val % 8
  | .relay (.seam p) => 7168 + 16 * p.val + 8
  | .stipple c => 8192 + clusterIdx c

/-- Tie order of R133: Plate E first, then the lower cluster, then the lower logical engine. -/
def tieOrder (st : StationRef) : Nat :=
  match stationEngine st with
  | some e => engineIdx e
  | none => (stationPlate st).val * 288 + (match stationCluster st with
      | some c => c.cluster.val * 8 | none => 280 + stationNumber st % 8)

/-! ### Engines, remap, gates -/

def State.engine (s : State) (e : EngineLoc) : Engine := smapGet .empty s.engines (engineIdx e)
def State.remap (s : State) (c : ClusterLoc) : Remap := smapGet .reset s.remaps (clusterIdx c)
/-- A cluster by its index 36p + n. -/
def clusterAt (i : Nat) : ClusterLoc :=
  { plate := Fin.ofNat 2 (i / 36), cluster := Fin.ofNat 36 (i % 36) }

def State.gate (s : State) (c : ClusterLoc) : Gate := smapGet .reset s.gates (clusterIdx c)
def State.port (s : State) (k : Nat) : Port := smapGet .reset s.ports k
def State.setPort (s : State) (k : Nat) (p : Port) : State :=
  { s with ports := smapPut .reset s.ports k p }
def State.ring (s : State) (n : Nat) : Ring := smapGet .reset s.rings n
def State.setRing (s : State) (n : Nat) (r : Ring) : State :=
  { s with rings := smapPut .reset s.rings n r }
def State.mark (s : State) (n : Nat) : DWord := smapGet 0 s.marks n
def State.stipple (s : State) (c : ClusterLoc) : Stipple := smapGet .empty s.stipples (clusterIdx c)
def State.setStipple (s : State) (c : ClusterLoc) (x : Stipple) : State :=
  { s with stipples := smapPut .empty s.stipples (clusterIdx c) x }
def State.busyUntil (s : State) (src : Nat) : Nat := smapGet 0 s.busy src
def State.setBusy (s : State) (src n : Nat) : State := { s with busy := smapPut 0 s.busy src n }

/-- The physical engine behind a logical one (R55). -/
def State.phys (s : State) (e : EngineLoc) : Nat :=
  match (s.remap (clOf e)).lmap[e.lengine.val]? with
  | some f => f.val
  | none => e.lengine.val

/-- The plates that are offered (R354). -/
def State.plateOffered (s : State) (p : Nat) : Bool := bitAt s.boot.plates.toNat p

/-- The engine numbers of R510: logical, and physical. -/
def engineField (p c n : Nat) : Nat := p <<< 15 + c <<< 8 + n
def logicalField (e : EngineLoc) : Nat := engineField e.plate.val e.cluster.val e.lengine.val
def State.physField (s : State) (e : EngineLoc) : Nat := engineField e.plate.val e.cluster.val (s.phys e)

/-! ### Gears, strokes and board time -/

/-- Board-time counts of a stroke of Q quanta at a gear (R27, R506). -/
def quantumCounts (gear : Nat) : Nat :=
  match gear with | 0 => 2520 | 1 => 2800 | 2 => 3150 | _ => 3600

def State.quanta (s : State) : Nat :=
  match s.seq.cartoon with | some c => c.quanta.toNat | none => 0

/-- C of R27. -/
def State.cycles (s : State) : Nat := 5040 * s.quanta

/-- The first cycle of the stroke tail (R28). -/
def State.tailStart (s : State) : Nat := s.cycles - 504

/-- The board-time count at which a cycle of the current stroke begins, rounded up to a whole count. -/
def State.countAt (s : State) (cycle : Nat) : Nat :=
  s.seq.strokeStart.toNat + ceilDiv (cycle * quantumCounts s.regs.gearNow.toNat) 5040

/-- The count at which the current stroke ends. -/
def State.strokeEnd (s : State) : Nat := s.countAt s.cycles

/-- The cycle of the stroke that the block has reached: the latest that a station's stream or board time has. An
event between the commands falls there. -/
def State.nowCycle (s : State) : Nat :=
  max s.clock
    ((s.boardTime.toNat - s.seq.strokeStart.toNat) * 5040 / quantumCounts s.regs.gearNow.toNat)

/-- Board time moves on to a count; REFCLK edges follow it, ten counts each (R283). -/
def State.advanceTo (s : State) (t : Nat) : State :=
  if s.boardTime.toNat ≤ t then
    { s with boardTime := BitVec.ofNat 64 t,
             refclk := s.refclk + BitVec.ofNat 64 ((t - s.boardTime.toNat) / 10) }
  else s

/-! ### Role and group (R290, R357) -/

def mapNibble (m : Word) (slot : Nat) : Nat := field m.toNat (4 * slot) 4
def mapRole (m : Word) (slot : Nat) : Option Nat :=
  if mapNibble m slot ≥ 8 then some (mapNibble m slot % 8) else none
def mapSize (m : Word) : Nat := ((List.range 8).filter fun k => mapNibble m k ≥ 8).length
/-- The slot that holds a role. -/
def mapSlotOf (m : Word) (role : Nat) : Option Nat := (List.range 8).find? fun k => mapRole m k == some role
def State.role (s : State) : Option Nat := mapRole s.regs.roleMap s.boot.boardSlot.toNat
def State.groupSize (s : State) : Nat := mapSize s.regs.roleMap

/-- Lane-map entry of a port (R472). -/
def State.lane (s : State) (k : Nat) : LaneMapEntry := nth ⟨0, 0, 0⟩ s.edition.lanes k

/-- Whether the lane map wires a port to a role: to the slot that holds it (R282). A loopback is wired to the device's
own slot (R261, R472). -/
def State.wiredTo (s : State) (k role : Nat) : Bool :=
  let l := s.lane k
  (l.use == 1 || l.use == 2) && mapSlotOf s.regs.roleMap role == some l.peerSlot.toNat

/-- The other roles of the group. -/
def State.otherRoles (s : State) : List Nat :=
  match s.role with
  | some r => (List.range s.groupSize).filter (· != r)
  | none => []

/-! ### Fields of records (R510) -/

/-- Place fields of given widths from a bit position on: a field that would cross a 64-bit boundary
begins at the next one. -/
def packFrom : Nat → List (Nat × Nat) → Nat
  | _, [] => 0
  | pos, (w, v) :: r =>
    let p := if pos % 64 + w > 64 then roundUp pos 64 else pos
    (v % 2 ^ w) <<< p + packFrom (p + w) r

def packFields (l : List (Nat × Nat)) : Nat := packFrom 0 l

/-- The field widths of R510. -/
def f8 (v : Nat) : Nat × Nat := (8, v)
def f16 (v : Nat) : Nat × Nat := (16, v)
def f32 (v : Nat) : Nat × Nat := (32, v)
def f64 (v : Nat) : Nat × Nat := (64, v)
def f128 (v : Nat) : Nat × Nat := (128, v)
def fTemp (v : Int) : Nat × Nat := (16, unsigned 16 v)

/-- The payload of an event: code fields from bit 512 of the record on. -/
def eventPayload (l : List (Nat × Nat)) : BitVec 704 := BitVec.ofNat 704 (packFields l <<< 192)

/-! ### Records (R331–R335) -/

/-- Whether a run is in progress: records then carry its step and stroke. So do those of a check stroke that
follows a shadow mismatch (R441). -/
def State.inRun (s : State) : Bool :=
  s.seq.state == .running || s.seq.state == .waiting || s.seq.phase == .inStroke || s.seq.phase == .checkDue

/-- The step and stroke that a record carries: those running or last begun; before the first stroke of a run,
the step that is to begin and stroke 0. -/
def State.recStep (s : State) : DWord :=
  if s.inRun then (if s.seq.strokesRun = 0 then s.seq.nextStep else s.seq.curStep) else BitVec.allOnes 64
def State.recStroke (s : State) : DWord :=
  if s.inRun then (if s.seq.strokesRun = 0 then 0 else s.seq.curStroke) else BitVec.allOnes 64

/-- The next record of a source (R331, R333). -/
def State.mkRecord (s : State) (kind src code : Nat) (payload : BitVec 704) : Record :=
  { code := BitVec.ofNat 16 code, kind := BitVec.ofNat 2 kind,
    role := BitVec.ofNat 3 (s.role.getD 0), hasRole := s.role.isSome, epoch := s.regs.roleEpoch,
    source := BitVec.ofNat 24 src, seq := smapGet 0 s.sourceSeq src, stroke := s.recStroke,
    step := s.recStep, time := s.boardTime, payload := payload }

/-- A record joins the records of the stroke, which close in its last cycle (R28), or closes at once. -/
def State.addRecord (s : State) (r : Record) : State :=
  let s := { s with sourceSeq := smapPut 0 s.sourceSeq r.source.toNat (r.seq + 1) }
  if s.seq.phase = .inStroke then { s with opened := s.opened ++ [r] }
  else { s with closed := s.closed ++ [r] }

/-- EVENTS of R336: every event record that carries the step. -/
def State.countEvent (s : State) : State :=
  if s.inRun then { s with seq := { s.seq with events := s.seq.events + 1 } } else s

/-- The 128 bytes of a record (R331). -/
def recordBytes (r : Record) : List Byte :=
  leBytes 128 (r.code.toNat + r.kind.toNat <<< 16 + r.role.toNat <<< 20 + boolNat r.hasRole <<< 23
    + r.epoch.toNat <<< 24 + r.source.toNat <<< 40 + r.seq.toNat <<< 64 + r.stroke.toNat <<< 128
    + r.step.toNat <<< 192 + r.time.toNat <<< 256 + r.payload.toNat <<< 320)

/-! ### The log (R421–R428) -/

/-- The 128 bytes of a log entry, with its CRC over bytes 0–125 (R421). -/
def logBytes (e : LogEntry) : List Byte :=
  let b := leBytes 126 (e.code.toNat + e.kind.toNat <<< 16 + e.timeBase.toNat <<< 18
    + e.source.toNat <<< 24 + e.boot.toNat <<< 48 + e.seq.toNat <<< 64 + e.time.toNat <<< 128
    + e.step.toNat <<< 192 + e.stroke.toNat <<< 256 + e.detail.toNat <<< 320 + e.dropped.toNat <<< 992)
  b ++ leBytes 2 (crc16 b)

/-- The codes whose events the log receives (R422); the fragments of CPER records are not items of the
log. Log entry 16. -/
def loggedEvent (code : Nat) : Bool :=
  (decide (0x0300 ≤ code) && decide (code ≤ 0x05FF) && code != 0x0530) || code == 0x0106
    || code == 0x0107 || code == 0x0230

/-- Program bytes of the flash: bits only clear (R462). -/
def flashProgram (f : SMap Byte) (addr : Nat) : List Byte → SMap Byte
  | [] => f
  | b :: r => flashProgram (smapPut 0xFF f addr (smapGet 0xFF f addr &&& b)) (addr + 1) r

/-- Erase one 64 KiB sector. -/
def flashErase (f : SMap Byte) (addr : Nat) : SMap Byte := smapDrop f addr (addr + 0x1_0000)

def flashRead (f : SMap Byte) (addr n : Nat) : List Byte := smapGetList 0xFF f addr n

/-- Base of the log mirror in flash, and its entries (R423, R463). -/
def mirrorBase : Nat := 0x110_0000
def mirrorEntries : Nat := 16384

/-- The next mirror position that lies in no retired sector. -/
def mirrorNext (retired : List Nat) : Nat → Nat → Nat
  | 0, pos => pos % mirrorEntries
  | f + 1, pos =>
    let p := pos % mirrorEntries
    if retired.contains (p / 512) then mirrorNext retired f ((p / 512 + 1) * 512) else p

/-- Write one entry at the mirror's next place, erasing a sector that it enters (R423). -/
def State.mirrorOne (s : State) (e : LogEntry) : State :=
  let p := mirrorNext s.mss.retiredSectors 32 s.mss.mirrorPos
  let a := mirrorBase + 128 * p
  let f := if p % 512 = 0 then flashErase s.boot.flash a else s.boot.flash
  { s with boot := { s.boot with flash := flashProgram f a (logBytes e) },
           mss := { s.mss with mirrorPos := p + 1 } }

/-- An entry that comes finds the SRAM ring full of unmirrored ones: the oldest of them is lost, and this one counts it
(R423). -/
def Mss.ringFull (m : Mss) : Bool := !m.backupFailed && !m.degraded && decide (512 ≤ m.unmirrored)

/-- The entry that the log receives next (R421). -/
def State.nextEntry (s : State) (kind code src : Nat) (step stroke : DWord) (detail : BitVec 672) : LogEntry :=
  { code := BitVec.ofNat 16 code, kind := BitVec.ofNat 2 kind,
    timeBase := if s.timeValid then 0 else 1, source := BitVec.ofNat 24 src,
    boot := BitVec.ofNat 16 s.boot.bootCount.toNat, seq := s.mss.nextSeq,
    time := if s.timeValid then s.boardTime else s.refclk, step := step, stroke := stroke,
    detail := detail, dropped := BitVec.ofNat 16 (s.mss.dropped + boolNat s.mss.ringFull) }

/-- An entry joins the log that is in use: the SRAM ring, the backup log, or flash directly (R423, R425, R426). -/
def State.logEntry (s : State) (e : LogEntry) : State :=
  let m := s.mss
  if m.backupFailed then
    -- One direct write at a time, and none while PWR_FAIL_N is asserted.
    if s.boot.pwrFail || m.writing then { s with mss := { m with dropped := m.dropped + 1 } }
    else ({ s with mss := { m with nextSeq := m.nextSeq + 1, dropped := 0, writing := true } }).mirrorOne e
  else if m.degraded then
    if m.backup.length ≥ 32 then { s with mss := { m with dropped := m.dropped + 1 } }
    else { s with mss := { m with backup := m.backup ++ [e], nextSeq := m.nextSeq + 1, dropped := 0 } }
  else
    { s with mss := { m with sram := (m.sram ++ [e]).drop (m.sram.length - 511),
                             unmirrored := min 512 (m.unmirrored + 1),
                             nextSeq := m.nextSeq + 1, dropped := 0 } }

def State.logAppend (s : State) (kind code src : Nat) (step stroke : DWord) (detail : BitVec 672) : State :=
  s.logEntry (s.nextEntry kind code src step stroke detail)

/-- The severity of the CPER record of an item, if it has one (R427). -/
def cperSeverity (kind code : Nat) : Option Severity :=
  if code = 0x050A ∨ code = 0x0312 then some .fatal
  else if code = 0x0304 ∨ code = 0x0509 then some .corrected
  else if [0x0406, 0x0450, 0x0505, 0x0506, 0x0507, 0x0520, 0x0521, 0x0522, 0x0542].contains code then
    some .informational
  else if kind = 1 then some .recoverable
  else none

def severityCode : Severity → Nat
  | .recoverable => 0 | .fatal => 1 | .corrected => 2 | .informational => 3

/-- The 328 bytes of a CPER record (R427): the UEFI header and section descriptor, then the section.
Log entry 16. -/
def cperBytes (c : Cper) : List Byte :=
  let sev := leBytes 4 (severityCode c.severity)
  let guid : List Byte := [0x10, 0x2E, 0x4B, 0x7D, 0x2A, 0x1C, 0x83, 0x4F, 0x9B, 0x6E, 0x0A, 0x51, 0xC3,
    0xD8, 0xE2, 0x47]
  ascii "CPER" ++ leBytes 2 0x0101 ++ leBytes 4 0xFFFF_FFFF ++ leBytes 2 1 ++ sev ++ leBytes 4 0
    ++ leBytes 4 328 ++ leBytes 8 0 ++ leBytes 64 0 ++ leBytes 8 c.recordId.toNat ++ leBytes 24 0
    ++ leBytes 4 200 ++ leBytes 4 128 ++ leBytes 2 0x0100 ++ leBytes 6 0 ++ guid ++ leBytes 16 0 ++ sev
    ++ leBytes 20 0 ++ c.body

/-- A new CPER record joins the queue of 64 (R428), with the count of those dropped; 0x0520's goes ahead of all that
have not been sent (R425). -/
def cperPush (q : List Cper) (c : Cper) (first : Bool) : List Cper × Nat :=
  let place := fun (q : List Cper) =>
    if first then q.takeWhile (·.sent) ++ c :: q.dropWhile (·.sent) else q ++ [c]
  if q.length < 64 then (place q, 0)
  else
    match q.findIdx? (fun x => x.severity == .informational) with
    | some i => (place (q.eraseIdx i), 1)
    | none => (place (q.drop 1), 1)

/-- In an open management session every record that waits is sent (R428). -/
def State.sendCpers (s : State) : State :=
  if s.mss.sessions.any (·.open_) then
    { s with mss := { s.mss with cper := s.mss.cper.map fun c => { c with sent := true } } }
  else s

/-- The payload of fragment `i` of a CPER record on the event ring (R428). -/
def cperFragment (c : Cper) (i : Nat) : BitVec 704 :=
  BitVec.ofNat 704 (ofLe (leBytes 8 c.recordId.toNat ++ leBytes 1 i ++ leBytes 1 5
    ++ padTo 78 0 (((cperBytes c).drop (78 * i)).take 78)))

/-- An event record, with neither log entry nor CPER record of its own. -/
def State.emitPlain (s : State) (src code : Nat) (payload : BitVec 704) : State :=
  (s.countEvent).addRecord (s.countEvent.mkRecord 2 src code payload)

/-- The five fragments of a CPER record on the event ring (R428). -/
def State.emitFragments (s : State) (c : Cper) : State :=
  (List.range 5).foldl (fun s i => s.emitPlain srcMss 0x0530 (cperFragment c i)) s

/-- The CPER record of an item of the log (R427, R428); `id` is the LOG_SEQ of its entry. -/
def State.cperFor (s : State) (kind code : Nat) (id : DWord) (body : List Byte) : State :=
  match cperSeverity kind code with
  | none => s
  | some sev =>
    let c : Cper := ⟨id, sev, body, false⟩
    let q := cperPush s.mss.cper c (code == 0x0520)
    ({ s with mss := { s.mss with cper := q.1, cperDropped := s.mss.cperDropped + q.2,
                                  mgmtAlert := true } }).sendCpers.emitFragments c

/-- A log entry takes the count of CPER records dropped before it, when it has a CPER record (R428). -/
def State.takeCperDropped (s : State) (kind code : Nat) : State :=
  if (cperSeverity kind code).isSome then
    { s with mss := { s.mss with dropped := s.mss.dropped + s.mss.cperDropped, cperDropped := 0 } }
  else s

/-- Log a record of R331 (R422), with its CPER record. -/
def State.logRecord (s : State) (r : Record) : State :=
  let s := s.takeCperDropped r.kind.toNat r.code.toNat
  let id := s.mss.nextSeq
  let s := s.logAppend (if r.kind = 1 then 0 else 1) r.code.toNat r.source.toNat r.step r.stroke
    (r.payload.setWidth 672)
  s.cperFor r.kind.toNat r.code.toNat id (recordBytes r)

/-- Write an event: the record, and what the log and the CPER queue receive (R422, R427). -/
def State.emitRaw (s : State) (src code : Nat) (payload : BitVec 704) : State :=
  let r := s.countEvent.mkRecord 2 src code payload
  let s := s.countEvent.addRecord r
  if loggedEvent code then s.logRecord r else s

def State.emit (s : State) (src code : Nat) (fields : List (Nat × Nat)) : State :=
  s.emitRaw src code (eventPayload fields)

/-- A decision of the MSS: a log entry, with its CPER record where R427 gives one. -/
def State.decide_ (s : State) (code : Nat) (fields : List (Nat × Nat)) : State :=
  let s := s.takeCperDropped 2 code
  let e := s.nextEntry 2 code srcMss s.recStep s.recStroke (BitVec.ofNat 672 (packFields fields))
  (s.logEntry e).cperFor 2 code e.seq (logBytes e)

/-! ### Step-ending faults (R43, R134) -/

/-- A step-ending fault that arises in the stroke. `reported`: its own event record is written when it
arises, or is one of those that are left out; otherwise the stroke tail writes it. -/
def State.pend (s : State) (src code cycle order : Nat) (fields : List (Nat × Nat)) (reported : Bool)
    (aux : Nat := 0) : State :=
  let pf : PendingFault :=
    { code := code, cycle := cycle, order := order, source := src, aux := BitVec.ofNat 25 aux,
      fields := BitVec.ofNat 256 (packFields fields), reported := reported }
  { s with seq := { s.seq with faults := s.seq.faults ++ [pf] } }

/-- A step-ending fault, with the event record that reports it at once where it has one. -/
def State.raise (s : State) (src code cycle order : Nat) (fields : List (Nat × Nat)) (reported : Bool)
    (aux : Nat := 0) : State :=
  let s := s.pend src code cycle order fields reported aux
  if reported then s.emit src code fields else s

/-- How many reports of a kind a source has made in this stroke (R133, R195, R202, R435). -/
def reportKey (kind src : Nat) : Nat := kind * 2 ^ 24 + src
def State.reports_ (s : State) (kind src : Nat) : Nat := smapGet 0 s.reports (reportKey kind src)
def State.countReport (s : State) (kind src : Nat) : State :=
  { s with reports := smapMod 0 s.reports (reportKey kind src) (· + 1) }

/-- The kinds of reports that R195, R199, R202, R435 limit or count. -/
def repEcc : Nat := 2
def repPoison : Nat := 3
def repUnwritten : Nat := 4
def repGauge : Nat := 5

/-! ### MSI-X (R334, R373) -/

/-- Signal a vector: its message goes out, or its pending bit is set while it is masked. -/
def State.signal (s : State) (vector : Nat) : State :=
  let e := smapGet MsixEntry.reset s.msix vector
  if bitAt e.control.toNat 0 then
    (if s.msixPending.contains vector then s else { s with msixPending := s.msixPending ++ [vector] })
  else { s with mem := { s.mem with host := smapPutList 0 s.mem.host e.address.toNat (leBytes 4 e.data.toNat) } }

/-! ### Refused writes (R351) -/

def State.refuse (s : State) (offset : Nat) : State :=
  { s with regs := { s.regs with refused := true, refusedAt := BitVec.ofNat 26 offset } }

/-- Whether the MSS runs. -/
def State.mssRuns (s : State) : Bool := s.boot.phase == .booting || s.boot.phase == .ready

/-- BAR0 and BAR2 answer: the device is Ready, and not both of its plates have failed (R414, R459). -/
abbrev State.hostAnswers (s : State) : Prop := s.boot.phase = .ready ∧ s.boot.plates ≠ 0

/-- A host write of BAR0: the device must be ready (R459), and a half that was held is discarded (R350). -/
def hostWr (f : State → State) (s : State) : Out :=
  if s.hostAnswers then .next (f { s with regs := { s.regs with heldWrite := none } }) else .next s

/-- IDLE, LOADED or FAULTED (R351). -/
def State.quiet (s : State) : Bool :=
  s.seq.state == .idle || s.seq.state == .loaded || s.seq.state == .faulted

def State.busyRun (s : State) : Bool :=
  s.seq.state == .armed || s.seq.state == .running || s.seq.state == .waiting

/-- A fresh free value is due: the state counts those used. -/
def State.freeByte (s : State) : Byte × State :=
  (Config.freeByte s.freeCount, { s with freeCount := s.freeCount + 1 })

end Sys2Proof.Machine
end

