-- ==== Sys2Proof/Machine/Operands.lean ====
section
/-! DEFINITION. The places that operands name and the accesses made there: the device address space and
its spaces (R69–R71, R182–R190), ECC and poison (R194–R202), pick windows (R157–R159), and the rows of a
command. -/

namespace Sys2Proof.Machine

/-! ### The device address space (R182–R184) -/

def plateBase (p : Nat) : Nat := p * 0x0028_0000_0000
def hbmSize : Nat := 0x0028_0000_0000
def storeBase (p : Nat) : Nat := 0x0080_0000_0000 + p * 0x4000_0000
def storeSize : Nat := 0x2400_0000

/-- The plate whose HBM holds an address. -/
def hbmPlate (a : Nat) : Option Nat :=
  if a < hbmSize then some 0 else if a < 2 * hbmSize then some 1 else none

/-- The stack of an HBM address (R183). -/
def stackOf (a : Nat) : Nat :=
  let p := a / hbmSize
  5 * p + ((a - plateBase p) / 2048) % 5

/-- Plate, cluster and offset of a store-window address. -/
def storePlace (a : Nat) : Option (Nat × Nat × Nat) :=
  let f := fun p => if storeBase p ≤ a ∧ a < storeBase p + storeSize then
      some (p, (a - storeBase p) / 0x100_0000, (a - storeBase p) % 0x100_0000) else none
  (f 0).orElse fun _ => f 1

/-- Whether a store-window offset is mapped (R184). -/
def storeMapped (off : Nat) : Bool :=
  decide (off < 0x40_0000) || (decide (0x80_0000 ≤ off) && decide (off < 0xC8_0000))

def isEngineStore (a : Nat) : Bool :=
  match storePlace a with
  | some (_, _, off) => decide (0x80_0000 ≤ off) && decide (off < 0xC8_0000)
  | none => false

/-- Whether an address is listed by R182 and R184. -/
def mapped (a : Nat) : Bool :=
  (hbmPlate a).isSome || (match storePlace a with | some (_, _, off) => storeMapped off | none => false)

def clusterStoreAddr (c : ClusterLoc) : Nat := storeBase c.plate.val + c.cluster.val * 0x100_0000
def engineStoreAddr (c : ClusterLoc) (phys : Nat) : Nat := clusterStoreAddr c + 0x80_0000 + 0x8_0000 * phys

/-- The cartoon region and the checkpoint area of a plate, as device address ranges (R187, R450, R473). -/
def State.hbmMap (s : State) (p : Nat) : HbmMap := nth ⟨159744, 4096, 2555903⟩ s.edition.hbm p
def State.cartBase (s : State) (p : Nat) : Nat := plateBase p + (s.hbmMap p).cartBase.toNat * 2 ^ 20
def State.cartSize (s : State) (p : Nat) : Nat := (s.hbmMap p).cartSize.toNat * 2 ^ 20
def State.ckptBase (s : State) (p : Nat) : Nat := plateBase p + (s.hbmMap p).ckptBase.toNat * 2 ^ 16

def State.inCartoonRegion (s : State) (a n : Nat) : Bool :=
  overlap a n (s.cartBase 0) (s.cartSize 0) || overlap a n (s.cartBase 1) (s.cartSize 1)

/-- The checkpoint area is that of the lowest-lettered plate offered (R450). -/
def State.inCheckpointArea (s : State) (a n : Nat) : Bool :=
  match [0, 1].filter s.plateOffered with
  | p :: _ => overlap a n (s.ckptBase p) 0x1_0000
  | [] => false

/-- A range that a station of a plate may reach in HBM (R71, R187, R450). -/
def State.hbmOk (s : State) (p a n : Nat) : Bool :=
  inside a n (plateBase p) hbmSize && !s.inCartoonRegion a n && !s.inCheckpointArea a n

/-! ### Spaces (R69, R71, R185) -/

/-- Read latency of a space, which is also its write-to-read visibility (R69). -/
def latency (space : Nat) : Nat := match space with | 0 => 8 | 1 => 40 | _ => 1280

/-- The device address of byte `off` of a space, as a station reaches it, when the `n` bytes from there
lie inside the space. -/
def State.spaceAddr (s : State) (st : StationRef) (space off n : Nat) : Option Nat :=
  match space with
  | 0 => match stationEngine st with
    | some e => if off + n ≤ 0x8_0000 then some (engineStoreAddr (clOf e) (s.phys e) + off) else none
    | none => none
  | 1 => match stationCluster st with
    | some c => if off + n ≤ 0x40_0000 then some (clusterStoreAddr c + off) else none
    | none => none
  | 2 => if s.hbmOk (stationPlate st).val off n then some off else none
  | _ => none

/-- Whether the `n` bytes from `off` lie inside a space, as the load check asks (R71). -/
def State.spaceOk (s : State) (st : StationRef) (space off n : Nat) : Bool :=
  (s.spaceAddr st space off n).isSome

/-! ### Bytes and marks -/

/-- What the check bits of a word say, with the stroke rule for engine stores (R29, R201). -/
def markAt (m : Memory) (w : Nat) : EccMark :=
  if isEngineStore (8 * w) && !smapGet false m.fresh w then .unwritten
  else smapGet .unwritten m.marks w

/-- One byte, with the stroke rule for engine stores. -/
def byteAt (m : Memory) (a : Nat) : Byte :=
  if isEngineStore a && !smapGet false m.fresh (wordOf a) then 0 else smapGet 0 m.bytes a

def bytesAt (m : Memory) (a : Nat) : Nat → List Byte
  | 0 => []
  | n + 1 => byteAt m a :: bytesAt m (a + 1) n

def marksAt (m : Memory) (w : Nat) : Nat → List EccMark
  | 0 => []
  | n + 1 => markAt m w :: marksAt m (w + 1) n

/-- Number of words that `n` bytes from `a` touch. -/
def wordsOf (a n : Nat) : Nat := if n = 0 then 0 else wordOf (a + n - 1) - wordOf a + 1

/-- The whole of a word: its eight bytes, and its mark. -/
def putWord (m : Memory) (w : Nat) (bs : List Byte) (mk : EccMark) : Memory :=
  { m with bytes := smapPutList 0 m.bytes (8 * w) bs, marks := smapPut .unwritten m.marks w mk,
           fresh := if isEngineStore (8 * w) then smapPut false m.fresh w true else m.fresh }

/-- Some bytes of one word (R198): a whole word replaces it; a part is merged with what it held, a
poisoned word keeps its poison, and the rest of an unwritten word is zero. -/
def putPiece (m : Memory) (w off : Nat) (bs : List Byte) : Memory :=
  if bs.length = 8 then putWord m w bs .good
  else if markAt m w = .poison then m
  else
    let old := bytesAt m (8 * w) 8
    putWord m w (old.take off ++ bs ++ old.drop (off + bs.length)) .good

/-- Bytes from an address on, word by word. -/
def putBytes : Nat → Memory → Nat → List Byte → Memory
  | 0, m, _, _ => m
  | _ + 1, m, _, [] => m
  | f + 1, m, a, bs =>
    let k := 8 - a % 8
    putBytes f (putPiece m (wordOf a) (a % 8) (bs.take k)) (a + k) (bs.drop k)

def Memory.put (m : Memory) (a : Nat) (bs : List Byte) : Memory := putBytes (bs.length + 1) m a bs

/-- The poison pattern in a word: its data bits are zero (R194, R196). -/
def poisonWord (m : Memory) (w : Nat) : Memory := putWord m w (List.replicate 8 0) .poison

/-- Words of a write that find a correctable error in the old contents (R198). -/
def partialCorrected (m : Memory) (a n : Nat) : List Nat :=
  ((List.range (wordsOf a n)).map (· + wordOf a)).filter fun w =>
    markAt m w == .correctable && !inside (8 * w) 8 a n

/-! ### Reads with visibility (R69, R190) -/

/-- Whether a read at cycle `t`, served in HBM at cycle `u`, sees a write: in HBM when its service cycle is later, in
a store once the write is visible. -/
def seesWrite (w : EarlyWrite) (t u : Int) : Bool :=
  if (hbmPlate w.addr).isSome then decide (w.cycle < u)
  else decide (w.cycle + (if isEngineStore w.addr then 8 else 40) ≤ t)

/-- Replace what lies inside [a, a + n) of a byte list that begins at `a` by old bytes. -/
def overlayBytes (a : Nat) (bs : List Byte) (oa : Nat) (old : List Byte) : List Byte :=
  bs.zipIdx.map fun p =>
    if oa ≤ a + p.2 ∧ a + p.2 < oa + old.length then nth 0 old (a + p.2 - oa) else p.1

def overlayMarks (w : Nat) (ms : List EccMark) (ow : Nat) (old : List EccMark) : List EccMark :=
  ms.zipIdx.map fun p =>
    if ow ≤ w + p.2 ∧ w + p.2 < ow + old.length then nth .unwritten old (w + p.2 - ow) else p.1

/-- The bytes and marks that a read finds: the writes it does not see are undone, newest first. -/
def viewAt (m : Memory) (a n : Nat) (t u : Int) : List Byte × List EccMark :=
  m.early.foldl (fun v w =>
      if seesWrite w t u || !overlap a n w.addr w.bytes.length then v
      else (overlayBytes a v.1 w.addr w.bytes, overlayMarks (wordOf a) v.2 (wordOf w.addr) w.marks))
    (bytesAt m a n, marksAt m (wordOf a) (wordsOf a n))

/-- The words among `n` from word `w` on that a read finds poisoned; with a tenant, a 16-byte block of HBM that holds a
poisoned word reads as poisoned in both (R394). -/
def poisonedIn (m : Memory) (tenant : Bool) (w n : Nat) (t u : Int) : List Nat :=
  let f := w - w % 2
  let ms := (viewAt m (8 * f) (8 * (w % 2 + n + (w + n) % 2)) t u).2
  let bad := fun x => nth .unwritten ms (x - f) == .poison
  ((List.range n).map (w + ·)).filter fun x => bad x || (tenant && (hbmPlate (8 * x)).isSome && bad (x ^^^ 1))

/-- What a read delivers: bytes, poisoned words (their bytes are zero), corrected words, and words that
hold the unwritten pattern. -/
structure ReadData where
  bytes : List Byte
  poison : List Nat
  corrected : List Nat
  unwritten : List Nat
  deriving DecidableEq, Repr

def ReadData.join (x y : ReadData) : ReadData :=
  ⟨x.bytes ++ y.bytes, (x.poison ++ y.poison).eraseDups, (x.corrected ++ y.corrected).eraseDups,
   (x.unwritten ++ y.unwritten).eraseDups⟩

/-- A read at cycle `t` whose words are served at cycle `u`. -/
def State.readServed (s : State) (a n : Nat) (t u : Int) : ReadData :=
  let v := viewAt s.mem a n t u
  let ws := v.2.zipIdx.map fun p => (wordOf a + p.2, p.1)
  let pois := poisonedIn s.mem s.sec.tenant.isSome (wordOf a) (wordsOf a n) t u
  { bytes := if pois.isEmpty then v.1
      else v.1.zipIdx.map fun p => if pois.contains (wordOf (a + p.2)) then 0 else p.1,
    poison := pois,
    corrected := (ws.filter fun p => p.2 == .correctable).map (·.1),
    unwritten := (ws.filter fun p => p.2 == .unwritten).map (·.1) }

def State.readAt (s : State) (a n : Nat) (t : Int) : ReadData := s.readServed a n t t

/-! ### Service cycles (R189, R190) -/

/-- Whether a cycle lies in a stack's refresh slot (R30). -/
def inRefresh (stack t : Nat) : Bool := (t % 2520) / 252 == stack

/-- The cycle in which a stack accepts an access that comes in cycle `t`: the end of the refresh slot, if it is in
one. -/
def acceptCycle (stack t : Nat) : Nat := if inRefresh stack t then t - t % 252 + 252 else t

/-- The rank of an access of its own kind beside a station's others: the read of a schedule, which takes its place
on every stack (R218). -/
def scheduleRank : Nat := 2 ^ 14

/-- The rank of a spill write of an ACCUM, which the load check places on every stack (R175). -/
def spillRank : Nat := 2 ^ 15

/-- Whether the load check has placed an access through a window by another address of the same stack (R161). -/
def byStack (rank : Nat) : Bool := decide (scheduleRank ≤ rank) || rank / 1024 == 1 || rank / 1024 == 3

/-- The service cycle of byte `x` of an access, by the deferrals of its cycle and station. -/
def serviceIn (l : List Deferral) (rank t x : Nat) : Nat :=
  match l.find? (fun d => decide (d.addr ≤ x) && decide (x < d.addr + d.bytes)) with
  | some d => d.service
  | none =>
    match l.find? (fun d => byStack rank && decide ((x % 10240 + 10240 - d.addr % 10240) % 10240 < d.bytes)) with
    | some d => d.service
    | none => t

/-- Byte ranges joined where the service cycle is the same. -/
def joinServed (l : List Served) : List Served :=
  (l.foldl (fun (acc : List Served) p =>
    match acc with
    | x :: r => if x.service = p.service then ⟨x.addr, x.bytes + p.bytes, x.service⟩ :: r else p :: x :: r
    | [] => [p]) []).reverse

/-- The parts of `n` bytes from `a` that each lie in one word. -/
def wordParts (a n : Nat) : List (Nat × Nat) :=
  (List.range (wordsOf a n)).map fun i =>
    let lo := max a (8 * (wordOf a + i))
    (lo, min (a + n) (8 * (wordOf a + i + 1)) - lo)

/-- An access of a station at cycle `t`, in parts of one service cycle each. -/
def State.served (s : State) (rank t : Nat) (write : Bool) (a n : Nat) : List Served :=
  let l := s.deferred.filter fun d => d.t == t && d.rank == rank && d.write == write
  if l.isEmpty then [⟨a, n, t⟩]
  else joinServed ((wordParts a n).map fun p => ⟨p.1, p.2, serviceIn l rank t p.1⟩)

def State.readParts (s : State) (t : Nat) (l : List Served) : ReadData :=
  l.foldl (fun (r : ReadData) p => r.join (s.readServed p.addr p.bytes t p.service)) ⟨[], [], [], []⟩

/-! ### What a read reports (R195, R196, R199, R202) -/

/-- The memory kind of 0x0201: HBM, cluster store, engine store. -/
def memoryKind (a : Nat) : Nat := if (hbmPlate a).isSome then 0 else if isEngineStore a then 2 else 1

def satInc (d : DWord) : DWord := if d = BitVec.allOnes 64 then d else d + 1
def satAdd (d : DWord) (n : Nat) : DWord :=
  if d.toNat + n ≥ 2 ^ 64 then BitVec.allOnes 64 else BitVec.ofNat 64 (d.toNat + n)

/-- The source under which a correction at an address is reported (R195). -/
def correctionSource (a : Nat) : Nat :=
  match storePlace a with
  | some (p, c, _) => (1 <<< 20) + (p <<< 19) + (c <<< 13) + (3 <<< 8)
  | none => srcStack (stackOf a)

def State.countCorrected (s : State) (a : Nat) : State :=
  match storePlace a with
  | some (p, c, _) =>
    let f := fun (x : ClusterCounts) => { x with sramCorrected := satInc x.sramCorrected }
    { s with clusterCounts := smapMod .zero s.clusterCounts (36 * p + c) f }
  | none =>
    let f := fun (x : StackCounts) => { x with corrected := satInc x.corrected }
    { s with stackCounts := smapMod .zero s.stackCounts (stackOf a) f }

/-- The reader of a word that no station reads: all ones. Log entry 16. -/
def noReader : Nat := 2 ^ 32 - 1

/-- The report of a correction: at most 16 events per source and stroke (R195). -/
def State.noteCorrected (s : State) (src a kind reader : Nat) : State :=
  let s := s.countReport repEcc src
  if s.reports_ repEcc src ≤ 16 then s.emit src 0x0201 [f64 a, f8 kind, f32 reader] else s

/-- One corrected word: the counters, and its report. -/
def State.reportCorrected (s : State) (reader w : Nat) : State :=
  let a := 8 * w
  (s.countCorrected a).noteCorrected (correctionSource a) a (memoryKind a) reader

/-- The stack, or the cluster, of an address, as a poison record names it (R199). -/
def unitOf (a : Nat) : Nat :=
  match storePlace a with | some (p, c, _) => 36 * p + c | none => stackOf a

/-- The engine fields of a record: 15 in the index when the station has no engine (R510). -/
def State.engineFields (s : State) (st : StationRef) : Nat × Nat :=
  match stationEngine st with
  | some e => (logicalField e, s.physField e)
  | none =>
    let c := match stationCluster st with | some c => c.cluster.val | none => 0
    let f := engineField (stationPlate st).val c 15
    (f, f)

/-- What every poison record carries (R199): `unit` is the stack or the cluster of the word. -/
def State.poisonFields (s : State) (st : StationRef) (issue a unit : Nat) : List (Nat × Nat) :=
  let ef := s.engineFields st
  [f8 (stationKind st), f16 (stationUnit st), f16 ef.1, f16 ef.2, f32 issue, f64 a, f16 unit,
   f32 (s.reports_ repPoison (srcStation st))]

/-- The order of a poison fault among those of its stroke: the issue cycle, then the tie rule of R133. -/
def poisonOrder (st : StationRef) (issue : Nat) : Nat := issue * 1024 + tieOrder st

/-- The record of a poisoned word that a station has read. -/
def State.notePoison (s : State) (st : StationRef) (code issue arrival a unit : Nat) : State :=
  let s := s.countReport repPoison (srcStation st)
  s.raise (srcStation st) code arrival (poisonOrder st issue) (s.poisonFields st issue a unit) true

/-- A poisoned word counts for its stack. -/
def State.countPoison (s : State) (a : Nat) : State :=
  let f := fun (x : StackCounts) => { x with poisonReads := satInc x.poisonReads }
  if (hbmPlate a).isSome then { s with stackCounts := smapMod .zero s.stackCounts (stackOf a) f } else s

/-- One poisoned word read by a station (R196, R199). -/
def State.reportPoison (s : State) (st : StationRef) (issue arrival w : Nat) : State :=
  (s.countPoison (8 * w)).notePoison st 0x0210 issue arrival (8 * w) (unitOf (8 * w))

/-- One read of an unwritten word in debug mode (R202). -/
def State.reportUnwritten (s : State) (st : StationRef) (issue w : Nat) : State :=
  let src := srcStation st
  let s := s.countReport repUnwritten src
  if s.reports_ repUnwritten src ≤ 16 then
    s.emit src 0x0220 [f8 (stationKind st), f16 (stationUnit st), f32 issue, f64 (8 * w)]
  else s

/-- Everything that a station's read reports. -/
def State.reportRead (s : State) (st : StationRef) (issue arrival : Nat) (r : ReadData) : State :=
  let s := r.corrected.foldl (fun s w => s.reportCorrected (srcStation st) w) s
  let s := r.poison.foldl (fun s w => s.reportPoison st issue arrival w) s
  if s.regs.debug then r.unwritten.foldl (fun s w => s.reportUnwritten st issue w) s else s

/-- A station's read at cycle `t`: the data, and the state with what it reports. -/
def State.rankRead (s : State) (st : StationRef) (rank issue t arrival a n : Nat) : ReadData × State :=
  let r := s.readParts t (s.served rank t false a n)
  (r, s.reportRead st issue arrival r)

def State.stationRead (s : State) (st : StationRef) (issue t arrival a n : Nat) : ReadData × State :=
  s.rankRead st (stationRank st) issue t arrival a n

/-! ### Descriptors (R512) -/

/-- A descriptor that arrives: it was read in the command's issue cycle, and is acted on when it has come. -/
def State.descRead (s : State) (st : StationRef) (issue space off n : Nat) : ReadData × State :=
  match s.spaceAddr st space off n with
  | some a => s.stationRead st issue issue (issue + latency space) a n
  | none => (⟨List.replicate n 0, [], [], []⟩, s)

/-- The bytes of a descriptor as they stand at cycle `t`, as a number. -/
def State.descNow (s : State) (st : StationRef) (space off n t : Nat) : Nat :=
  match s.spaceAddr st space off n with
  | some a => ofLe (s.readAt a n t).bytes
  | none => 0

/-! ### Writes -/

/-- What the memory was where a write falls, for the reads that do not see it. -/
def State.keepOld (s : State) (cycle : Int) (a n : Nat) : List EarlyWrite :=
  ⟨a, cycle, bytesAt s.mem a n, marksAt s.mem (wordOf a) (wordsOf a n)⟩ :: s.mem.early

/-- With a tenant, a write to one word of an unwritten block of HBM writes both (R394). -/
def wholeBlocks (tenant : Bool) (a n : Nat) (m : Memory) : Memory :=
  if tenant && (hbmPlate a).isSome then
    (List.range (wordsOf a n)).foldl (fun m i =>
      let w := (wordOf a + i) ^^^ 1
      if markAt m w = .unwritten then { m with marks := smapPut .unwritten m.marks w .good } else m) m
  else m

/-- A write that reaches a copy of constant data: from then on a descriptor may differ from the one that the load check
has read (R512). -/
def State.touched (s : State) (a n : Nat) : State :=
  let hit := match s.seq.cartoon with
    | some c => c.consts.any fun k => overlap a n k.dest k.length
    | none => false
  if hit then { s with seq := { s.seq with loose := true } } else s

/-- Bytes, and the poison pattern in the words named, take their place; what a merge corrects is reported under the
writer (R198). -/
def State.placeBytes (s : State) (writer a : Nat) (bs : List Byte) (pois : List Nat := []) : State :=
  let fixed := partialCorrected s.mem a bs.length
  let m := wholeBlocks s.sec.tenant.isSome a bs.length (pois.foldl poisonWord (s.mem.put a bs))
  fixed.foldl (fun s x => s.reportCorrected writer x) (({ s with mem := m } : State).touched a bs.length)

/-- What a write replaces stays known to the reads that do not see it. -/
def State.keeping (s : State) (cycle : Int) (a n : Nat) : State :=
  { s with mem := { s.mem with early := s.keepOld cycle a n } }

/-- The memory takes a write. The load check's device keeps the image's constant data (R323). -/
def State.takeWrite (s : State) (w : WriteDue) : State :=
  if s.seq.trial then s
  else (s.keeping w.due w.addr w.bytes.length).placeBytes w.source w.addr w.bytes w.poison

/-- A write takes its place among those that wait. -/
def insertWrite (w : WriteDue) : List WriteDue → List WriteDue
  | [] => [w]
  | x :: r => if w.due < x.due then w :: x :: r else x :: insertWrite w r

/-- A write in parts of one service cycle each: each waits for its cycle. -/
def State.writeParts (s : State) (source a : Nat) (bs : List Byte) (pois : List Nat) (l : List Served) : State :=
  { s with writes := l.foldl (fun ws p =>
      insertWrite ⟨p.service, source, p.addr, (bs.drop (p.addr - a)).take p.bytes,
        pois.filter fun w => decide (wordOf p.addr ≤ w) && decide (8 * w < p.addr + p.bytes)⟩ ws) s.writes }

/-- A station's write at cycle `t`. -/
def State.stationWrite (s : State) (st : StationRef) (t a : Nat) (bs : List Byte) (pois : List Nat := []) :
    State :=
  s.writeParts (srcStation st) a bs pois (s.served (stationRank st) t true a bs.length)

/-- The parts of an access by granule (R183): first byte and number of bytes. -/
def granules (a n : Nat) : List (Nat × Nat) :=
  let first := a / 2048
  (List.range ((a + n - 1) / 2048 + 1 - first)).map fun i =>
    let lo := max a (2048 * (first + i))
    (lo, min (a + n) (2048 * (first + i + 1)) - lo)

/-- The cycle of a stroke in which a memory takes what comes from outside the stations: a stack waits for the end of
its refresh slot (R30). -/
def State.outsideCycle (s : State) (a : Nat) : Nat :=
  if (hbmPlate a).isSome then acceptCycle (stackOf a) s.clock else s.clock

/-- A write from outside the stations: in a stroke, reads of cycles that have passed do not see it. -/
def State.outsideWrite (s : State) (writer a : Nat) (bs : List Byte) : State :=
  if s.seq.phase = .inStroke then
    ((granules a bs.length).foldl (fun s p => s.keeping (s.outsideCycle p.1) p.1 p.2) s).placeBytes writer a bs
  else s.placeBytes writer a bs

/-! ### Pick memory and pick windows (R157–R159) -/

/-- Key of entry `i` of a plate's pick memory. -/
def pickKey (p i : Nat) : Nat := p * 8192 + i

/-- A pick entry as an access at cycle `t` uses it: written at t − 1 or earlier (R159). -/
def State.pickAt (s : State) (p i t : Nat) : Nat :=
  let e := smapGet .zero s.picks (pickKey p i)
  match e.writes.find? (fun w => decide (w.1 < t)) with
  | some w => w.2.toNat
  | none => e.value.toNat

/-- What a window is armed with at cycle `t`. -/
def winAt (w : PickWin) (t : Int) : Option WinDesc :=
  w.next.foldl (fun cur n => if n.1 ≤ t then n.2 else cur) w.cur

def WinDesc.span (d : WinDesc) : Nat := d.ng * d.b * (d.slotWords * 8)

/-- The window of a plate that covers a byte address at cycle `t`. -/
def State.windowOf (s : State) (p a : Nat) (t : Int) : Option WinDesc :=
  (List.range 16).findSome? fun w =>
    match winAt (smapGet .empty s.windows (16 * p + w)) t with
    | some d => if d.winBase * 8 ≤ a ∧ a < d.winBase * 8 + d.span then some d else none
    | none => none

/-- What a free value may depend on: the step, the stroke, the place. -/
def State.freeKey (s : State) (k : Nat) : List Nat := [s.seq.curStep.toNat, s.seq.curStroke.toNat, k]

/-- The block of a window's target that a pick names. A pick that names none has come from a descriptor that differs
from the image's; then some block of the target is reached (R13, R512). Log entry 61. -/
def State.pickBlock (s : State) (d : WinDesc) (p i t : Nat) : Nat :=
  let b := s.pickAt p i t
  if b < d.nblk then b else (Config.freeWord (158 :: t :: i :: s.freeKey p)).toNat % d.nblk

/-- The address that an access of Fetch or Store reaches (R158). -/
def State.translate (s : State) (p a : Nat) (t : Nat) : Nat :=
  match s.windowOf p a t with
  | some d =>
    let sz := d.slotWords * 8
    let off := a - d.winBase * 8
    d.tgtBase * 8 + s.pickBlock d p (d.pickBase + off / sz) t * sz + off % sz
  | none => a

/-- Where a row access of an engine station goes: its device address, through the windows in HBM. -/
def State.rowPlace (s : State) (st : StationRef) (space off n t : Nat) : Option Nat :=
  match s.spaceAddr st space off n with
  | some a => some (if space = 2 then s.translate (stationPlate st).val a t else a)
  | none => none

/-! ### The two engines that may run a command (R436, R437) -/

/-- A logical engine, or the spare of its cluster while it shadows it. -/
structure Who where
  e : EngineLoc
  spare : Bool
  deriving DecidableEq, Repr

def Who.key (w : Who) : Nat := if w.spare then 576 + clusterIdx (clOf w.e) else engineIdx w.e
def State.eng (s : State) (w : Who) : Engine := smapGet .empty s.engines w.key
def State.setEng (s : State) (w : Who) (x : Engine) : State :=
  { s with engines := smapPut .empty s.engines w.key x }

/-- Whether the spare of its cluster shadows this engine in the current stroke (R436). -/
def State.shadowed (s : State) (e : EngineLoc) : Bool :=
  (s.remap (clOf e)).spare.isSome && s.seq.curStroke.toNat % 8 == e.lengine.val

/-- What an engine command does, in the spare first, so that both draw from the same counters (R305). -/
def State.forBoth (s : State) (e : EngineLoc) (f : Who → State → State) : State :=
  f ⟨e, false⟩ (if s.shadowed e then f ⟨e, true⟩ s else s)

/-- The physical engine whose store a command reads and writes as SPACE 0 (R437). -/
def State.storeOf (s : State) (w : Who) : Nat :=
  if w.spare then (match (s.remap (clOf w.e)).spare with | some f => f.val | none => 0) else s.phys w.e

/-- Where a row access goes, for the engine that makes it. -/
def State.whoPlace (s : State) (w : Who) (st : StationRef) (space off n t : Nat) : Nat :=
  if space = 0 then engineStoreAddr (clOf w.e) (s.storeOf w) + off
  else (s.rowPlace st space off n t).getD off

/-- A read by an engine station. The spare issues none outside its own store and reports none; what its
own store shows is kept for R440. -/
def State.whoRead (s : State) (w : Who) (st : StationRef) (issue t arrival space a n : Nat) :
    ReadData × State :=
  let r := if space = 2 then s.readParts t (s.served (stationRank st) t false a n) else s.readAt a n t
  if w.spare then
    (r, if space = 0 && !(r.poison.isEmpty && r.corrected.isEmpty) then
          { s with seq := { s.seq with spareEcc := smapPut false s.seq.spareEcc (clusterIdx (clOf w.e)) true } }
        else s)
  else (r, s.reportRead st issue arrival r)

/-- An item enters the check value of the shadowed engine, or of its spare (R438). -/
def State.checkItem (s : State) (w : Who) (it : CheckItem) : State :=
  let k := clusterIdx (clOf w.e)
  if w.spare then { s with seq := { s.seq with spareItems := smapMod [] s.seq.spareItems k (· ++ [it]) } }
  else if s.shadowed w.e then
    { s with seq := { s.seq with shadowItems := smapMod [] s.seq.shadowItems k (· ++ [it]) } }
  else s

/-! ### Rows of a command (R73, R78, R89) -/

/-- Byte offset of row `i` of a run-strided command. -/
def runOffset (addr8 runM1 stride8 rowLen i : Nat) : Nat :=
  addr8 * 8 + i / (runM1 + 1) * (stride8 * 8) + i % (runM1 + 1) * rowLen

/-- Row length of ROW_LEN (R73). -/
def rowLenBytes (code : Nat) : Nat := 8 <<< code

/-! ### Issue (R28, R49, R50) -/

/-- The reason of the first condition that fails. -/
def firstBad : List (Bool × Nat) → Option Nat
  | [] => none
  | (ok, n) :: r => if ok then firstBad r else some n

/-- Whether the stroke that runs comes to a command's issue cycle: outside it a station takes no command (R49). Log
entry 57. -/
def State.comesTo (s : State) (i : Issue) : Bool :=
  s.seq.phase == .inStroke && s.seq.cartoon.isSome && decide (i.stroke.toNat = s.seq.strokeInStep)
    && decide (s.clock ≤ i.cycle.toNat)

/-- What the load check refuses of a command's place: the tail, a plate that the cartoon does not name, a cycle that its
stream has passed (R47, R49, R50). -/
def State.issueError (s : State) (st : StationRef) (i : Issue) : Option Nat :=
  firstBad [
    (decide (i.cycle.toNat < s.tailStart), 12),
    ((match s.seq.cartoon with | some c => bitAt c.plateMask.toNat (stationPlate st).val | none => true), 5),
    (decide (smapGet 0 s.nextIssue (srcStation st) ≤ i.cycle.toNat), 11)]

/-- A command issues: its stream moves past its cycle (R50). -/
def State.issued (s : State) (st : StationRef) (i : Issue) : State :=
  { s with nextIssue := smapPut 0 s.nextIssue (srcStation st) (i.cycle.toNat + 1),
           taken := smapMod 0 s.taken (srcStation st) (· + 1) }

/-! ### The agenda -/

def insertWork (w : Work) : List Work → List Work
  | [] => [w]
  | x :: r => if w.due < x.due ∨ (w.due = x.due ∧ w.rank < x.rank) then w :: x :: r else x :: insertWork w r

/-- A command has something to do at a cycle. -/
def State.plan (s : State) (st : StationRef) (cycle due : Nat) (j : Job) : State :=
  { s with works := insertWork ⟨due, stationRank st, cycle, j⟩ s.works }

/-- Read cycle, or cycles, of row `i`, and the cycle in which the row reaches the station (R70, R73). -/
def rowReadAt (space n c i : Nat) : Nat := if space = 0 ∧ n = 256 then c + 2 * i else c + i
def rowArrives (space n c i : Nat) : Nat :=
  (if space = 0 ∧ n = 256 then c + 2 * i + 1 else c + i) + latency space

end Sys2Proof.Machine
end

