-- ==== Sys2Proof/Machine/Flags.lean ====
section
/-! DEFINITION. What the stations compute beside their results: the run counters (R366), the draws of the
generator lanes (R302–R305), gauges (R433–R435), proof digests (R446–R448, R513) and norm charges (R227). -/

namespace Sys2Proof.Machine

/-! ### Run counters (R366) -/

def State.addDrainBubbles (s : State) (e : EngineLoc) (n : Nat) : State :=
  let f := fun (x : EngineCounts) => { x with drainBubbles := satAdd x.drainBubbles n }
  { s with counts := smapMod .zero s.counts (engineIdx e) f }

def State.addSaturations (s : State) (e : EngineLoc) (n : Nat) : State :=
  let f := fun (x : EngineCounts) => { x with saturations := satAdd x.saturations n }
  { s with counts := smapMod .zero s.counts (engineIdx e) f }

def State.addStoreWaits (s : State) (e : EngineLoc) (n : Nat) : State :=
  let f := fun (x : EngineCounts) => { x with storeWaits := satAdd x.storeWaits n }
  { s with counts := smapMod .zero s.counts (engineIdx e) f }

/-! ### Draws (R302–R304) -/

/-- Index of a lane (R365). -/
def engineLane (e : EngineLoc) (k : Nat) : Nat := engineIdx e * 4 + k
def selectorLane (x : SelectorLoc) (k : Nat) : Nat := 2304 + selectorIdx x * 4 + k

/-- Stream number σ of a lane (R303). -/
def laneStream (k l unit p role : Nat) : Nat := k + l <<< 2 + unit <<< 5 + p <<< 11 + role <<< 12
def engineStream (e : EngineLoc) (k role : Nat) : Nat :=
  laneStream k e.lengine.val e.cluster.val e.plate.val role
def selectorStream (x : SelectorLoc) (k role : Nat) : Nat := laneStream k 0 (62 + x.index.val) x.plate.val role

/-- The role of the cartoon in force. -/
def State.cartoonRole (s : State) : Nat := match s.seq.cartoon with | some c => c.role.toNat | none => 0

/-- A draw at counter D of a lane (R303, R304): the output, before D advances. -/
def drawAt (seed : BitVec 256) (spaced : Bool) (stream d : Nat) : Nat :=
  let s := seed.toNat
  let k := field s 0 64 ^^^ field s 192 64
  let b := field s 64 128
  let k0 := k % 2 ^ 32
  let k1 := k >>> 32
  if spaced then philox k0 k1 ((b + stream * 2 ^ 64 + d) % 2 ^ 128)
  else philox k0 ((k1 ^^^ stream) % 2 ^ 32) ((b + d) % 2 ^ 128)

/-- The draw of a lane, by index and stream number. -/
def State.drawLane (s : State) (lane stream : Nat) : Nat :=
  drawAt s.seq.seed s.edition.genMode stream (smapGet 0 s.lanes lane).toNat

/-- D advances by one (modulo 2⁶⁴). -/
def State.advanceLane (s : State) (lane : Nat) : State :=
  { s with lanes := smapMod 0 s.lanes lane (· + 1) }

/-- The four draws that a row of a DRAIN takes, and the counters after them (R309). The spare draws with the
counters of its engine, which it has run ahead of by some rows, and advances none (R305). -/
def State.rowDraws (s : State) (w : Who) : List Nat × State :=
  let r := s.cartoonRole
  let ahead := if w.spare then (s.eng w).drawn - (s.eng ⟨w.e, false⟩).drawn else 0
  let f := fun k => drawAt s.seq.seed s.edition.genMode (engineStream w.e k r)
    (((smapGet 0 s.lanes (engineLane w.e k)).toNat + ahead) % 2 ^ 64)
  let s := s.setEng w { s.eng w with drawn := (s.eng w).drawn + 1 }
  ((List.range 4).map f,
   if w.spare then s else (List.range 4).foldl (fun s k => s.advanceLane (engineLane w.e k)) s)

/-- The 16-bit random value of element `j` of a row. -/
def rowRandom (draws : List Nat) (j : Nat) : Nat := field (nth 0 draws (j / 8)) (16 * (j % 8)) 16

/-! ### Gauges (R433–R435) -/

/-- Whether a finite value exceeds MAX_ABS. -/
def overGauge (g : Gauge) (v : Word) : Bool := isFinite v && fgt (fabs v) g.maxAbs

/-- Over and non-finite counts and the largest finite |v| of some values, joined to those before. -/
def gaugeCount (g : Gauge) (c : Nat × Nat × Word) (vals : List Word) : Nat × Nat × Word :=
  vals.foldl (fun c v =>
    if isFinite v then (c.1 + boolNat (overGauge g v), c.2.1, if fgt (fabs v) c.2.2 then fabs v else c.2.2)
    else (c.1, c.2.1 + 1, c.2.2)) c

def breaches (g : Gauge) (beyond nonfinite : Nat) : Bool :=
  decide (beyond > 0) || (g.maxNonfinite != 0xFFFF && decide (nonfinite > g.maxNonfinite.toNat))

/-- A gauge tile that breaches its setting: the first 16 of an engine and stroke are reported; a breach
of a setting that the edition names is a fault in any case. -/
def State.gaugeBreach (s : State) (e : EngineLoc) (issue cycle id tile beyond nonfinite : Nat) (largest : Word) :
    State :=
  let src := srcEngine e 2
  let s := s.countReport repGauge src
  let fields := [f16 (logicalField e), f16 (s.physField e), f32 issue, f16 id, f32 tile, f32 beyond,
    f32 nonfinite, f32 largest.toNat]
  let fault := bitAt s.edition.gaugeFault.toNat id
  let s := if s.reports_ repGauge src ≤ 16 then s.emit src (if fault then 0x0161 else 0x0160) fields else s
  if fault then s.pend src 0x0161 cycle (engineIdx e) fields true else s

/-! ### Proof digests (R446–R448, R513) -/

/-- PRK of the tenant (R381). -/
def tenantPrk (t : Tenant) : List Byte := hkdfExtract (leBytes 16 t.tenantId.toNat) (leBytes 32 t.tmk.toNat)

/-- DK (R513). -/
def State.proofKey (s : State) : List Byte :=
  let d := match s.seq.cartoon with | some c => c.digest | none => 0
  let m := ascii "CMN proof" ++ leBytes 48 d.toNat
  match s.sec.tenant with
  | none => (sha384 m).take 16
  | some t => hkdfExpand (tenantPrk t) m 16

/-- A hashed tile joins its proof slot (R448). -/
def State.addTile (s : State) (slot index : Nat) (tile : List Byte) : State :=
  let h := BitVec.ofNat 128 (hashH s.proofKey index tile)
  let f := fun (p : ProofSlot) => { sum := p.sum + h, tiles := p.tiles + 1 }
  { s with seq := { s.seq with proof := smapMod .zero s.seq.proof slot f } }

/-! ### Norm charges (R90, R227) -/

/-- The squares of a row join a partial in element order. -/
def addSquares (p : Word) (vals : List Word) : Word := vals.foldl (fun p x => fadd p (fmul x x)) p

def insertCharge (c : Charge) : List Charge → List Charge
  | [] => [c]
  | x :: r =>
    if c.cycle < x.cycle ∨ (c.cycle = x.cycle ∧ c.order < x.order) then c :: x :: r else x :: insertCharge c r

/-- The partials take in every charge of a cycle before `limit`, in cycle order and, within a cycle, by
cluster and logical engine. -/
def State.settleCharges (s : State) (limit : Nat) : State :=
  let due := s.charges.filter fun c => decide (c.cycle < limit)
  { s with
    charges := s.charges.filter fun c => !decide (c.cycle < limit),
    partials := due.foldl (fun m c => smapMod 0 m c.unit (fun p => addSquares p c.vals)) s.partials }

end Sys2Proof.Machine
end

