-- ==== Sys2Proof/Machine/Links.lean ====
section
/-! DEFINITION. What both ends of a link do: flits and their numbers (R257–R261), sending and replay (R259,
R260), landing in the RECVs of the stroke (R262, R271), control messages (R266), stale flits (R291) and the
encryption of payloads (R395). -/

namespace Sys2Proof.Machine

/-! ### Links -/

def linkKey : LinkRef → Nat
  | .kazin k => k.val
  | .seam p ch => 16 + 48 * p.val + ch.val

def State.link (s : State) (l : LinkRef) : Link := smapGet .empty s.links (linkKey l)
def State.setLink (s : State) (l : LinkRef) (x : Link) : State :=
  { s with links := smapPut .empty s.links (linkKey l) x }

/-- The number by which a record names a link: port, or Seam channel. -/
def linkNumber : LinkRef → Nat
  | .kazin k => k.val
  | .seam _ ch => ch.val

def State.seamChan (s : State) (n : Nat) : SeamChan := smapGet .up s.seam n

/-- Whether frames flow on a port. -/
def Port.live (p : Port) : Bool := p.state == .up || p.state == .draining

/-- Whether frames flow on a link. A port that has left UP in a run takes no further part in it (R276). -/
def State.linkUp (s : State) : LinkRef → Bool
  | .kazin k => (s.port k.val).state == .up && !(s.port k.val).left
  | .seam _ ch => (s.seamChan ch.val).locked

def allPorts : List (Fin 16) := [0, 1, 2, 3, 4, 5, 6, 7, 8, 9, 10, 11, 12, 13, 14, 15]
def seamLinks : List LinkRef :=
  (List.finRange 48).flatMap fun ch => [.seam 0 ch, .seam 1 ch]

/-! ### Payload encryption (R395) -/

/-- The tweak of a flit. -/
def linkTweak (slot port : Nat) (ctrl : Bool) (number stroke : Nat) : Nat :=
  slot + port <<< 3 + boolNat ctrl <<< 7 + (number % 2 ^ 64) <<< 8
    + (if ctrl then 0 else (stroke % 2 ^ 56) <<< 72)

/-- A Kazin payload under the link key of the role epoch in force; types 7 and 8 travel in clear. -/
def State.linkCrypt (s : State) (enc : Bool) (slot port : Nat) (h : FlitHeader) (number : Nat)
    (m : List Byte) : List Byte :=
  let ctrl := h.kind == 2
  match s.sec.tenant with
  | none => m
  | some t =>
    if ctrl && (h.ctype == 7 || h.ctype == 8) then m
    else
      let key := hkdfExpand (tenantPrk t) (ascii "CMN kazin xts" ++ leBytes 2 s.regs.roleEpoch.toNat) 64
      xtsString key enc (linkTweak slot port ctrl number s.seq.curStroke.toNat) m

/-! ### Numbers (R259) -/

/-- The number congruent to SEQ, counted from the lowest missing number upward. -/
def rebuild (next seq : Nat) : Nat := next + (seq + 4096 - next % 4096) % 4096

/-- Whether a rebuilt number is new: within 2,048 of the lowest missing one, and not landed. -/
def isNew (next : Nat) (ahead : List Nat) (n : Nat) : Bool :=
  decide (n < next + 2048) && !ahead.contains n

/-- A number lands. -/
def advanceFuel : Nat → Nat → List Nat → Nat × List Nat
  | 0, next, ahead => (next, ahead)
  | f + 1, next, ahead =>
    if ahead.contains next then advanceFuel f (next + 1) (ahead.filter (· ≠ next)) else (next, ahead)

def markLanded (next : Nat) (ahead : List Nat) (n : Nat) : Nat × List Nat :=
  advanceFuel (ahead.length + 1) next (ahead ++ [n])

/-! ### Role and epoch of a flit (R261, R291) -/

/-- Whether a flit is for another role or epoch than the device's own. -/
def State.isStale (s : State) (h : FlitHeader) : Bool :=
  decide (s.role ≠ some h.destRole.toNat) || h.epoch != s.regs.roleEpoch

/-! ### Slots (R254, R258) -/

/-- The count that the machine has reached: the commands' time, and that of the stations. -/
def State.nowCount (s : State) : Nat :=
  max s.boardTime.toNat (if s.seq.phase = .inStroke then s.countAt s.clock else 0)

/-- Whether a slot starts in a stroke, and before its tail: every other slot is a control slot. -/
def State.slotInStroke (s : State) (n : Nat) : Bool :=
  (s.seq.phase == .inStroke || s.seq.phase == .strokeDue) && decide (s.seq.strokeStart.toNat ≤ n)
    && decide (n < s.countAt s.tailStart)

/-- The first data slot from a count on: a stroke's tail, and time without a stroke, have none. -/
def State.dataSlotFrom (s : State) (n : Nat) : Option Nat :=
  let m := if 96 ≤ n % 100 then n / 100 * 100 + 100 else n
  if s.slotInStroke m then some m else none

/-- The first replay slot from a count on. -/
def State.replaySlotFrom (s : State) (n : Nat) : Option Nat :=
  let m := if n % 100 < 96 then n / 100 * 100 + 96 else if n % 100 = 99 then n + 97 else n
  if s.slotInStroke m then some m else none

/-- The first control slot from a count on. -/
def State.ctrlSlotFrom (s : State) (n : Nat) : Nat :=
  if s.slotInStroke n then min (n / 100 * 100 + 99) (s.countAt s.tailStart) else n

/-- The class of a slot. -/
inductive SlotClass where
  | data
  | replay
  | control
  deriving DecidableEq, Repr

def State.slotClass (s : State) (n : Nat) : SlotClass :=
  if !s.slotInStroke n || n % 100 == 99 then .control else if 96 ≤ n % 100 then .replay else .data

/-- A flit joins those of the frames that have not gone out. -/
def Link.put (x : Link) (now : Nat) (f : Flit) : Link :=
  { x with sent := (x.sent.filter fun g => decide (now / 5 * 5 ≤ g.slot)) ++ [f] }

/-! ### Sending -/

/-- The header of a flit that this device sends. -/
def State.flitHeader (s : State) (dest : Nat) (ctrl : Bool) (ctype : Nat) (poison : Bool) : FlitHeader :=
  { destRole := BitVec.ofNat 3 dest, epoch := s.regs.roleEpoch, kind := if ctrl then 2 else 1, seq := 0,
    srcRole := BitVec.ofNat 3 (s.role.getD 0), ctype := BitVec.ofNat 8 ctype,
    poison := BitVec.ofNat 1 (boolNat poison) }

/-- A board-time check carries the start of the slot that carries it (R286). -/
def stampTime (h : FlitHeader) (slot : Nat) (p : List Byte) : List Byte :=
  if h.kind = 2 ∧ h.ctype = 7 then leBytes 8 slot ++ p.drop 8 else p

/-- A flit with its number, as it leaves a Kazin port in a slot. -/
def State.sealFlit (s : State) (k : Fin 16) (f : Flit) (number slot : Nat) : Flit :=
  { header := { f.header with seq := BitVec.ofNat 12 number }, number := number, slot := slot,
    payload := s.linkCrypt true s.boot.boardSlot.toNat k.val f.header number (stampTime f.header slot f.payload) }

/-- Waiting data flits leave in data slots, while fewer than 512 are unacknowledged (R258, R259). -/
def pumpData : Nat → Fin 16 → State → State
  | 0, _, s => s
  | f + 1, k, s =>
    let x := s.link (.kazin k)
    match x.sendQueue with
    | [] => s
    | d :: r =>
      match s.dataSlotFrom (max x.dataFrom s.nowCount) with
      | some n =>
        if s.linkUp (.kazin k) && decide (x.txUnacked.length < 512) then
          let g := s.sealFlit k d x.txData n
          pumpData f k (s.setLink (.kazin k) ({ x with
            sendQueue := r, txData := x.txData + 1, txUnacked := x.txUnacked ++ [g], dataFrom := n + 1 }.put s.nowCount g))
        else s
      | none => s

/-- Waiting control flits leave in control slots, while fewer than 64 are unacknowledged. -/
def pumpCtrl : Nat → Fin 16 → State → State
  | 0, _, s => s
  | f + 1, k, s =>
    let x := s.link (.kazin k)
    match x.ctrlQueue with
    | [] => s
    | d :: r =>
      if s.linkUp (.kazin k) && decide (x.txCtrlUnacked.length < 64) then
        let n := s.ctrlSlotFrom (max x.ctrlFrom s.nowCount)
        let g := s.sealFlit k d x.txCtrl n
        pumpCtrl f k (s.setLink (.kazin k) ({ x with
          ctrlQueue := r, txCtrl := x.txCtrl + 1, txCtrlUnacked := x.txCtrlUnacked ++ [g], ctrlFrom := n + 1
          }.put s.nowCount g))
      else s

def State.pumpLink (s : State) (k : Fin 16) : State :=
  let x := s.link (.kazin k)
  pumpCtrl (x.ctrlQueue.length + 1) k (pumpData (x.sendQueue.length + 1) k s)

/-- A control message on a port that is UP (R266); any other port sends nothing. -/
def State.sendCtrl (s : State) (k : Fin 16) (dest ctype : Nat) (payload : List Byte) : State :=
  if s.linkUp (.kazin k) then
    let x := s.link (.kazin k)
    let f : Flit := ⟨s.flitHeader dest true ctype false, 0, padTo 250 0 payload, 0⟩
    (s.setLink (.kazin k) { x with ctrlQueue := x.ctrlQueue ++ [f] }).pumpLink k
  else s

/-- The port on which R266 sends control messages to a role. -/
def State.ctrlPortFin (s : State) (role : Nat) : Option (Fin 16) :=
  allPorts.find? fun k => s.wiredTo k.val role && s.linkUp (.kazin k)

def State.sendToRole (s : State) (role ctype : Nat) (payload : List Byte) : State :=
  match s.ctrlPortFin role with
  | some k => s.sendCtrl k role ctype payload
  | none => s

/-- A message to every other role of the group. -/
def State.sendToAll (s : State) (ctype : Nat) (payload : List Byte) : State :=
  s.otherRoles.foldl (fun s r => s.sendToRole r ctype payload) s

/-! ### Payloads of the control messages (R266) -/

def closePayload (data ctrl stroke : Nat) : List Byte := leBytes 4 data ++ leBytes 4 ctrl ++ leBytes 8 stroke
def markPayload (mark value : Nat) : List Byte := leBytes 2 mark ++ leBytes 8 value
def gatePayload (step ready : Nat) : List Byte := leBytes 8 step ++ leBytes 8 ready
def stopPayload (code role step stroke : Nat) : List Byte :=
  leBytes 2 code ++ leBytes 1 role ++ leBytes 8 step ++ leBytes 8 stroke
/-- Norm total: an FP32 total; an exponent maximum; or ten aligned partials. -/
def normPayload (mode aligned total : Nat) (slots : List Nat) : List Byte :=
  let head := if mode = 0 then leBytes 4 total else if aligned = 0 then leBytes 2 total
    else List.replicate 10 0 ++ slots.flatMap (leBytes 16)
  padTo 249 0 head ++ leBytes 1 (mode + 2 * aligned)
/-- A signed 16-bit exponent, 0x8000 for none. -/
def exp16 (e : Option Int) : Nat := match e with | some e => unsigned 16 e | none => 0x8000
def exp16Of (x : Nat) : Option Int := if x % 2 ^ 16 = 0x8000 then none else some (signed 16 x)
def maximaPayload (l : List (Option Int)) : List Byte := l.flatMap fun e => leBytes 2 (exp16 e)

/-- The role-stale report (R293). -/
def stalePayload (m : StaleMsg) : List Byte :=
  leBytes 23 (m.staleDestRole.toNat + m.staleEpoch.toNat <<< 3 + m.staleSrcRole.toNat <<< 19
    + m.staleKind.toNat <<< 22 + m.staleSeq.toNat <<< 24 + m.rxSlot.toNat <<< 64 + m.rxHasRole.toNat <<< 67
    + m.rxRole.toNat <<< 68 + m.rxEpoch.toNat <<< 72 + m.staleCount.toNat <<< 88 + m.stroke.toNat <<< 120)

/-- The board-time check (R286). -/
def checkPayload (m : CheckMsg) : List Byte :=
  leBytes 51 (m.txTime.toNat + m.echoTx.toNat <<< 64 + m.echoRx.toNat <<< 128 + m.launchAt.toNat <<< 192
    + m.baseStep.toNat <<< 256 + m.edition.toNat <<< 320 + m.roleEpoch.toNat <<< 352 + m.slot.toNat <<< 368
    + m.hasRole.toNat <<< 371 + m.role.toNat <<< 372 + m.groupSize.toNat <<< 376 + m.gearReq.toNat <<< 380
    + m.gearNow.toNat <<< 382 + m.runState.toNat <<< 384 + m.strokeQuanta.toNat <<< 392)

/-! ### Stale flits (R291) -/

/-- The device's board slot, as every record of the group logic carries it (R299). -/
def State.slotField (s : State) : Nat × Nat := f16 s.boot.boardSlot.toNat

def State.staleMsg (s : State) (h : FlitHeader) (number count : Nat) : StaleMsg :=
  { staleDestRole := h.destRole, staleEpoch := h.epoch, staleSrcRole := h.srcRole, staleKind := h.kind,
    staleSeq := BitVec.ofNat 40 number, rxSlot := s.boot.boardSlot,
    rxHasRole := BitVec.ofNat 1 (boolNat s.role.isSome), rxRole := BitVec.ofNat 3 (s.role.getD 0),
    rxEpoch := s.regs.roleEpoch, staleCount := BitVec.ofNat 32 count,
    stroke := if s.inRun then s.recStroke else 0 }

/-- A stale flit, acknowledged already: it is counted, and the first on its port in a stroke, or in a period
of 65,536 counts outside one, is answered. A device without a role only discards it. -/
def State.staleFlit (s : State) (k : Fin 16) (h : FlitHeader) (number : Nat) : State :=
  if s.role.isNone then s
  else
    let p := s.port k.val
    let period := s.boardTime.toNat / 65536 + 1
    let fresh := s.seq.phase != .inStroke && p.stalePeriod != period
    let run := if fresh then 0 else p.staleRun
    let s := s.setPort k.val { p with stale := satInc p.stale, staleRun := run + 1,
                                      stalePeriod := if s.seq.phase = .inStroke then p.stalePeriod else period }
    if run = 0 then
      (s.emit (srcPort k.val) 0x0321 [s.slotField]).sendCtrl k h.srcRole.toNat 8
        (stalePayload (s.staleMsg h number 1))
    else s

/-! ### The RECVs of the stroke (R262, R270, R271) -/

def recvBytes (a : RecvArgs) : Nat := (a.wordsM1.toNat + 1) * (if a.op = 0 then 8 else 24)
def recvFlits (a : RecvArgs) : Nat := ceilDiv (recvBytes a) 250
/-- Flits of a RECV on the channel at distance `d` from its first. -/
def chanFlits (a : RecvArgs) (d : Nat) : Nat := (recvFlits a + a.widthM1.toNat - d) / (a.widthM1.toNat + 1)

/-- The distance of a link from the first channel of a RECV that takes its flits. -/
def recvChan (r : OpenRecv) (l : LinkRef) : Option Nat :=
  match r.relay, l with
  | .kazin k, .kazin j => if k = j then some 0 else none
  | .seam p, .seam q ch =>
    if p = q ∧ r.args.firstCh.toNat ≤ ch.val ∧ ch.val ≤ r.args.firstCh.toNat + r.args.widthM1.toNat then
      some (ch.val - r.args.firstCh.toNat) else none
  | _, _ => none

/-- The RECV, by its place, and the flit index within it that data flit `n` of a link belongs to. -/
def findRecv : List OpenRecv → Nat → LinkRef → Nat → Option (Nat × Nat)
  | [], _, _, _ => none
  | r :: rs, i, l, n =>
    match recvChan r l with
    | none => findRecv rs (i + 1) l n
    | some d =>
      let c := chanFlits r.args d
      if n < c then some (i, n * (r.args.widthM1.toNat + 1) + d) else findRecv rs (i + 1) l (n - c)

/-- Data flits of a link that the stroke's RECVs take. -/
def flitsTaken (rs : List OpenRecv) (l : LinkRef) : Nat :=
  sumNat (rs.map fun r => match recvChan r l with | some d => chanFlits r.args d | none => 0)

/-- Words that `n` bytes from `a` touch, as numbers. -/
def wordsIn (a n : Nat) : List Nat := (List.range (wordsOf a n)).map (· + wordOf a)

/-- Bytes [lo, lo + n) of a stream whose flits have landed. -/
def streamBytes (landed : SMap (Option Flit)) (lo n : Nat) : List Byte :=
  (List.range n).map fun i =>
    match smapGet none landed ((lo + i) / 250) with
    | some f => nth 0 f.payload ((lo + i) % 250)
    | none => 0

/-- The cycle at which a RECV's reservation ends (R271). -/
def recvLimit (c : Nat) (a : RecvArgs) : Nat := c + 64 * a.reserve.toNat

/-- Words that a RECV claims of each stack in each reserved cycle. -/
def recvRate (a : RecvArgs) : Nat := (if a.op = 0 then 4 else 6) * (a.widthM1.toNat + 1)

/-- The first cycle from `t` on that is a service cycle of a stack. -/
def nextService (stack t : Nat) : Nat :=
  let a := acceptCycle stack t
  if a % 32 = 31 then acceptCycle stack (a + 1) else a

/-- `n` words of a stack take the earliest reserved cycle that has room for them all, from `t` on. -/
def OpenRecv.serve (r : OpenRecv) (stack t n : Nat) : Nat × OpenRecv :=
  let p := smapGet (0, 0) r.served stack
  let u := nextService stack (max t p.1)
  let z := if u = p.1 ∧ recvRate r.args < p.2 + n then (nextService stack (u + 1), n)
    else if u = p.1 then (u, p.2 + n) else (u, n)
  (z.1, { r with served := smapPut (0, 0) r.served stack z })

/-- The pieces of a write of a RECV, each word in the earliest reserved cycle. -/
def OpenRecv.serveWords (r : OpenRecv) (t a n : Nat) : List Served × OpenRecv :=
  let z := (wordParts a n).foldl (fun (z : List Served × OpenRecv) p =>
    let y := z.2.serve (stackOf p.1) t 1
    (z.1 ++ [⟨p.1, p.2, y.1⟩], y.2)) ([], r)
  (joinServed z.1, z.2)

/-- A RECV writes the pieces of a flit that its reservation serves. -/
def State.landPieces (s : State) (st : StationRef) (a : Nat) (bs : List Byte) (pois : List Nat) (limit : Nat)
    (l : List Served) : State :=
  l.foldl (fun s p =>
    if limit ≤ p.service then s
    else s.takeWrite ⟨p.service, srcStation st, p.addr, (bs.drop (p.addr - a)).take p.bytes,
      pois.filter fun w => decide (wordOf p.addr ≤ w) && decide (w < wordOf p.addr + wordsOf p.addr p.bytes)⟩) s

/-- The reservation has ended before flit `j` was written. -/
def OpenRecv.miss (r : OpenRecv) (j : Nat) : OpenRecv := { r with missed := r.missed.orElse fun _ => some j }

/-- The element `e` of an OP 1 RECV, once both flits that carry it have landed: in its reserved cycle, poison spoils
the slot, a poisoned slot stays so and is reported, and any other takes the integer. Log entry 67. -/
def State.addElement (r : OpenRecv) (s : State) (e : Nat) : OpenRecv × State :=
  let st := StationRef.relay r.relay
  let a := 8 * r.args.dstAddr.toNat + 16 * e
  let j := smapGet none r.landed (12 * e / 250)
  let k := smapGet none r.landed ((12 * e + 11) / 250)
  let bad := fun (f : Option Flit) => match f with | some f => f.header.poison == 1 | none => false
  if !(bad j || bad k) && (j.isNone || k.isNone) then (r, s)
  else
    let z := r.serveWords s.nowCycle a 16
    let u := z.1.foldl (fun m p => max m p.service) 0
    let limit := recvLimit r.cycle r.args
    let spoil := fun (s : State) => s.landPieces st a (List.replicate 16 0) [wordOf a, wordOf a + 1] limit z.1
    if limit ≤ u then (z.2.miss (12 * e / 250), s)
    else if bad j || bad k then (z.2, spoil s)
    else
      -- The slot is read as every write before this one has left it.
      let old := s.readServed a 16 u (u + 1)
      let s := s.reportRead st r.cycle u old
      (z.2, if old.poison.isEmpty then
          s.landPieces st a (leBytes 16 (slotAddPattern (ofLe old.bytes) (ofLe (streamBytes r.landed (12 * e) 12)))) []
            limit z.1
        else spoil s)

/-- A flit takes its place in a RECV, and its bytes or elements go to the destination in the earliest reserved
cycles. -/
def State.recvFlit (s : State) (r : OpenRecv) (j : Nat) (f : Flit) : OpenRecv × State :=
  let lo := 250 * j
  let n := min 250 (recvBytes r.args - lo)
  let r := { r with landed := smapPut none r.landed j (some f) }
  let limit := recvLimit r.cycle r.args
  if r.args.op = 0 then
    let a := 8 * r.args.dstAddr.toNat + lo
    let z := r.serveWords s.nowCycle a n
    (if z.1.any fun p => decide (limit ≤ p.service) then z.2.miss j else z.2,
      s.landPieces (.relay r.relay) a (f.payload.take n) (if f.header.poison = 1 then wordsIn a n else []) limit z.1)
  else
    let first := lo / 12
    let last := (lo + n - 1) / 12
    (List.range (last + 1 - first)).foldl (fun (z : OpenRecv × State) i => z.2.addElement z.1 (first + i)) (r, s)

/-- Offer a flit of a link to the stroke's RECVs; it waits in the landing buffer when none takes it. -/
def State.offerFlit (s : State) (l : LinkRef) (f : Flit) : State :=
  match findRecv s.recvs 0 l f.number with
  | none =>
    let x := s.link l
    s.setLink l { x with rxBuffer := x.rxBuffer ++ [f] }
  | some (i, j) =>
    match s.recvs[i]? with
    | none => s
    | some r =>
      let y := s.recvFlit r j f
      { y.2 with recvs := setNth y.2.recvs i y.1 }

/-- Flits of the landing buffer go to a RECV that has just issued. -/
def State.offerBuffered (s : State) (l : LinkRef) : State :=
  let x := s.link l
  x.rxBuffer.foldl (fun s f => s.offerFlit l f) (s.setLink l { x with rxBuffer := [] })

/-- A loss joins those that outgoing frames name. -/
def addNack (l : List (Bool × Nat)) (x : Bool × Nat) : List (Bool × Nat) := if l.contains x then l else l ++ [x]

/-! ### Landing of data flits (R259, R261, R262, R271) -/

def linkPort : LinkRef → Option (Fin 16)
  | .kazin k => some k
  | .seam _ _ => none

/-- The count at which the tail begins has come: what lands now has not arrived in the stroke (R263). -/
def State.tailPassed (s : State) : Bool :=
  s.seq.phase == .inStroke && decide (s.countAt s.tailStart ≤ s.boardTime.toNat)

/-- Whether a flit on a link is stale: the Seam's flits are the device's own. -/
def State.staleOn (s : State) (l : LinkRef) (h : FlitHeader) : Bool := (linkPort l).isSome && s.isStale h

/-- A data flit lands on a link, its payload in clear. A duplicate is discarded, and so is one that finds the
landing buffer of 256 KiB full, which is named as lost; one that lands when the tail has begun is of no stroke. -/
def State.landData (s : State) (l : LinkRef) (h : FlitHeader) (clear : Nat → List Byte) : State :=
  let x := s.link l
  let n := rebuild x.rxNext h.seq.toNat
  if s.tailPassed || !isNew x.rxNext x.rxAhead n then s
  else if x.rxBuffer.length ≥ 1024 && (findRecv s.recvs 0 l n).isNone && !s.staleOn l h then
    s.setLink l { x with nacks := addNack x.nacks (false, n) }
  else
    let m := markLanded x.rxNext x.rxAhead n
    let s := s.setLink l { x with rxNext := m.1, rxAhead := m.2, nacks := x.nacks.erase (false, n) }
    match linkPort l with
    | some k => if s.isStale h then s.staleFlit k h n else s.offerFlit l ⟨h, n, clear n, 0⟩
    | none => s.offerFlit l ⟨h, n, clear n, 0⟩

/-- The payload of a Kazin data flit as it landed, in clear: the peer is the one that the lane map wires. -/
def State.openPayload (s : State) (l : LinkRef) (h : FlitHeader) (payload : List Byte) (number : Nat) :
    List Byte :=
  match l with
  | .kazin k =>
    let w := s.lane k.val
    s.linkCrypt false (if w.use = 2 then s.boot.boardSlot.toNat else w.peerSlot.toNat) w.peerPort.toNat h number
      payload
  | .seam _ _ => payload

/-! ### Landing of control flits -/

/-- The number of a control flit is taken: in the stroke's count, or when its tail has begun in the next one's. -/
def Link.takeCtrl (x : Link) (late : Bool) (n : Nat) : Link :=
  let x := { x with nacks := x.nacks.erase (true, n) }
  if late then { x with rxLate := x.rxLate ++ [n] }
  else
    let m := markLanded x.rxCtrlNext x.rxCtrlAhead n
    { x with rxCtrlNext := m.1, rxCtrlAhead := m.2 }

/-- A control flit lands: its number is taken. The flag says whether its message is to be acted on: not when
it is a duplicate, and not when it is stale. Types 7 and 8 are exempt from the role test (R286). -/
def State.acceptCtrl (s : State) (l : LinkRef) (h : FlitHeader) : Bool × State :=
  let x := s.link l
  let n := rebuild x.rxCtrlNext h.seq.toNat
  if !isNew x.rxCtrlNext (x.rxCtrlAhead ++ x.rxLate) n then (false, s)
  else
    let s := s.setLink l (x.takeCtrl s.tailPassed n)
    match linkPort l with
    | some k => if h.ctype != 7 && h.ctype != 8 && s.isStale h then (false, s.staleFlit k h n) else (true, s)
    | none => (true, s)

/-- The full number of a control flit that has just been accepted. -/
def State.ctrlNumber (s : State) (l : LinkRef) (h : FlitHeader) : Nat :=
  rebuild (s.link l).rxCtrlNext h.seq.toNat

/-! ### Sending data (R268, R269) -/

/-- The flit queue of a link once a flit has been named as lost: it joins the replay queue while it is
unacknowledged and not in the queue. -/
def queueReplay (x : Link) (ctrl : Bool) (number : Nat) : Link :=
  let un := if ctrl then x.txCtrlUnacked else x.txUnacked
  if un.any (fun f => f.number == number) && !x.replayQueue.contains (ctrl, number) then
    { x with replayQueue := x.replayQueue ++ [(ctrl, number)] }
  else x

/-- A flit crosses the Seam and lands on the other plate; one that finds the landing buffer full stays to be
replayed. -/
def State.seamCross (s : State) (p : Fin 2) (ch : Fin 48) (f : Flit) : State :=
  let s := s.landData (.seam (1 - p) ch) f.header (fun _ => f.payload)
  let x := s.link (.seam (1 - p) ch)
  let y := s.link (.seam p ch)
  let kept := y.txUnacked.filter fun g => g.number != f.number
  if isNew x.rxNext x.rxAhead f.number then
    s.setLink (.seam p ch) (queueReplay { y with txUnacked := kept ++ [f] } false f.number)
  else s.setLink (.seam p ch) { y with txUnacked := kept }

/-- A flit of a Seam SEND. -/
def State.seamSend (s : State) (p : Fin 2) (ch : Fin 48) (h : FlitHeader) (payload : List Byte) : State :=
  let l := LinkRef.seam p ch
  if s.linkUp l then
    let x := s.link l
    match s.dataSlotFrom (max x.dataFrom s.nowCount) with
    | some n =>
      let f : Flit := ⟨{ h with seq := BitVec.ofNat 12 x.txData }, x.txData, payload, n⟩
      (s.setLink l ({ x with txData := x.txData + 1, dataFrom := n + 1 }.put s.nowCount f)).seamCross p ch f
    | none => s
  else s

def State.kazinSend (s : State) (k : Fin 16) (h : FlitHeader) (payload : List Byte) : State :=
  if s.linkUp (.kazin k) then
    let x := s.link (.kazin k)
    (s.setLink (.kazin k) { x with sendQueue := x.sendQueue ++ [⟨h, 0, payload, 0⟩] }).pumpLink k
  else s

/-! ### Acknowledgements and replay (R256, R260) -/

/-- Flits up to an acknowledged sequence leave the replay buffer. -/
def dropAcked (ack : Nat) (l : List Flit) : List Flit :=
  match l with
  | [] => []
  | f :: _ =>
    let last := rebuild f.number ack
    if last < f.number + 2048 then l.filter fun x => decide (last < x.number) else l

end Sys2Proof.Machine
end

