-- ==== Sys2Proof/Machine/Sealing.lean ====
section
/-! DEFINITION. What sealing does to HBM (R387, R393, R394): the weight ranges and approved cartoons of the policy,
the inline engines, and refusals that give nothing away (R402). -/

namespace Sys2Proof.Machine

/-! ### The policy (R387) -/

/-- Bytes of a policy: two counts, 16 ranges and 32 digests. -/
def policyBytes : Nat := 1796

def policyRangeCount (p : List Byte) : Nat := ofLe (p.take 2)
def policyDigestCount (p : List Byte) : Nat := ofLe ((p.drop 2).take 2)
def policyRange (p : List Byte) (i : Nat) : Nat × Nat :=
  (ofLe ((p.drop (4 + 16 * i)).take 8), ofLe ((p.drop (12 + 16 * i)).take 8))
def policyDigest (p : List Byte) (i : Nat) : Nat := ofLe ((p.drop (260 + 48 * i)).take 48)
def policyRanges (p : List Byte) : List (Nat × Nat) := (List.range (policyRangeCount p)).map (policyRange p)
def policyDigests (p : List Byte) : List Nat := (List.range (policyDigestCount p)).map (policyDigest p)

/-- A range lies within one plate that the edition offers, outside every cartoon region. -/
def State.rangeAllowed (s : State) (a n : Nat) : Bool :=
  ((s.plateOffered 0 && inside a n (plateBase 0) hbmSize) || (s.plateOffered 1 && inside a n (plateBase 1) hbmSize))
    && !s.inCartoonRegion a n

/-- As R387 has it: a plate that the active edition offers. -/
def State.policyRangeOk (s : State) (a n : Nat) : Bool :=
  ((bitAt s.edition.offer.toNat 0 && inside a n (plateBase 0) hbmSize)
      || (bitAt s.edition.offer.toNat 1 && inside a n (plateBase 1) hbmSize))
    && !s.inCartoonRegion a n

/-- Whether a policy keeps every rule of R387. -/
def State.policyOk (s : State) (p : List Byte) : Bool :=
  let rs := policyRanges p
  p.length == policyBytes && decide (policyRangeCount p ≤ 16) && decide (policyDigestCount p ≤ 32)
    && ((p.drop (4 + 16 * policyRangeCount p)).take (16 * (16 - policyRangeCount p))).all (· == 0)
    && (p.drop (260 + 48 * policyDigestCount p)).all (· == 0)
    && rs.all (fun r => r.1 % 4096 == 0 && r.2 % 4096 == 0 && s.policyRangeOk r.1 r.2)
    && (rs.zipIdx.all fun x => rs.zipIdx.all fun y =>
      decide (y.2 ≤ x.2) || !overlap x.1.1 x.1.2 y.1.1 y.1.2)

/-- The weight ranges in force. -/
def State.weightRanges (s : State) : List (Nat × Nat) :=
  match s.sec.tenant with | some t => policyRanges t.policy | none => []

def State.inWeights (s : State) (a n : Nat) : Bool := s.weightRanges.any fun r => inside a n r.1 r.2

/-- A range that straddles the boundary of a weight range (R394). -/
def State.straddles (s : State) (a n : Nat) : Bool :=
  s.weightRanges.any fun r => overlap a n r.1 r.2 && !inside a n r.1 r.2

/-! ### The inline engines (R393, R394) -/

def hbmKey (t : Tenant) : List Byte := hkdfExpand (tenantPrk t) (ascii "CMN hbm xts") 64
def bindKey (t : Tenant) : List Byte := hkdfExpand (tenantPrk t) (ascii "CMN bind") 48
def fingerprint (t : Tenant) : List Byte := hkdfExpand (tenantPrk t) (ascii "CMN fingerprint") 16

def State.fingerprintNow (s : State) : Nat := match s.sec.tenant with | some t => ofLe (fingerprint t) | none => 0

/-- Bytes at an address through the inline engines: 16-byte blocks, each under its own tweak. -/
def State.inlineCrypt (s : State) (enc : Bool) (a : Nat) (bs : List Byte) : List Byte :=
  match s.sec.tenant with
  | none => bs
  | some t =>
    let key := hbmKey t
    (chunks 16 bs).zipIdx.flatMap fun b => xtsCrypt key enc (a / 16 + b.2) b.1

/-- The bytes of device memory as a host access reads them: poisoned words read as zero. The cycle is one from
which every write is seen. -/
def State.hostView (s : State) (a n : Nat) : ReadData := s.readAt a n (2 ^ 62)

/-! ### The seal engine (R398) -/

/-- A request takes a free context, or waits. -/
def SealEngine.request (e : SealEngine) (u : SealUser) : SealEngine :=
  if e.held.contains u || e.waiting.contains u then e
  else if e.held.length < 2 then { e with held := e.held ++ [u] }
  else { e with waiting := e.waiting ++ [u] }

/-- Work that has ended gives its context to the request that has waited longest. -/
def SealEngine.keep (e : SealEngine) (work : List SealUser) : SealEngine :=
  let held := e.held.filter work.contains
  let waiting := e.waiting.filter work.contains
  ⟨held ++ waiting.take (2 - held.length), waiting.drop (2 - held.length)⟩

/-- A context that reaches a segment boundary passes to the request that has waited longest; the displaced one waits. -/
def SealEngine.boundary (e : SealEngine) (u : SealUser) : SealEngine :=
  match e.waiting with
  | w :: r =>
    if e.held.contains u then ⟨e.held.map fun x => if x = u then w else x, r ++ [u]⟩ else e
  | [] => e

/-- One segment of some work: a request that waits gets the context that reaches its boundary first. -/
def SealEngine.segment (e : SealEngine) (u : SealUser) : SealEngine :=
  (match e.held with
    | h :: _ => if e.waiting.contains u then e.boundary h else e
    | [] => e).boundary u

/-- Who has work for the seal engine: an import, a key-store update, and the MSS with a firmware image (R430). Log
entry 72. -/
def State.sealWork (s : State) : List SealUser :=
  (if s.sec.importJob.isSome then [.tenantImport] else []) ++ (if s.sec.job.isSome then [.keyStore] else [])
    ++ (match s.mss.fw.state with | .download => [.mss] | .verify => [.mss] | .apply => [.mss] | _ => [])

/-- The seal engine follows the work that there is. -/
def State.sealSync (s : State) : State :=
  let work := s.sealWork
  { s with sec := { s.sec with sealEngine := work.foldl SealEngine.request (s.sec.sealEngine.keep work) } }

/-- A segment of some work is done. -/
def State.sealSegment (s : State) (u : SealUser) : State :=
  { s with sec := { s.sec with sealEngine := s.sec.sealEngine.segment u } }

/-! ### Refusals (R402) -/

/-- Event 0x0420 carries only what was refused. -/
def State.securityRefusal (s : State) (what : Nat) : State := s.emit srcMss 0x0420 [f64 what]

end Sys2Proof.Machine
end

