-- ==== Sys2Proof/Machine/Cells.lean ====
section
/-! DEFINITION. The non-volatile cells and the boot state: commit cells and key-store slots (R388–R391), floor cells
(R476), and the boot-state entries of the flash (R466). -/

namespace Sys2Proof.Machine

/-! ### Cells with a Berger code (R389) -/

/-- Zero bits among bits [n − 1 : 0]. -/
def zeroBits (x n : Nat) : Nat := ((List.range n).filter fun i => !bitAt x i).length

def cellValid (c : DWord) : Bool := field c.toNat 62 2 == 0 && field c.toNat 56 6 == zeroBits c.toNat 56

/-- A cell that holds 56 bits. -/
def makeCell (x : Nat) : DWord := BitVec.ofNat 64 (x % 2 ^ 56 + zeroBits x 56 <<< 56)

def cellCount (c : DWord) : Nat := field c.toNat 0 48
def cellSlot (c : DWord) : Nat := field c.toNat 48 1
def cellTenant (c : DWord) : Bool := bitAt c.toNat 49

def commitCell (count slot : Nat) (tenant : Bool) : DWord :=
  makeCell (count % 2 ^ 48 + slot <<< 48 + boolNat tenant <<< 49)

/-! ### Key-store slots (R388) -/

def slotBytes (s : State) (k : Nat) : List Byte := smapGetList 0xFF s.sec.slots (4096 * k) 4096

/-- The bytes of a slot written for a commit: of a tenant, or empty. -/
def makeSlot (t : Option Tenant) (count : Nat) : List Byte :=
  let body := match t with
    | some t => leBytes 16 t.tenantId.toNat ++ leBytes 32 t.tmk.toNat ++ leBytes 8 t.generation.toNat
        ++ padTo 1800 0 (t.policy.take 1800) ++ List.replicate 2184 0
    | none => List.replicate 4040 0
  let b := body ++ leBytes 8 count
  b ++ sha384 b

def slotCount (b : List Byte) : Nat := ofLe ((b.drop 4040).take 8)
def slotChecks (b : List Byte) (count : Nat) : Bool := slotCount b == count && b.drop 4048 == sha384 (b.take 4048)

def slotTenant (b : List Byte) : Tenant :=
  { tenantId := BitVec.ofNat 128 (ofLe (b.take 16)), tmk := BitVec.ofNat 256 (ofLe ((b.drop 16).take 32)),
    generation := BitVec.ofNat 64 (ofLe ((b.drop 48).take 8)), policy := (b.drop 56).take policyBytes }

/-- The commit that a power-up finds (R391): the valid cell with the higher count. -/
def State.foundCell (s : State) : Option DWord :=
  match cellValid s.sec.cell0, cellValid s.sec.cell1 with
  | true, true => some (if cellCount s.sec.cell0 < cellCount s.sec.cell1 then s.sec.cell1 else s.sec.cell0)
  | true, false => some s.sec.cell0
  | false, true => some s.sec.cell1
  | false, false => none

/-- The key store as it comes into force; event 0x0406 when the slot that the commit names does not check. -/
def State.loadKeyStore (s : State) : State :=
  match s.foundCell with
  | none => { s with sec := { s.sec with commitCount := 0, activeSlot := 0, tenant := none, sealed := false,
                                         bar2Closed := false } }
  | some c =>
    let b := slotBytes s (cellSlot c)
    let ok := slotChecks b (cellCount c)
    let t := if ok && cellTenant c then some (slotTenant b) else none
    let s := { s with sec := { s.sec with
      commitCount := BitVec.ofNat 48 (cellCount c), activeSlot := BitVec.ofNat 1 (cellSlot c), tenant := t,
      sealed := t.isSome, bar2Closed := t.isSome } }
    if ok then s else s.emit srcMss 0x0406 []

/-! ### Floor cells (R476) -/

def floorEdition (c : DWord) : Nat := if cellValid c then field c.toNat 0 32 else 0
def floorFw (c : DWord) : Nat := if cellValid c then field c.toNat 32 16 else 0

/-- The floors in force. -/
def State.loadFloors (s : State) : State :=
  { s with boot := { s.boot with
      editionFloor := BitVec.ofNat 32 (max (floorEdition s.boot.floor0) (floorEdition s.boot.floor1)),
      fwFloor := BitVec.ofNat 16 (max (floorFw s.boot.floor0) (floorFw s.boot.floor1)) } }

/-- The floors rise: the cell with the lower values is programmed anew. Event 0x0554 carries the floors. -/
def State.raiseFloors (s : State) (edition fw : Nat) : State :=
  let e := max s.boot.editionFloor.toNat edition
  let f := max s.boot.fwFloor.toNat fw
  if e = s.boot.editionFloor.toNat ∧ f = s.boot.fwFloor.toNat then s
  else
    let cell := makeCell (e % 2 ^ 32 + f % 2 ^ 16 <<< 32)
    let low0 := floorEdition s.boot.floor0 + floorFw s.boot.floor0 ≤ floorEdition s.boot.floor1 + floorFw s.boot.floor1
    { s with boot := { s.boot with
        floor0 := if low0 then cell else s.boot.floor0, floor1 := if low0 then s.boot.floor1 else cell,
        editionFloor := BitVec.ofNat 32 e, fwFloor := BitVec.ofNat 16 f } }.emit srcMss 0x0554 []

/-! ### The boot state (R466) -/

/-- A boot-state entry. -/
structure BootEntry where
  seq : Nat
  bootCount : Nat
  kind : Nat
  fwSlot : Nat
  failCount : Nat
  fwPref : Nat
  edition : Nat
  lastEdition : Nat
  lastSlot : Nat
  lastRoot : Nat
  deriving DecidableEq, Repr

/-- What stands in where no entry exists. -/
def BootEntry.none : BootEntry := ⟨0, 0, 0, 0xFF, 0, 0, 0, 0, 0xFF, 0⟩

def BootEntry.bytes (e : BootEntry) : List Byte :=
  let b := leBytes 4 e.seq ++ leBytes 4 e.bootCount ++ leBytes 1 e.kind ++ leBytes 1 e.fwSlot
    ++ leBytes 1 e.failCount ++ leBytes 1 e.fwPref ++ leBytes 4 e.edition ++ leBytes 4 e.lastEdition
    ++ leBytes 1 e.lastSlot ++ List.replicate 3 0 ++ leBytes 48 e.lastRoot ++ List.replicate 52 0
  b ++ leBytes 4 (crc32 b)

def bootPlaceAddr (i : Nat) : Nat := 128 * i

/-- The entry at a place of the two sectors, if its CRC checks. -/
def bootEntryAt (f : SMap Byte) (i : Nat) : Option BootEntry :=
  let b := flashRead f (bootPlaceAddr i) 128
  let x := ofLe b
  if ofLe (b.drop 124) = crc32 (b.take 124) then
    some { seq := field x 0 32, bootCount := field x 32 32, kind := field x 64 8, fwSlot := field x 72 8,
           failCount := field x 80 8, fwPref := field x 88 8, edition := field x 96 32,
           lastEdition := field x 128 32, lastSlot := field x 160 8, lastRoot := field x 192 384 }
  else Option.none

/-- The places, of `size` bytes each from `base` on, that hold anything: an erased place fails its CRC. -/
def usedPlaces (f : SMap Byte) (base size n : Nat) : List Nat :=
  (f.foldl (fun (l : List Nat) p =>
    if base ≤ p.1 ∧ p.1 < base + size * n ∧ l.head? ≠ some ((p.1 - base) / size) then (p.1 - base) / size :: l
    else l) []).reverse

/-- The current entry and its place: the highest SEQ. -/
def currentEntry (f : SMap Byte) : Option (Nat × BootEntry) :=
  (usedPlaces f 0 128 1024).foldl (fun best i =>
    match bootEntryAt f i, best with
    | some e, some b => if b.2.seq < e.seq then some (i, e) else best
    | some e, Option.none => some (i, e)
    | Option.none, _ => best) Option.none

def currentOf (f : SMap Byte) : BootEntry := match currentEntry f with | some p => p.2 | Option.none => .none

/-- The first erased place of a sector. -/
def freePlace (f : SMap Byte) (sector : Nat) : Option Nat :=
  let used := usedPlaces f 0 128 1024
  ((List.range 512).map (· + 512 * sector)).find? fun i => !used.contains i

/-- Append an entry; its SEQ is one more than the current one's. A full sector makes the other one begin anew. -/
def appendEntry (f : SMap Byte) (e : BootEntry) : SMap Byte :=
  let cur := currentEntry f
  let sector := match cur with | some p => p.1 / 512 | Option.none => 0
  let e := { e with seq := (match cur with | some p => p.2.seq + 1 | Option.none => 0) }
  match freePlace f sector with
  | some i => flashProgram f (bootPlaceAddr i) e.bytes
  | Option.none =>
    let other := 1 - sector
    flashProgram (flashErase f (0x1_0000 * other)) (bootPlaceAddr (512 * other)) e.bytes

/-- An entry is appended; while PWR_FAIL_N is asserted no flash program starts (R488). Log entry 73. -/
def State.appendBoot (s : State) (e : BootEntry) : State :=
  if s.boot.pwrFail then s else
  { s with boot := { s.boot with flash := appendEntry s.boot.flash e } }

end Sys2Proof.Machine
end

