-- ==== Sys2Proof/Machine/Frame.lean ====
section
/-! DEFINITION. Frames (R254–R257): the Reed-Solomon code over GF(2¹⁰), the frame control field, and the flits
that a frame carries. -/

namespace Sys2Proof.Machine

/-! ### GF(2¹⁰) with x¹⁰ + x³ + 1 (R255) -/

def gfDouble (a : Nat) : Nat := let b := 2 * a; if b ≥ 1024 then b ^^^ 0x409 else b

def gfMulFuel : Nat → Nat → Nat → Nat → Nat
  | 0, _, _, acc => acc
  | f + 1, a, b, acc => gfMulFuel f (gfDouble a) (b / 2) (if b % 2 = 1 then acc ^^^ a else acc)

def gfMul (a b : Nat) : Nat := gfMulFuel 10 a b 0

/-- αⁿ. -/
def gfAlpha : Nat → Nat
  | 0 => 1
  | n + 1 => gfDouble (gfAlpha n)

def gfPow (a : Nat) : Nat → Nat
  | 0 => 1
  | n + 1 => gfMul a (gfPow a n)

/-- The inverse of a non-zero element, a to the power 1,022. -/
def gfInv (a : Nat) : Nat :=
  let a2 := gfMul a a; let a4 := gfMul a2 a2; let a8 := gfMul a4 a4; let a16 := gfMul a8 a8
  let a32 := gfMul a16 a16; let a64 := gfMul a32 a32; let a128 := gfMul a64 a64; let a256 := gfMul a128 a128
  let a512 := gfMul a256 a256
  gfMul (gfMul (gfMul a512 a256) (gfMul a128 a64)) (gfMul (gfMul a32 a16) (gfMul (gfMul a8 a4) a2))

/-- A polynomial, lowest coefficient first, at a point. -/
def gfEval (x : Nat) : List Nat → Nat
  | [] => 0
  | c :: r => c ^^^ gfMul x (gfEval x r)

/-- A codeword, first symbol in the highest place, at a point. -/
def gfHorner (x : Nat) (w : List Nat) : Nat := w.foldl (fun acc c => gfMul acc x ^^^ c) 0

def syndromes (w : List Nat) : List Nat := (List.range 14).map fun i => gfHorner (gfAlpha i) w

/-! ### Decoding -/

/-- One round of the Berlekamp–Massey recursion: locator, its predecessor, length, gap, last discrepancy. -/
structure BmState where
  c : List Nat
  b : List Nat
  len : Nat
  gap : Nat
  last : Nat
  deriving DecidableEq, Repr

def polyAdd (a b : List Nat) : List Nat :=
  (List.range (max a.length b.length)).map fun i => nth 0 a i ^^^ nth 0 b i

def bmStep (syn : List Nat) (x : BmState) (n : Nat) : BmState :=
  let d := (List.range (x.len + 1)).foldl (fun acc i => acc ^^^ gfMul (nth 0 x.c i) (nth 0 syn (n - i))) 0
  if d = 0 then { x with gap := x.gap + 1 }
  else
    let k := gfMul d (gfInv x.last)
    let c := polyAdd x.c (List.replicate x.gap 0 ++ x.b.map (gfMul k))
    if 2 * x.len ≤ n then { c := c, b := x.c, len := n + 1 - x.len, gap := 1, last := d }
    else { x with c := c, gap := x.gap + 1 }

def locator (syn : List Nat) : BmState := (List.range 14).foldl (bmStep syn) ⟨[1], [1], 0, 1, 1⟩

/-- The odd-degree part that the derivative keeps. -/
def gfDeriv (c : List Nat) : List Nat :=
  (c.zipIdx.drop 1).map fun p => if p.2 % 2 = 1 then p.1 else 0

def omegaOf (syn c : List Nat) : List Nat :=
  (List.range 14).map fun n => (List.range (n + 1)).foldl (fun acc i =>
    acc ^^^ gfMul (nth 0 c i) (nth 0 syn (n - i))) 0

/-- The error at symbol `j`, if the locator vanishes there. -/
def errorAt (syn c : List Nat) (j : Nat) : Option Nat :=
  let x := gfAlpha (271 - j)
  let xi := gfInv x
  if gfEval xi c = 0 then some (gfMul x (gfMul (gfEval xi (omegaOf syn c)) (gfInv (gfEval xi (gfDeriv c)))))
  else none

/-- A codeword, corrected, with the number of symbols that were wrong; none when it is uncorrectable. -/
def rsDecode (w : List Nat) : Option (List Nat × Nat) :=
  let syn := syndromes w
  if syn.all (· == 0) then some (w, 0)
  else
    let bm := locator syn
    if bm.len > 7 then none
    else
      let fixed := w.zipIdx.map fun p => match errorAt syn bm.c p.2 with | some e => p.1 ^^^ e | none => p.1
      let n := (w.zip fixed).foldl (fun a p => if p.1 = p.2 then a else a + 1) 0
      if n = bm.len ∧ (syndromes fixed).all (· == 0) then some (fixed, n) else none

/-! ### The frame (R254, R256, R257) -/

/-- The information bits of a codeword, as a number. -/
def infoBits (w : List Nat) : Nat := (w.take 258).zipIdx.foldl (fun a p => a + p.1 <<< (10 * p.2)) 0

/-- The product of x − αⁱ for the first `n` exponents, lowest coefficient first. -/
def gfGenerator : Nat → List Nat
  | 0 => [1]
  | n + 1 =>
    let g := gfGenerator n
    (List.range (g.length + 1)).map fun i =>
      (if i = 0 then 0 else nth 0 g (i - 1)) ^^^ gfMul (gfAlpha n) (nth 0 g i)

/-- One information symbol enters the division by the generator; the remainder has its highest place first. -/
def rsStep (g rem : List Nat) (c : Nat) : List Nat :=
  let q := c ^^^ nth 0 rem 0
  (List.range 14).map fun i => nth 0 rem (i + 1) ^^^ gfMul q (nth 0 g (13 - i))

/-- The codeword of 258 information symbols: parity symbols last (R255). -/
def rsEncode (info : List Nat) : List Nat := info ++ info.foldl (rsStep (gfGenerator 14)) (List.replicate 14 0)

/-- The 1,088 symbols of a frame of 10,320 information bits, codewords in order (R254). -/
def frameWords (bits : Nat) : List Nat :=
  (List.range 4).flatMap fun w =>
    rsEncode ((List.range 258).map fun i => field bits (2580 * w + 10 * i) 10)

/-- Corrected symbols by active lane position: symbol i of a codeword comes on position i mod 8. -/
def addLanes (a b : List Nat) : List Nat := (List.range 8).map fun i => nth 0 a i + nth 0 b i

/-- The positions of a codeword's symbols that were corrected. -/
def lanesOf (w fixed : List Nat) : List Nat :=
  (List.range 8).map fun i =>
    ((w.zip fixed).zipIdx.filter fun p => p.2 % 8 == i && p.1.1 != p.1.2).length

/-- A frame that has been received: its information bits with uncorrectable codewords as zeros, which codewords
are kept, and the symbols corrected, in all and by active lane position. -/
structure RxFrame where
  bits : Nat
  kept : List Bool
  corrected : Nat
  byLane : List Nat
  deriving DecidableEq, Repr

def rxFrame (symbols : List Nat) : RxFrame :=
  let ws := (chunks 272 symbols).map rsDecode
  { bits := ws.zipIdx.foldl (fun a p => match p.1 with
      | some w => a + infoBits w.1 <<< (2580 * p.2) | none => a) 0,
    kept := ws.map (·.isSome),
    corrected := ws.foldl (fun a w => match w with | some x => a + x.2 | none => a) 0,
    byLane := ((chunks 272 symbols).zip ws).foldl (fun a p => match p.2 with
      | some x => addLanes a (lanesOf p.1 x.1) | none => a) [] }

/-- Whether every codeword that bits [lo, lo + n) touch has been kept. -/
def RxFrame.has (f : RxFrame) (lo n : Nat) : Bool :=
  (List.range 4).all fun w => !overlap lo n (2580 * w) 2580 || nth false f.kept w

/-- Flit `i`, as 256 bytes, when it has been kept. -/
def RxFrame.flit (f : RxFrame) (i : Nat) : Option (List (BitVec 8)) :=
  if f.has (80 + 2048 * i) 2048 then some (leBytes 256 (field f.bits (80 + 2048 * i) 2048)) else none

/-- The frame control field, when it has been kept. -/
def RxFrame.control (f : RxFrame) : Option Nat := if f.has 0 80 then some (field f.bits 0 80) else none

/-- The six header bytes of a flit (R257). -/
def headerBytes (h : FlitHeader) : List (BitVec 8) :=
  leBytes 6 (h.destRole.toNat + h.epoch.toNat <<< 3 + h.kind.toNat <<< 19 + h.seq.toNat <<< 21
    + h.srcRole.toNat <<< 33 + h.ctype.toNat <<< 36 + h.poison.toNat <<< 44)

/-- The 256 bytes of a flit. -/
def flitBytes (h : FlitHeader) (payload : List (BitVec 8)) : List (BitVec 8) := payload ++ headerBytes h

/-- The symbols of a frame: the frame control field, then its five flits. -/
def symbolsOf (control : Nat) (flits : List (List (BitVec 8))) : List (BitVec 10) :=
  let bits := control + (flits.zipIdx.foldl (fun a p => a + ofLe p.1 <<< (2048 * p.2)) 0) <<< 80
  (frameWords bits).map (BitVec.ofNat 10)

/-- The header of a flit (R257). -/
def parseHeader (fl : List (BitVec 8)) : FlitHeader :=
  let h := ofLe (fl.drop 250)
  { destRole := BitVec.ofNat 3 h, epoch := BitVec.ofNat 16 (h >>> 3), kind := BitVec.ofNat 2 (h >>> 19),
    seq := BitVec.ofNat 12 (h >>> 21), srcRole := BitVec.ofNat 3 (h >>> 33), ctype := BitVec.ofNat 8 (h >>> 36),
    poison := BitVec.ofNat 1 (h >>> 44) }

end Sys2Proof.Machine
end

