-- ==== Sys2Proof/Machine/Mask.lean ====
section
/-! DEFINITION. Pattern codes and metadata words (R117–R125): the masks in code order, the kept
positions of a block, and the packing of codes nine to a word. -/

namespace Sys2Proof.Machine

/-! ### Codes (R120–R122) -/

def masks24a : List Nat :=
  [0x33CC, 0x35AC, 0x35CA, 0x369C, 0x36C9, 0x396C, 0x39C6, 0x3A5C, 0x3AC5, 0x3C3C, 0x3C5A, 0x3C69, 0x3C96,
   0x3CA5, 0x3CC3,
   0x53AC, 0x53CA, 0x55AA, 0x569A, 0x56A9, 0x596A, 0x59A6, 0x5A3C, 0x5A5A, 0x5A69, 0x5A96, 0x5AA5, 0x5AC3,
   0x5C3A, 0x5CA3,
   0x639C, 0x63C9, 0x659A, 0x65A9, 0x6699, 0x693C, 0x695A, 0x6969, 0x6996, 0x69A5, 0x69C3, 0x6A59, 0x6A95,
   0x6C39, 0x6C93]

def masks24b : List Nat :=
  [0x936C, 0x93C6, 0x956A, 0x95A6, 0x963C, 0x965A, 0x9669, 0x9696, 0x96A5, 0x96C3, 0x9966, 0x9A56, 0x9A65,
   0x9C36, 0x9C63,
   0xA35C, 0xA3C5, 0xA53C, 0xA55A, 0xA569, 0xA596, 0xA5A5, 0xA5C3, 0xA659, 0xA695, 0xA956, 0xA965, 0xAA55,
   0xAC35, 0xAC53,
   0xC33C, 0xC35A, 0xC369, 0xC396, 0xC3A5, 0xC3C3, 0xC53A, 0xC5A3, 0xC639, 0xC693, 0xC936, 0xC963, 0xCA35,
   0xCA53, 0xCC33]

def masks14 : List Nat :=
  [0x1248, 0x1284, 0x1428, 0x1482, 0x1824, 0x1842, 0x2148, 0x2184, 0x2418, 0x2481, 0x2814, 0x2841,
   0x4128, 0x4182, 0x4218, 0x4281, 0x4812, 0x4821, 0x8124, 0x8142, 0x8214, 0x8241, 0x8412, 0x8421]

/-- The masks by code: 0–89 are 2:4T, 90–113 are 1:4T. -/
def masks : List Nat := masks24a ++ masks24b ++ masks14

def maskOf (code : Nat) : Nat := nth 0 masks code

/-- First code and number of codes of a class: 0 is 2:4T, 1 is 1:4T. -/
def classBase (cls : Nat) : Nat := if cls = 0 then 0 else 90
def classCount (cls : Nat) : Nat := if cls = 0 then 90 else 24
/-- Whether a code belongs to a class. -/
def inClass (cls code : Nat) : Bool :=
  decide (classBase cls ≤ code) && decide (code < classBase cls + classCount cls)

/-- V: kept values per block. -/
def keptPer (cls : Nat) : Nat := if cls = 0 then 8 else 4

/-! ### Kept positions (R117, R127) -/

/-- Kept positions (r, q) of a mask in row-major order: the index of a position is its rank. -/
def keptList (mask : Nat) : List (Nat × Nat) :=
  (List.range 16).filterMap fun b => if bitAt mask b then some (b / 4, b % 4) else none

/-- Select and rank of the `i`-th kept position of a block column (direct) or block row (transposed)
(R128, R129). -/
def selectOf (mask : Nat) (trans : Bool) (line i : Nat) : Nat × Nat :=
  let l := (keptList mask).zipIdx.filter fun x => if trans then x.1.1 == line else x.1.2 == line
  match l[i]? with
  | some x => (if trans then x.1.2 else x.1.1, x.2)
  | none => (0, 0)

/-! ### Metadata words (R123–R125) -/

/-- The code in slot `j` of a word. -/
def slotCode (w j : Nat) : Nat := field w (7 * j) 7

/-- The exclusive OR of the low `n` bits of a word. -/
def xorBits : Nat → Nat → Bool
  | 0, _ => false
  | n + 1, w => xor (bitAt w n) (xorBits n w)

/-- Parity holds when bit 63 equals the exclusive OR of bits [62:0]. -/
def parityOk (w : Nat) : Bool := bitAt w 63 == xorBits 63 w

/-- A word with its parity bit set right. -/
def withParity (w : Nat) : Nat := w % 2 ^ 63 + boolNat (xorBits 63 w) * 2 ^ 63

/-- A word with one slot replaced; the parity is formed anew. -/
def putSlot (w j code : Nat) : Nat :=
  withParity (w % 2 ^ 63 - slotCode w j * 2 ^ (7 * j) + (code % 128) * 2 ^ (7 * j))

/-- The checks of R125 in order: outcome 0 pass, 1 parity, 2 invalid code, 3 wrong class, and the first
failing slot (15 for parity). -/
def checkSlots (cls w : Nat) : List Nat → Nat × Nat
  | [] => (0, 0)
  | j :: r =>
    let c := slotCode w j
    if c ≥ 114 then (2, j) else if inClass cls c then checkSlots cls w r else (3, j)

def checkWord (cls w : Nat) (slots : List Nat) : Nat × Nat :=
  if parityOk w then checkSlots cls w slots else (1, 15)

end Sys2Proof.Machine
end

