-- ==== Sys2Proof/Machine/Burnisher.lean ====
section
/-! DEFINITION. The Burnisher (R137–R153): the layer descriptor, the choice of a pattern, and the rewriting of
codes, planes and moments. -/

namespace Sys2Proof.Machine

/-! ### The layer descriptor (R142, R143) -/

structure LayerDesc where
  score : Nat
  cls : Nat
  moments : Nat
  gBf16 : Bool
  bcols : Nat
  rho : Word
  metaBase : Nat
  browsTotal : Nat
  hiBase : Nat
  loBase : Nat
  m1Base : Nat
  m2Base : Nat
  gBase : Nat
  rsvd : Nat
  deriving DecidableEq, Repr

def layerDesc (x : Nat) : LayerDesc :=
  { score := field x 0 2, cls := field x 2 1, moments := field x 3 2, gBf16 := bitAt x 5,
    bcols := field x 8 24, rho := BitVec.ofNat 32 (field x 32 32), metaBase := field x 64 36,
    browsTotal := field x 100 24, hiBase := field x 128 36, loBase := field x 192 36,
    m1Base := field x 256 36, m2Base := field x 320 36, gBase := field x 384 36,
    rsvd := field x 6 2 + field x 124 4 + field x 164 28 + field x 228 28 + field x 292 28 + field x 356 28
      + field x 420 92 }

/-- V, the block rows of a region, and the words of a block row (R142). -/
def LayerDesc.v (d : LayerDesc) : Nat := keptPer d.cls
def LayerDesc.br (d : LayerDesc) : Nat := if d.cls = 0 then 16 else 32
def LayerDesc.wpr (d : LayerDesc) : Nat := ceilDiv d.bcols 9
def LayerDesc.gBytes (d : LayerDesc) : Nat := if d.gBf16 then 2 else 4

/-- Compressed index of rank 0 of block (b, c). -/
def LayerDesc.idx (d : LayerDesc) (b c : Nat) : Nat :=
  (b / d.br * (d.bcols / 8) + c / 8) * 1024 + b % d.br * (8 * d.v) + c % 8 * d.v

def LayerDesc.wordAddr (d : LayerDesc) (b v : Nat) : Nat := 8 * (d.metaBase + b * d.wpr + v)
def LayerDesc.hiAddr (d : LayerDesc) (b c : Nat) : Nat := 8 * d.hiBase + 2 * d.idx b c
def LayerDesc.loAddr (d : LayerDesc) (b c : Nat) : Nat := 8 * d.loBase + 2 * d.idx b c
def LayerDesc.m1Addr (d : LayerDesc) (b c : Nat) : Nat := 8 * d.m1Base + 4 * d.idx b c
def LayerDesc.m2Addr (d : LayerDesc) (b c : Nat) : Nat := 8 * d.m2Base + 4 * d.idx b c

/-- Address of element (k, n) of G or of the dense source. -/
def LayerDesc.gAddr (d : LayerDesc) (k n : Nat) : Nat :=
  8 * d.gBase + d.gBytes * ((k / 32 * (d.bcols / 8) + n / 32) * 1024 + k % 32 * 32 + n % 32)

/-! ### Choosing a pattern (R147–R149) -/

/-- The score of a pattern: the chain over its kept positions. -/
def patternScore (a : List Word) (mask : Nat) : Word :=
  match (List.range 16).filter (bitAt mask) with
  | [] => 0
  | p :: ps => ps.foldl (fun s q => fadd s (nth 0 a q)) (nth 0 a p)

/-- The best code of a class: a later one replaces it only with a strictly greater score. -/
def bestFrom (a : List Word) : List Nat → Nat × Word → Nat
  | [], b => b.1
  | c :: r, b =>
    let s := patternScore a (maskOf c)
    bestFrom a r (if fgt s b.2 then (c, s) else b)

def bestCode (cls : Nat) (a : List Word) : Nat :=
  let base := classBase cls
  bestFrom a ((List.range (classCount cls - 1)).map (base + 1 + ·)) (base, patternScore a (maskOf base))

/-- Position score (R147). -/
def positionScore (d : LayerDesc) (w g : Word) : Word :=
  if d.score = 1 then fadd (fabs w) (fmul d.rho (fabs g)) else fabs w

/-! ### Reading and writing a block -/

/-- A piece that the Burnisher reads: its address, its bytes, its poisoned words. -/
structure Piece where
  addr : Nat
  bytes : List Byte
  poison : List Nat
  deriving DecidableEq, Repr

def State.readPiece (s : State) (c : ClusterLoc) (issue t a n : Nat) : Piece × State :=
  let r := s.stationRead (.burnisher c) issue t (t + 1280) a n
  (⟨a, r.1.bytes, r.1.poison⟩, r.2)

def State.readPieces (s : State) (c : ClusterLoc) (issue t : Nat) (l : List (Nat × Nat)) :
    List Piece × State :=
  l.foldl (fun acc an =>
    let r := acc.2.readPiece c issue t an.1 an.2
    (acc.1 ++ [r.1], r.2)) ([], s)

/-- A piece goes back, poison marks included. -/
def State.writePiece (s : State) (c : ClusterLoc) (t : Nat) (p : Piece) : State :=
  s.stationWrite (.burnisher c) t p.addr p.bytes p.poison

/-- The planes of a block: hi, lo, and the moment planes that the layer has. -/
def planePieces (d : LayerDesc) (b c : Nat) : List (Nat × Nat) :=
  [(d.hiAddr b c, 2 * d.v), (d.loAddr b c, 2 * d.v)]
    ++ (if d.moments ≥ 1 then [(d.m1Addr b c, 4 * d.v)] else [])
    ++ (if d.moments = 2 then [(d.m2Addr b c, 4 * d.v)] else [])

/-- The four rows of G, or of the dense source, that belong to a block. -/
def gPieces (d : LayerDesc) (b c : Nat) : List (Nat × Nat) :=
  (List.range 4).map fun r => (d.gAddr (4 * b + r) (4 * c), 4 * d.gBytes)

/-- The 16 values of those rows, widened to FP32. -/
def gValues (d : LayerDesc) (ps : List Piece) : List Word :=
  ps.flatMap fun p => (rowCodes (if d.gBf16 then .bf16 else .fp32) p.bytes).map
    (widen (if d.gBf16 then .bf16 else .fp32))

/-- The 16-bit value at an index of a plane piece, and the 32-bit one. -/
def half (p : Piece) (i : Nat) : Nat := ofLe ((p.bytes.drop (2 * i)).take 2)
def full (p : Piece) (i : Nat) : Nat := ofLe ((p.bytes.drop (4 * i)).take 4)

/-- The master value of each of the 16 positions; a dropped one is zero. -/
def masterValues (mask : Nat) (hi lo : Piece) : List Word :=
  let kept := keptList mask
  (List.range 16).map fun b =>
    match kept.findIdx? (· == (b / 4, b % 4)) with
    | some j => BitVec.ofNat 32 (half hi j * 65536 + half lo j)
    | none => 0

/-- Old rank of each kept position of a new mask; none where the position has grown (R150). -/
def oldRanks (old new : Nat) : List (Option Nat) :=
  (keptList new).map fun rq => (keptList old).findIdx? (· == rq)

/-- A plane rearranged: `n` bytes per value. -/
def movePiece (n : Nat) (ranks : List (Option Nat)) (p : Piece) : Piece :=
  { p with bytes := ranks.flatMap fun r =>
      match r with
      | some j => (p.bytes.drop (n * j)).take n
      | none => List.replicate n 0 }

/-- Rewrite a block whose reads are good: its new code, its planes, the counts. -/
def reselect (d : LayerDesc) (code : Nat) (planes g : List Piece) (n : BurnCounts) :
    Nat × List Piece × BurnCounts :=
  let hi := nth ⟨0, [], []⟩ planes 0
  let lo := nth ⟨0, [], []⟩ planes 1
  let ws := masterValues (maskOf code) hi lo
  let gs := if d.score = 1 then gValues d g else List.replicate 16 0
  let a := (ws.zip gs).map fun x => positionScore d x.1 x.2
  if a.any isNan then (code, planes, { n with nonfinite := n.nonfinite + 1 })
  else
    let best := bestCode d.cls a
    let ranks := oldRanks (maskOf code) (maskOf best)
    let ps := planes.zipIdx.map fun x => movePiece (if x.2 < 2 then 2 else 4) ranks x.1
    (best, ps,
      { n with changed := n.changed + boolNat (best != code),
               grown := n.grown + (ranks.filter (·.isNone)).length })

/-- The planes that a dense source gives a block (R151), with poison where a value came from a poisoned word. A kept
value goes over bit for bit. No old code is read, so no block counts as changed and no position as grown: DESIGN CHOICE,
log entry 60. -/
def denseBlock (d : LayerDesc) (b c : Nat) (src : List Piece) (n : BurnCounts) :
    Nat × List Piece × BurnCounts :=
  let vs := gValues d src
  let bad := vs.any isNan
  let code := if bad then classBase d.cls else bestCode d.cls (vs.map fabs)
  let kept := keptList (maskOf code)
  let val := fun rq : Nat × Nat => full (nth ⟨0, [], []⟩ src rq.1) rq.2
  let poisoned := fun rq : Nat × Nat =>
    let p := nth ⟨0, [], []⟩ src rq.1
    p.poison.contains (wordOf (p.addr + 4 * rq.2))
  let mk := fun (a : Nat) (f : Nat → Nat) =>
    Piece.mk a (kept.flatMap fun rq => leBytes 2 (f (val rq)))
      ((kept.zipIdx.filter fun x => poisoned x.1).map fun x => wordOf (a + 2 * x.2))
  let zero := fun a => Piece.mk a (List.replicate (4 * d.v) 0) []
  (code,
   [mk (d.hiAddr b c) (· >>> 16), mk (d.loAddr b c) (· % 65536)]
     ++ (if d.moments ≥ 1 then [zero (d.m1Addr b c)] else [])
     ++ (if d.moments = 2 then [zero (d.m2Addr b c)] else []),
   { n with nonfinite := n.nonfinite + boolNat bad })

/-- Block (b, c) read at cycle `t`; `ok` says whether its metadata word passed (R152). Its code after, and the
state with its planes written 1,286 cycles later. -/
def State.burnBlock (s : State) (cl : ClusterLoc) (issue t : Nat) (d : LayerDesc) (ok : Bool)
    (b c code : Nat) (n : BurnCounts) : Nat × BurnCounts × State :=
  let put := fun (s : State) (ps : List Piece) => ps.foldl (fun s p => s.writePiece cl (t + 1286) p) s
  if d.score = 2 then
    let src := s.readPieces cl issue t (gPieces d b c)
    let r := denseBlock d b c src.1 n
    (r.1, r.2.2, put src.2 r.2.1)
  else
    let planes := s.readPieces cl issue t (planePieces d b c)
    let g := if d.score = 1 then planes.2.readPieces cl issue t (gPieces d b c) else ([], planes.2)
    if ok && (planes.1 ++ g.1).all (·.poison.isEmpty) then
      let r := reselect d code planes.1 g.1 n
      (r.1, r.2.2, put g.2 r.2.1)
    else (code, n, put g.2 planes.1)

/-! ### The command (R144–R146) -/

/-- A failing metadata word (R152): the Burnisher has no engine. -/
def State.raiseBurnMeta (s : State) (cl : ClusterLoc) (outcome arrival addr slot b c : Nat) : State :=
  let e := engineField cl.plate.val cl.cluster.val 15
  s.pend (srcCluster cl 1) (0x010F + outcome) arrival (tieOrder (.burnisher cl))
    [f16 e, f16 e, f32 arrival, f64 addr, f8 slot, f32 b, f32 c] false

/-- The metadata word of a block that begins one (R152): block columns 9v to 9v + 8 of block row b, as far as the row
has them. -/
def State.burnWord (s : State) (cl : ClusterLoc) (issue t : Nat) (d : LayerDesc) (b v : Nat) : BurnWord × State :=
  if d.score = 2 then (⟨[], [], 0, []⟩, s)
  else
    let addr := d.wordAddr b v
    let x := s.readPiece cl issue t addr 8
    let out := if !x.1.poison.isEmpty then (4, 15)
      else checkWord d.cls (ofLe x.1.bytes) (List.range (min 9 (d.bcols - 9 * v)))
    (⟨x.1.bytes, x.1.poison, out.1, []⟩,
     if out.1 = 0 ∨ out.1 = 4 then x.2
     else x.2.raiseBurnMeta cl out.1 (t + 1280) addr out.2 b (9 * v + (if out.1 = 1 then 0 else out.2)))

/-- The word goes back after its last block, with the new codes when it has passed. -/
def State.burnWordBack (s : State) (cl : ClusterLoc) (t : Nat) (d : LayerDesc) (b v : Nat) (w : BurnWord) : State :=
  let addr := d.wordAddr b v
  let old := if d.score = 2 then 2 ^ 63 - 1 else ofLe w.bytes
  let new := w.codes.zipIdx.foldl (fun x cj => putSlot x cj.2 cj.1) old
  s.writePiece cl (t + 1286) (if w.outcome = 0 then ⟨addr, leBytes 8 (withParity new), []⟩ else ⟨addr, w.bytes, w.poison⟩)

/-- Cycle of the first block's reads, and of the completion (R145). -/
def burnFirst (c : Nat) (a : BurnishArgs) : Nat := c + latency a.space.toNat + 1
def burnEnd (c : Nat) (a : BurnishArgs) (d : LayerDesc) : Nat :=
  burnFirst c a + ((a.browsM1.toNat + 1) * d.bcols - 1) * (a.pace.toNat + 1) + 2566

/-- Bytes of a plane of `n` bytes per kept value, of G, and of the metadata. -/
def LayerDesc.planeBytes (d : LayerDesc) (n : Nat) : Nat := n * (d.browsTotal * d.bcols * d.v)
def LayerDesc.denseBytes (d : LayerDesc) : Nat := d.gBytes * (16 * d.browsTotal * d.bcols)

/-- What R143 and R146 refuse of a descriptor's values. The tensor that must lie in the plate's memory is the whole one,
of BROWS_TOTAL block rows. DESIGN CHOICE, log entry 60. -/
def burnDescBad (s : State) (c : ClusterLoc) (d : LayerDesc) : Option Nat :=
  let ok := fun base n => s.hbmOk c.plate.val (8 * base) n
  firstBad [
    (decide (d.score < 3), 13), (decide (d.moments < 3), 13),
    (d.score != 2 || !d.gBf16, 13),
    (decide (d.bcols > 0) && d.bcols % 8 == 0, 13),
    (decide (d.browsTotal > 0) && d.browsTotal % d.br == 0, 13),
    (d.score != 1 || (isFinite d.rho && fgt d.rho 0), 13),
    (d.rsvd == 0, 13),
    (ok d.metaBase (8 * d.browsTotal * d.wpr), 13),
    (ok d.hiBase (d.planeBytes 2) && ok d.loBase (d.planeBytes 2), 13),
    (d.moments == 0 || ok d.m1Base (d.planeBytes 4), 13),
    (d.moments != 2 || ok d.m2Base (d.planeBytes 4), 13),
    (d.score == 0 || ok d.gBase d.denseBytes, 13)]

/-- The variant that runs is a probe variant. -/
def State.probing (s : State) : Bool :=
  match s.seq.cartoon with
  | some c => match c.variants[s.seq.variant]? with | some v => v.probe | none => false
  | none => false

def State.maskEpoch (s : State) : Nat :=
  match s.seq.cartoon with | some c => c.maskEpoch.toNat | none => 0

/-- What R137, R143, R144 and R146 refuse of a descriptor and of a command's rows. -/
def burnNamed (s : State) (c : ClusterLoc) (a : BurnishArgs) (d : LayerDesc) : Option Nat :=
  (burnDescBad s c d).orElse fun _ =>
  firstBad [
    (if d.score = 2 then !s.probing && s.maskEpoch == 0 else s.probing, 13),
    (decide (a.firstBrow.toNat + a.browsM1.toNat + 1 ≤ d.browsTotal), 13)]

/-- The descriptor as it stands at cycle `t`. -/
def State.burnNow (s : State) (c : ClusterLoc) (t : Nat) (a : BurnishArgs) : LayerDesc :=
  layerDesc (s.descNow (.burnisher c) a.space.toNat (8 * a.descAddr.toNat) 64 t)

def burnishBad (s : State) (c : ClusterLoc) (i : Nat) (a : BurnishArgs) : Option Nat :=
  let d := s.burnNow c i a
  (firstBad [
    (a.space == 1 || a.space == 2, 13),
    (s.spaceOk (.burnisher c) a.space.toNat (8 * a.descAddr.toNat) 64, 13)]).orElse fun _ =>
  (burnNamed s c a d).orElse fun _ =>
  firstBad [
    (decide (s.busyUntil (srcCluster c 1) ≤ i), 16),
    (decide (burnEnd i a d < s.tailStart), 16)]

/-- The summary of R153 waits for the tail. -/
def burnSummary (cl : ClusterLoc) (a : BurnishArgs) (d : LayerDesc) (n : BurnCounts) : TailEvent :=
  { source := srcCluster cl 1, code := 0x0118,
    payload := eventPayload [f16 (clusterIdx cl), f64 a.descAddr.toNat, f32 a.firstBrow.toNat,
      f32 ((a.browsM1.toNat + 1) * d.bcols), f32 n.changed, f32 n.grown, f32 n.nonfinite] }

/-- Reads of block `i` of a command. -/
def burnAt (c : Nat) (a : BurnishArgs) (i : Nat) : Nat := burnFirst c a + i * (a.pace.toNat + 1)

/-- The next block is due when its planes are written; after the last, the summary waits for the tail. -/
def planBurn (cl : ClusterLoc) (c : Nat) (a : BurnishArgs) (raw i : Nat) (w : BurnWord) (n : BurnCounts) (s : State) :
    State :=
  let d := layerDesc raw
  if i < (a.browsM1.toNat + 1) * d.bcols then
    s.plan (.burnisher cl) c (burnAt c a i + 1286) (.burn cl a raw i w n)
  else { s with tailEvents := s.tailEvents ++ [burnSummary cl a d n] }

/-- Block `i`: with the first of a word the word is read, and with the last it is written. -/
def burnOne (cl : ClusterLoc) (c : Nat) (a : BurnishArgs) (raw i : Nat) (w : BurnWord) (n : BurnCounts) (s : State) :
    State :=
  let d := layerDesc raw
  let t := burnAt c a i
  let b := a.firstBrow.toNat + i / d.bcols
  let col := i % d.bcols
  let x := if col % 9 = 0 then s.burnWord cl c t d b (col / 9) else (w, s)
  let y := x.2.burnBlock cl c t d (x.1.outcome == 0) b col (slotCode (ofLe x.1.bytes) (col % 9)) n
  let w := { x.1 with codes := x.1.codes ++ [y.1] }
  let s := if col % 9 = 8 ∨ col + 1 = d.bcols then y.2.2.burnWordBack cl t d b (col / 9) w else y.2.2
  planBurn cl c a raw (i + 1) w y.2.1 s

/-- BURNISH (R144): the descriptor is on its way. -/
def burnishEffect (cl : ClusterLoc) (c : Nat) (a : BurnishArgs) (s : State) : State :=
  (s.setBusy (srcCluster cl 1) (burnEnd c a (s.burnNow cl c a))).plan (.burnisher cl) c (c + latency a.space.toNat)
    (.burnDesc cl a)

/-- It arrives. A poisoned descriptor stops the command, and one that is not legal (R512). Log entry 59. -/
def burnArrives (cl : ClusterLoc) (c : Nat) (a : BurnishArgs) (s : State) : State :=
  let r := s.descRead (.burnisher cl) c a.space.toNat (8 * a.descAddr.toNat) 64
  let raw := ofLe r.1.bytes
  if r.1.poison.isEmpty && (burnNamed r.2 cl a (layerDesc raw)).isNone then
    planBurn cl c a raw 0 ⟨[], [], 0, []⟩ ⟨0, 0, 0⟩ r.2
  else r.2

end Sys2Proof.Machine
end

