-- ==== Sys2Proof/Machine/Counterproof.lean ====
section
/-! DEFINITION. Counterproof (R203–R211): the tensor layouts, the MXFP4 arrangements, and COPY. -/

namespace Sys2Proof.Machine

/-! ### The copy descriptor (R208) -/

structure CopyDesc where
  srcSpace : Nat
  dstSpace : Nat
  srcLayout : Nat
  dstLayout : Nat
  srcFmt : Nat
  dstFmt : Nat
  trans : Bool
  weightArr : Bool
  mxSeg : Nat
  srcTrows : Nat
  srcTcols : Nat
  srcBase : Nat
  srcPitch : Nat
  dstBase : Nat
  dstPitch : Nat
  scaleBase : Nat
  rsvd : Nat
  deriving DecidableEq, Repr

def copyDesc (x : Nat) : CopyDesc :=
  { srcSpace := field x 0 2, dstSpace := field x 2 2, srcLayout := field x 4 2, dstLayout := field x 6 2,
    srcFmt := field x 8 3, dstFmt := field x 11 3, trans := bitAt x 14, weightArr := bitAt x 15,
    mxSeg := field x 16 2, srcTrows := field x 32 16, srcTcols := field x 48 16, srcBase := field x 64 36,
    srcPitch := field x 100 24, dstBase := field x 128 36, dstPitch := field x 164 24,
    scaleBase := field x 192 36,
    rsvd := field x 18 14 + field x 124 4 + field x 188 4 + field x 228 284 }

/-- The formats of R208; MXFP4 elements are E2M1. -/
def copyFmt (code : Nat) : FpFmt :=
  match code with | 0 => .e4m3 | 1 => .e5m2 | 2 => .bf16 | 3 => .e2m1 | _ => .fp32

/-- Rows and columns of the output grid, in tiles. -/
def CopyDesc.rows (d : CopyDesc) : Nat := if d.trans then d.srcTcols else d.srcTrows
def CopyDesc.cols (d : CopyDesc) : Nat := if d.trans then d.srcTrows else d.srcTcols

/-- Tiles of a segment of the operand arrangement. -/
def CopyDesc.segTiles (d : CopyDesc) : Nat := 2 <<< d.mxSeg
def CopyDesc.operandArr (d : CopyDesc) : Bool := d.dstFmt == 3 && !d.weightArr
def CopyDesc.extra (d : CopyDesc) : Nat := if d.dstFmt = 3 then 2 else 0

/-! ### Layouts (R203, R205) -/

/-- Offset of row `j` of tile (a, b) in a tensor of `tcols` tiles across with element size `e`. -/
def layoutRow (layout e pitch tcols a b j : Nat) : Nat :=
  match layout with
  | 0 => (32 * a + j) * (8 * pitch) + 32 * b * e
  | 1 => ((a * tcols + b) * 1024 + 32 * j) * e
  | _ => ((a / 8 * (tcols / 8) + b / 8) * 65536 + (a % 8 * 8 + b % 8) * 1024 + 32 * j) * e

/-- Offset of row `j` of source row of tile (a, b). -/
def CopyDesc.srcRow (d : CopyDesc) (a b j : Nat) : Nat :=
  8 * d.srcBase + layoutRow d.srcLayout (copyFmt d.srcFmt).bytes d.srcPitch d.srcTcols a b j

/-- Offset of row `j` of output tile (a, b). -/
def CopyDesc.dstRow (d : CopyDesc) (a b j : Nat) : Nat :=
  8 * d.dstBase +
  (if d.dstLayout < 3 then layoutRow d.dstLayout (copyFmt d.dstFmt).bytes d.dstPitch d.cols a b j
   else if d.weightArr then (a / 2 * d.cols + b) * 1088 + 16 * (32 * (a % 2) + j)
   else (b / d.segTiles * (32 * d.rows) + 32 * a + j) * (16 * d.segTiles) + 16 * (b % d.segTiles))

def CopyDesc.srcLen (d : CopyDesc) : Nat := 32 * (copyFmt d.srcFmt).bytes
def CopyDesc.dstLen (d : CopyDesc) : Nat := if d.dstFmt = 3 then 16 else 32 * (copyFmt d.dstFmt).bytes

/-- Offset and length of what is written of the scales with output row `j` of tile (a, b): in the operand
arrangement a scale row when the tile ends a segment, in the weight arrangement the byte of column `j`: the spec gives
no cycle for it (DESIGN CHOICE, log entry 60). -/
def CopyDesc.scalePlace (d : CopyDesc) (a b j : Nat) : Option (Nat × Nat) :=
  if d.dstFmt ≠ 3 then none
  else if d.weightArr then
    some (8 * d.dstBase + (a / 2 * d.cols + b) * 1088 + 1024 + 2 * j + a % 2, 1)
  else if b % d.segTiles = d.segTiles - 1 then
    some (8 * d.scaleBase + (b / d.segTiles * (32 * d.rows) + 32 * a + j) * 8, 8)
  else none

/-! ### Conversion (R103, R209) -/

/-- One element, between formats other than MXFP4. A copy within a format moves the bits. -/
def copyElement (d : CopyDesc) (x : Nat) : Nat :=
  if d.srcFmt = d.dstFmt then x else convert (copyFmt d.dstFmt) (widen (copyFmt d.srcFmt) x)

/-- Elements that saturate at ±448 in E4M3. -/
def copySaturations (d : CopyDesc) (row : List Nat) : Nat :=
  if d.dstFmt = 0 ∧ d.srcFmt ≠ 0 then
    (row.filter fun x => saturates .e4m3 (fval (widen (copyFmt d.srcFmt) x))).length
  else 0

/-- ⌊log₂⌋ of the largest magnitude, if any is not zero. -/
def topLog (vs : List FVal) : Option Int :=
  vs.foldl (fun m v => match v with
    | .fin _ k e => if k = 0 then m else match m with | none => some (log2V k e) | some t => some (max t (log2V k e))
    | _ => m) none

def finiteV (v : FVal) : Bool := match v with | .fin .. => true | _ => false

/-- The scale field of a group, and its scale exponent unless it holds a NaN or an infinity (R103). -/
def groupScale (vs : List FVal) : Nat × Option Int :=
  if vs.all finiteV then
    let x : Int := match topLog vs with | none => -127 | some t => max (-127) (min 127 (t - 2))
    ((x + 127).toNat, some x)
  else (0xFF, none)

/-- An element of a group. -/
def groupElement (x : Option Int) (v : FVal) : Nat :=
  match x with
  | none => 0
  | some k => encodeFp .e2m1 (scaleV (-k) v)

/-- Two elements to a byte, the even one low (R204). -/
def packNibbles : List Nat → List Byte
  | a :: b :: r => BitVec.ofNat 8 (a % 16 + 16 * (b % 16)) :: packNibbles r
  | _ => []

/-! ### COPY (R206, R210) -/

def copyTiles (a : CopyArgs) : Nat := a.tilesM1.toNat + 1
/-- Output tile `i` of a command. -/
def CopyDesc.tile (d : CopyDesc) (a : CopyArgs) (i : Nat) : Nat × Nat :=
  ((a.firstTile.toNat + i) / d.cols, (a.firstTile.toNat + i) % d.cols)

def copyRead (c : Nat) (a : CopyArgs) (i r : Nat) : Nat := c + latency a.space.toNat + 1 + 32 * i + r
def copyWrite (c : Nat) (a : CopyArgs) (d : CopyDesc) (i j : Nat) : Nat :=
  c + latency a.space.toNat + latency d.srcSpace + 34 + d.extra + 32 * i + j
def copyEnd (c : Nat) (a : CopyArgs) (d : CopyDesc) : Nat := copyWrite c a d (copyTiles a) 0

/-- A tile in a buffer: codes and whether each is of a poisoned word, row by row. -/
abbrev CopyTile := List (List (Nat × Bool))

/-- One row of a source tile enters the buffer. -/
def State.copyReadRow (s : State) (c : ClusterLoc) (t : Nat) (a : CopyArgs) (d : CopyDesc) (i r : Nat) :
    List (Nat × Bool) × State :=
  let st := StationRef.counterproof c
  let o := d.tile a i
  let p := if d.trans then (o.2, o.1) else o
  let n := d.srcLen
  match s.spaceAddr st d.srcSpace (d.srcRow p.1 p.2 r) n with
  | none => ([], s)
  | some x =>
    let at_ := copyRead t a i r
    let y := s.stationRead st t at_ (at_ + latency d.srcSpace) x n
    let e := (copyFmt d.srcFmt).bytes
    ((rowCodes (copyFmt d.srcFmt) y.1.bytes).zipIdx.map fun v => (v.1, y.1.poison.contains (wordOf (x + e * v.2))),
     y.2)

/-- The rows of the output tile: the source rows, or its columns (R206). -/
def outputRows (trans : Bool) (t : CopyTile) : CopyTile :=
  if trans then (List.range 32).map fun j => t.map fun row => nth (0, false) row j else t

/-- What a tile is written with: its codes, and the scale fields of its 32 rows or of its 32 columns. -/
def convertTile (d : CopyDesc) (t : CopyTile) : CopyTile × List Nat :=
  if d.dstFmt ≠ 3 then (t.map fun row => row.map fun x => (copyElement d x.1, x.2), [])
  else
    let v := fun (x : Nat × Bool) => fval (widen (copyFmt d.srcFmt) x.1)
    if d.weightArr then
      let gs := (outputRows true t).map fun col => groupScale (col.map v)
      (t.map fun row => (row.zip gs).map fun p => (groupElement p.2.2 (v p.1), p.1.2), gs.map (·.1))
    else
      let gs := t.map fun row => groupScale (row.map v)
      ((t.zip gs).map fun p => p.1.map fun x => (groupElement p.2.2 (v x), x.2), gs.map (·.1))

/-- Words of an output row that hold an element of a poisoned word. -/
def poisonedWords (d : CopyDesc) (x : Nat) (row : List (Nat × Bool)) : List Nat :=
  ((row.zipIdx.filter (·.1.2)).map fun p =>
    wordOf (x + (if d.dstFmt = 3 then p.2 / 2 else p.2 * (copyFmt d.dstFmt).bytes))).eraseDups

def outputBytes (d : CopyDesc) (row : List (Nat × Bool)) : List Byte :=
  if d.dstFmt = 3 then packNibbles (row.map (·.1))
  else row.flatMap fun x => leBytes (copyFmt d.dstFmt).bytes x.1

/-- A write of a COPY at an offset of the destination space. -/
def State.copyPut (s : State) (c : ClusterLoc) (t space off : Nat) (bs : List Byte) (pois : Nat → List Nat) :
    State :=
  match s.spaceAddr (.counterproof c) space off bs.length with
  | none => s
  | some x => s.stationWrite (.counterproof c) t x bs (pois x)

/-- Output row `j` of tile `i`, with the scales written in its cycle. `segs` holds the scale fields of the
tiles of the segment so far. -/
def State.copyWriteRow (s : State) (c : ClusterLoc) (t : Nat) (a : CopyArgs) (d : CopyDesc) (i j : Nat)
    (row : List (Nat × Bool)) (segs : List (List Nat)) : State :=
  let o := d.tile a i
  let w := copyWrite t a d i j
  let s := s.copyPut c w d.dstSpace (d.dstRow o.1 o.2 j) (outputBytes d row) (fun x => poisonedWords d x row)
  match d.scalePlace o.1 o.2 j with
  | none => s
  | some p =>
    let bytes := if d.weightArr then leBytes 1 (nth 0 (nth [] segs (segs.length - 1)) j)
      else padTo 8 0 (segs.map fun g => BitVec.ofNat 8 (nth 0 g j))
    s.copyPut c w d.dstSpace p.1 bytes (fun _ => [])

/-- One tile. -/
def State.copyTile (s : State) (c : ClusterLoc) (t : Nat) (a : CopyArgs) (d : CopyDesc) (segs : List (List Nat))
    (i : Nat) : List (List Nat) × State :=
  let z := (List.range 32).foldl (fun (z : CopyTile × State) r =>
    let y := z.2.copyReadRow c t a d i r
    (z.1 ++ [y.1], y.2)) ([], s)
  let src := outputRows d.trans z.1
  let sat := sumNat (src.map fun row => copySaturations d (row.map (·.1)))
  let f := fun (x : ClusterCounts) => { x with cpSaturations := satAdd x.cpSaturations sat }
  let s := { z.2 with clusterCounts := smapMod .zero z.2.clusterCounts (clusterIdx c) f }
  let out := convertTile d src
  let first := (d.tile a i).2 % d.segTiles = 0
  let segs := if first then [out.2] else segs ++ [out.2]
  (segs, out.1.zipIdx.foldl (fun s p => s.copyWriteRow c t a d i p.2 p.1 segs) s)

/-- Byte range of a tensor in a layout. -/
def tensorLen (layout e pitch trows tcols : Nat) : Nat :=
  if layout = 0 then (32 * trows - 1) * (8 * pitch) + 32 * tcols * e else 1024 * trows * tcols * e

/-- Byte ranges of the destination (R203, R205). -/
def CopyDesc.dstRanges (d : CopyDesc) : List (Nat × Nat) :=
  if d.dstLayout < 3 then
    [(8 * d.dstBase, tensorLen d.dstLayout (copyFmt d.dstFmt).bytes d.dstPitch d.rows d.cols)]
  else if d.weightArr then [(8 * d.dstBase, d.rows / 2 * d.cols * 1088)]
  else [(8 * d.dstBase, d.rows * d.cols * 512), (8 * d.scaleBase, 32 * d.rows * (d.cols / d.segTiles) * 8)]

/-- What R208 asks of a layout, its base, pitch and grid. -/
def layoutOk (layout e base pitch trows tcols : Nat) : Bool :=
  match layout with
  | 0 => decide (32 * tcols * e ≤ 8 * pitch)
  | 1 => pitch == 0 && (8 * base) % (1024 * e) == 0
  | _ => pitch == 0 && (8 * base) % (1024 * e) == 0 && trows % 8 == 0 && tcols % 8 == 0

def copyDescOk (d : CopyDesc) (a : CopyArgs) : Bool :=
  d.rsvd == 0 && (d.srcSpace == 1 || d.srcSpace == 2) && (d.dstSpace == 1 || d.dstSpace == 2)
  && decide (d.srcLayout < 3) && ((d.dstLayout == 3) == (d.dstFmt == 3))
  && decide (d.srcFmt < 5) && d.srcFmt != 3 && decide (d.dstFmt < 5) && d.mxSeg != 3
  && layoutOk d.srcLayout (copyFmt d.srcFmt).bytes d.srcBase d.srcPitch d.srcTrows d.srcTcols
  && (if d.dstLayout = 3 then d.dstPitch == 0
      else layoutOk d.dstLayout (copyFmt d.dstFmt).bytes d.dstBase d.dstPitch d.rows d.cols)
  && (d.operandArr || d.scaleBase == 0)
  && decide (a.firstTile.toNat + copyTiles a ≤ d.rows * d.cols)
  && (!(d.dstFmt == 3 && d.weightArr) || d.rows % 2 == 0)
  && (!d.operandArr || (d.cols % d.segTiles == 0 && a.firstTile.toNat % d.segTiles == 0
      && copyTiles a % d.segTiles == 0))

/-- Source and destination do not overlap (R211). -/
def copyApart (d : CopyDesc) : Bool :=
  d.srcSpace != d.dstSpace || d.dstRanges.all fun r => !overlap r.1 r.2 (8 * d.srcBase)
    (tensorLen d.srcLayout (copyFmt d.srcFmt).bytes d.srcPitch d.srcTrows d.srcTcols)

/-- Every row of every tile lies where Counterproof may reach. -/
def copyReach (s : State) (c : ClusterLoc) (a : CopyArgs) (d : CopyDesc) : Bool :=
  let st := StationRef.counterproof c
  (List.range (copyTiles a)).all fun i =>
    let o := d.tile a i
    let p := if d.trans then (o.2, o.1) else o
    (List.range 32).all fun j =>
      s.spaceOk st d.srcSpace (d.srcRow p.1 p.2 j) d.srcLen
      && s.spaceOk st d.dstSpace (d.dstRow o.1 o.2 j) d.dstLen
      && (match d.scalePlace o.1 o.2 j with | none => true | some q => s.spaceOk st d.dstSpace q.1 q.2)

/-- What R208 and R211 refuse of a descriptor. -/
def copyDescBad (s : State) (c : ClusterLoc) (a : CopyArgs) (d : CopyDesc) : Option Nat :=
  firstBad [(copyDescOk d a, 13), (copyApart d, 13), (copyReach s c a d, 13)]

/-- The descriptor as it stands at cycle `t`. -/
def State.copyNow (s : State) (c : ClusterLoc) (t : Nat) (a : CopyArgs) : CopyDesc :=
  copyDesc (s.descNow (.counterproof c) a.space.toNat (8 * a.descAddr.toNat) 64 t)

def copyBad (s : State) (c : ClusterLoc) (t : Nat) (a : CopyArgs) : Option Nat :=
  let d := s.copyNow c t a
  (firstBad [
    (a.space == 1 || a.space == 2, 13),
    (s.spaceOk (.counterproof c) a.space.toNat (8 * a.descAddr.toNat) 64, 13)]).orElse fun _ =>
  (copyDescBad s c a d).orElse fun _ =>
  firstBad [(decide (s.busyUntil (srcCluster c 0) ≤ t), 16), (decide (copyEnd t a d ≤ s.tailStart), 16)]

/-- The next tile of a COPY is due when its first row is written: by then it has been read. -/
def planCopy (c : ClusterLoc) (t : Nat) (a : CopyArgs) (raw i : Nat) (segs : List (List Nat)) (s : State) : State :=
  if i < copyTiles a then s.plan (.counterproof c) t (copyWrite t a (copyDesc raw) i 0) (.copy c a raw i segs) else s

def copyOne (c : ClusterLoc) (t : Nat) (a : CopyArgs) (raw i : Nat) (segs : List (List Nat)) (s : State) : State :=
  let z := s.copyTile c t a (copyDesc raw) segs i
  planCopy c t a raw (i + 1) z.1 z.2

/-- COPY (R207): the descriptor is on its way. -/
def copyEffect (c : ClusterLoc) (t : Nat) (a : CopyArgs) (s : State) : State :=
  (s.setBusy (srcCluster c 0) (copyEnd t a (s.copyNow c t a))).plan (.counterproof c) t (t + latency a.space.toNat)
    (.copyDesc c a)

/-- It arrives: every tile in order. A poisoned descriptor stops the command, and one that is not legal (R512). Log entry
59. -/
def copyArrives (c : ClusterLoc) (t : Nat) (a : CopyArgs) (s : State) : State :=
  let r := s.descRead (.counterproof c) t a.space.toNat (8 * a.descAddr.toNat) 64
  let raw := ofLe r.1.bytes
  if r.1.poison.isEmpty && (copyDescBad r.2 c a (copyDesc raw)).isNone then planCopy c t a raw 0 [] r.2 else r.2

end Sys2Proof.Machine
end

