-- ==== Sys2Proof/Machine/Etch.lean ====
section
/-! DEFINITION. The Etch station: planes, passes and their landings (R58–R67, R81–R83, R97–R108,
R128–R131, R511). -/

namespace Sys2Proof.Machine

/-! ### Planes -/

/-- A plane load whose window has begun by cycle `t` lies in the shadow plane (R79). -/
def applyLoads (e : Engine) (t : Nat) : Engine :=
  e.loads.foldl (fun e l =>
      if l.first ≤ t then { e with shadow := l.plane, loads := e.loads.filter (· ≠ l) } else e) e

/-- SWAP at cycle `c` (R59). -/
def swapPlanes (e : Engine) (c : Nat) : Engine :=
  let e := applyLoads e c
  { e with active := e.shadow, shadow := e.active, nextPass := max e.nextPass (c + 1) }

/-- What forbids a SWAP (R59): a valid operand row in the array, or a window under way. The end of a BF16 pass is taken
as R61's formula has it. Log entry 74. -/
def swapBad (e : Engine) (c : Nat) : Option Nat :=
  firstBad [(decide (e.arrayFree ≤ c), 16),
    (e.loads.all (fun l => !(decide (l.first ≤ c) && decide (c ≤ l.last))), 16)]

def zeroCell : Cell := ⟨0, 0, 0, 0⟩
def Plane.cell (p : Plane) (i : Nat) : Cell := nth zeroCell p.cells i

/-- The exact value of an E8M0 scale (R96). -/
def e8m0 (b : Nat) : FVal := if b = 0xFF then .nan else .fin false 1 ((b : Int) - 127)

/-! ### The form of a pass (R60) -/

/-- Cycles per operand row (R61), and pipeline depth (R60). -/
def rowCycles (fmt : Nat) : Nat := if fmt = 2 then 2 else 1
def passDepth (form : Nat) : Nat := if form = 2 then 8 else 32

/-- Largest ROWS of a form (R60). -/
def formRows (form : Nat) : Nat :=
  match form with | 0 => 256 | 1 => 512 | 2 => 8 | 3 => 256 | 4 => 256 | _ => 512

/-- The plane MODE that a form needs (R60). -/
def formMode (form : Nat) : Nat := match form with | 0 => 0 | 1 => 0 | 2 => 1 | 3 => 2 | _ => 3

/-- ROW_LEN of an operand row (R74), by form and format; none where the form refuses the format. -/
def operandLen (form fmt : Nat) : Option Nat :=
  match form, fmt with
  | 2, 3 => none | 5, 3 => none
  | 2, 2 => some 1 | 2, _ => some 0
  | 3, 2 => some 4 | 3, _ => some 3
  | 4, 2 => some 5 | 4, _ => some 4
  | _, 2 => some 3 | _, _ => some 2

/-- Whether two formats belong to one kind: FP8 of either sort, BF16, or MXFP4 (R82). -/
def sameKind (a b : Nat) : Bool := (decide (a < 2) && decide (b < 2)) || a == b

/-- Accumulator rows that a pass writes (R63, R131). -/
def passSpan (a : PassArgs) : Nat :=
  if a.osp = 1 then 32
  else if a.form = 2 then 4 * (a.rowsM1.toNat + 1) else a.rowsM1.toNat + 1

/-- The checks of R82 and R131 that one PASS and its planes decide. -/
def passBad (e : Engine) (c : Nat) (a : PassArgs) : Option Nat :=
  let form := a.form.toNat
  let fmt := a.fmt.toNat
  let isPlane := decide (form < 5)
  firstBad [
    (decide (form < 6), 13),
    (decide (a.start ≠ 3), 13),
    (!isPlane || e.active.mode.isSome, 13),
    (!isPlane || e.active.mode == some (BitVec.ofNat 3 (formMode form)), 13),
    (!isPlane || sameKind fmt e.active.fmt.toNat, 13),
    ((operandLen form fmt).isSome, 13),
    (decide (a.rowsM1.toNat < formRows form), 13),
    (decide (a.accBase.toNat + passSpan a ≤ 512), 13),
    (decide (a.osp = 0) || form == 3 || form == 4, 13),
    (decide (a.osp = 0) || !e.active.trans, 13),
    (decide (a.osp = 0) || decide (a.start ≠ 2), 13),
    (decide (a.osp = 0) || decide (fmt ≠ 3), 14),
    (e.passes.isEmpty && decide (e.nextPass ≤ c), 16)]

/-! ### Products -/

/-- The cells of a plane that feed column `n` in a pass of some form: logical K position and weight code (R128, R129,
R511), in ascending K. The form is that of the plane's MODE (R82). -/
def columnCells (form : Nat) (p : Plane) (n : Nat) : List (Nat × Nat) :=
  match formMode form with
  | 1 => (List.range 8).map fun k => (k, (p.cell (k * 128 + n)).w.toNat)
  | 0 =>
    if p.fmt = 3 then
      (List.range 32).flatMap fun j =>
        let c := p.cell (j * 32 + n)
        [(2 * j, c.w.toNat % 16), (2 * j + 1, c.w1.toNat)]
    else (List.range 32).map fun j => (j, (p.cell (j * 32 + n)).w.toNat)
  | mode =>
    let per := if mode = 2 then 2 else 1
    (List.range (32 / per)).flatMap fun g =>
      let cells := (List.range per).map fun i => p.cell ((per * g + i) * 32 + n)
      if p.fmt = 3 then
        (cells.map fun c => (8 * g + c.sel.toNat, c.w.toNat % 16))
          ++ (cells.map fun c => (8 * g + 4 + c.sel1.toNat, c.w1.toNat))
      else cells.map fun c => (4 * g + c.sel.toNat, c.w.toNat)

/-- The 32-position scale groups of a weight column (R78). -/
def scaleGroups (form : Nat) : Nat :=
  match formMode form with | 0 => 2 | 2 => 4 | _ => 8

/-- The exact products that operand row `row` forms with column `n` of the plane (R99, R102). -/
def columnProducts (form : Nat) (p : Plane) (fmt : Nat) (row : List Byte) (scales : List Byte) (n : Nat) : List FVal :=
  let xs := rowCodes (operandFmt fmt) row
  (columnCells form p n).map fun kw =>
    let x := mulV (decodeFp (operandFmt fmt) (nth 0 xs kw.1)) (decodeFp (operandFmt p.fmt.toNat) kw.2)
    if p.fmt = 3 then
      mulV (mulV x (e8m0 (nth 0 scales (kw.1 / 32)).toNat))
        (e8m0 (nth 0 p.scales (n * scaleGroups form + kw.1 / 32)).toNat)
    else x

/-- The element-wise products of R64; each operand is read in the format of its own load. Log entry 74. -/
def elementProducts (fmt : Nat) (row : List Byte) (dfmt : Nat) (diag : List Byte) : List (List FVal) :=
  ((rowCodes (operandFmt fmt) row).zip (rowCodes (operandFmt dfmt) diag)).map fun p =>
    [mulV (decodeFp (operandFmt fmt) p.1) (decodeFp (operandFmt dfmt) p.2)]

/-- One kept position of a sparse plane: its compressed index (R127), K position and column. -/
structure OspCell where
  idx : Nat
  k : Nat
  n : Nat
  deriving DecidableEq, Repr

/-- The kept positions of one block in row-major order, from the selects of its cells (R127, R128). -/
def blockKept (p : Plane) (per g c : Nat) : List (Nat × Nat) :=
  (List.range 4).flatMap fun r =>
    (List.range 4).filterMap fun q =>
      if (List.range per).any fun i => (p.cell ((per * g + i) * 32 + 4 * c + q)).sel.toNat == r then
        some (r, q)
      else none

/-- Every kept position of a TRANS = 0 plane (R130, R131). -/
def ospCells (form : Nat) (p : Plane) : List OspCell :=
  let per := if form = 3 then 2 else 1
  let v := 4 * per
  (List.range (32 / per)).flatMap fun g =>
    (List.range 8).flatMap fun c =>
      (blockKept p per g c).zipIdx.map fun rq =>
        { idx := g * (8 * v) + v * c + rq.2, k := 4 * g + rq.1.1, n := 4 * c + rq.1.2 }

/-- The product that lands at each of the 1,024 compressed indexes (R130, R131). -/
def ospProducts (form : Nat) (p : Plane) (fmt : Nat) (x dy : List Byte) : List (Nat × FVal) :=
  let xs := rowCodes (operandFmt fmt) x
  let ys := rowCodes (operandFmt p.fmt.toNat) dy
  (ospCells form p).map fun c =>
    (c.idx, mulV (decodeFp (operandFmt fmt) (nth 0 xs c.k)) (decodeFp (operandFmt p.fmt.toNat) (nth 0 ys c.n)))

/-! ### Landings (R104–R106) -/

/-- The range rule of R99: a value outside the FP32 normal range is rounded to FP32 once. -/
def rangeRule (v : FVal) : FVal :=
  match v with
  | .fin _ m e =>
    if m = 0 then v
    else if (-126 : Int) ≤ log2V m e ∧ log2V m e ≤ 126 then v
    else fval (round32 v)
  | v => v

/-- A chain of additions (R106): each product enters with the factor 2^k. -/
def chainFrom (k : Int) (start : Word) (ps : List FVal) : Word :=
  ps.foldl (fun a p => round32 (addV (fval a) (rangeRule (scaleV k p)))) start

/-- A chain begun at its first product (R105, ZERO). -/
def chainZero : List FVal → Word
  | [] => 0
  | p :: ps => chainFrom 0 (round32 p) ps

/-- Accumulator row `r` as the latest landing left it; zero before any (R104). -/
def Engine.accRow (e : Engine) (r : Nat) : AccRow :=
  match smapGet [] e.acc r with
  | a :: _ => a
  | [] => ⟨0, List.replicate 32 0, 0⟩

/-- Accumulator row `r` as a read in cycle `t` sees it: landings up to t − 1 (R84). -/
def Engine.accAt (e : Engine) (r t : Nat) : AccRow :=
  match (smapGet [] e.acc r).find? (fun a => decide (a.cycle < t)) with
  | some a => a
  | none => ⟨0, List.replicate 32 0, 0⟩

/-- A landing in one row (R105): START, the plane's s, the products of each column, the Q3 entry. -/
def landRow (old : AccRow) (cycle start : Nat) (s : Int) (ps : List (List FVal)) (b : List Word) : AccRow :=
  match start with
  | 0 => ⟨cycle, ps.map chainZero, s⟩
  | 2 => ⟨cycle, (ps.zip b).map fun pb => chainFrom 0 (fscale pb.2 (-s)) pb.1, s⟩
  | _ => ⟨cycle, (ps.zip old.vals).map fun pv => chainFrom (s - old.t) pv.2 pv.1, old.t⟩

def Engine.land (e : Engine) (r : Nat) (a : AccRow) : Engine :=
  { e with acc := smapMod [] e.acc r (fun l => a :: l) }

/-- The products of one row of 32 columns that an OSP landing adds: column by column at most one. -/
def ospRow (ps : List (Nat × FVal)) (r : Nat) : List (List FVal) :=
  (List.range 32).map fun j => (ps.filter fun p => p.1 == 32 * r + j).map (·.2)

/-- An operand row lands, with the Q3 entries that it takes (R63, R64, R131). -/
def landOperand (e : Engine) (l : Landing) (pre : List (List Word)) : Engine :=
  let a := l.args
  let m := l.row
  let t := l.cycle
  let base := a.accBase.toNat
  let st := a.start.toNat
  let fmt := a.fmt.toNat
  let form := a.form.toNat
  let p := l.plane
  if a.osp = 1 then
    let ps := ospProducts form p fmt l.x.bytes l.y.bytes
    (List.range 32).foldl (fun e r =>
      e.land (base + r) (landRow (e.accRow (base + r)) t (if m = 0 then st else 1) 0 (ospRow ps r) [])) e
  else if a.form = 5 then
    e.land (base + m) (landRow (e.accRow (base + m)) t st 0
      (elementProducts fmt l.x.bytes l.y.fmt.toNat l.y.bytes) (nth [] pre 0))
  else if a.form = 2 then
    (List.range 4).foldl (fun e r =>
      let ps := (List.range 32).map fun j => columnProducts form p fmt l.x.bytes [] (32 * r + j)
      e.land (base + 4 * m + r)
        (landRow (e.accRow (base + 4 * m + r)) t st p.scaleExp ps (nth [] pre r))) e
  else
    let ps := (List.range 32).map fun j => columnProducts form p fmt l.x.bytes l.y.bytes j
    e.land (base + m) (landRow (e.accRow (base + m)) t st p.scaleExp ps (nth [] pre 0))

/-! ### Row slots and feed bubbles (R61, R66, R67) -/

def Engine.operandQueue (e : Engine) (q : BitVec 1) : List QEntry := if q = 0 then e.q0 else e.q1

/-- The second entry that an operand row needs: the scale row, dY, or the diagonal; a dense row needs
none. -/
def secondQueue (e : Engine) (a : PassArgs) : Option (List QEntry) :=
  if a.form = 5 then some e.q2
  else if a.osp = 1 ∨ a.fmt = 3 then some (e.operandQueue (if a.qsel = 0 then 1 else 0))
  else none

/-- Q3 entries that one operand row takes at its landing (R66, R83). -/
def preNeeded (a : PassArgs) : Nat :=
  if a.start = 2 then (if a.form = 2 then 4 else 1) else 0

def popQueues (e : Engine) (a : PassArgs) : Engine :=
  let pop0 := a.qsel = 0 ∨ ((a.osp = 1 ∨ a.fmt = 3) ∧ a.form ≠ 5)
  let pop1 := a.qsel = 1 ∨ ((a.osp = 1 ∨ a.fmt = 3) ∧ a.form ≠ 5)
  { e with q0 := if pop0 then e.q0.drop 1 else e.q0, q1 := if pop1 then e.q1.drop 1 else e.q1,
           q2 := if a.form = 5 then e.q2.drop 1 else e.q2 }

/-- Whether an entry may be read as an operand of the pass (R74). -/
def operandOk (a : PassArgs) (x : QEntry) : Bool :=
  x.fmt == a.fmt && operandLen a.form.toNat a.fmt.toNat == some x.rowLen.toNat

/-- The entries with which the next operand row of a pass enters the array, if the queues hold them. -/
def operandEntries (e : Engine) (a : PassArgs) : Option (QEntry × QEntry) :=
  match e.operandQueue a.qsel with
  | [] => none
  | x :: _ =>
    if !operandOk a x then none
    else match secondQueue e a with
      | none => some (x, x)
      | some [] => none
      | some (y :: _) => some (x, y)

/-- A row in the array takes its place among the others by its landing cycle; of one cycle the earlier entered comes
first. Log entry 74. -/
def insertLanding (l : Landing) : List Landing → List Landing
  | [] => [l]
  | x :: r => if l.cycle < x.cycle then l :: x :: r else x :: insertLanding l r

/-- Entry `i` of Q3 as a landing at cycle `t` finds it; where a skipped command has left none there, free values
(R197). -/
def preEntry (key : List Nat) (e : Engine) (t i : Nat) : List Word :=
  match e.q3[i]? with
  | some q => if q.time < t then rowWords q.bytes else (List.range 32).map fun j => Config.freeWord (197 :: t :: i :: j :: key)
  | none => (List.range 32).map fun j => Config.freeWord (197 :: t :: i :: j :: key)

/-- A row lands, and takes its Q3 entries in that cycle (R66, R83). -/
def landOne (key : List Nat) (e : Engine) (l : Landing) : Engine :=
  let n := preNeeded l.args
  let had := ((e.q3.take n).filter fun q => decide (q.time < l.cycle)).length
  landOperand { e with q3 := e.q3.drop had } l ((List.range n).map (preEntry key e l.cycle))

/-- The landings before cycle `h`, in the order of their cycles (R83, R106). -/
def settle (key : List Nat) (h : Nat) (e : Engine) : Engine :=
  (e.landings.filter fun l => decide (l.cycle < h)).foldl (landOne key)
    { e with landings := e.landings.filter fun l => !decide (l.cycle < h) }

/-- Enter the rows of the open passes for which the queues hold their entries. -/
def passRows : Nat → Engine × Nat → Engine × Nat
  | 0, eb => eb
  | f + 1, (e, bubbles) =>
    match e.passes with
    | [] => (e, bubbles)
    | j :: js =>
      match operandEntries e j.args with
      | none => (e, bubbles)
      | some (x, y) =>
        let r := rowCycles j.args.fmt.toNat
        let late := max x.time y.time + 1 - j.slot
        let b := ceilDiv late r
        let t := j.slot + b * r
        let d := passDepth j.args.form.toNat
        let e := popQueues e j.args
        let last := decide (j.row = j.args.rowsM1.toNat)
        let e := { e with
          passes := if last then js else { j with row := j.row + 1, slot := t + r } :: js,
          landings := insertLanding ⟨t + d, j.args, j.row, x, y, e.active⟩ e.landings,
          nextPass := t + 1, arrayFree := max e.arrayFree (t + r + d) }
        passRows f (e, bubbles + b)

/-- Feed bubbles of an engine are counted (R67, R68). -/
def State.addFeedBubbles (s : State) (e : EngineLoc) (n : Nat) : State :=
  let f := fun (x : EngineCounts) => { x with feedBubbles := satAdd x.feedBubbles n }
  { s with counts := smapMod .zero s.counts (engineIdx e) f }

/-- Rows that the open passes have still to enter. -/
def passLeft (x : Engine) : Nat := sumNat (x.passes.map fun j => j.args.rowsM1.toNat + 1 - j.row)

/-- Run the open passes as far as the queues allow. The bubbles of the spare are not counted. -/
def State.runPass (s : State) (w : Who) : State :=
  let r := passRows (passLeft (s.eng w)) (s.eng w, 0)
  let s := s.setEng w r.1
  if w.spare then s else s.addFeedBubbles w.e r.2

/-! ### What the commands do when they issue -/

/-- PASS (R81–R83): the pass opens, and its rows enter in their row slots. -/
def openPass (c : Nat) (a : PassArgs) (w : Who) (s : State) : State :=
  (s.setEng w { s.eng w with passes := (s.eng w).passes ++ [⟨c, a, 0, c⟩] }).runPass w

def passEffect (e : EngineLoc) (c : Nat) (a : PassArgs) (s : State) : State :=
  s.forBoth e (openPass c a)

/-- Entries already queued must be ones that the pass may read (R74). -/
def passQueueBad (x : Engine) (a : PassArgs) : Option Nat :=
  match x.operandQueue a.qsel with
  | q :: _ => if operandOk a q then none else some 13
  | [] => none

def passRefused (e : EngineLoc) (c : Nat) (a : PassArgs) (s : State) : Option Nat :=
  (passBad (s.engine e) c a).orElse fun _ => passQueueBad (s.engine e) a

/-- SWAP (R59). -/
def swapEffect (e : EngineLoc) (c : Nat) (s : State) : State :=
  s.forBoth e fun w s => s.setEng w (swapPlanes (s.eng w) c)

end Sys2Proof.Machine
end

