-- ==== Sys2Proof/Machine/Fetch.lean ====
section
/-! DEFINITION. The Fetch station: rows into the queues (R73–R75), metadata (R76, R124–R134) and weight
planes (R77–R80, R100–R102, R127–R129, R511). -/

namespace Sys2Proof.Machine

/-! ### Rows -/

/-- One row read at cycle `t`: a 256-byte row of the engine store is read in two cycles, half by half. -/
def State.fetchRow (s : State) (w : Who) (c space off n t : Nat) : List Byte × State :=
  let st := StationRef.fetch w.e
  let arr := t + (if space = 0 ∧ n = 256 then 1 else 0) + latency space
  if space = 0 ∧ n = 256 then
    let x := s.whoRead w st c t arr 0 (s.whoPlace w st 0 off 128 t) 128
    let y := x.2.whoRead w st c (t + 1) arr 0 (s.whoPlace w st 0 (off + 128) 128 (t + 1)) 128
    (x.1.bytes ++ y.1.bytes, y.2)
  else
    let x := s.whoRead w st c t arr space (s.whoPlace w st space off n t) n
    (x.1.bytes, x.2)

/-! ### LOAD_A, LOAD_S, LOAD_DIAG -/

end Sys2Proof.Machine

namespace Sys2Proof
open Machine

def LoadArgs.rows (a : LoadArgs) : Nat := a.rowsM1.toNat + 1
def LoadArgs.len (a : LoadArgs) : Nat := rowLenBytes a.rowLen.toNat
def LoadArgs.offsets (a : LoadArgs) : List Nat :=
  (List.range a.rows).map (runOffset a.addr.toNat a.runM1.toNat a.runStride.toNat a.len)

end Sys2Proof

namespace Sys2Proof.Machine

/-- An entry joins the queue that its command fills. -/
def pushEntry (k : LoadKind) (qsel : BitVec 1) (q : QEntry) (x : Engine) : Engine :=
  match k with
  | .a => if qsel = 0 then { x with q0 := x.q0 ++ [q] } else { x with q1 := x.q1 ++ [q] }
  | .s => { x with q3 := x.q3 ++ [q] }
  | .diag => { x with q2 := x.q2 ++ [q] }

/-- What R73 to R75 and R71 refuse. -/
def loadBad (s : State) (e : EngineLoc) (k : LoadKind) (a : LoadArgs) : Option Nat :=
  let sp := a.space.toNat
  firstBad [
    (decide (sp < 3), 13), (decide (a.rowLen.toNat < 6), 13),
    (k == .a || a.qsel == 0, 13),
    (k != .s || (a.rowLen == 4 && a.fmt == 0), 13),
    (k != .diag || operandLen 5 a.fmt.toNat == some a.rowLen.toNat, 13),
    (a.offsets.all fun o => s.spaceOk (.fetch e) sp o a.len, 13)]

/-- Row `i` arrives in its queue, in one engine, and passes that wait for it go on. -/
def pushRow (c : Nat) (k : LoadKind) (a : LoadArgs) (i : Nat) (w : Who) (s : State) : State :=
  let sp := a.space.toNat
  let r := s.fetchRow w c sp (nth 0 a.offsets i) a.len (rowReadAt sp a.len c i)
  let q : QEntry := ⟨rowArrives sp a.len c i, a.fmt, a.rowLen, r.1⟩
  ((r.2).setEng w (pushEntry k a.qsel q (r.2.eng w))).runPass w

/-- The next row of a load is due when it arrives. -/
def planLoad (e : EngineLoc) (c : Nat) (k : LoadKind) (a : LoadArgs) (i : Nat) (s : State) : State :=
  if i < a.rows then s.plan (.fetch e) c (rowArrives a.space.toNat a.len c i) (.load e k a i) else s

def loadRow (e : EngineLoc) (c : Nat) (k : LoadKind) (a : LoadArgs) (i : Nat) (s : State) : State :=
  planLoad e c k a (i + 1) (s.forBoth e (pushRow c k a i))

/-- LOAD_A (R73), LOAD_S and LOAD_DIAG (R75). -/
def loadEffect (e : EngineLoc) (c : Nat) (k : LoadKind) (a : LoadArgs) (s : State) : State := planLoad e c k a 0 s

/-! ### Metadata (R124–R134) -/

/-- Block rows of a region, and codes per block row (R124). -/
def metaRows (cls : Nat) (trans mx : Bool) : Nat :=
  if trans then 8 else (if cls = 0 then 16 else 32) * (if mx then 2 else 1)
def metaCodes (cls : Nat) (trans : Bool) : Nat :=
  if trans then (if cls = 0 then 16 else 32) else 8

end Sys2Proof.Machine

namespace Sys2Proof
open Machine

def LoadMetaArgs.cl (a : LoadMetaArgs) : Nat := a.cls.toNat
def LoadMetaArgs.nb (a : LoadMetaArgs) : Nat := metaCodes a.cls.toNat (a.trans == 1)
/-- Words of one block row. -/
def LoadMetaArgs.wordsPer (a : LoadMetaArgs) : Nat := ceilDiv (a.slot.toNat + a.nb) 9
/-- Byte offset of word `v` of block row `r`. -/
def LoadMetaArgs.wordOff (a : LoadMetaArgs) (r v : Nat) : Nat :=
  8 * (a.metaAddr.toNat + r * a.metaStride.toNat + v)
/-- Slots of word `v` that the load uses, in ascending order. -/
def LoadMetaArgs.slots (a : LoadMetaArgs) (v : Nat) : List Nat :=
  (List.range 9).filter fun j =>
    decide (a.slot.toNat ≤ 9 * v + j) && decide (9 * v + j < a.slot.toNat + a.nb)
/-- Offsets of the words of block rows [r0, r0 + n), in the order in which they are read. -/
def LoadMetaArgs.offs (a : LoadMetaArgs) (r0 n : Nat) : List Nat :=
  (List.range n).flatMap fun r => (List.range a.wordsPer).map (a.wordOff (r0 + r))

end Sys2Proof

namespace Sys2Proof.Machine

/-- A failing word ends the step; its record, with the running count of its engine, is written when the
stroke's reports are put in arrival order (R132, R133). -/
def State.raiseMeta (s : State) (e : EngineLoc) (outcome arrival addr slot r col : Nat) : State :=
  s.raise (srcEngine e 0) (0x010F + outcome) arrival (engineIdx e)
    [f16 (logicalField e), f16 (s.physField e), f32 arrival, f64 addr, f8 slot, f32 r, f32 col] false

/-- One word: the codes of its used slots, none where it failed or was poisoned (R80, R134). -/
def State.metaWord (s : State) (w : Who) (c : Nat) (a : LoadMetaArgs) (r v : Nat) :
    List (Option (BitVec 7)) × State :=
  let st := StationRef.fetch w.e
  let sp := a.space.toNat
  let t := c + r * a.wordsPer + v
  let arrival := t + latency sp
  let addr := s.whoPlace w st sp (a.wordOff r v) 8 t
  let x := s.whoRead w st c t arrival sp addr 8
  let slots := a.slots v
  let word := ofLe x.1.bytes
  let out := if x.1.poison.isEmpty then checkWord a.cl word slots else (4, 15)
  let s := x.2.checkItem w ⟨arrival, 0, leBytes 8 arrival ++ leBytes 1 out.1⟩
  let first := nth 0 slots 0
  let s := if out.1 = 0 ∨ out.1 = 4 ∨ w.spare then s
    else s.raiseMeta w.e out.1 arrival addr out.2 r
      (9 * v + (if out.1 = 1 then first else out.2) - a.slot.toNat)
  (slots.map fun j => if out.1 = 0 then some (BitVec.ofNat 7 (slotCode word j)) else none, s)

/-- The codes of block rows [r0, r0 + n). -/
def State.metaBlock (s : State) (w : Who) (c : Nat) (a : LoadMetaArgs) (r0 n : Nat) :
    List (List (Option (BitVec 7))) × State :=
  (List.range n).foldl (fun acc k =>
    let row := (List.range a.wordsPer).foldl (fun (x : List (Option (BitVec 7)) × State) v =>
      let y := x.2.metaWord w c a (r0 + k) v
      (x.1 ++ y.1, y.2)) ([], acc.2)
    (acc.1 ++ [row.1], row.2)) ([], s)

/-- What R71 and R76 refuse. -/
def loadMetaBad (s : State) (e : EngineLoc) (a : LoadMetaArgs) : Option Nat :=
  let sp := a.space.toNat
  firstBad [
    (decide (sp < 3), 13), (decide (a.slot.toNat < 9), 13),
    ((a.offs 0 (metaRows a.cl (a.trans == 1) false)).all fun o => s.spaceOk (.fetch e) sp o 8, 13)]

/-- The codes that the words give, in one engine. -/
def readWords (c : Nat) (a : LoadMetaArgs) (w : Who) (s : State) : State :=
  let r := s.metaBlock w c a 0 (metaRows a.cl (a.trans == 1) false)
  let x := r.2.eng w
  r.2.setEng w { x with metas := x.metas.map fun m => if m.cycle = c then { m with codes := r.1 } else m }

def metaWords (e : EngineLoc) (c : Nat) (a : LoadMetaArgs) (s : State) : State := s.forBoth e (readWords c a)

/-- LOAD_META (R76): its words are in when the last has arrived. The block rows of an MXFP4 region beyond those of
the others are read with the LOAD_W that tells of them. -/
def loadMetaEffect (e : EngineLoc) (c : Nat) (a : LoadMetaArgs) (s : State) : State :=
  let s := s.forBoth e fun w s => s.setEng w { s.eng w with metas := (s.eng w).metas ++ [⟨c, a, false, []⟩] }
  s.plan (.fetch e) c (c + latency a.space.toNat + metaRows a.cl (a.trans == 1) false * a.wordsPer - 1) (.words e a)

/-- The LOAD_META that a sparse LOAD_W uses. -/
def Engine.waitingMeta (x : Engine) : Option MetaLoad := x.metas.find? fun m => !m.taken

/-! ### The region of a LOAD_W (R78) -/

/-- Rows of the region and bytes of a row, without the scale row; none where R77 or R78 has no entry. -/
def regionShape (mode : Nat) (trans : Bool) (fmt : Nat) : Option (Nat × Nat) :=
  match mode, trans with
  | 0, false => some (match fmt with | 3 => (64, 16) | 2 => (32, 64) | _ => (32, 32))
  | 1, false => match fmt with | 3 => none | 2 => some (8, 256) | _ => some (8, 128)
  | 2, false => some (match fmt with | 3 => (32, 32) | 2 => (16, 128) | _ => (16, 64))
  | 2, true => match fmt with | 3 => none | 2 => some (8, 256) | _ => some (8, 128)
  | 3, false => some (match fmt with | 3 => (64, 16) | 2 => (32, 64) | _ => (32, 32))
  | 3, true => match fmt with | 3 => none | 2 => some (8, 256) | _ => some (8, 128)
  | _, _ => none

/-- Bytes of the scale row of an MXFP4 region (R78). -/
def scaleRowLen (mode : Nat) : Nat := match mode with | 0 => 64 | 2 => 128 | _ => 256

end Sys2Proof.Machine

namespace Sys2Proof
open Machine

def LoadWArgs.tr (a : LoadWArgs) : Bool := a.trans == 1
def LoadWArgs.mx (a : LoadWArgs) : Bool := a.srcFmt == 3
def LoadWArgs.sparse (a : LoadWArgs) : Bool := a.mode == 2 || a.mode == 3
def LoadWArgs.converts (a : LoadWArgs) : Bool := a.srcFmt == 2 && decide (a.dstFmt.toNat < 2)
def LoadWArgs.cls (a : LoadWArgs) : Nat := if a.mode = 3 then 1 else 0
def LoadWArgs.shape (a : LoadWArgs) : Option (Nat × Nat) := regionShape a.mode.toNat a.tr a.srcFmt.toNat
/-- Byte offset of region row `r` (R77). -/
def LoadWArgs.rowOff (a : LoadWArgs) (len r : Nat) : Nat :=
  8 * a.addr.toNat + r * (if a.rowStride = 0 then len else 8 * a.rowStride.toNat)

/-- First cycle of the plane-write window, and its last (R79). -/
def LoadWArgs.windowFirst (a : LoadWArgs) (c : Nat) : Nat :=
  c + latency a.space.toNat + (if a.converts then 4 else 0) + (if a.sparse then 4 else 0)
def LoadWArgs.windowLast (a : LoadWArgs) (c : Nat) : Nat :=
  a.windowFirst c + (if a.mx then 32 else if a.mode = 1 then
      (if a.space = 0 && a.srcFmt == 2 then 15 else 7) else 31)

/-- The accesses of a LOAD_W: byte offset, length, and the cycles from the issue to the read (R70, R79): a pair of
MXFP4 rows is one access, the scale row is read 32 cycles after the issue, and a 256-byte row of the engine store takes
two port cycles. -/
def LoadWArgs.accesses (a : LoadWArgs) : List (Nat × Nat × Nat) :=
  match a.shape with
  | none => []
  | some (n, len) =>
    let data := if a.mx && a.mode != 2 then
        (List.range 32).map fun j => (a.rowOff len (2 * j), 32, j)
      else (List.range n).map fun r => (a.rowOff len r, len, rowReadAt a.space.toNat len 0 r)
    data ++ (if a.mx then [(a.rowOff len n, scaleRowLen a.mode.toNat, 32)] else [])

end Sys2Proof

namespace Sys2Proof.Machine

/-- What R71 and R77 to R79 refuse. -/
def loadWBad (s : State) (e : EngineLoc) (c : Nat) (a : LoadWArgs) : Option Nat :=
  let sp := a.space.toNat
  let x := s.engine e
  let m := x.waitingMeta
  firstBad [
    (decide (sp < 3), 13), (a.shape.isSome, 13),
    (a.dstFmt == a.srcFmt || a.converts, 13),
    (!(a.mx && (a.mode == 0 || a.mode == 3)) || a.rowStride == 0 || a.rowStride == 2, 13),
    (a.accesses.all (fun o => s.spaceOk (.fetch e) sp o.1 o.2.1), 13),
    (!a.sparse || (match m with
      | some l => l.args.cl == a.cls && (l.args.trans == 1) == a.tr
      | none => false), 13),
    (!(a.sparse && a.mx) || (match m with
      | some l => (l.args.offs 0 (metaRows a.cls false true)).all
          fun o => s.spaceOk (.fetch e) l.args.space.toNat o 8
      | none => false), 13),
    (!a.sparse || (match m with
      | some l => decide (l.cycle + latency l.args.space.toNat
          + metaRows a.cls a.tr a.mx * l.args.wordsPer ≤ a.windowFirst c)
      | none => false), 16),
    (x.loads.all (fun l => decide (l.last < a.windowFirst c) || decide (a.windowLast c < l.first)), 16)]

/-! ### Planes from regions -/

/-- The element at an index of a region row. -/
def elementAt (rows : List (List Nat)) (r k : Nat) : Nat := nth 0 (nth [] rows r) k

/-- The code with which a block is decoded: the lowest of the class where its word failed (R80). -/
def blockCode (cls : Nat) (codes : List (List (Option (BitVec 7)))) (b c : Nat) : Nat :=
  match nth none (nth [] codes b) c with
  | some k => k.toNat
  | none => classBase cls

/-- The region's elements with the values of failed blocks zero (R80). -/
def clearFailed (cls : Nat) (codes : List (List (Option (BitVec 7)))) (rows : List (List Nat)) :
    List (List Nat) :=
  rows.zipIdx.map fun row =>
    row.1.zipIdx.map fun x =>
      match nth none (nth [] codes row.2) (x.2 / keptPer cls) with
      | some _ => x.1
      | none => 0

/-- The plane scale exponent of a converted region (R100). -/
def planeScale (dst : Nat) (rows : List (List Nat)) : Int :=
  match maxExps (rows.flatMap fun r => r.map (widen .bf16)) with
  | some e => e - (if dst = 0 then 7 else 14)
  | none => 0

/-- One cell of a converted plane (R101). -/
def convertCell (dst : Nat) (s : Int) (x : Nat) : Nat :=
  encodeFp (operandFmt dst) (scaleV (-s) (decodeFp .bf16 x))

/-- Value and select of lane `h` of cell (p, n) of a sparse plane (R128, R129, R511). -/
def sparseLane (cls : Nat) (trans mx : Bool) (codes : List (List (Option (BitVec 7))))
    (rows : List (List Nat)) (h p n : Nat) : Nat × Nat :=
  let per := if cls = 0 then 2 else 1
  let g := p / per
  let b := if trans then n / 4 else if mx then 2 * g + h else g
  let c := if trans then g else n / 4
  let x := selectOf (maskOf (blockCode cls codes b c)) trans (n % 4) (p % per)
  (elementAt rows b (c * keptPer cls + x.2), x.1)

def sparseCell (cls : Nat) (trans mx : Bool) (codes : List (List (Option (BitVec 7))))
    (rows : List (List Nat)) (p n : Nat) : Cell :=
  let x := sparseLane cls trans mx codes rows 0 p n
  let y := if mx then sparseLane cls trans mx codes rows 1 p n else (0, 0)
  ⟨BitVec.ofNat 16 x.1, BitVec.ofNat 2 x.2, BitVec.ofNat 4 y.1, BitVec.ofNat 2 y.2⟩

/-- The cells of a plane, plane row by plane row. -/
def planeCells (a : LoadWArgs) (codes : List (List (Option (BitVec 7)))) (rows : List (List Nat)) :
    List Cell :=
  if a.sparse then
    (List.range 32).flatMap fun p => (List.range 32).map fun n => sparseCell a.cls a.tr a.mx codes rows p n
  else if a.mx then
    (List.range 32).flatMap fun p => (List.range 32).map fun n =>
      ⟨BitVec.ofNat 16 (elementAt rows (2 * p) n), 0, BitVec.ofNat 4 (elementAt rows (2 * p + 1) n), 0⟩
  else rows.flatMap fun r => r.map fun x => ⟨BitVec.ofNat 16 x, 0, 0, 0⟩

/-- The plane that a region gives. -/
def buildPlane (a : LoadWArgs) (codes : List (List (Option (BitVec 7)))) (rows : List (List Nat))
    (scales : List Byte) : Plane :=
  let rows := if a.sparse then clearFailed a.cls codes rows else rows
  let k := if a.converts then planeScale a.dstFmt.toNat rows else 0
  let rows := if a.converts then rows.map fun r => r.map (convertCell a.dstFmt.toNat k) else rows
  { mode := some a.mode, fmt := a.dstFmt, trans := a.tr, scaleExp := k,
    cells := planeCells a codes rows, scales := scales }

/-- A window takes its place among those under way, by its first cycle. -/
def insertLoad (l : PlaneLoad) : List PlaneLoad → List PlaneLoad
  | [] => [l]
  | x :: r => if l.first < x.first then l :: x :: r else x :: insertLoad l r

/-- Region bytes as rows of elements: pairs of MXFP4 rows are cut apart. -/
def regionRows (a : LoadWArgs) (data : List (List Byte)) : List (List Nat) :=
  let rows := if a.mx && a.mode != 2 then data.flatMap fun d => [d.take 16, d.drop 16] else data
  rows.map (rowCodes (operandFmt a.srcFmt.toNat))

/-- Codes of the LOAD_META of cycle `m`, with the rows that only an MXFP4 region has. -/
def State.takeCodes (s : State) (w : Who) (a : LoadWArgs) (m : Option Nat) :
    List (List (Option (BitVec 7))) × State :=
  match m.bind fun m => (s.eng w).metas.find? fun l => l.cycle == m with
  | none => ([], s)
  | some l =>
    let n := metaRows a.cls a.tr false
    let more := if a.mx then s.metaBlock w l.cycle l.args n n else ([], s)
    let x := more.2.eng w
    (l.codes ++ more.1, more.2.setEng w { x with metas := x.metas.filter fun k => k.cycle != l.cycle })

/-- The plane of a LOAD_W in one engine. -/
def readPlane (c : Nat) (a : LoadWArgs) (m : Option Nat) (w : Who) (s : State) : State :=
  let k := s.takeCodes w a m
  let sp := a.space.toNat
  let r := a.accesses.foldl (fun (acc : List (List Byte) × State) o =>
      let y := acc.2.fetchRow w c sp o.1 o.2.1 (c + o.2.2)
      (acc.1 ++ [y.1], y.2)) ([], k.2)
  let n := if a.mx then r.1.length - 1 else r.1.length
  let p := buildPlane a k.1 (regionRows a (r.1.take n)) (nth [] (r.1.drop n) 0)
  let x := r.2.eng w
  r.2.setEng w { x with loads := x.loads.map fun l => if l.first = a.windowFirst c then { l with plane := p } else l }

def planeArrives (e : EngineLoc) (c : Nat) (a : LoadWArgs) (m : Option Nat) (s : State) : State :=
  s.forBoth e (readPlane c a m)

/-- LOAD_W (R77): its window is known at once, and its plane is there in the window's last cycle. -/
def loadWEffect (e : EngineLoc) (c : Nat) (a : LoadWArgs) (s : State) : State :=
  let m := if a.sparse then (s.engine e).waitingMeta.map (·.cycle) else none
  let s := s.forBoth e fun w s =>
    let x := s.eng w
    s.setEng w { x with
      loads := insertLoad ⟨a.windowFirst c, a.windowLast c, .empty⟩ x.loads,
      metas := x.metas.map fun l => if some l.cycle = m then { l with taken := true } else l }
  s.plan (.fetch e) c (a.windowLast c) (.plane e a m)

end Sys2Proof.Machine
end

