-- ==== Sys2Proof/Machine/Finish.lean ====
section
/-! DEFINITION. The Finish and Store stations (R84–R90, R109–R113): DRAIN, PARAM and WRITE, the queue QF
between them, drain bubbles and Store waits (R66, R68). -/

namespace Sys2Proof.Machine

/-! ### The pipeline's own count (R68) -/

/-- The cycle at which the pipeline's count `v` falls: each drain bubble at or before it is a cycle in which
the pipeline stands still. -/
def pipeReal (stalls : List (Nat × Nat)) (v : Nat) : Nat :=
  v + sumNat (stalls.filterMap fun x => if x.1 ≤ v then some x.2 else none)

/-- The pipeline's count at a cycle. -/
def pipeVirtual (stalls : List (Nat × Nat)) (c : Nat) : Nat :=
  c - (stalls.foldl (fun (k : Nat) x => k + min x.2 (c - (x.1 + k))) 0)

/-! ### One row of a DRAIN (R86) -/

def drainRows (a : DrainArgs) : Nat := a.rowsM1.toNat + 1

/-- P as a row read at cycle `t` sees it (R88). -/
def Engine.paramsAt (x : Engine) (t : Nat) : List Word :=
  match x.params.find? (fun p => decide (p.1 ≤ t)) with
  | some p => p.2
  | none => List.replicate 128 0

/-- A load of P takes its place among those before it, the latest in force first. -/
def insertParams (p : Nat × List Word) : List (Nat × List Word) → List (Nat × List Word)
  | [] => [p]
  | x :: r => if p.1 ≥ x.1 then p :: x :: r else x :: insertParams p r

/-- The P values of row `i` (R84). -/
def paramGroup (a : DrainArgs) (params : List Word) (i : Nat) : List Word :=
  let g := if a.protate = 1 then (a.psel.toNat + i) % 4 else a.psel.toNat
  (params.drop (32 * g)).take 32

/-- Step 1: the descaled values of row `i` as cycle `t` sees them. -/
def State.drainSource (s : State) (w : Who) (c : Nat) (a : DrainArgs) (i t : Nat) : List Word × State :=
  if a.src = 1 then
    let st := StationRef.finish w.e
    let r := s.whoRead w st c t (t + 8) 0 (s.whoPlace w st 0 (128 * (a.srcAddr.toNat + i)) 128 t) 128
    (rowWords r.1.bytes, r.2)
  else
    let x := (s.eng w).accAt (a.accBase.toNat + i) t
    (x.vals.map fun v => fscale v x.t, s)

/-- Step 2: FUNC. -/
def finishRow (func : Nat) (vals params : List Word) : List Word :=
  (vals.zip params).map fun vp => (finishFunc func vp.1 vp.2).getD 0

/-- Step 4: the conversion, and how many elements saturate (R110–R112). -/
def convertRow (a : DrainArgs) (draws : List Nat) (vals : List Word) : List Nat × Nat :=
  let f := outFmt a.outFmt.toNat
  let l := vals.zipIdx
  if a.sr = 1 then
    (l.map fun x => convertSr f x.1 (rowRandom draws x.2),
     (l.filter fun x => saturatesSr f x.1 (rowRandom draws x.2)).length)
  else (vals.map (convert f), (vals.filter fun v => saturates f (fval v)).length)

/-- The bytes of a converted row. -/
def codesBytes (f : FpFmt) (codes : List Nat) : List Byte := codes.flatMap (leBytes f.bytes)

/-- Step 3, for one row: the counts of the tile it belongs to. -/
def drainGauge (s : State) (j : DrainJob) (vals : List Word) : DrainJob :=
  if j.args.gauge = 1 then
    let c := gaugeCount (smapGet .reset s.gauges j.args.gaugeId.toNat) (j.beyond, j.nonfinite, j.largest) vals
    { j with beyond := c.1, nonfinite := c.2.1, largest := c.2.2 }
  else j

/-- Whether row `i` is the last of a tile of 32 rows, or of the DRAIN. -/
def tileEnds (a : DrainArgs) (i : Nat) : Bool := i % 32 == 31 || i == a.rowsM1.toNat

def tileNumber (a : DrainArgs) (i : Nat) : Nat :=
  if a.digest = 1 then a.tileIndex.toNat + i / 32 else i / 32

/-- What the end of a tile reports and hashes, in the logical engine. -/
def State.endTile (s : State) (w : Who) (j : DrainJob) (t : Nat) : State :=
  let a := j.args
  if w.spare || !tileEnds a j.row then s
  else
    let g := smapGet .reset s.gauges a.gaugeId.toNat
    let s := if a.gauge = 1 && breaches g j.beyond j.nonfinite then
        s.gaugeBreach w.e j.cycle t a.gaugeId.toNat (tileNumber a j.row) j.beyond j.nonfinite j.largest
      else s
    if a.digest = 1 then s.addTile a.digestSlot.toNat (tileNumber a j.row) j.hashed else s

/-- The job after its row: the next tile starts with nothing counted. -/
def nextRow (j : DrainJob) : DrainJob :=
  let j' := { j with row := j.row + 1 }
  if tileEnds j.args j.row then { j' with beyond := 0, nonfinite := 0, largest := 0, hashed := [] } else j'

/-- Read, process and push one row of the oldest DRAIN, when it reads before cycle `h` and QF has a place for it. -/
def State.drainOne (s : State) (w : Who) (h : Nat) : Option State :=
  let x := s.eng w
  match x.drains, x.qfFree with
  | j :: js, free :: fs =>
    let a := j.args
    let v0 := j.start.getD (pipeVirtual x.stalls j.cycle)
    let v := v0 + j.row
    let t := pipeReal x.stalls v
    if h ≤ t then none
    else
    let src := s.drainSource w j.cycle a j.row t
    let vals := finishRow a.func.toNat src.1 (paramGroup a (x.paramsAt t) j.row)
    let dr := if a.sr = 1 then src.2.rowDraws w else ([], src.2)
    let out := convertRow a dr.1 vals
    let bytes := codesBytes (outFmt a.outFmt.toNat) out.1
    let want := pipeReal x.stalls (v + 12)
    let p := max want free
    let j := drainGauge dr.2 { j with start := some v0, hashed := if a.digest = 1 then j.hashed ++ bytes else [] } vals
    let s := dr.2.endTile w j t
    let s := if w.spare then s else (s.addSaturations w.e out.2).addDrainBubbles w.e (p - want)
    let s := s.checkItem w ⟨p, 1, leBytes 8 p ++ bytes⟩
    let last := decide (j.row = a.rowsM1.toNat)
    some (s.setEng w { s.eng w with
        drains := if last then js else nextRow j :: js,
        nextDrain := t + 1,
        qf := x.qf ++ [⟨p, a.outFmt, bytes⟩],
        qfFree := fs,
        stalls := if want < p then x.stalls ++ [(v + 12, p - want)] else x.stalls })
  | _, _ => none

/-! ### One row of a WRITE (R89, R90) -/

def outRowLen (fmt : Nat) : Nat := 32 * (outFmt fmt).bytes

/-- The values of a written row, widened to FP32. -/
def writtenValues (fmt : Nat) (bytes : List Byte) : List Word :=
  (rowCodes (outFmt fmt) bytes).map (widen (outFmt fmt))

/-- The bytes of a row at its place; the spare writes only its own engine store (R437). -/
def State.storeRow (s : State) (w : Who) (a : WriteArgs) (off p : Nat) (q : OutRow) : State :=
  let st := StationRef.store w.e
  let sp := a.space.toNat
  if !s.spaceOk st sp off q.bytes.length || (w.spare && a.space != 0) then s
  else
    let d := s.whoPlace w st sp off q.bytes.length p
    let s := s.stationWrite st p d q.bytes
    if a.sumsq = 1 && !w.spare then
      let c : Charge := ⟨stackOf d, p, engineIdx w.e, writtenValues q.fmt.toNat q.bytes⟩
      { s with charges := insertCharge c s.charges }
    else s

/-- Pop one row of QF and write it, when its cycle is before `h`. -/
def State.writeOne (s : State) (w : Who) (h : Nat) : Option State :=
  let x := s.eng w
  match x.writes, x.qf with
  | j :: js, q :: qs =>
    let a := j.args
    let want := j.cycle + j.row + j.waits
    let p := max want (q.time + 1)
    if h ≤ p then none
    else
    let off := runOffset a.addr.toNat a.runM1.toNat a.runStride.toNat q.bytes.length j.row
    let s := s.storeRow w a off p q
    let s := if w.spare then s else s.addStoreWaits w.e (p - want)
    let s := s.checkItem w ⟨p, 2, leBytes 8 p ++ leBytes 1 a.space.toNat ++ leBytes 8 off⟩
    let last := decide (j.row = a.rowsM1.toNat)
    let j' := { j with row := j.row + 1, waits := j.waits + (p - want) }
    some (s.setEng w { s.eng w with
      writes := if last then js else j' :: js, nextWrite := p + 1, qf := qs, qfFree := x.qfFree ++ [p] })
  | _, _ => none

/-! ### Finish and Store together -/

/-- Move rows as far as QF's places and entries allow, up to cycle `h`. -/
def State.pumpRows : Nat → Who → Nat → State → State
  | 0, _, _, s => s
  | f + 1, w, h, s =>
    match s.drainOne w h with
    | some s' => State.pumpRows f w h s'
    | none =>
      match s.writeOne w h with
      | some s' => State.pumpRows f w h s'
      | none => s

/-- Rows that the open DRAINs and WRITEs still have to move. -/
def rowsLeft (x : Engine) : Nat :=
  sumNat (x.drains.map fun j => drainRows j.args - j.row)
    + sumNat (x.writes.map fun j => j.args.rowsM1.toNat + 1 - j.row)

/-- An engine's landings, then its Finish and Store, up to cycle `h`. -/
def State.pump (s : State) (w : Who) (h : Nat) : State :=
  let s := s.setEng w (settle (s.freeKey w.key) h (s.eng w))
  State.pumpRows (rowsLeft (s.eng w) + 1) w h s

/-- The engine that a key of the engines names (R436). -/
def whoOf (stroke key : Nat) : Who :=
  let c := fun (i : Nat) => (⟨Fin.ofNat 2 (i / 36), Fin.ofNat 36 (i % 36)⟩ : ClusterLoc)
  if key < 576 then
    let l := c (key / 8)
    ⟨⟨l.plate, l.cluster, Fin.ofNat 8 (key % 8)⟩, false⟩
  else
    let l := c (key - 576)
    ⟨⟨l.plate, l.cluster, Fin.ofNat 8 stroke⟩, true⟩

/-- Every engine's landings, Finish and Store up to cycle `h`, the spares first (R305). -/
def State.pumpAll (s : State) (h : Nat) : State :=
  (s.engines.filter fun p => !(p.2.drains.isEmpty && p.2.writes.isEmpty && p.2.landings.isEmpty)).reverse.foldl
    (fun s p => s.pump (whoOf s.seq.curStroke.toNat p.1) h) s

/-! ### What the commands do when they issue -/

/-- What R84 to R86 refuse. -/
def drainBad (x : Engine) (c : Nat) (a : DrainArgs) : Option Nat :=
  let n := drainRows a
  firstBad [
    (decide (a.func.toNat ≤ 12), 13),
    (a.sr == 0 || a.outFmt != 3, 13),
    (a.src == 0 || a.accBase == 0, 13),
    (if a.src = 0 then decide (a.accBase.toNat + n ≤ 512) else decide (a.srcAddr.toNat + n ≤ 4096), 13),
    (a.digest == 0 || n % 32 == 0, 13),
    (!x.drains.isEmpty || decide (x.nextDrain ≤ c), 16)]

def openDrain (c : Nat) (a : DrainArgs) (w : Who) (s : State) : State :=
  let j : DrainJob :=
    { cycle := c, start := none, args := a, row := 0, beyond := 0, nonfinite := 0, largest := 0, hashed := [] }
  s.setEng w { s.eng w with drains := (s.eng w).drains ++ [j] }

/-- DRAIN (R84). -/
def drainEffect (e : EngineLoc) (c : Nat) (a : DrainArgs) (s : State) : State := s.forBoth e (openDrain c a)

/-- What R88 and R71 refuse. -/
def paramBad (s : State) (e : EngineLoc) (a : ParamArgs) : Option Nat :=
  firstBad [
    (decide (a.space.toNat < 2), 13),
    (s.spaceOk (.finish e) a.space.toNat (8 * a.addr.toNat) 512, 13)]

/-- PARAM in one engine: four reads of 128 bytes, cycle after cycle. -/
def readParams (c : Nat) (a : ParamArgs) (w : Who) (s : State) : State :=
  let st := StationRef.finish w.e
  let sp := a.space.toNat
  let r := (List.range 4).foldl (fun (acc : List Byte × State) k =>
      let t := c + k
      let x := acc.2.whoRead w st c t (t + latency sp) sp
        (acc.2.whoPlace w st sp (8 * a.addr.toNat + 128 * k) 128 t) 128
      (acc.1 ++ x.1.bytes, x.2)) ([], s)
  let x := r.2.eng w
  r.2.setEng w { x with params := insertParams (c + latency sp + 4, rowWords r.1) x.params }

def paramsArrive (e : EngineLoc) (c : Nat) (a : ParamArgs) (s : State) : State := s.forBoth e (readParams c a)

/-- PARAM (R88). -/
def paramEffect (e : EngineLoc) (c : Nat) (a : ParamArgs) (s : State) : State :=
  s.plan (.finish e) c (c + latency a.space.toNat + 4) (.params e a)

/-- The format of row `n` of those that some DRAINs have still to push. -/
def drainFmt : Nat → List DrainJob → Option (BitVec 2)
  | _, [] => none
  | n, j :: js =>
    let left := drainRows j.args - j.row
    if n < left then some j.args.outFmt else drainFmt (n - left) js

/-- The row length of a WRITE, when the first row that it will pop is known: the rows before it go to the WRITEs
before it. -/
def nextOutLen (x : Engine) : Option Nat :=
  let skip := sumNat (x.writes.map fun j => j.args.rowsM1.toNat + 1 - j.row)
  match x.qf[skip]? with
  | some q => some q.bytes.length
  | none => (drainFmt (skip - x.qf.length) x.drains).map fun f => outRowLen f.toNat

def writeOffsets (a : WriteArgs) (len : Nat) : List Nat :=
  (List.range (a.rowsM1.toNat + 1)).map (runOffset a.addr.toNat a.runM1.toNat a.runStride.toNat len)

/-- What R71, R89 and R90 refuse. -/
def writeBad (s : State) (e : EngineLoc) (c : Nat) (a : WriteArgs) : Option Nat :=
  let x := s.engine e
  firstBad [
    (decide (a.space.toNat < 3), 13),
    (a.sumsq == 0 || a.space == 2, 13),
    (match nextOutLen x with
      | some n => (writeOffsets a n).all fun o => s.spaceOk (.store e) a.space.toNat o n
      | none => s.spaceOk (.store e) a.space.toNat (8 * a.addr.toNat) 32, 13),
    (!x.writes.isEmpty || decide (x.nextWrite ≤ c), 16)]

def openWrite (c : Nat) (a : WriteArgs) (w : Who) (s : State) : State :=
  s.setEng w { s.eng w with writes := (s.eng w).writes ++ [⟨c, a, 0, 0⟩] }

/-- WRITE (R89). -/
def writeEffect (e : EngineLoc) (c : Nat) (a : WriteArgs) (s : State) : State := s.forBoth e (openWrite c a)

end Sys2Proof.Machine
end

