-- ==== Sys2Proof/Machine/Marks.lean ====
section
/-! DEFINITION. Marks and mark watches (R91–R95, R337, R338): the values a station and the host see, the three
mark commands, and the watches. -/

namespace Sys2Proof.Machine

/-- The comparisons of R91. -/
def cmpHolds (cmp : Nat) (mark value : DWord) : Bool :=
  match cmp with
  | 0 => decide (value.toNat ≤ mark.toNat)
  | 1 => mark == value
  | _ => decide (mark.toNat < value.toNat)

/-- One station update of a mark (R92). -/
def applyUpdate (v : DWord) (u : MarkUpdate) : DWord := if u.set then u.value else v + u.value

/-- The value of a mark after every station update of this stroke whose effect cycle is at most `t`. -/
def State.markValue (s : State) (m t : Nat) : DWord :=
  s.markUpdates.foldl (fun v u => if u.mark.toNat = m ∧ u.cycle ≤ t then applyUpdate v u else v) (s.mark m)

/-- An update takes its place among those of the stroke, by effect cycle. -/
def insertUpdate (u : MarkUpdate) : List MarkUpdate → List MarkUpdate
  | [] => [u]
  | x :: r => if u.cycle < x.cycle then u :: x :: r else x :: insertUpdate u r

/-- The value of a mark as it stands now, with every station update so far. -/
def State.markNow (s : State) (m : Nat) : DWord :=
  if s.seq.phase = .inStroke then s.markValue m s.nowCycle else s.mark m

/-- The station updates that a mark's present value does not hold yet. -/
def State.laterUpdates (s : State) (m : Nat) : List MarkUpdate :=
  if s.seq.phase = .inStroke then
    s.markUpdates.filter fun u => !(u.mark.toNat == m && decide (u.cycle ≤ s.nowCycle))
  else s.markUpdates

/-- A watch fires: it disarms, sets HIT and signals its vector (R338). -/
def State.fireWatch (s : State) (w : Nat) : State :=
  let x := smapGet .reset s.watches w
  ({ s with watches := smapPut .reset s.watches w { x with armed := false, hit := true } }).signal x.vector.toNat

/-- Whether a watch is armed on a mark and its condition holds of a value. -/
def watchHolds (x : Watch) (m : Nat) (v : DWord) : Bool :=
  x.armed && x.mark.toNat == m && cmpHolds x.cmp.toNat v x.value

/-- Every watch of a mark tests its condition after an update (R338). -/
def State.testWatches (s : State) (m : Nat) (v : DWord) : State :=
  (s.watches.filter fun p => watchHolds p.2 m v).foldl (fun s p => s.fireWatch p.1) s

/-- Every update of the stroke becomes part of its mark's value; after each that takes effect in the tail the watches of
its mark test their conditions (R94, R338). -/
def State.settleMarks (s : State) : State :=
  (s.markUpdates.filter fun u => decide (s.tailStart ≤ u.cycle)).foldl
    (fun t u => t.testWatches u.mark.toNat (s.markValue u.mark.toNat u.cycle))
    { s with
      marks := s.markUpdates.foldl (fun ms u => smapMod 0 ms u.mark.toNat (fun v => applyUpdate v u)) s.marks,
      markUpdates := [] }

/-- A host or remote update of a mark outside the stations' own cycles: it follows every station update so
far (R95). -/
def State.updateMark (s : State) (m : Nat) (f : DWord → DWord) : State :=
  let v := f (s.markNow m)
  ({ s with marks := smapPut 0 s.marks m v, markUpdates := s.laterUpdates m }).testWatches m v

/-! ### MARK_WAIT (R91, R46) -/

/-- The value that a wait issued at cycle `c` sees (R94). -/
def waitSees (s : State) (m : BitVec 12) (c : Nat) : DWord := s.markValue m.toNat (c - 1)

def markWaitEffect (st : StationRef) (c : Nat) (a : MarkWaitArgs) (s : State) : State :=
  let v := waitSees s a.mark c
  if cmpHolds a.cmp.toNat v a.value then s
  else
    s.pend (srcStation st) 0x0104 c (tieOrder st)
      [f16 a.mark.toNat, f8 a.cmp.toNat, f32 c, f64 a.value.toNat, f64 v.toNat] false

def markWaitBad (a : MarkWaitArgs) : Option Nat := firstBad [(decide (a.cmp.toNat < 3), 13)]

/-! ### MARK_SIGNAL (R92, R94) -/

/-- The update takes effect 64 cycles later, when the watches of the mark test it (R338). -/
def markSignalEffect (st : StationRef) (c : Nat) (a : MarkSignalArgs) (s : State) : State :=
  { s with markUpdates := insertUpdate ⟨c + 64, a.mark, a.op == 1, a.value⟩ s.markUpdates }.plan st c (c + 64)
    (.watch a.mark)

/-- A set in the same cycle as another station update of its mark is refused (R95). -/
def markSignalBad (s : State) (c : Nat) (a : MarkSignalArgs) : Option Nat :=
  firstBad [
    (s.markUpdates.all (fun u => !(u.mark == a.mark && u.cycle == c + 64 && (u.set || a.op == 1))), 16)]

/-! ### MARK_REMOTE (R93) -/

/-- The port of the station's own plate. -/
def remotePort (st : StationRef) (port : BitVec 3) : Nat := 8 * (stationPlate st).val + port.toNat

def markRemoteEffect (st : StationRef) (a : MarkRemoteArgs) (s : State) : State :=
  match allPorts.find? (fun k => k.val == remotePort st a.port) with
  | some k => s.sendCtrl k a.role.toNat 2 (markPayload a.mark.toNat a.value.toNat)
  | none => s

def markRemoteBad (s : State) (st : StationRef) (a : MarkRemoteArgs) : Option Nat :=
  firstBad [(s.wiredTo (remotePort st a.port) a.role.toNat, 13)]

/-! ### The host's marks and watches (R337, R338, R362) -/

/-- MARK_WRITE: a write of the mark's word in the mark array. -/
def execMarkWrite (m : BitVec 12) (v : DWord) (s : State) : Out := hostWr (fun s => s.updateMark m.toNat (fun _ => v)) s

/-- MARK_ADD: a write of the mark's word in the add array. -/
def execMarkAdd (m : BitVec 12) (v : DWord) (s : State) : Out := hostWr (fun s => s.updateMark m.toNat (· + v)) s

end Sys2Proof.Machine
end

