-- ==== Sys2Proof/Machine/Relay.lean ====
section
/-! DEFINITION. The Seam and Kazin relays (R267–R273): SEND, RECV and the four fixed-point commands. -/

namespace Sys2Proof.Machine

/-! ### SEND (R268, R269) -/

def sendWords (a : SendArgs) : Nat := a.wordsM1.toNat + 1
def sendWidth (a : SendArgs) : Nat := a.widthM1.toNat + 1
/-- Source words per cycle. -/
def sendRate (a : SendArgs) : Nat := (if a.conv = 0 then 15 else 5) * sendWidth a
def sendRead (c : Nat) (a : SendArgs) (i : Nat) : Nat := c + i / sendRate a
def sendEnd (c : Nat) (a : SendArgs) : Nat := sendRead c a (sendWords a - 1) + 1
/-- Stream bytes of a source word. -/
def wordBytes (a : SendArgs) : Nat := if a.conv = 0 then 8 else 24

/-- E of a segment (R273). -/
def State.exponent (s : State) (seg : Nat) : Int := smapGet 0 s.segE seg

/-- A source word on the stream: its bytes, or its two FP32 elements as 12-byte integers. -/
def streamWord (a : SendArgs) (e : Int) (bs : List Byte) : List Byte :=
  if a.conv = 0 then bs else (rowWords bs).flatMap fun w => leBytes 12 (linkPattern e w)

/-- Flit `j` leaves on its channel. -/
def State.sendFlit (s : State) (r : RelayLoc) (a : SendArgs) (j : Nat) (payload : List Byte) (bad : Bool) : State :=
  let h := s.flitHeader a.destRole.toNat false 0 bad
  match r with
  | .kazin k => s.kazinSend k h payload
  | .seam p =>
    let ch := a.firstCh.toNat + j % sendWidth a
    if hc : ch < 48 then s.seamSend p ⟨ch, hc⟩ h payload else s

/-- The key under which the open SEND of a relay is held: a relay runs one SEND, one RECV and one fixed-point
command at a time. -/
def sendKey (r : RelayLoc) : Nat := 2 ^ 24 + srcRelay r

def relayPlate (r : RelayLoc) : Nat := (stationPlate (.relay r)).val

def sendBad (s : State) (r : RelayLoc) (c : Nat) (a : SendArgs) : Option Nat :=
  firstBad [
    ((match r with
      | .kazin k => a.firstCh == 0 && a.widthM1 == 0 && s.wiredTo k.val a.destRole.toNat
      | .seam _ => a.destRole.toNat == s.cartoonRole && decide (a.firstCh.toNat + sendWidth a ≤ 48)), 13),
    (s.hbmOk (relayPlate r) (8 * a.srcAddr.toNat) (8 * sendWords a), 13),
    (decide (s.busyUntil (sendKey r) ≤ c), 16),
    (decide (sendRead c a (sendWords a - 1) + 5400 ≤ s.cycles), 16)]

/-- The source words that the flits up to flit `j` need. -/
def sendNeeds (a : SendArgs) (j : Nat) : Nat := min (sendWords a) (ceilDiv (250 * (j + 1)) (wordBytes a))

/-- Flits of a SEND. -/
def sendCount (a : SendArgs) : Nat := ceilDiv (wordBytes a * sendWords a) 250

/-- The next flit is due when the last of its words has arrived. -/
def planSend (r : RelayLoc) (c : Nat) (a : SendArgs) (j i : Nat) (buf : List Byte) (bad : Bool) (s : State) : State :=
  if j < sendCount a then s.plan (.relay r) c (sendRead c a (sendNeeds a j - 1) + 1280) (.send r a j i buf bad) else s

/-- Word `i` of the source joins the stream: its bytes, and whether it was poisoned (R257). -/
def State.sendWord (s : State) (r : RelayLoc) (c : Nat) (a : SendArgs) (z : List Byte × Bool × Bool) (i : Nat) :
    (List Byte × Bool × Bool) × State :=
  let t := sendRead c a i
  let y := s.stationRead (.relay r) c t (t + 1280) (8 * a.srcAddr.toNat + 8 * i) 8
  let p := !y.1.poison.isEmpty
  ((z.1 ++ streamWord a (s.exponent a.seg.toNat) y.1.bytes, z.2.1 || p, p), y.2)

/-- Flit `j` leaves with 250 bytes of the stream, poisoned when a poisoned word has given it a byte; the rest of the
last word waits. -/
def sendOne (r : RelayLoc) (c : Nat) (a : SendArgs) (j i : Nat) (buf : List Byte) (bad : Bool) (s : State) : State :=
  let n := sendNeeds a j
  let z := (List.range (n - i)).foldl (fun (z : (List Byte × Bool × Bool) × State) k => z.2.sendWord r c a z.1 (i + k))
    ((buf, bad, bad), s)
  let rest := z.1.1.drop 250
  planSend r c a (j + 1) n rest (z.1.2.2 && !rest.isEmpty)
    (z.2.sendFlit r a j (padTo 250 0 (z.1.1.take 250)) z.1.2.1)

/-- SEND (R268). -/
def sendEffect (r : RelayLoc) (c : Nat) (a : SendArgs) (s : State) : State :=
  planSend r c a 0 0 [] false (s.setBusy (sendKey r) (sendEnd c a))

/-! ### RECV (R270, R271) -/

/-- Bytes of the destination. -/
def recvDest (a : RecvArgs) : Nat := (a.wordsM1.toNat + 1) * (if a.op = 0 then 8 else 32)
def recvKey (r : RelayLoc) : Nat := 2 ^ 25 + srcRelay r

def recvBad (s : State) (r : RelayLoc) (c : Nat) (a : RecvArgs) : Option Nat :=
  firstBad [
    ((match r with
      | .kazin _ => a.firstCh == 0 && a.widthM1 == 0
      | .seam _ => decide (a.firstCh.toNat + a.widthM1.toNat < 48)), 13),
    (s.hbmOk (relayPlate r) (8 * a.dstAddr.toNat) (recvDest a), 13),
    (decide (s.busyUntil (recvKey r) ≤ c), 16),
    (decide (recvLimit c a + 1784 ≤ s.cycles), 16)]

/-- The links that a RECV takes flits from. -/
def recvLinks (r : RelayLoc) (a : RecvArgs) : List LinkRef :=
  match r with
  | .kazin k => [.kazin k]
  | .seam p => (seamLinks.filter fun l => match l with
      | .seam q ch => p == q && decide (a.firstCh.toNat ≤ ch.val) && decide (ch.val ≤ a.firstCh.toNat + a.widthM1.toNat)
      | .kazin _ => false)

/-- RECV (R270): it opens, and takes what the landing buffer holds for it. -/
def recvEffect (r : RelayLoc) (c : Nat) (a : RecvArgs) (s : State) : State :=
  let s := ({ s with recvs := s.recvs ++ [⟨r, c, a, [], [], none⟩] } : State).setBusy (recvKey r) (recvLimit c a)
  (recvLinks r a).foldl (fun s l => s.offerBuffered l) s

/-! ### The fixed-point commands (R272, R273) -/

def fxElems (lenM1 : BitVec 12) : Nat := 1024 * (lenM1.toNat + 1)

def fxexpEnd (c : Nat) (a : FxexpArgs) : Nat := c + 1284 + fxElems a.lenM1 / 32
def fxEnd (c : Nat) (a : FxArgs) : Nat := c + 2563 + fxElems a.lenM1 / 8

def fxexpBad (s : State) (r : RelayLoc) (c : Nat) (a : FxexpArgs) : Option Nat :=
  firstBad [
    (decide (a.contribM1.toNat < 256), 13),
    (s.hbmOk (relayPlate r) (8 * a.srcAddr.toNat) (4 * fxElems a.lenM1), 13),
    (decide (s.busyUntil (srcRelay r) ≤ c), 16),
    (decide (fxexpEnd c a + 4000 ≤ s.cycles), 16)]

/-- The next read of an FXEXP is due when it arrives. -/
def planFxexp (r : RelayLoc) (c : Nat) (a : FxexpArgs) (i : Nat) (s : State) : State :=
  if i < fxElems a.lenM1 / 32 then s.plan (.relay r) c (c + i + 1280) (.fxexp r a i) else s

/-- The largest exponent of some values joins their segment's local maximum. -/
def State.joinMax (s : State) (seg : Nat) (e : Option Int) : State :=
  { s with segMax := smapMod none s.segMax seg (fun o => some (maxExp (o.getD none) e)) }

def fxexpOne (r : RelayLoc) (c : Nat) (a : FxexpArgs) (i : Nat) (s : State) : State :=
  let y := s.stationRead (.relay r) c (c + i) (c + i + 1280) (8 * a.srcAddr.toNat + 128 * i) 128
  planFxexp r c a (i + 1) (y.2.joinMax a.seg.toNat (maxExps (rowWords y.1.bytes)))

/-- FXEXP (R272): the first of a segment in a stroke starts its local maximum afresh. -/
def fxexpEffect (r : RelayLoc) (c : Nat) (a : FxexpArgs) (s : State) : State :=
  planFxexp r c a 0 ((s.joinMax a.seg.toNat none).setBusy (srcRelay r) (fxexpEnd c a))

/-- Whether slots overlap those of a RECV that is open in some of the cycles [c, e). -/
def fxHitsRecv (s : State) (c e : Nat) (a : FxArgs) : Bool :=
  s.recvs.any fun r => r.args.op == 1
    && overlap (8 * a.dstAddr.toNat) (16 * fxElems a.lenM1) (8 * r.args.dstAddr.toNat) (recvDest r.args)
    && overlap c (e - c) r.cycle (64 * r.args.reserve.toNat)

/-- What the load check refuses of FXSET, FXADD (`slots`: DST holds slots) and FXOUT. -/
def fxBad (s : State) (r : RelayLoc) (c : Nat) (slots : Bool) (a : FxArgs) : Option Nat :=
  let n := fxElems a.lenM1
  firstBad [
    (s.hbmOk (relayPlate r) (8 * a.srcAddr.toNat) ((if slots then 4 else 16) * n), 13),
    (s.hbmOk (relayPlate r) (8 * a.dstAddr.toNat) ((if slots then 16 else 4) * n), 13),
    (decide (s.busyUntil (srcRelay r) ≤ c), 16), (decide (fxEnd c a ≤ s.tailStart), 16),
    (!(slots && fxHitsRecv s c (fxEnd c a) a), 16)]

/-- X of R244 in a slot, with its flags. -/
def fxSlot (e : Int) (w : Word) : Nat := slotAdd 0 (alignX e w) (specialFlag w)

def fxSetBytes (e : Int) (src : List Byte) : List Byte := (rowWords src).flatMap fun w => leBytes 16 (fxSlot e w)

def fxAddBytes (e : Int) (src old : List Byte) : List Byte :=
  ((rowWords src).zip (chunks 16 old)).flatMap fun p =>
    leBytes 16 (slotAdd (ofLe p.2) (alignX e p.1) (specialFlag p.1))

def fxOutBytes (e : Int) (src : List Byte) : List Byte :=
  wordsBytes ((chunks 16 src).map fun x => slotResult e (ofLe x))

/-- Bytes of a group of eight elements at the source and at the destination. -/
def fxSrcLen (k : FxKind) : Nat := if k = .out then 128 else 32
def fxDstLen (k : FxKind) : Nat := if k = .out then 32 else 128

/-- One group: reads in cycle c + i, a write in cycle c + 1,284 + i. -/
def State.fxGroup (s : State) (k : FxKind) (r : RelayLoc) (c : Nat) (a : FxArgs) (i : Nat) : State :=
  let st := StationRef.relay r
  let e := s.exponent a.seg.toNat
  let dst := 8 * a.dstAddr.toNat + fxDstLen k * i
  let x := s.stationRead st c (c + i) (c + i + 1280) (8 * a.srcAddr.toNat + fxSrcLen k * i) (fxSrcLen k)
  let src := x.1.bytes
  match k with
  | .set => x.2.stationWrite st (c + 1284 + i) dst (fxSetBytes e src)
  | .out => x.2.stationWrite st (c + 1284 + i) dst (fxOutBytes e src)
  | .add =>
    let y := x.2.stationRead st c (c + i) (c + i + 1280) dst 128
    y.2.stationWrite st (c + 1284 + i) dst (fxAddBytes e src y.1.bytes)

/-- The next group is due in the cycle in which it is written. -/
def planFx (k : FxKind) (r : RelayLoc) (c : Nat) (a : FxArgs) (i : Nat) (s : State) : State :=
  if i < fxElems a.lenM1 / 8 then s.plan (.relay r) c (c + 1284 + i) (.fx k r a i) else s

def fxOne (k : FxKind) (r : RelayLoc) (c : Nat) (a : FxArgs) (i : Nat) (s : State) : State :=
  planFx k r c a (i + 1) (s.fxGroup k r c a i)

/-- FXSET, FXADD, FXOUT (R272). -/
def fxEffect (k : FxKind) (r : RelayLoc) (c : Nat) (a : FxArgs) (s : State) : State :=
  planFx k r c a 0 (s.setBusy (srcRelay r) (fxEnd c a))

/-- The local maximum of a segment, if an FXEXP of this stroke has started it. -/
def State.localMax (s : State) (seg : Nat) : Option Int := (smapGet none s.segMax seg).getD none

/-- The exponent-maxima payload: 64 segments (R266, R273). -/
def State.maximaOut (s : State) : List Byte := maximaPayload ((List.range 64).map s.localMax)

/-- A segment whose E the tail sets: an FXEXP of this stroke has started it here, or a maximum of it has
landed. Log entry 19. -/
def State.segUsed (s : State) (seg : Nat) : Bool :=
  (smapGet none s.segMax seg).isSome || s.seq.maxima.any fun p => (nth 0x8000 p.2 seg) != 0x8000

/-- The tail sets E of each segment to the largest of the maxima (R273). -/
def State.setExponents (s : State) : State :=
  let e := fun seg => (s.seq.maxima.foldl (fun m p =>
    maxExp m (exp16Of (nth 0x8000 p.2 seg).toNat)) (s.localMax seg)).getD 0
  { s with segE := ((List.range 64).filter s.segUsed).foldl (fun m seg => smapPut 0 m seg (e seg)) s.segE }

end Sys2Proof.Machine
end

