-- ==== Sys2Proof/Machine/Selector.lean ====
section
/-! DEFINITION. The Selector (R153–R168, R310–R319): TOPB, SETWIN, and SAMPLE in its two modes. -/

namespace Sys2Proof.Machine

/-! ### Ranking (R156, R311 step 2) -/

/-- Whether candidate `a` (value, index) ranks before `b`: greatest first, NaN last, ties to the lower index. -/
def ranksBefore (a b : Word × Nat) : Bool :=
  if isNan a.1 then isNan b.1 && decide (a.2 < b.2)
  else if isNan b.1 then true
  else fgt a.1 b.1 || (!fgt b.1 a.1 && decide (a.2 < b.2))

def insertRanked (a : Word × Nat) : List (Word × Nat) → List (Word × Nat)
  | [] => [a]
  | x :: r => if ranksBefore a x then a :: x :: r else x :: insertRanked a r

/-- The `k` best of a list of values, in rank order, with their indexes. -/
def bestRanks (k : Nat) (vals : List Word) : List (Word × Nat) :=
  vals.zipIdx.foldl (fun acc x => (insertRanked x acc).take k) []

def insertNat (a : Nat) : List Nat → List Nat
  | [] => [a]
  | x :: r => if a ≤ x then a :: x :: r else x :: insertNat a r

/-- A group's pick list: its B best blocks in ascending order (R156). -/
def pickList (b : Nat) (scores : List Word) : List Nat :=
  ((bestRanks b scores).map (·.2)).foldl (fun l x => insertNat x l) []

/-! ### Descriptors -/

structure TopbDesc where
  scoreBase : Nat
  bf16 : Bool
  nblk : Nat
  b : Nat
  pitch : Nat
  pickBase : Nat
  rsvd : Nat
  deriving DecidableEq, Repr

def topbDesc (x : Nat) : TopbDesc :=
  { scoreBase := field x 0 36, bf16 := bitAt x 36, nblk := field x 40 13 + 1, b := field x 56 8 + 1,
    pitch := field x 64 24, pickBase := field x 96 13,
    rsvd := field x 37 3 + field x 53 3 + field x 88 8 + field x 109 403 }

def winDesc (x : Nat) : WinDesc :=
  { winBase := field x 0 36, tgtBase := field x 40 36, slotWords := field x 80 24, b := field x 104 8 + 1,
    pickBase := field x 112 13, ng := field x 128 13 + 1, nblk := field x 144 13 + 1 }

def winRsvd (x : Nat) : Nat :=
  field x 36 4 + field x 76 4 + field x 125 3 + field x 141 3 + field x 157 99

/-- Element size of a score or logit tensor. -/
def scoreBytes (bf16 : Bool) : Nat := if bf16 then 2 else 4

/-- The interleave period of a plate: five stacks of 2 KiB (R183). -/
def interleave : Nat := 10240

/-! ### TOPB (R164–R167) -/

def topbGroups (a : TopbArgs) : Nat := a.ngM1.toNat + 1
def topbU (d : TopbDesc) : Nat := ceilDiv d.nblk 64
/-- Cycle at which a group's entries are written. -/
def topbWrite (c : Nat) (d : TopbDesc) (g : Nat) : Nat := c + 2568 + 32 * topbU d * (g + 1) + topbU d
def topbEnd (c : Nat) (a : TopbArgs) (d : TopbDesc) : Nat := topbWrite c d (topbGroups a - 1)

/-- What R165 refuses of a descriptor. -/
def topbDescBad (s : State) (x : SelectorLoc) (a : TopbArgs) (raw : Nat) : Option Nat :=
  let d := topbDesc raw
  let last := 32 * (a.firstGroup.toNat + topbGroups a)
  firstBad [
    (d.rsvd == 0, 13), (decide (d.b ≤ d.nblk), 13),
    (decide (scoreBytes d.bf16 * d.nblk ≤ 8 * d.pitch), 13),
    (decide (d.pickBase + (a.firstGroup.toNat + topbGroups a) * d.b ≤ 8192), 13),
    (s.hbmOk x.plate.val (8 * d.scoreBase + 8 * d.pitch * (32 * a.firstGroup.toNat))
      (8 * d.pitch * (last - 32 * a.firstGroup.toNat - 1) + scoreBytes d.bf16 * d.nblk), 13)]

/-- The descriptor as it stands at cycle `c`. -/
def State.topbNow (s : State) (x : SelectorLoc) (c : Nat) (a : TopbArgs) : Nat :=
  s.descNow (.selector x) 2 (8 * a.descAddr.toNat) 64 c

/-- What R163 and R165 refuse. -/
def topbBad (s : State) (x : SelectorLoc) (c : Nat) (a : TopbArgs) : Option Nat :=
  let raw := s.topbNow x c a
  (firstBad [(s.hbmOk x.plate.val (8 * a.descAddr.toNat) 64, 13)]).orElse fun _ =>
  (topbDescBad s x a raw).orElse fun _ =>
  firstBad [
    (decide (s.busyUntil (srcSelector x) ≤ c), 16),
    (decide (topbEnd c a (topbDesc raw) < s.tailStart), 16)]

/-- A row of `n` values read 64 at a time from cycle `t0` on. The last read covers only what is left of them. DESIGN
CHOICE, log entry 60. -/
def State.readRow64 (s : State) (st : StationRef) (issue t0 a n e : Nat) (f : FpFmt) : List Word × State :=
  (List.range (ceilDiv n 64)).foldl (fun acc v =>
    let t := t0 + v
    let r := acc.2.stationRead st issue t (t + 1280) (a + 64 * e * v) (e * min 64 (n - 64 * v))
    (acc.1 ++ (rowCodes f r.1.bytes).map (widen f), r.2)) ([], s)

def scoreFmt (bf16 : Bool) : FpFmt := if bf16 then .bf16 else .fp32

/-- The summed scores of a group (R155): a chain over its 32 tokens. -/
def State.groupScores (s : State) (x : SelectorLoc) (c : Nat) (a : TopbArgs) (d : TopbDesc) (g : Nat) :
    List Word × State :=
  let e := scoreBytes d.bf16
  (List.range 32).foldl (fun acc t =>
    let m := 32 * (a.firstGroup.toNat + g) + t
    let r := acc.2.readRow64 (.selector x) c (c + 1281 + 32 * topbU d * g + topbU d * t)
      (8 * d.scoreBase + 8 * d.pitch * m) d.nblk e (scoreFmt d.bf16)
    (if t = 0 then r.1 else (acc.1.zip r.1).map fun p => fadd p.1 p.2, r.2)) ([], s)

/-- Write pick entries at cycle `t`. -/
def State.writePicks (s : State) (p base t : Nat) (l : List Nat) : State :=
  { s with picks := l.zipIdx.foldl (fun m vi =>
      smapMod .zero m (pickKey p (base + vi.2)) (fun e => { e with writes := (t, BitVec.ofNat 16 vi.1) :: e.writes })) s.picks }

/-- The next group is due when its entries are written; after the last, the summary 0x0128 of R181 waits for the
tail. -/
def planTopb (x : SelectorLoc) (c : Nat) (a : TopbArgs) (raw g nans : Nat) (s : State) : State :=
  if g < topbGroups a then s.plan (.selector x) c (topbWrite c (topbDesc raw) g) (.topb x a raw g nans)
  else { s with tailEvents := s.tailEvents ++
    [⟨srcSelector x, 0x0128, eventPayload [f16 (selectorIdx x), f32 c, f32 (topbGroups a), f32 nans]⟩] }

def topbOne (x : SelectorLoc) (c : Nat) (a : TopbArgs) (raw g nans : Nat) (s : State) : State :=
  let d := topbDesc raw
  let y := s.groupScores x c a d g
  planTopb x c a raw (g + 1) (nans + boolNat (y.1.any isNan))
    (y.2.writePicks x.plate.val (d.pickBase + (a.firstGroup.toNat + g) * d.b) (topbWrite c d g) (pickList d.b y.1))

/-- TOPB (R164): the descriptor is on its way. -/
def topbEffect (x : SelectorLoc) (c : Nat) (a : TopbArgs) (s : State) : State :=
  (s.setBusy (srcSelector x) (topbEnd c a (topbDesc (s.topbNow x c a)))).plan (.selector x) c (c + 1280) (.topbDesc x a)

/-- It arrives: every group in order. A poisoned descriptor stops the command, and one that is not legal (R512). Log
entry 59. -/
def topbArrives (x : SelectorLoc) (c : Nat) (a : TopbArgs) (s : State) : State :=
  let r := s.descRead (.selector x) c 2 (8 * a.descAddr.toNat) 64
  let raw := ofLe r.1.bytes
  if r.1.poison.isEmpty && (topbDescBad r.2 x a raw).isNone then planTopb x c a raw 0 0 r.2 else r.2

/-! ### SETWIN (R158–R160, R166) -/

/-- Whether two windows' ranges share an address. -/
def windowsClash (d e : WinDesc) : Bool := overlap (8 * d.winBase) d.span (8 * e.winBase) e.span

/-- What R160 refuses of a window to be armed. -/
def winBad (p : Nat) (raw : Nat) : Option Nat :=
  let d := winDesc raw
  let sz := 8 * d.slotWords
  firstBad [
    (winRsvd raw == 0, 13), (decide (d.slotWords > 0), 13),
    (sz % interleave == 0 && 8 * d.winBase % interleave == 0 && 8 * d.tgtBase % interleave == 0, 13),
    (inside (8 * d.winBase) d.span (plateBase p) hbmSize, 13),
    (inside (8 * d.tgtBase) (d.nblk * sz) (plateBase p) hbmSize, 13),
    (decide (d.pickBase + d.ng * d.b ≤ 8192), 13)]

def setwinBad (s : State) (x : SelectorLoc) (c : Nat) (a : SetwinArgs) : Option Nat :=
  if a.arm = 0 then firstBad [(decide (a.descAddr = 0), 13)]
  else (firstBad [(s.hbmOk x.plate.val (8 * a.descAddr.toNat) 32, 13)]).orElse fun _ =>
    winBad x.plate.val (s.descNow (.selector x) 2 (8 * a.descAddr.toNat) 32 c)

/-- A change of a window takes effect at a cycle. -/
def State.changeWindow (s : State) (p w : Nat) (t : Nat) (d : Option WinDesc) : State :=
  { s with windows := smapMod .empty s.windows (16 * p + w) (fun x => { x with next := x.next ++ [((t : Int), d)] }) }

/-- SETWIN (R166): a window is disarmed, or its descriptor is on its way. -/
def setwinEffect (x : SelectorLoc) (c : Nat) (a : SetwinArgs) (s : State) : State :=
  if a.arm = 0 then s.changeWindow x.plate.val a.win.toNat (c + 1344) none
  else s.plan (.selector x) c (c + 1280) (.setwinDesc x a)

/-- It arrives, and the window is armed. -/
def setwinArrives (x : SelectorLoc) (c : Nat) (a : SetwinArgs) (s : State) : State :=
  let r := s.descRead (.selector x) c 2 (8 * a.descAddr.toNat) 32
  let raw := ofLe r.1.bytes
  if r.1.poison.isEmpty && (winBad x.plate.val raw).isNone then
    r.2.changeWindow x.plate.val a.win.toNat (c + 1344) (some (winDesc raw))
  else r.2

/-! ### SAMPLE in MODE 0 (R310–R314) -/

structure SampleDesc where
  bf16 : Bool
  v : Nat
  temp : Word
  topP : Word
  k : Nat
  logitBase : Nat
  pitch : Nat
  outBase : Nat
  rsvd : Nat
  deriving DecidableEq, Repr

def sampleDesc (x : Nat) : SampleDesc :=
  { bf16 := bitAt x 2, v := field x 8 20 + 1, temp := BitVec.ofNat 32 (field x 32 32),
    topP := BitVec.ofNat 32 (field x 64 32), k := field x 96 10 + 1, logitBase := field x 128 36,
    pitch := field x 192 24, outBase := field x 224 36,
    rsvd := field x 3 5 + field x 28 4 + field x 106 22 + field x 164 28 + field x 216 8 + field x 260 252 }

def sampleU (d : SampleDesc) : Nat := ceilDiv d.v 64
def sampleP (d : SampleDesc) : Nat := max (sampleU d) 32
def sampleWrite (c : Nat) (d : SampleDesc) (r : Nat) : Nat := c + 3649 + r * sampleP d + sampleU d

/-- The weights of the kept ranks (R311 step 3). -/
def sampleWeights (zs : List Word) : List Word :=
  let m := nth 0 zs 0
  let inf := !isFinite m && !isNan m
  zs.map fun z =>
    if isNan z then 0
    else if inf then (if z = m then oneF else 0)
    else fexp (fsub z m)

/-- Cumulative weights (step 4). -/
def cumulate : Word → List Word → List Word
  | _, [] => []
  | c, e :: r => let d := fadd c e; d :: cumulate d r

def cumulWeights : List Word → List Word
  | [] => []
  | e :: r => e :: cumulate e r

/-- The token of a row: index, q, and the NaN flag (R311, R312). -/
def sampleToken (d : SampleDesc) (logits : List Word) (x0 : Nat) : Nat × Nat × Bool :=
  let kept := bestRanks (min d.k d.v) (logits.map fun x => fdiv x d.temp)
  let zs := kept.map (·.1)
  if isNan (nth 0 zs 0) then (0, 0, true)
  else
    let cs := cumulWeights (sampleWeights zs)
    let h := fmul d.topP (nth 0 cs (cs.length - 1))
    let q := (cs.findIdx? fun c => fge c h).getD (cs.length - 1)
    let u := round32 (.fin false (x0 >>> 8) (-24))
    let target := fmul u (nth 0 cs q)
    let i := ((cs.take (q + 1)).findIdx? fun c => fgt c target).getD q
    ((nth (0, 0) kept i).2, q, false)

/-- The result record (R313). -/
def sampleRecord (t : Nat × Nat × Bool) : Nat := t.1 + t.2.1 <<< 32 + boolNat t.2.2 <<< 42

/-- One row: its logits, its draw and its record. -/
def State.sampleRow (s : State) (x : SelectorLoc) (c : Nat) (a : SampleArgs) (d : SampleDesc) (r : Nat) :
    Bool × State :=
  let e := scoreBytes d.bf16
  let i := a.firstRow.toNat + r
  let y := s.readRow64 (.selector x) c (c + 1281 + r * sampleP d) (8 * d.logitBase + 8 * d.pitch * i) d.v e
    (scoreFmt d.bf16)
  let lane := selectorLane x 0
  let x0 := y.2.drawLane lane (selectorStream x 0 y.2.cartoonRole) % 2 ^ 32
  let t := sampleToken d y.1 x0
  (t.2.2, (y.2.advanceLane lane).stationWrite (.selector x) (sampleWrite c d r) (8 * d.outBase + 8 * i)
    (leBytes 8 (sampleRecord t)))

def sampleRows (a : SampleArgs) : Nat := a.rowsM1.toNat + 1

/-- What R310 refuses of a descriptor. -/
def sampleDescBad (s : State) (x : SelectorLoc) (a : SampleArgs) (raw : Nat) : Option Nat :=
  let d := sampleDesc raw
  let n := sampleRows a
  firstBad [
    (d.rsvd == 0, 13), (isFinite d.temp && fgt d.temp 0, 13),
    (fgt d.topP 0 && !fgt d.topP oneF, 13),
    (decide (scoreBytes d.bf16 * d.v ≤ 8 * d.pitch), 13),
    (s.hbmOk x.plate.val (8 * d.logitBase + 8 * d.pitch * a.firstRow.toNat)
      (8 * d.pitch * (n - 1) + scoreBytes d.bf16 * d.v), 13),
    (s.hbmOk x.plate.val (8 * d.outBase + 8 * a.firstRow.toNat) (8 * n), 13)]

/-- The next row is due when its record is written; after the last, the summary 0x012A of R319 waits for the tail. -/
def planSample (x : SelectorLoc) (c : Nat) (a : SampleArgs) (raw r nans : Nat) (s : State) : State :=
  if r < sampleRows a then s.plan (.selector x) c (sampleWrite c (sampleDesc raw) r) (.sample x a raw r nans)
  else { s with tailEvents := s.tailEvents ++
    [⟨srcSelector x, 0x012A, eventPayload [f16 (selectorIdx x), f32 (sampleRows a), f32 nans]⟩] }

def sampleOne (x : SelectorLoc) (c : Nat) (a : SampleArgs) (raw r nans : Nat) (s : State) : State :=
  let y := s.sampleRow x c a (sampleDesc raw) r
  planSample x c a raw (r + 1) (nans + boolNat y.1) y.2

/-! ### SAMPLE in MODE 1 (R315–R317) -/

structure FillDesc where
  dist : Nat
  outFmt : Nat
  shared : Bool
  pitch : Nat
  scale : Word
  offset : Word
  keep : Nat
  outBase : Nat
  loBase : Nat
  rsvd : Nat
  deriving DecidableEq, Repr

def fillDesc (x : Nat) : FillDesc :=
  { dist := field x 2 2, outFmt := field x 4 3, shared := bitAt x 7, pitch := field x 8 24,
    scale := BitVec.ofNat 32 (field x 32 32), offset := BitVec.ofNat 32 (field x 64 32),
    keep := field x 96 32, outBase := field x 128 36, loBase := field x 192 36,
    rsvd := field x 164 28 + field x 228 284 }

def fillBytes (d : FillDesc) : Nat := if d.outFmt = 4 then 2 else (outFmt d.outFmt).bytes

/-- The values before scaling of four elements, from the four words of one draw (R316). -/
def fillValues (d : FillDesc) (w : List Nat) : List Word :=
  let b := fun h => BitVec.ofNat 32 (nth 0 w h)
  match d.dist with
  | 0 => (List.range 4).map b
  | 1 => (List.range 4).map fun h => round32 (.fin false ((b h).toNat >>> 8) (-24))
  | 2 =>
    let p := normalPair (b 0) (b 1)
    let q := normalPair (b 2) (b 3)
    [p.1, p.2, q.1, q.2]
  | _ => (List.range 4).map fun h => if (b h).toNat < d.keep then oneF else 0

/-- The value written, as FP32. -/
def fillScale (d : FillDesc) (y : Word) : Word :=
  if d.dist = 0 then y else fadd (fmul y d.scale) d.offset

/-- The four draws of a group, one from each lane. -/
def State.fillDraws (s : State) (x : SelectorLoc) (d : FillDesc) : List Nat × State :=
  let role := if d.shared then 0 else s.cartoonRole
  ((List.range 4).map fun k => s.drawLane (selectorLane x k) (selectorStream x k role),
   (List.range 4).foldl (fun s k => s.advanceLane (selectorLane x k)) s)

/-- The 16 elements of a group as FP32. -/
def fillGroup (d : FillDesc) (draws : List Nat) : List Word :=
  draws.flatMap fun x => (fillValues d ((List.range 4).map fun h => field x (32 * h) 32)).map (fillScale d)

/-- One group of 16 elements, written in its cycle. -/
def State.fillOne (s : State) (x : SelectorLoc) (c : Nat) (a : SampleArgs) (d : FillDesc) (g : Nat) : State :=
  let dr := s.fillDraws x d
  let vals := fillGroup d dr.1
  let e := fillBytes d
  let off := 8 * d.pitch * (a.firstRow.toNat + g / 2) + e * 16 * (g % 2)
  let st := StationRef.selector x
  let t := c + 1290 + g
  if d.outFmt = 4 then
    (dr.2.stationWrite st t (8 * d.outBase + off) (vals.flatMap fun v => leBytes 2 (v.toNat >>> 16))).stationWrite
      st t (8 * d.loBase + off) (vals.flatMap fun v => leBytes 2 (v.toNat % 65536))
  else
    dr.2.stationWrite st t (8 * d.outBase + off)
      (vals.flatMap fun v => leBytes e (if d.dist = 0 then v.toNat else convert (outFmt d.outFmt) v))

def fillEnd (c : Nat) (a : SampleArgs) : Nat := c + 1289 + 2 * sampleRows a

/-- The step's seed is automatic. -/
def State.autoSeed (s : State) : Bool :=
  match s.seq.cartoon with
  | some c => match c.variants[s.seq.variant]? with | some v => v.seedSel == 1 | none => false
  | none => false

/-- What R315 refuses of a descriptor. -/
def fillDescBad (s : State) (x : SelectorLoc) (a : SampleArgs) (raw : Nat) : Option Nat :=
  let d := fillDesc raw
  let n := sampleRows a
  let e := fillBytes d
  let ok := fun base => s.hbmOk x.plate.val (8 * base + 8 * d.pitch * a.firstRow.toNat)
    (8 * d.pitch * (n - 1) + 32 * e)
  firstBad [
    (d.rsvd == 0, 13), (decide (d.outFmt < 5), 13), (d.dist != 0 || d.outFmt == 3, 13),
    (isFinite d.scale && isFinite d.offset, 13),
    (decide (32 * e ≤ 8 * d.pitch), 13),
    (d.outFmt == 4 || d.loBase == 0, 13),
    (!(d.shared && s.autoSeed && decide (s.groupSize > 1)), 13),
    (ok d.outBase && (d.outFmt != 4 || ok d.loBase), 13)]

/-- The next group of a fill is due in the cycle in which it is written. -/
def planFill (x : SelectorLoc) (c : Nat) (a : SampleArgs) (raw g : Nat) (s : State) : State :=
  if g < 2 * sampleRows a then s.plan (.selector x) c (c + 1290 + g) (.fill x a raw g) else s

def fillStep (x : SelectorLoc) (c : Nat) (a : SampleArgs) (raw g : Nat) (s : State) : State :=
  planFill x c a raw (g + 1) (s.fillOne x c a (fillDesc raw) g)

/-! ### Opcode 3 of the Selector (R168) -/

/-- The MODE of a sampling descriptor decides what the command does. -/
def samplingDescBad (s : State) (x : SelectorLoc) (a : SampleArgs) (raw : Nat) : Option Nat :=
  match field raw 0 2 with
  | 0 => sampleDescBad s x a raw
  | 1 => fillDescBad s x a raw
  | _ => some 13

/-- The cycle in which the command completes. -/
def samplingEnd (c : Nat) (a : SampleArgs) (raw : Nat) : Nat :=
  if field raw 0 2 = 0 then sampleWrite c (sampleDesc raw) (sampleRows a - 1) else fillEnd c a

/-- The descriptor as it stands at cycle `c`. -/
def State.samplingNow (s : State) (x : SelectorLoc) (c : Nat) (a : SampleArgs) : Nat :=
  s.descNow (.selector x) 2 (8 * a.descAddr.toNat) 64 c

def samplingBad (s : State) (x : SelectorLoc) (c : Nat) (a : SampleArgs) : Option Nat :=
  let raw := s.samplingNow x c a
  (firstBad [(s.hbmOk x.plate.val (8 * a.descAddr.toNat) 64, 13)]).orElse fun _ =>
  (samplingDescBad s x a raw).orElse fun _ =>
  firstBad [
    (decide (s.busyUntil (srcSelector x) ≤ c), 16),
    (decide (samplingEnd c a raw < s.tailStart), 16)]

/-- SAMPLE, or a fill: the descriptor is on its way. -/
def samplingEffect (x : SelectorLoc) (c : Nat) (a : SampleArgs) (s : State) : State :=
  (s.setBusy (srcSelector x) (samplingEnd c a (s.samplingNow x c a))).plan (.selector x) c (c + 1280) (.sampleDesc x a)

/-- It arrives. A poisoned descriptor stops the command, and one that is not legal (R512). Log entry 59. -/
def samplingArrives (x : SelectorLoc) (c : Nat) (a : SampleArgs) (s : State) : State :=
  let r := s.descRead (.selector x) c 2 (8 * a.descAddr.toNat) 64
  let raw := ofLe r.1.bytes
  if r.1.poison.isEmpty && (samplingDescBad r.2 x a raw).isNone then
    (if field raw 0 2 = 0 then planSample x c a raw 0 0 r.2 else planFill x c a raw 0 r.2)
  else r.2

end Sys2Proof.Machine
end

