-- ==== Sys2Proof/Machine/Stipple.lean ====
section
/-! DEFINITION. The Stipple (R169–R181): CLEAR, ACCUM, GATHER, the insertion of a run, and FOLD. -/

namespace Sys2Proof.Machine

/-! ### Slots (R169, R171) -/

/-- The set of a key. -/
def stSet (k : Word) : Nat := (k.toNat * 0x9E37_79B1 % 2 ^ 32) >>> 23

/-- The slot positions of a key's set, ways in order. -/
def stWays (k : Word) : List Nat := (List.range 8).map fun w => 8 * stSet k + w

/-- What the check bits of word `j` of a slot say. -/
def StSlot.mark (x : StSlot) (j : Nat) : EccMark := nth .good x.marks j

/-- The key and the vector as a read delivers them: a poisoned word as zero (R196). -/
def StSlot.readKey (x : StSlot) : Word := if x.mark 0 = .poison then 0 else x.key
def StSlot.readVec (x : StSlot) : List Word :=
  x.vec.zipIdx.map fun p => if x.mark (1 + p.2 / 2) = .poison then 0 else p.1

/-- The way that holds a key, or else the lowest invalid way of its set. -/
def stPlace (slots : SMap (Option StSlot)) (k : Word) : Option (Nat × Option StSlot) :=
  match (stWays k).find? (fun p => match smapGet none slots p with | some x => x.readKey == k | none => false) with
  | some p => some (p, smapGet none slots p)
  | none => ((stWays k).find? fun p => (smapGet none slots p).isNone).map fun p => (p, none)

def addVec (v p : List Word) : List Word := (v.zip p).map fun x => fadd x.1 x.2

/-- The slot that takes a run: every word of it is written. -/
def stSlotFor (old : Option StSlot) (r : StRun) : StSlot :=
  match old with
  | some x => ⟨r.key, addVec x.readVec r.vec, []⟩
  | none => ⟨r.key, r.vec, []⟩

/-- The 136 bytes of a record. -/
def stRecord (key : Word) (vec : List Word) : List Byte := leBytes 8 key.toNat ++ wordsBytes vec

/-! ### The check bits of the slots (R194–R196) -/

/-- A Stipple reads word `j` of the slot at a position for the command that issued at cycle `issue`. The spec gives the
slots no device address. Log entry 58. -/
def State.readSlotWord (s : State) (c : ClusterLoc) (issue t pos j : Nat) (x : StSlot) : State :=
  let st := StationRef.stipple c
  let a := (Config.slotAddress (clusterIdx c) (17 * pos + j)).toNat
  let count := fun (y : ClusterCounts) => { y with sramCorrected := satInc y.sramCorrected }
  match x.mark j with
  | .correctable =>
    ({ s with clusterCounts := smapMod .zero s.clusterCounts (clusterIdx c) count } : State).noteCorrected
      (srcCluster c 3) a 3 (srcStation st)
  | .poison => s.notePoison st 0x0210 issue t a (clusterIdx c)
  | _ => s

/-- The words `first` to `last` of the slot at a position, if it is valid. -/
def State.readSlot (s : State) (c : ClusterLoc) (issue t first last pos : Nat) : State :=
  match smapGet none (s.stipple c).slots pos with
  | some x => (List.range (last + 1 - first)).foldl (fun s i => s.readSlotWord c issue t pos (first + i) x) s
  | none => s

/-! ### The pre-combiner (R170) -/

/-- An entry reaches the pre-combiner: the run that it closes, if it does, and the run that is then held. -/
def preCombine (run : Option (Word × List Word)) (e : Word × List Word) :
    Option (Word × List Word) × (Word × List Word) :=
  match run with
  | none => (none, e)
  | some p => if p.1 = e.1 then (none, (p.1, addVec p.2 e.2)) else (some p, e)

/-- A run closes at cycle `t`, and is inserted four cycles later (R171). -/
def State.closeRun (s : State) (c : ClusterLoc) (issue t : Nat) (limit : Option Nat) (r : Option (Word × List Word)) :
    State :=
  match r with
  | none => s
  | some r =>
    let x := s.stipple c
    (s.setStipple c { x with runs := x.runs ++ [⟨r.1, r.2, t, issue, limit⟩] }).plan (.stipple c) issue (t + 4) (.insert c)

/-! ### The reservation (R180, R188, R191) -/

/-- Whether a stack serves station words in a cycle: outside its refresh slots and the command-reader cycles, whose
count from the stroke start is 31 modulo 32 (R188). Log entry 5. -/
def serviceCycle (stack t : Nat) : Bool := !inRefresh stack t && t % 32 != 31

/-- Words per cycle of the read slot and of the write slot. -/
def slotWords (write : Bool) : Nat := if write then 34 else 36

def claimKey (stack : Nat) (write : Bool) (t : Nat) : Nat := (2 * stack + boolNat write) * 2 ^ 24 + t

/-- The earliest service cycle before `limit` that has `n` free words. -/
def findService : Nat → SMap Nat → Nat → Bool → Nat → Nat → Nat → Option Nat
  | 0, _, _, _, _, _, _ => none
  | f + 1, m, stack, write, n, limit, t =>
    if limit ≤ t then none
    else if serviceCycle stack t && decide (smapGet 0 m (claimKey stack write t) + n ≤ slotWords write) then some t
    else findService f m stack write n limit (t + 1)

/-- Serve an access that issues at cycle `t`: within 1,024 cycles and before the end of the reservation. -/
def serve (m : SMap Nat) (write : Bool) (limit t a n : Nat) : Option (List Served × SMap Nat) :=
  (granules a n).foldl (fun z p =>
    z.bind fun z =>
      let k := wordsOf p.1 p.2
      (findService 1024 z.2 (stackOf p.1) write k limit t).map fun u =>
        (z.1 ++ [⟨p.1, p.2, u⟩], smapMod 0 z.2 (claimKey (stackOf p.1) write u) (· + k))) (some ([], m))

/-- An access in the reservation of a Stipple's command. -/
def State.stServe (s : State) (c : ClusterLoc) (write : Bool) (limit t a n : Nat) : Option (List Served × State) :=
  let x := s.stipple c
  (serve x.claims write limit t a n).map fun z => (z.1, s.setStipple c { x with claims := z.2 })

/-- The fields that every record of R181 carries. -/
def stFields (c : ClusterLoc) (cycle : Nat) : List (Nat × Nat) := [f16 (clusterIdx c), f32 cycle]

/-- A step-ending fault of a Stipple command. -/
def State.stFault (s : State) (c : ClusterLoc) (code cycle t : Nat) (more : List (Nat × Nat) := []) : State :=
  s.pend (srcCluster c 2) code t (tieOrder (.stipple c)) (stFields c cycle ++ more) false

/-- The work of a Stipple's ACCUM, GATHER or FOLD. -/
def Job.ofStipple (c : ClusterLoc) : Job → Bool
  | .count d _ _ | .gather d _ _ | .gathered d | .flush d _ _ | .refill d _ _ | .halt d | .accum d _ _ _ | .insert d => c == d
  | _ => false

/-- The command that issued at a cycle does no further work (R180). -/
def State.stStop (s : State) (c : ClusterLoc) (cycle : Nat) : State :=
  let x := s.stipple c
  { s.setStipple c { x with runs := x.runs.filter fun r => r.cycle != cycle } with
    works := s.works.filter fun w => !(w.job.ofStipple c && w.cycle == cycle) }

/-- It stops with a fault at cycle `t`. -/
def State.stHalt (s : State) (c : ClusterLoc) (code cycle t : Nat) (more : List (Nat × Nat) := []) : State :=
  (s.stStop c cycle).stFault c code cycle t more

/-- The sets that a CLEAR has made invalid by cycle `x`: set s in the s + 1st cycle after its issue (R174). -/
def State.purge (s : State) (c : ClusterLoc) (x : Nat) : State :=
  let p := s.stipple c
  match p.clearing with
  | none => s
  | some (issue, done) =>
    let n := max done (min 512 (x - issue))
    s.setStipple c { p with slots := smapDrop p.slots (8 * done) (8 * n), clearing := some (issue, n) }

/-! ### Insertion (R171) -/

/-- A write of the Stipple: in the service cycles of its reservation, or where the load check has placed an ACCUM's
spill (R175). -/
def State.stWrite (s : State) (c : ClusterLoc) (t a : Nat) (bs : List Byte) (parts : Option (List Served)) : State :=
  match parts with
  | some l => s.writeParts (srcCluster c 2) a bs [] l
  | none => s.writeParts (srcCluster c 2) a bs []
      (s.served (spillRank + stationRank (.stipple c)) t true a bs.length)

/-- A run that finds its set full goes to the spill region in the next cycle; without a descriptor there is none
(R512). -/
def State.spillRun (s : State) (c : ClusterLoc) (r : StRun) : State :=
  let x := s.stipple c
  let t := r.closed + 5
  match x.op with
  | none => s
  | some o =>
    if o.spillCap ≤ x.spilled then s.stHalt c 0x0120 r.cycle t
    else
      let a := 8 * o.spillBase + 136 * x.spilled
      let put := fun (s : State) (parts : Option (List Served)) =>
        (s.setStipple c { s.stipple c with spilled := x.spilled + 1 }).stWrite c t a (stRecord r.key r.vec) parts
      match r.limit with
      | none => put s none
      | some l =>
        match s.stServe c true l t a 136 with
        | some z => put z.2 (some z.1)
        | none => s.stHalt c 0x0102 r.cycle t

/-- The insertion of a run: the keys of its set are read, and the rest of the slot that holds its key. -/
def State.insertRun (s : State) (c : ClusterLoc) (r : StRun) : State :=
  let t := r.closed + 4
  let s := s.purge c t
  let s := (stWays r.key).foldl (fun s p => s.readSlot c r.cycle t 0 0 p) s
  let x := s.stipple c
  match stPlace x.slots r.key with
  | some (p, old) =>
    let s := if old.isSome then s.readSlot c r.cycle t 1 16 p else s
    s.setStipple c { s.stipple c with slots := smapPut none x.slots p (some (stSlotFor old r)) }
  | none => s.spillRun c r

/-- The oldest run that has closed is inserted. -/
def insertOldest (c : ClusterLoc) (s : State) : State :=
  let x := s.stipple c
  match x.runs with
  | [] => s
  | r :: rest => (s.setStipple c { x with runs := rest }).insertRun c r

/-- The run whose insertion falls in a cycle, unless it has been inserted. -/
def insertDue (c : ClusterLoc) (due : Nat) (s : State) : State :=
  match (s.stipple c).runs with
  | r :: _ => if r.closed + 4 ≤ due then insertOldest c s else s
  | [] => s

/-- STIPPLE_INSERT: the oldest run that has closed is inserted. -/
def execStippleInsert (c : ClusterLoc) (s : State) : Out :=
  match (s.stipple c).runs with
  | [] => .next s
  | _ :: _ => .next (insertOldest c s)

/-! ### CLEAR (R172, R174) -/

def stOp (x : Nat) : StOp :=
  { spillBase := field x 0 36, spillCap := field x 36 24, outBase := field x 64 36, outCap := field x 100 24,
    countAddr := field x 128 36, dBase := field x 192 36, dPitch := field x 228 24, dBf16 := bitAt x 252,
    dRows := field x 256 32 }

def stOpRsvd (x : Nat) : Nat :=
  field x 60 4 + field x 124 4 + field x 164 28 + field x 253 3 + field x 288 224

/-- Bytes of a row of D. -/
def dRowBytes (o : StOp) : Nat := if o.dBf16 then 64 else 128

def clearEnd (c : Nat) (a : ClearArgs) : Nat := max (c + 513) (c + latency a.space.toNat + 1)

/-- Whether a region is empty or lies in memory that a station of the plate may reach. -/
def State.regionOk (s : State) (p a n : Nat) : Bool := n == 0 || s.hbmOk p a n

/-- What the load check refuses of an operation descriptor. -/
def stOpBad (s : State) (p : Nat) (raw : Nat) : Option Nat :=
  let o := stOp raw
  firstBad [
    (stOpRsvd raw == 0, 13),
    (s.regionOk p (8 * o.spillBase) (136 * o.spillCap), 13),
    (s.regionOk p (8 * o.outBase) (136 * o.outCap), 13),
    (s.hbmOk p (8 * o.countAddr) 8, 13),
    (s.regionOk p (8 * o.dBase) (if o.dRows = 0 then 0 else 8 * o.dPitch * (o.dRows - 1) + dRowBytes o), 13)]

def clearBad (s : State) (c : ClusterLoc) (t : Nat) (a : ClearArgs) : Option Nat :=
  let st := StationRef.stipple c
  (firstBad [
    (a.space == 1 || a.space == 2, 13), (!(s.stipple c).open_, 13),
    (s.spaceOk st a.space.toNat (8 * a.descAddr.toNat) 64, 13)]).orElse fun _ =>
  (stOpBad s c.plate.val (s.descNow st a.space.toNat (8 * a.descAddr.toNat) 64 t)).orElse fun _ =>
  firstBad [(decide (s.busyUntil (srcCluster c 2) ≤ t), 16), (decide (clearEnd t a < s.tailStart), 16)]

/-- CLEAR (R174): an operation begins with an empty spill region; the sets become invalid one by one, and the
descriptor arrives. -/
def clearEffect (c : ClusterLoc) (t : Nat) (a : ClearArgs) (s : State) : State :=
  let x := s.purge c (t + 512) |>.stipple c
  let x := { x with open_ := true, op := none, spilled := 0, claims := [], clearing := some (t, 0) }
  (((s.setStipple c x).setBusy (srcCluster c 2) (clearEnd t a + 1)).plan (.stipple c) t (t + latency a.space.toNat)
    (.clearDesc c a)).plan (.stipple c) t (t + 512) (.cleared c)

/-- The descriptor arrives. One that is poisoned, or not legal, names no memory (R512). -/
def clearArrives (c : ClusterLoc) (t : Nat) (a : ClearArgs) (s : State) : State :=
  let r := s.descRead (.stipple c) t a.space.toNat (8 * a.descAddr.toNat) 64
  let raw := ofLe r.1.bytes
  if r.1.poison.isEmpty && (stOpBad r.2 c.plate.val raw).isNone then
    r.2.setStipple c { r.2.stipple c with op := some (stOp raw) }
  else r.2

/-- The last set is invalid. -/
def clearedAll (c : ClusterLoc) (t : Nat) (s : State) : State :=
  let s := s.purge c (t + 512)
  s.setStipple c { s.stipple c with clearing := none }

/-! ### ACCUM (R175) -/

def accumEntries (a : AccumArgs) : Nat := a.neM1.toNat + 1
def accumEnd (c : Nat) (a : AccumArgs) : Nat := c + latency a.space.toNat + accumEntries a + 5

/-- Offset and length of the vector of entry `i`. -/
def accumStride (a : AccumArgs) : Nat := if a.record = 1 then 136 else 128

def accumBad (s : State) (c : ClusterLoc) (t : Nat) (a : AccumArgs) : Option Nat :=
  let st := StationRef.stipple c
  let n := accumEntries a
  firstBad [
    (a.space == 1 || a.space == 2, 13), ((s.stipple c).open_, 13),
    (a.record == 1 || s.spaceOk st a.space.toNat (8 * a.keyAddr.toNat) (4 * n), 13),
    (s.spaceOk st a.space.toNat (8 * a.vecAddr.toNat) (accumStride a * n), 13),
    (decide (s.busyUntil (srcCluster c 2) ≤ t), 16), (decide (accumEnd t a < s.tailStart), 16)]

/-- One read of a Stipple at a space offset. -/
def State.stRead (s : State) (c : ClusterLoc) (issue t space off n : Nat) : List Byte × State :=
  let st := StationRef.stipple c
  match s.spaceAddr st space off n with
  | some a => let r := s.stationRead st issue t (t + latency space) a n; (r.1.bytes, r.2)
  | none => (List.replicate n 0, s)

/-- Entry `i` of an ACCUM, with its arrival cycle. -/
def State.accumEntry (s : State) (c : ClusterLoc) (t : Nat) (a : AccumArgs) (i : Nat) :
    (Nat × Word × List Word) × State :=
  let sp := a.space.toNat
  let at_ := t + latency sp + i
  if a.record = 1 then
    let r := s.stRead c t (t + i) sp (8 * a.vecAddr.toNat + 136 * i) 136
    ((at_, BitVec.ofNat 32 (ofLe (r.1.take 4)), rowWords (r.1.drop 8)), r.2)
  else
    let k := s.stRead c t (t + i) sp (8 * a.keyAddr.toNat + 4 * i) 4
    let v := k.2.stRead c t (t + i) sp (8 * a.vecAddr.toNat + 128 * i) 128
    ((at_, BitVec.ofNat 32 (ofLe k.1), rowWords v.1), v.2)

/-- The next entry is due when it arrives; after the last, the run that is held closes. -/
def planAccum (c : ClusterLoc) (t : Nat) (a : AccumArgs) (i : Nat) (run : Option (Word × List Word)) (s : State) : State :=
  s.plan (.stipple c) t (t + latency a.space.toNat + i) (.accum c a i run)

def accumOne (c : ClusterLoc) (t : Nat) (a : AccumArgs) (i : Nat) (run : Option (Word × List Word)) (s : State) : State :=
  if i < accumEntries a then
    let y := s.accumEntry c t a i
    let r := preCombine run y.1.2
    planAccum c t a (i + 1) (some r.2) (y.2.closeRun c t y.1.1 none r.1)
  else s.closeRun c t (t + latency a.space.toNat + i) none run

/-- ACCUM (R175). -/
def accumEffect (c : ClusterLoc) (t : Nat) (a : AccumArgs) (s : State) : State :=
  planAccum c t a 0 none ((s.setStipple c { s.stipple c with claims := [] }).setBusy (srcCluster c 2) (accumEnd t a + 1))

/-! ### GATHER (R176, R177) -/

def sliceMax (a : GatherArgs) : Nat := a.sliceMaxM1.toNat + 1
def listBase (a : GatherArgs) : Nat := 8 * a.listAddr.toNat

/-- A slice header: its key and its number of non-zeros. -/
def sliceHeader (x : Nat) : Word × Nat := (BitVec.ofNat 32 x, field x 32 7 + 1)

/-- Address of entry `j` of slice `i`. -/
def entryAddr (a : GatherArgs) (i j : Nat) : Nat := listBase a + 8 * (1 + sliceMax a + 128 * i + j)

def dRowAddr (o : StOp) (i : Nat) : Nat := 8 * o.dBase + 8 * o.dPitch * i

/-- The products of a VALUE with a row of D. -/
def rowProducts (o : StOp) (value : Word) (bs : List Byte) : List Word :=
  (rowCodes (if o.dBf16 then .bf16 else .fp32) bs).map fun x => fmul value (widen (if o.dBf16 then .bf16 else .fp32) x)

/-- The partial of a slice none of whose entries contributes: R176 gives its chain no first product. Log entry 4. -/
def State.freeVec (s : State) (c : ClusterLoc) (issue slice : Nat) : List Word :=
  (List.range 32).map fun j => Config.freeWord (176 :: j :: slice :: issue :: s.freeKey (clusterIdx c))

def gatherBad (s : State) (c : ClusterLoc) (t : Nat) (a : GatherArgs) : Option Nat :=
  firstBad [
    ((s.stipple c).open_, 13),
    (s.hbmOk c.plate.val (listBase a) (8 * (1 + sliceMax a + 128 * sliceMax a)), 13),
    (decide (s.busyUntil (srcCluster c 2) ≤ t), 16),
    (decide (t + a.reserve.toNat ≤ s.tailStart), 16)]

/-- What a reserved read of a Stipple delivers when it arrives at cycle `x`. -/
def State.stArrive (s : State) (c : ClusterLoc) (issue x : Nat) (l : List Served) : List Byte × State :=
  let r := s.readParts (x - 1280) l
  (r.bytes, s.reportRead (.stipple c) issue x r)

/-- A header arrives: its slice's entries are to be read. -/
def gatherHeader (c : ClusterLoc) (issue x : Nat) (z : GatherProg × State) : GatherProg × State :=
  match z.1.heads with
  | [] => z
  | l :: rest =>
    if z.1.d < 1280 then z
    else
      let r := z.2.stArrive c issue x l
      let h := sliceHeader (ofLe r.1)
      ({ z.1 with heads := rest, slices := z.1.slices ++ [(h.1, h.2, z.1.d - 1280)] }, r.2)

/-- A slice's partial reaches the pre-combiner. -/
def gatherEnter (c : ClusterLoc) (issue x limit : Nat) (z : GatherProg × State) : GatherProg × State :=
  match z.1.enter with
  | none => z
  | some e =>
    let r := preCombine z.1.run e
    ({ z.1 with enter := none, run := some r.2 }, z.2.closeRun c issue x (some limit) r.1)

/-- A row of D arrives and joins the slice's partial; after the slice's last row, the partial enters in the next
cycle. A slice none of whose entries contributes leaves its partial open. Log entry 4. -/
def gatherRow (c : ClusterLoc) (issue x : Nat) (o : StOp) (z : GatherProg × State) : GatherProg × State :=
  match z.1.rows with
  | [] => z
  | r :: rest =>
    if z.1.d < 3842 then z
    else
      let y := match r.read with
        | some l =>
          let b := z.2.stArrive c issue x l
          let p := rowProducts o r.value b.1
          (some (match z.1.part with | some q => addVec q p | none => p), b.2)
        | none => (z.1.part, z.2)
      if r.entry.last then
        ({ z.1 with rows := rest, part := none, enter := some (r.entry.key, y.1.getD (y.2.freeVec c issue r.entry.slice)) }, y.2)
      else ({ z.1 with rows := rest, part := y.1 }, y.2)

/-- A reserved read in cycle `x`, or none when it finds no place. -/
def readIn (c : ClusterLoc) (limit x a n : Nat) (s : State) : Option (List Served × State) := s.stServe c false limit x a n

/-- The header read of the cycle. -/
def gatherReadHeader (c : ClusterLoc) (a : GatherArgs) (limit x : Nat) (z : GatherProg × State) :
    Option (GatherProg × State) :=
  if z.1.d < z.1.ns then
    (readIn c limit x (listBase a + 8 * (1 + z.1.d)) 8 z.2).map fun r => ({ z.1 with heads := z.1.heads ++ [r.1] }, r.2)
  else some z

/-- The entry read of the cycle: the next of the first slice that has one left. -/
def gatherReadEntry (c : ClusterLoc) (a : GatherArgs) (limit x : Nat) (z : GatherProg × State) :
    Option (GatherProg × State) :=
  match z.1.slices with
  | [] => some z
  | (key, n, i) :: rest =>
    if z.1.d < 1281 then some z
    else
      let j := z.1.next
      let last := j + 1 == n
      (readIn c limit x (entryAddr a i j) 8 z.2).map fun r =>
        ({ z.1 with entries := z.1.entries ++ [(⟨i, j, key, last⟩, r.1)],
                    slices := if last then rest else z.1.slices, next := if last then 0 else j + 1 }, r.2)

/-- The read of D of the cycle, for the entry that arrived in the cycle before. -/
def gatherReadRow (c : ClusterLoc) (o : StOp) (limit x : Nat) (z : GatherProg × State) : Option (GatherProg × State) :=
  match z.1.arrived with
  | none => some z
  | some (e, index, v) =>
    let g := { z.1 with arrived := none }
    if index < o.dRows then
      (readIn c limit x (dRowAddr o index) (dRowBytes o) z.2).map fun r =>
        ({ g with rows := g.rows ++ [⟨e, v, some r.1⟩] }, r.2)
    else some ({ g with rows := g.rows ++ [⟨e, v, none⟩] }, z.2)

/-- An entry arrives; one whose INDEX has no row raises 0x0123. -/
def gatherEntry (c : ClusterLoc) (issue x : Nat) (o : StOp) (z : GatherProg × State) : GatherProg × State :=
  match z.1.entries with
  | [] => z
  | (e, l) :: rest =>
    if z.1.d < 2561 then z
    else
      let r := z.2.stArrive c issue x l
      let w := ofLe r.1
      let index := w % 2 ^ 32
      let s := if index < o.dRows then r.2 else r.2.stFault c 0x0123 issue x [f32 e.slice, f32 e.j]
      ({ z.1 with entries := rest, arrived := some (e, index, BitVec.ofNat 32 (w >>> 32)) }, s)

/-- Whether every slice has entered the pre-combiner. -/
def GatherProg.done (g : GatherProg) : Bool :=
  decide (g.ns ≤ g.d) && g.heads.isEmpty && g.slices.isEmpty && g.entries.isEmpty && g.arrived.isNone && g.rows.isEmpty
    && g.enter.isNone

/-- The next cycle in which something happens. -/
def GatherProg.nextD (g : GatherProg) : Nat :=
  let d := g.d + 1
  if d < g.ns ∨ !g.slices.isEmpty ∨ g.arrived.isSome ∨ g.enter.isSome then d
  else if !g.heads.isEmpty then max d 1280
  else if !g.entries.isEmpty then max d 2561
  else if !g.rows.isEmpty then max d 3842
  else d

/-- One cycle of a GATHER: what arrives in it, then its reads, which issue in the order of R177. -/
def gatherOne (c : ClusterLoc) (issue : Nat) (a : GatherArgs) (g : GatherProg) (s : State) : State :=
  let x := issue + 1281 + g.d
  let limit := issue + a.reserve.toNat
  if g.done then (s.closeRun c issue x (some limit) g.run).plan (.stipple c) issue (x + 5) (.gathered c)
  else
    let z := gatherRow c issue x g.op (gatherEnter c issue x limit (gatherHeader c issue x (g, s)))
    match ((gatherReadHeader c a limit x z).bind (gatherReadEntry c a limit x)).bind (gatherReadRow c g.op limit x) with
    | none => z.2.stHalt c 0x0102 issue x
    | some z =>
      let z := gatherEntry c issue x g.op z
      let d := z.1.nextD
      z.2.plan (.stipple c) issue (issue + 1281 + d) (.gather c a { z.1 with d := d })

/-- The count word arrives. Without a descriptor the command does nothing further (R512). -/
def gatherCount (c : ClusterLoc) (issue : Nat) (a : GatherArgs) (l : List Served) (s : State) : State :=
  let r := s.stArrive c issue (issue + 1280) l
  let ns := ofLe r.1 % 2 ^ 32
  if sliceMax a < ns then r.2.stFault c 0x0122 issue (issue + 1280) [f32 ns]
  else
    match (r.2.stipple c).op with
    | none => r.2
    | some o =>
      if ns = 0 then r.2.plan (.stipple c) issue (issue + 5129) (.gathered c)
      else r.2.plan (.stipple c) issue (issue + 1281) (.gather c a
        { op := o, d := 0, ns := ns, heads := [], slices := [], next := 0, entries := [], arrived := none, rows := [],
          part := none, enter := none, run := none })

/-- GATHER (R177). -/
def gatherEffect (c : ClusterLoc) (t : Nat) (a : GatherArgs) (s : State) : State :=
  let s := (s.setStipple c { s.stipple c with claims := [] }).setBusy (srcCluster c 2) (t + a.reserve.toNat)
  match readIn c (t + a.reserve.toNat) t (listBase a) 8 s with
  | none => s.stFault c 0x0102 t t
  | some r => r.2.plan (.stipple c) t (t + 1280) (.count c a r.1)

/-! ### FOLD (R178–R180) -/

/-- The slot position is free. -/
def State.freeSlot (s : State) (c : ClusterLoc) (pos : Nat) : State :=
  let x := s.stipple c
  s.setStipple c { x with slots := smapPut none x.slots pos none }

/-- The flush visits a valid slot at cycle `t`; none when its write finds no place. A result past OUT_CAP is not
written. -/
def foldSlot (c : ClusterLoc) (issue limit t pos : Nat) (v : StSlot) (z : FoldProg × State) : Option (FoldProg × State) :=
  if z.1.op.outCap ≤ z.1.written then
    let s := if z.1.beyond then z.2 else z.2.stFault c 0x0121 issue t
    some ({ z.1 with beyond := true }, s.freeSlot c pos)
  else
    let a := 8 * z.1.op.outBase + 136 * z.1.written
    ((z.2.readSlot c issue t 0 16 pos).stServe c true limit t a 136).map fun r =>
      ({ z.1 with written := z.1.written + 1 },
       (r.2.freeSlot c pos).stWrite c t a (stRecord v.readKey v.readVec) (some r.1))

/-- The reads of a round: record `i` in the cycle f + 1 + i after the flush has ended in cycle f. Those that found their
places, and the cycle of the first that did not. -/
def foldReads (c : ClusterLoc) (limit : Nat) (g : FoldProg) (n : Nat) (s : State) :
    List (List Served) × Option Nat × State :=
  (List.range n).foldl (fun (z : List (List Served) × Option Nat × State) i =>
    if z.2.1.isSome then z
    else
      match readIn c limit (g.ended + 1 + i) (8 * g.op.spillBase + 136 * (g.read + i)) 136 z.2.2 with
      | some r => (z.1 ++ [r.1], none, r.2)
      | none => (z.1, some (g.ended + 1 + i), z.2.2)) ([], none, s)

/-- The count word, written in the cycle after the last flush: the FOLD completes. -/
def foldTotal (c : ClusterLoc) (issue limit : Nat) (g : FoldProg) (s : State) : State :=
  let t := g.ended + 1
  match s.stServe c true limit t (8 * g.op.countAddr) 8 with
  | none => s.stHalt c 0x0102 issue t
  | some r =>
    let s := r.2.stWrite c t (8 * g.op.countAddr) (leBytes 4 g.written ++ leBytes 4 g.rounds) (some r.1)
    let x := s.stipple c
    { s.setStipple c { x with slots := [], op := if x.open_ then x.op else none } with
      tailEvents := s.tailEvents ++
        [⟨srcCluster c 2, 0x0129, eventPayload (stFields c issue ++
          [f32 g.written, f32 x.spilled, f32 g.rounds, f32 t])⟩] }

/-- The flush of a round has ended: the records that no round has read are read, or the count word is written. -/
def foldRound (c : ClusterLoc) (issue : Nat) (a : FoldArgs) (g : FoldProg) (s : State) : State :=
  let limit := issue + a.reserve.toNat
  let g := { g with rounds := g.rounds + 1, ended := g.base + 4095, run := none }
  let n := (s.stipple c).spilled - g.read
  if n = 0 then foldTotal c issue limit g s
  else
    let z := foldReads c limit g n s
    let s := match z.2.1 with
      | some u => z.2.2.plan (.stipple c) issue u (.halt c)
      | none => z.2.2
    s.plan (.stipple c) issue (g.ended + 1281) (.refill c a { g with left := z.1, count := z.1.length })

/-- The flush of a round at cycle `t`: slot position `t - base`, or its end. -/
def foldVisit (c : ClusterLoc) (issue t : Nat) (a : FoldArgs) (g : FoldProg) (s : State) : State :=
  let pos := t - g.base
  if pos < 4096 then
    let s := s.purge c t
    let z := match smapGet none (s.stipple c).slots pos with
      | none => some (g, s)
      | some v => foldSlot c issue (issue + a.reserve.toNat) t pos v (g, s)
    match z with
    | none => s.stHalt c 0x0102 issue t
    | some z => z.2.plan (.stipple c) issue (t + 1) (.flush c a z.1)
  else foldRound c issue a g s

/-- A record arrives, or after the last of them the held run closes and the next flush is due. -/
def foldRefill (c : ClusterLoc) (issue : Nat) (a : FoldArgs) (g : FoldProg) (s : State) : State :=
  let limit := some (issue + a.reserve.toNat)
  match g.left with
  | l :: rest =>
    let x := g.ended + 1281 + (g.count - g.left.length)
    let r := s.stArrive c issue x l
    let y := preCombine g.run (BitVec.ofNat 32 (ofLe (r.1.take 4)), rowWords (r.1.drop 8))
    (r.2.closeRun c issue x limit y.1).plan (.stipple c) issue (x + 1)
      (.refill c a { g with left := rest, run := some y.2 })
  | [] =>
    let x := g.ended + 1281 + g.count
    (s.closeRun c issue x limit g.run).plan (.stipple c) issue (x + 6)
      (.flush c a { g with base := x + 6, read := g.read + g.count, run := none })

def foldBad (s : State) (c : ClusterLoc) (t : Nat) (a : FoldArgs) : Option Nat :=
  firstBad [
    ((s.stipple c).open_, 13),
    (decide (s.busyUntil (srcCluster c 2) ≤ t), 16),
    (decide (t + a.reserve.toNat ≤ s.tailStart), 16)]

/-- FOLD (R179): it ends its operation, and its first flush begins in the next cycle. Without a descriptor there is
nothing that it could write (R512). -/
def foldEffect (c : ClusterLoc) (t : Nat) (a : FoldArgs) (s : State) : State :=
  let x := s.stipple c
  let s := (s.setStipple c { x with open_ := false, claims := [] }).setBusy (srcCluster c 2) (t + a.reserve.toNat)
  match x.op with
  | none => s
  | some o => s.plan (.stipple c) t (t + 1) (.flush c a ⟨o, 0, 0, 0, false, t + 1, 0, [], 0, none⟩)

end Sys2Proof.Machine
end

