-- ==== Sys2Proof/Machine/Update.lean ====
section
/-! DEFINITION. The update units (R212–R234): UPDATE, NORM and the clip factor. -/

namespace Sys2Proof.Machine

/-! ### The update-parameter block (R216, R217) -/

/-- The block of the step's variant. -/
def State.paramBlock (s : State) : List Byte :=
  match s.seq.cartoon with
  | some c => match c.variants[s.seq.variant]? with | some v => v.params | none => []
  | none => []

def setCount (b : List Byte) : Nat := field (ofLe (b.take 64)) 0 4
def maxNorm (b : List Byte) : Word := BitVec.ofNat 32 (field (ofLe (b.take 64)) 32 32)
def skipNonfinite (b : List Byte) : Bool := bitAt (ofLe (b.take 64)) 64

structure HyperSet where
  lr : Word
  beta1 : Word
  beta2 : Word
  eps : Word
  wd : Word
  nesterov : Bool
  schedBase : Nat
  schedLen : Nat
  t0 : Nat
  deriving DecidableEq, Repr

def hyperSet (b : List Byte) (k : Nat) : HyperSet :=
  let x := ofLe ((b.drop (64 * (1 + k))).take 64)
  let w := fun i => BitVec.ofNat 32 (field x (32 * i) 32)
  { lr := w 0, beta1 := w 1, beta2 := w 2, eps := w 3, wd := w 4, nesterov := bitAt x 160,
    schedBase := field x 192 36, schedLen := field x 256 32, t0 := field x 288 32 }

/-! ### The schedule (R218) -/

def schedIndex (h : HyperSet) (step : Nat) : Nat := min (step - h.t0) (h.schedLen - 1)
def schedAddr (h : HyperSet) (p step : Nat) : Nat := h.schedBase * 8 + plateBase p + 16 * schedIndex h step

/-- The step's factors, read at cycle c + 1,281. -/
def State.schedule (s : State) (u : UnitLoc) (c : Nat) (h : HyperSet) : Schedule × State :=
  if h.schedLen = 0 then (⟨oneF, oneF, oneF⟩, s)
  else
    let r := s.rankRead (.updateUnit u) (scheduleRank + unitIdx u) c (c + 1281) (c + 2561)
      (schedAddr h u.plate.val s.seq.curStep.toNat) 16
    let x := ofLe r.1.bytes
    (⟨BitVec.ofNat 32 (field x 0 32), BitVec.ofNat 32 (field x 32 32), BitVec.ofNat 32 (field x 64 32)⟩, r.2)

/-! ### The arithmetic (R225) -/

/-- What an update holds of one element. -/
structure Element where
  w : Word
  m : Word
  v : Word
  deriving DecidableEq, Repr

/-- sign(c) of Lion. -/
def lionSign (c : Word) : Word :=
  if isNan c then canonNan else if isZero c then 0 else if fgt c 0 then oneF else 0xBF80_0000#32

/-- The new moments and the step d. -/
def optimise (opt : Nat) (h : HyperSet) (sc : Schedule) (x : Element) (g : Word) : Word × Word × Word :=
  let a1 := fsub oneF h.beta1
  let a2 := fsub oneF h.beta2
  match opt with
  | 0 =>
    let m := fadd (fmul h.beta1 x.m) (fmul a1 g)
    let v := fadd (fmul h.beta2 x.v) (fmul a2 (fmul g g))
    let den := fadd (fmul (fsqrt v) sc.bc2) h.eps
    (m, v, fdiv (fmul m sc.bc1) den)
  | 1 =>
    let m := fadd (fmul h.beta1 x.m) g
    (m, x.v, if h.nesterov then fadd g (fmul h.beta1 m) else m)
  | _ =>
    let c := fadd (fmul h.beta1 x.m) (fmul a1 g)
    (fadd (fmul h.beta2 x.m) (fmul a2 g), x.v, lionSign c)

/-- One element; `clip` is the factor, when the descriptor asks for it. -/
def updateElement (opt : Nat) (h : HyperSet) (sc : Schedule) (clip : Option Word) (x : Element) (g : Word) :
    Element :=
  let g := match clip with | some f => fmul g f | none => g
  let eta := fmul h.lr sc.lrMult
  let decay := fmul h.wd x.w
  let o := optimise opt h sc x g
  ⟨fsub x.w (fmul eta (fadd o.2.2 decay)), o.1, o.2.1⟩

/-! ### UPDATE (R221–R226) -/

structure UpdateDesc where
  opt : Nat
  clip : Bool
  gBf16 : Bool
  hset : Nat
  elems : Nat
  hi : Nat
  lo : Nat
  m1 : Nat
  m2 : Nat
  g : Nat
  rsvd : Nat
  deriving DecidableEq, Repr

def updateDesc (x : Nat) : UpdateDesc :=
  { opt := field x 0 2, clip := bitAt x 2, gBf16 := bitAt x 3, hset := field x 4 3, elems := field x 32 32,
    hi := field x 128 36, lo := field x 192 36, m1 := field x 256 36, m2 := field x 320 36, g := field x 384 36,
    rsvd := field x 7 25 + field x 64 64 + field x 164 28 + field x 228 28 + field x 292 28 + field x 356 28
      + field x 420 92 }

def updateChunks (a : UpdateArgs) : Nat := a.chunksM1.toNat + 1
/-- r_i of R223. -/
def chunkRead (c : Nat) (a : UpdateArgs) (i : Nat) : Nat := c + 1281 + i * (a.pace.toNat + 1)
def updateEnd (c : Nat) (a : UpdateArgs) : Nat := chunkRead c a (updateChunks a - 1) + 2568

/-- Elements of chunk `i`: those below ELEMS. -/
def chunkElems (a : UpdateArgs) (d : UpdateDesc) (i : Nat) : Nat := min 16 (d.elems - (a.first.toNat + 16 * i))

/-- Address of `e`-byte element `k` of a plane. -/
def planeAddr (base e k : Nat) : Nat := 8 * base + e * k

/-- A plane of a chunk as it was read: address, bytes and poisoned words. -/
structure PlaneRead where
  addr : Nat
  bytes : List Byte
  poison : List Nat
  deriving DecidableEq, Repr

def State.readPlane (s : State) (u : UnitLoc) (c t base e k n : Nat) : PlaneRead × State :=
  let a := planeAddr base e k
  let r := s.stationRead (.updateUnit u) c t (t + 1280) a (e * n)
  (⟨a, r.1.bytes, r.1.poison⟩, r.2)

def PlaneRead.half (p : PlaneRead) (j : Nat) : Nat := ofLe ((p.bytes.drop (2 * j)).take 2)
def PlaneRead.word (p : PlaneRead) (j : Nat) : Word := BitVec.ofNat 32 (ofLe ((p.bytes.drop (4 * j)).take 4))

/-- The planes of chunk `i` in order: hi, lo, first moment, second moment under AdamW, gradient. -/
def State.readChunk (s : State) (u : UnitLoc) (c : Nat) (a : UpdateArgs) (d : UpdateDesc) (i : Nat) :
    List PlaneRead × State :=
  let t := chunkRead c a i
  let k := a.first.toNat + 16 * i
  let n := chunkElems a d i
  ([(d.hi, 2), (d.lo, 2), (d.m1, 4)] ++ (if d.opt = 0 then [(d.m2, 4)] else [])
    ++ [(d.g, if d.gBf16 then 2 else 4)]).foldl (fun (z : List PlaneRead × State) (p : Nat × Nat) =>
      let y := z.2.readPlane u c t p.1 p.2 k n
      (z.1 ++ [y.1], y.2)) ([], s)

/-- The gradient of element `j` as FP32. -/
def gradientOf (d : UpdateDesc) (g : PlaneRead) (j : Nat) : Word :=
  if d.gBf16 then widen .bf16 (g.half j) else g.word j

/-- The new bytes of the planes that are written back. -/
def newPlanes (d : UpdateDesc) (h : HyperSet) (sc : Schedule) (clip : Option Word) (n : Nat)
    (ps : List PlaneRead) : List (List Byte) :=
  let p := fun i => nth ⟨0, [], []⟩ ps i
  let g := p (if d.opt = 0 then 4 else 3)
  let xs := (List.range n).map fun j =>
    updateElement d.opt h sc clip
      ⟨BitVec.ofNat 32 ((p 0).half j * 65536 + (p 1).half j), (p 2).word j, (p 3).word j⟩ (gradientOf d g j)
  [xs.flatMap fun x => leBytes 2 (x.w.toNat >>> 16), xs.flatMap fun x => leBytes 2 x.w.toNat,
   xs.flatMap fun x => leBytes 4 x.m.toNat] ++ (if d.opt = 0 then [xs.flatMap fun x => leBytes 4 x.v.toNat] else [])

/-- Chunk `i`. A poisoned chunk, and every chunk of a skipped update, is written back as read. -/
def State.updateChunk (s : State) (u : UnitLoc) (c : Nat) (a : UpdateArgs) (d : UpdateDesc) (h : HyperSet)
    (sc : Schedule) (clip : Option Word) (skip : Bool) (i : Nat) : State :=
  let n := chunkElems a d i
  if n = 0 then s
  else
    let r := s.readChunk u c a d i
    let back := r.1.take (r.1.length - 1)
    let same := skip || r.1.any (fun p => !p.poison.isEmpty)
    let new := if same then back.map (·.bytes) else newPlanes d h sc clip n r.1
    (back.zip new).foldl (fun s p =>
      s.stationWrite (.updateUnit u) (chunkRead c a i + 1288) p.1.addr p.2 (if same then p.1.poison else [])) r.2

/-- The clip factor is valid at cycle `c`. -/
def ClipState.validAt (x : ClipState) (c : Nat) : Bool :=
  match x.validFrom with | some v => decide (v ≤ c) | none => false

/-- Whether the step's updates are skipped (R232). -/
def State.updatesSkipped (s : State) (c : Nat) : Bool :=
  s.clip.nonfinite && skipNonfinite s.paramBlock && s.clip.validAt c

/-- What R222 and R219 refuse of a descriptor. -/
def updateDescBad (s : State) (u : UnitLoc) (d : UpdateDesc) : Option Nat :=
  let p := u.plate.val
  let b := s.paramBlock
  let h := hyperSet b d.hset
  firstBad [
    (d.rsvd == 0, 13), (d.opt != 3, 13), (d.elems != 0, 13), (decide (d.hset < setCount b), 13),
    (d.opt == 0 || d.m2 == 0, 13),
    (s.hbmOk p (8 * d.hi) (2 * d.elems), 13), (s.hbmOk p (8 * d.lo) (2 * d.elems), 13),
    (s.hbmOk p (8 * d.m1) (4 * d.elems), 13), (d.opt != 0 || s.hbmOk p (8 * d.m2) (4 * d.elems), 13),
    (s.hbmOk p (8 * d.g) ((if d.gBf16 then 2 else 4) * d.elems), 13),
    (h.schedLen == 0 || s.hbmOk p (plateBase p + 8 * h.schedBase) (16 * h.schedLen), 13)]

/-- The descriptor as it stands at cycle `c`. -/
def State.updateNow (s : State) (u : UnitLoc) (c : Nat) (a : UpdateArgs) : UpdateDesc :=
  updateDesc (s.descNow (.updateUnit u) 2 (8 * a.descAddr.toNat) 64 c)

def updateBad (s : State) (u : UnitLoc) (c : Nat) (a : UpdateArgs) : Option Nat :=
  let b := s.paramBlock
  let d := s.updateNow u c a
  (firstBad [(s.hbmOk u.plate.val (8 * a.descAddr.toNat) 64, 13), (a.first.toNat % 16 == 0, 13),
    (!b.isEmpty, 13)]).orElse fun _ =>
  (updateDescBad s u d).orElse fun _ =>
  firstBad [
    (!d.clip || s.clip.validAt c, 16), (!skipNonfinite b || s.norm.isNone || s.clip.validAt c, 16),
    (decide (s.busyUntil (srcUnit u) ≤ c), 16), (decide (updateEnd c a ≤ s.tailStart), 16)]

/-- The next chunk of an UPDATE is due when it is written. -/
def planChunk (u : UnitLoc) (c : Nat) (a : UpdateArgs) (raw : Nat) (clip : Option Word) (skip : Bool) (sc : Schedule)
    (i : Nat) (s : State) : State :=
  if i < updateChunks a then s.plan (.updateUnit u) c (chunkRead c a i + 1288) (.chunk u a raw clip skip sc i) else s

def chunkOne (u : UnitLoc) (c : Nat) (a : UpdateArgs) (raw : Nat) (clip : Option Word) (skip : Bool) (sc : Schedule)
    (i : Nat) (s : State) : State :=
  let d := updateDesc raw
  planChunk u c a raw clip skip sc (i + 1) (s.updateChunk u c a d (hyperSet s.paramBlock d.hset) sc clip skip i)

/-- The step's factors arrive. -/
def scheduleArrives (u : UnitLoc) (c : Nat) (a : UpdateArgs) (raw : Nat) (clip : Option Word) (skip : Bool)
    (s : State) : State :=
  let r := s.schedule u c (hyperSet s.paramBlock (updateDesc raw).hset)
  planChunk u c a raw clip skip r.1 0 r.2

/-- UPDATE (R221): the descriptor is on its way; the clip factor, and whether the step's updates are skipped, are those
of the issue cycle. -/
def updateEffect (u : UnitLoc) (c : Nat) (a : UpdateArgs) (s : State) : State :=
  (s.setBusy (srcUnit u) (chunkRead c a (updateChunks a - 1) + 1)).plan (.updateUnit u) c (c + 1280)
    (.updateDesc u a (some s.clip.factor) (s.updatesSkipped c))

/-- It arrives: the schedule, then every chunk in order. A poisoned descriptor stops the command, and one that is not
legal (R512). Log entry 59. -/
def updateArrives (u : UnitLoc) (c : Nat) (a : UpdateArgs) (clip : Option Word) (skip : Bool) (s : State) : State :=
  let r := s.descRead (.updateUnit u) c 2 (8 * a.descAddr.toNat) 64
  let raw := ofLe r.1.bytes
  let d := updateDesc raw
  if r.1.poison.isEmpty && (updateDescBad r.2 u d).isNone then
    r.2.plan (.updateUnit u) c (c + 2561) (.schedule u a raw (if d.clip then clip else none) skip)
  else r.2

/-! ### The combination of the partials (R229, R241) -/

/-- A pair with one member present passes it up; a pair with none passes nothing. -/
def pairUp (a b : Option Word) : Option Word :=
  match a, b with
  | some x, some y => some (fadd x y)
  | some x, none => some x
  | none, y => y

/-- The total of a plate's five partials. -/
def plateTotal (u : Nat → Word) : Word := fadd (fadd (fadd (u 0) (u 1)) (fadd (u 2) (u 3))) (u 4)

/-- The device total: plates absent from the mask contribute nothing. -/
def deviceTotal (mask : Nat) (u : Nat → Word) : Word :=
  let e := if bitAt mask 0 then some (plateTotal u) else none
  let w := if bitAt mask 1 then some (plateTotal fun i => u (5 + i)) else none
  (pairUp e w).getD 0

/-- The role tree over device totals. -/
def groupTotal (d : Nat → Option Word) : Word :=
  let l1 := fun i => pairUp (d (2 * i)) (d (2 * i + 1))
  let l2 := fun i => pairUp (l1 (2 * i)) (l1 (2 * i + 1))
  (pairUp (l2 0) (l2 1)).getD 0

/-- The slot of an aligned value (R271). -/
def alignSlot (e : Int) (w : Word) : Nat := slotAdd 0 (alignX e w) (specialFlag w)

/-- Slots added together: integers modulo 2⁹⁶, flags joined. -/
def sumSlots (l : List Nat) : Nat := l.foldl (fun a x => slotAdd a (x % 2 ^ 96) (x >>> 96)) 0

/-! ### The clip factor (R230–R233) -/

/-- f and the nonfinite flag for a total. -/
def clipOf (maxNorm t : Word) : Word × Bool :=
  if isNan t || t == posInf then (oneF, true)
  else
    let n := fsqrt t
    (if fgt n maxNorm then fdiv maxNorm n else oneF, false)

/-- The plates of the cartoon in force. -/
def State.plateMask (s : State) : Nat := match s.seq.cartoon with | some c => c.plateMask.toNat | none => 0

/-- The source of the events of R233. Log entry 18. -/
def State.normSource (s : State) : Nat := srcUnit ⟨if bitAt s.plateMask 0 then 0 else 1, 0⟩

/-- The device forms f: it becomes valid at a cycle, and the tail writes the events of R233. -/
def State.formClip (s : State) (mode scope : Nat) (t : Word) (valid : Nat) : State :=
  let c := clipOf (maxNorm s.paramBlock) t
  let ev : List TailEvent :=
    ⟨s.normSource, 0x0130, eventPayload [f8 mode, f8 scope, f32 t.toNat, f32 (fsqrt t).toNat, f32 c.1.toNat,
      f8 (boolNat c.2)]⟩
    :: (if c.2 && skipNonfinite s.paramBlock then [⟨s.normSource, 0x0131, 0⟩] else [])
  { s with clip := { factor := c.1, nonfinite := c.2, validFrom := some valid },
           tailEvents := s.tailEvents ++ ev }

/-! ### NORM (R228–R231) -/

/-- Update units that must carry the NORM. -/
def State.normUnits (s : State) : Nat := 5 * (boolNat (bitAt s.plateMask 0) + boolNat (bitAt s.plateMask 1))

def NormJob.value (j : NormJob) (u : Nat) : Word :=
  match j.partials.find? (fun p => p.1 == u) with | some p => p.2 | none => 0

def NormJob.values (j : NormJob) : List Word := j.partials.map (·.2)

/-- Every partial is closed: the device total or the exponent maximum is formed, and sent when SCOPE is 1. -/
def State.normFormed (s : State) (j : NormJob) : State :=
  let mask := s.plateMask
  let total := deviceTotal mask j.value
  let emax := maxExps j.values
  if j.scope = 0 then
    let e := emax.getD 0
    let t := if j.mode = 0 then total else slotResult e (sumSlots (j.values.map (alignSlot e)))
    { s.formClip j.mode.toNat 0 t (j.cycle + (if j.mode = 0 then 128 else 256)) with norm := some { j with stage := 3 } }
  else
    ({ s with norm := some { j with stage := 1, expMax := emax } } : State).plan (.updateUnit ⟨0, 0⟩) j.cycle (j.cycle + 64)
      (.sendAll 5 (if j.mode = 0 then normPayload 0 0 total.toNat [] else normPayload 1 0 (exp16 emax) []))

def strokesOf (s : State) : Nat :=
  match s.seq.cartoon with
  | some c => match c.variants[s.seq.variant]? with | some v => v.strokesM1.toNat + 1 | none => 0
  | none => 0

def normBad (s : State) (u : UnitLoc) (c : Nat) (a : NormArgs) : Option Nat :=
  let b := s.paramBlock
  let m := maxNorm b
  firstBad [
    (!b.isEmpty && isFinite m && fgt m 0, 13),
    ((match s.norm with
      | none => true
      | some j => j.stage == 0 && j.mode == a.mode && j.scope == a.scope && j.cycle == c
          && !(j.partials.any fun p => p.1 == unitIdx u)), 16),
    (a.scope == 0 || decide (s.seq.strokeInStep + 1 + (if a.mode = 1 then 1 else 0) < strokesOf s), 16)]

/-- NORM (R228): the unit's partial closes, with every addition from cycles up to c − 1; the last unit to close completes
the NORM. -/
def normEffect (u : UnitLoc) (c : Nat) (a : NormArgs) (s : State) : State :=
  let s := s.settleCharges c
  let j := match s.norm with
    | some j => j
    | none => { mode := a.mode, scope := a.scope, cycle := c, partials := [], stage := 0, expMax := none }
  let j := { j with partials := j.partials ++ [(unitIdx u, smapGet 0 s.partials (unitIdx u))] }
  if j.partials.length < s.normUnits then { s with norm := some j } else s.normFormed j

/-! ### What the stroke boundaries do for the norm (R231) -/

/-- Whether norm totals of the other roles are due in this stroke. -/
def State.normDue (s : State) : Bool :=
  match s.norm with | some j => j.stage == 1 || j.stage == 2 | none => false

/-- The norm total of a role that is due in this stroke. -/
def State.normMsgOf (s : State) (role : Nat) : Option NormMsg :=
  match s.norm with
  | none => none
  | some j => (s.seq.normMsgs.find? fun p =>
      p.1.toNat == role && p.2.mode == j.mode && p.2.aligned.toNat == (if j.stage = 2 then 1 else 0)).map (·.2)

/-- Cycle 64 of the stroke after the exponents: the aligned partials are sent. -/
def State.normStart (s : State) : State :=
  match s.norm with
  | none => s
  | some j =>
    if j.stage = 2 then
      s.plan (.updateUnit ⟨0, 0⟩) 0 64 (.sendAll 5 (normPayload 1 1 0 (j.values.map (alignSlot (j.expMax.getD 0)))))
    else s

/-- The tail forms the group total once every role's message has come. -/
def State.normTail (s : State) : State :=
  match s.norm with
  | none => s
  | some j =>
    let others := s.otherRoles
    if !s.normDue || others.any (fun r => (s.normMsgOf r).isNone) then s
    else if j.mode = 0 then
      let own := deviceTotal s.plateMask j.value
      let t := groupTotal fun r => if s.role = some r then some own else (s.normMsgOf r).map (·.total)
      { s.formClip 0 1 t 0 with norm := some { j with stage := 3 } }
    else if j.stage = 1 then
      let e := others.foldl (fun m r => match s.normMsgOf r with
        | some x => maxExp m (exp16Of x.expMax.toNat) | none => m) j.expMax
      { s with norm := some { j with stage := 2, expMax := some (e.getD 0) } }
    else
      let e := j.expMax.getD 0
      let own := sumSlots (j.values.map (alignSlot e))
      let all := others.foldl (fun a r => match s.normMsgOf r with
        | some x => sumSlots [a, sumSlots (x.slots.map (·.toNat))] | none => a) own
      { s.formClip 1 1 (slotResult e all) 0 with norm := some { j with stage := 3 } }

end Sys2Proof.Machine
end

