-- ==== Sys2Proof/Machine/Agenda.lean ====
section
/-! DEFINITION. What the stations do between the issues of their commands: the agenda of the commands under way,
the writes that wait for their cycles, Finish and Store, all in the order of the stroke's cycles (R28, R49, R69,
R190). Log entry 6. -/

namespace Sys2Proof.Machine

/-- The next action of a command that issued at cycle `c`, due at cycle `due`. -/
def doJob (due c : Nat) (j : Job) (s : State) : State :=
  match j with
  | .load e k a i => loadRow e c k a i s
  | .words e a => metaWords e c a s
  | .plane e a m => planeArrives e c a m s
  | .params e a => paramsArrive e c a s
  | .copyDesc cl a => copyArrives cl c a s
  | .burnDesc cl a => burnArrives cl c a s
  | .topbDesc x a => topbArrives x c a s
  | .setwinDesc x a => setwinArrives x c a s
  | .sampleDesc x a => samplingArrives x c a s
  | .clearDesc cl a => clearArrives cl c a s
  | .updateDesc u a clip skip => updateArrives u c a clip skip s
  | .cleared cl => clearedAll cl c s
  | .copy cl a d i segs => copyOne cl c a d i segs s
  | .burn cl a d i w n => burnOne cl c a d i w n s
  | .topb x a d g n => topbOne x c a d g n s
  | .sample x a d r n => sampleOne x c a d r n s
  | .fill x a d g => fillStep x c a d g s
  | .schedule u a d clip skip => scheduleArrives u c a d clip skip s
  | .chunk u a d clip skip sc i => chunkOne u c a d clip skip sc i s
  | .accum cl a i run => accumOne cl c a i run s
  | .insert cl => insertDue cl due s
  | .count cl a l => gatherCount cl c a l s
  | .gather cl a g => gatherOne cl c a g s
  | .gathered _ => s
  | .flush cl a g => foldVisit cl c due a g s
  | .refill cl a g => foldRefill cl c a g s
  | .halt cl => s.stHalt cl 0x0102 c due
  | .send r a j i buf bad => sendOne r c a j i buf bad s
  | .fxexp r a i => fxexpOne r c a i s
  | .fx k r a i => fxOne k r c a i s
  | .sendAll ctype payload => s.sendToAll ctype payload
  | .watch m => s.testWatches m.toNat (s.markValue m.toNat due)

/-- The cycle of the next write or action, if there is one. -/
def State.nextDue (s : State) : Option Nat :=
  match s.writes, s.works with
  | [], [] => none
  | w :: _, [] => some w.due
  | [], j :: _ => some j.due
  | w :: _, j :: _ => some (min w.due j.due)

/-- The next write or action; in one cycle the writes come first. -/
def State.doNext (s : State) : State :=
  match s.writes, s.works with
  | [], [] => s
  | w :: ws, [] => ({ s with writes := ws }).takeWrite w
  | [], j :: js => doJob j.due j.cycle j.job { s with works := js }
  | w :: ws, j :: js =>
    if w.due ≤ j.due then ({ s with writes := ws }).takeWrite w
    else doJob j.due j.cycle j.job { s with works := js }

/-- Everything up to cycle `h`, in the order of the cycles; `fuel` bounds the number of actions. -/
def State.runFuel : Nat → Nat → State → State
  | 0, _, s => s
  | f + 1, h, s =>
    let s := s.pumpAll (match s.nextDue with | some d => min d (h + 1) | none => h + 1)
    match s.nextDue with
    | some d => if d ≤ h then State.runFuel f h s.doNext else s
    | none => s

/-- More actions than a stroke has. -/
def agendaFuel : Nat := 2 ^ 32

/-- The stroke reaches cycle `h`. -/
def State.runTo (s : State) (h : Nat) : State := { s.runFuel agendaFuel h with clock := max s.clock h }

/-- Every write that waits is taken, in the order of the cycles. -/
def State.takeWrites (s : State) : State := s.writes.foldl State.takeWrite { s with writes := [] }

/-- The tail begins: everything before it has happened; what a command has not done is dropped (R197). -/
def State.reachTail (s : State) : State := s.runTo (s.tailStart - 1)

/-! ### The command word that a station takes (R49, R197) -/

/-- The address of the station's next command word in its plate's copy of the image, and its offset there. -/
def State.nextWord (s : State) (st : StationRef) : Option (Nat × Nat) :=
  match s.seq.cartoon with
  | none => none
  | some c =>
    let k := smapGet 0 s.taken (srcStation st)
    (c.streams.find? fun x => x.source == srcStation st && x.variant == s.seq.variant && decide (k < x.words)).map fun x =>
      let p := (stationPlate st).val
      (s.cartBase p + (if c.half then s.cartSize p / 2 else 0) + x.offset + 16 * k, x.offset + 16 * k)

/-- What a read of the word at a cycle finds: its poisoned words, and those with an error that has been corrected. -/
def State.wordRead (s : State) (st : StationRef) (t : Nat) : ReadData :=
  match s.nextWord st with
  | some x => s.readAt x.1 16 t
  | none => ⟨[], [], [], []⟩

/-- The command reader reports a correction (R195). -/
def State.wordCorrected (s : State) (st : StationRef) (t : Nat) : State :=
  (s.wordRead st t).corrected.foldl (fun s w => s.reportCorrected (srcStation st) w) s

/-- A command has been skipped in this stroke. -/
def State.skipped (s : State) : Bool := s.seq.faults.any fun f => f.code == 0x0211

/-- The station skips the command in a poisoned word, and the step ends (R197, R199); the record names the first
poisoned word of the two that hold the command. -/
def State.skipWord (s : State) (st : StationRef) (i : Issue) (pois : List Nat) : State :=
  let a := 8 * nth 0 pois 0
  let s := (pois.drop 1).foldl (fun s _ => s.countReport repPoison (srcStation st))
    (pois.foldl (fun s w => s.countPoison (8 * w)) s)
  (s.issued st i).notePoison st 0x0211 i.cycle.toNat i.cycle.toNat a (unitOf a)

/-! ### The form of every station command -/

/-- What remains of a refusal in a run: none where a command has been skipped in the stroke (R197), or where a station
has written a copy of constant data (R512): what follows then differs from what the load check has verified. -/
def State.refuses (s : State) (bad : Option Nat) : Option Nat :=
  if (s.skipped || s.seq.loose) && !s.seq.trial then none else bad

/-- A command that a station takes in its issue cycle, after everything before it. It has no effect where the stroke does
not come to it (log entry 57); a poisoned word is skipped (R197); and the load check refuses a cartoon that holds one
which it cannot hold (R53). -/
def stationStep (s : State) (st : StationRef) (i : Issue) (bad : State → Option Nat) (effect : State → State) : Out :=
  if !s.comesTo i then .next s
  else
    match s.issueError st i with
    | some n => .refused (.loadCheck n)
    | none =>
      let s := s.runTo i.cycle.toNat
      let pois := (s.wordRead st i.cycle.toNat).poison
      if !pois.isEmpty then .next (s.skipWord st i pois)
      else
        let s := s.wordCorrected st i.cycle.toNat
        match s.refuses (bad s) with
        | some n => .refused (.loadCheck n)
        | none => .next (effect (s.issued st i))

end Sys2Proof.Machine
end

