-- ==== Sys2Proof/Machine/Plates.lean ====
section
/-! DEFINITION. Port states (R275), plates held in reset (R298, R414) and the MSS alert (R406). -/

namespace Sys2Proof.Machine

/-- A port changes state: event 0x0305, and 0x0306 on entering FAILED. Both name the port and a
direction, which the spec does not give for a port as a whole. -/
def State.movePort (s : State) (k : Nat) (p : Port) (st : PortState) : State :=
  let left := p.left || (p.state == .up && (s.seq.state == .running || s.seq.state == .waiting))
  let s := (s.setPort k { p with state := st, pending := false, left := left }).emit (srcPort k) 0x0305 [f16 k, f8 Config.portDirection.toNat]
  if st = .failed then s.emit (srcPort k) 0x0306 [f16 k, f8 Config.portDirection.toNat] else s

def State.portTo (s : State) (k : Nat) (st : PortState) : State :=
  if (s.port k).state = st then s else s.movePort k (s.port k) st

/-- The MSS alert: vector 2,047, and the management bus. -/
def State.mssAlert (s : State) : State :=
  { s with mss := { s.mss with alert := true, mgmtAlert := true } }.signal 2047

/-- Everything that a plate's stacks and stores hold is lost (R298). -/
def Memory.dropPlate (m : Memory) (p : Nat) : Memory :=
  let b := plateBase p
  let t := storeBase p
  { m with
    bytes := smapDrop (smapDrop m.bytes b (b + hbmSize)) t (t + storeSize),
    marks := smapDrop (smapDrop m.marks (b / 8) ((b + hbmSize) / 8)) (t / 8) ((t + storeSize) / 8),
    fresh := smapDrop m.fresh (t / 8) ((t + storeSize) / 8) }

/-- A plate is held in reset: it is offered no more, its ports are OFF and its stacks are unpowered. -/
def State.holdPlate (s : State) (p : Nat) : State :=
  if !s.plateOffered p then s
  else
    let s := (List.range 8).foldl (fun s i => s.portTo (8 * p + i) .off) s
    { s with
      mem := s.mem.dropPlate p,
      boot := { s.boot with plates := s.boot.plates &&& (if p = 0 then 2 else 1) } }

/-- Plates that the MSS has declared failed are held, once no run needs them. -/
def State.holdFailed (s : State) : State :=
  [0, 1].foldl (fun s p => if bitAt s.mss.plateFailed.toNat p then s.holdPlate p else s) s

/-- The declaration itself: the plate is marked, and the alert is raised. -/
def State.markPlate (s : State) (p : Nat) : State :=
  { s with mss := { s.mss with plateFailed := s.mss.plateFailed ||| (if p = 0 then 1 else 2) } }.mssAlert

end Sys2Proof.Machine
end

