-- ==== Sys2Proof/Machine/RingOps.lean ====
section
/-! DEFINITION. What every ring operation shares (R324–R335): entries in host memory, pointers and their
shadows, signalling, and the holding buffers. -/

namespace Sys2Proof.Machine

/-- Bytes of an entry, by kind (R324). -/
def entryBytes (kind : Nat) : Nat := if kind = 2 then 128 else 64

def Ring.size (r : Ring) : Nat := 2 ^ r.log2Size.toNat

/-- Host address of entry `p`, which lies at index p mod SIZE. -/
def Ring.entryAddr (r : Ring) (p : Nat) : Nat := r.base.toNat + entryBytes r.kind.toNat * (p % r.size)

def State.hostRead (s : State) (a n : Nat) : List Byte := smapGetList 0 s.mem.host a n
def State.hostWrite (s : State) (a : Nat) (bs : List Byte) : State :=
  { s with mem := { s.mem with host := smapPutList 0 s.mem.host a bs } }

/-- The 64 bytes of the shadow (R327). -/
def shadowBytes (p : Word) : List Byte := leBytes 64 p.toNat

/-- Each change of state of a ring writes event 0x0245 (R342). -/
def State.ringTo (s : State) (n : Nat) (st : RingState) : State :=
  let r := s.ring n
  if r.state = st then s
  else (s.setRing n { r with state := st }).emit (srcRing n) 0x0245 []

/-- A ring goes to ERROR with the event that says why. -/
def State.ringError (s : State) (n code : Nat) (fields : List (Nat × Nat)) : State :=
  (s.ringTo n .error).emit (srcRing n) code fields

/-- A PCIe error on an access made for a ring (R327): event 0x0246 with the ring and the bus address. -/
def State.ringBusError (s : State) (n : Nat) (addr : DWord) : State := s.ringError n 0x0246 [f16 n, f64 addr.toNat]

/-- The same of an access that may or may not have ended so. -/
def State.ringAccessed (s : State) (n : Nat) (busError : Option DWord) : State :=
  match busError with
  | some a => s.ringBusError n a
  | none => s

/-! ### Signalling (R334) -/

def State.ringSignal (s : State) (n : Nat) : State :=
  let r := s.ring n
  (s.setRing n { r with unsignalled := 0, lastSignal := some s.boardTime }).signal r.vector.toNat

/-- One more record or completion is visible. -/
def State.ringVisible (s : State) (n : Nat) : State :=
  let r := s.ring n
  let r' := { r with unsignalled := r.unsignalled + 1,
                     firstUnsignalled := if r.unsignalled = 0 then s.boardTime else r.firstUnsignalled }
  let quiet := match r.lastSignal with
    | none => true
    | some t => decide (t.toNat + 1000000 ≤ s.boardTime.toNat)
  let s := s.setRing n r'
  if r.irqEn && (quiet || decide (max 1 r.coalCount.toNat ≤ r'.unsignalled)) then s.ringSignal n else s

/-- The device pointer passes one entry; the shadow follows it. -/
def State.ringAdvance (s : State) (n : Nat) : State :=
  let r := s.ring n
  let p := r.devPtr + 1
  ((s.setRing n { r with devPtr := p }).hostWrite r.shadow.toNat (shadowBytes p)).ringVisible n

/-- Entries that the ring holds between its pointers. -/
def Ring.posted (r : Ring) : Nat := (r.hostPtr - r.devPtr).toNat

/-- The index of the entry at the device pointer, by which records name its descriptor. -/
def Ring.headIndex (r : Ring) : Nat := r.devPtr.toNat % r.size

/-- The current entry of an IN, OUT or SEED ring. -/
def State.ringEntry (s : State) (n : Nat) : List Byte :=
  let r := s.ring n
  s.hostRead (r.entryAddr r.devPtr.toNat) 64

/-! ### REC rings and their holding buffers (R331, R335) -/

/-- Free entries of a REC ring. -/
def Ring.room (r : Ring) : Nat := r.size - (r.devPtr - r.hostPtr).toNat

/-- Which ring takes a record: completion and fault records, events, proof digests. -/
def State.recordRing (s : State) (r : Record) : Nat :=
  (match r.kind.toNat with
   | 2 => s.regs.eventRing
   | 3 => s.regs.proofRing
   | _ => s.regs.completionRing).toNat

/-- Write a record into the ring at its device pointer. -/
def State.putRecord (s : State) (n : Nat) (rec : Record) : State :=
  let r := s.ring n
  ({ s.hostWrite (r.entryAddr r.devPtr.toNat) (recordBytes rec) with written := s.written + 1 }).ringAdvance n

/-- An event that found no room is dropped and counted. -/
def Ring.drop (r : Ring) (rec : Record) : Ring :=
  { r with dropped := r.dropped + 1,
           dropLow := if r.dropped = 0 ∨ rec.step.toNat < r.dropLow.toNat then rec.step else r.dropLow,
           dropHigh := if r.dropped = 0 ∨ r.dropHigh.toNat < rec.step.toNat then rec.step else r.dropHigh }

/-- Places of the holding buffer that a record of a kind may take (R335). -/
def holdLimit (kind : Nat) : Nat := if kind = 1 then 256 else 252

end Sys2Proof.Machine
end

