-- ==== Sys2Proof/Machine/Seeds.lean ====
section
/-! DEFINITION. The step program and the seeds (R32–R37, R306–R308). -/

namespace Sys2Proof.Machine

/-! ### The step program (R32–R34) -/

/-- Whether step `n` is a probe step of an epoch length (R33). -/
def isProbeStep (epoch n : Nat) : Bool := epoch != 0 && n % (epoch + 1) == epoch

/-- The variant of step `n` and the rule that selected it, 255 for none (R32). -/
def selectVariant (c : Cartoon) (n : Nat) : Nat × Nat :=
  match c.rules.findIdx? (fun r => r.period != 0 && n % r.period.toNat == r.phase.toNat) with
  | some i => (match c.rules[i]? with | some r => (r.variant.toNat, i) | none => (0, 255))
  | none => (0, 255)

def defaultVariant : Variant :=
  { strokesM1 := 0, gate := false, probe := false, checkpoint := false, gateRing := 0, seedSel := 0, seed := 0,
    params := [] }

/-- The variant entry that runs in step `n`. -/
def State.variantOf (s : State) (n : Nat) : Variant :=
  match s.seq.cartoon with
  | some c => (c.variants[(selectVariant c n).1]?).getD defaultVariant
  | none => defaultVariant

/-! ### Automatic seeds (R306–R308) -/

/-- What R308 finds at the head of the seed ring for step `n`: the seed, or the cause and the entry's step. -/
def State.seedEntry (s : State) (n : Nat) : Sum (BitVec 256) (Nat × Nat) :=
  let r := s.ring s.regs.seedRing.toNat
  if r.state ≠ .active ∨ r.kind ≠ 3 ∨ r.posted = 0 then .inr (1, 2 ^ 64 - 1)
  else
    let e := ofLe (s.ringEntry s.regs.seedRing.toNat)
    if field e 0 64 = n then .inl (BitVec.ofNat 256 (field e 64 256)) else .inr (2, field e 0 64)

/-- A fault that keeps a step from beginning. -/
def seedPending (code : Nat) (fields : List (Nat × Nat)) : PendingFault :=
  { code := code, cycle := 0, order := 0, source := srcSeq, aux := 0, fields := BitVec.ofNat 256 (packFields fields),
    reported := false }

/-- The read of the seed ring's entry, which may end in a PCIe error (R327): the ring is no longer ACTIVE then. -/
def State.readSeed (s : State) (fails : Bool) : State :=
  let k := s.regs.seedRing.toNat
  let r := s.ring k
  if fails && s.regs.seedReplay && r.state == .active && r.kind == 3 && r.posted != 0 then
    s.ringBusError k (BitVec.ofNat 64 (r.entryAddr r.devPtr.toNat))
  else s

/-- Take the automatic seed of step `n`: from the seed ring when replay is enabled, else from the grain
source. The entry at the head of the ring is popped in any case but when there is none. -/
def State.takeSeed (s : State) (n : Nat) : State :=
  if s.regs.seedReplay then
    let k := s.regs.seedRing.toNat
    match s.seedEntry n with
    | .inl seed =>
      let s := s.ringAdvance k
      { s with seq := { s.seq with nextSeed := some (seed, true) } }
    | .inr (cause, step) =>
      let s := if cause = 1 then s else s.ringAdvance k
      { s with seq := { s.seq with
          seedFault := some (seedPending 0x0140 [f16 k, f8 cause, f64 step]) } }
  else
    match s.grain.seeds with
    | seed :: rest =>
      { s with grain := { s.grain with seeds := rest }, seq := { s.seq with nextSeed := some (seed, false) } }
    | [] => { s with seq := { s.seq with seedFault := some (seedPending 0x0141 []) } }

/-- The log takes every automatic seed (R307, R422): a decision entry without a code, whose detail is the seed
and whose step is the one it serves. Log entry 16. -/
def State.logSeed (s : State) (n : Nat) : State :=
  match s.seq.nextSeed with
  | some (seed, _) => s.logAppend 2 0 srcGrain (BitVec.ofNat 64 n) s.recStroke (seed.setWidth 672)
  | none => s

/-- The seed of the step to come, when its variant asks for an automatic one (R306). -/
def State.seedFor (s : State) (n : Nat) (readFails : Bool) : State :=
  let s := { s with seq := { s.seq with nextSeed := none, seedFault := none } }
  if (s.variantOf n).seedSel = 1 then ((s.readSeed readFails).takeSeed n).logSeed n else s

end Sys2Proof.Machine
end

