-- ==== Sys2Proof/Machine/Steps.lean ====
section
/-! DEFINITION. Where steps begin and end (R24, R38–R44, R336): start counts, the records that end a step, what
stopping a run leaves, and the step that begins. -/

namespace Sys2Proof.Machine

/-! ### The start of a step (R38, R39) -/

/-- Key of this device's ready count for a step on its gating ring. -/
def readyKey (ring step : Nat) : Nat := ring * 2 ^ 64 + step
/-- Key of a role's gate notice for a step. -/
def noticeKey (step role : Nat) : Nat := 8 * step + role

/-- This device's ready count for step `n`. -/
def State.ownReady (s : State) (n : Nat) : Option Nat :=
  (smapGet none s.seq.ready (readyKey (s.variantOf n).gateRing.toNat n)).map (·.toNat)

/-- The ready count of a role: the device's own, or that of the role's notice. -/
def State.readyOf (s : State) (n role : Nat) : Option Nat :=
  if s.role = some role then s.ownReady n
  else (smapGet none s.seq.notices (noticeKey n role)).map (·.toNat)

/-- The latest ready count of some roles, with the first role that has it; none until all are known. -/
def State.latestReady (s : State) (n : Nat) : List Nat → Option (Nat × Nat)
  | [] => none
  | [r] => (s.readyOf n r).map fun c => (c, r)
  | r :: rest =>
    match s.readyOf n r, s.latestReady n rest with
    | some c, some x => some (if x.1 ≤ c then (c, r) else x)
    | _, _ => none

/-- The start count of step `n`, once it can be computed (R39). -/
def State.startCount (s : State) (n : Nat) : Option Nat :=
  if (s.variantOf n).gate then
    (s.latestReady n (List.range s.groupSize)).map fun x =>
      max s.seq.prevEnd.toNat (roundUp (x.1 + 4000) 1000)
  else some s.seq.prevEnd.toNat

/-- Gate notices for a step of which this device holds the batch (R38): none in a group of one, which has no
other role. -/
def State.sendGate (s : State) (n ready : Nat) : State := s.sendToAll 3 (gatePayload n ready)

/-- The batch of step `n` on a ring is complete (R38): the ready count is kept, and a device that holds a cartoon
gated on that ring in that step sends its notices. -/
def State.batchReady (s : State) (ring n : Nat) : State :=
  if (smapGet none s.seq.ready (readyKey ring n)).isSome then s
  else
    let s := { s with seq := { s.seq with
      ready := smapPut none s.seq.ready (readyKey ring n) (some s.boardTime) } }
    if s.seq.cartoon.isSome && (s.variantOf n).gate && (s.variantOf n).gateRing.toNat == ring then
      s.sendGate n s.boardTime.toNat
    else s

/-- The run state between two steps (R54): WAITING while a gated step's start is unknown or later than the end of
the step before. -/
def State.betweenSteps (s : State) : State :=
  let n := s.seq.nextStep.toNat
  let waits := (s.variantOf n).gate && s.startCount n != some s.seq.prevEnd.toNat
  { s with seq := { s.seq with state := if waits then .waiting else .running } }

/-! ### The records that end a step (R24, R43, R336, R449) -/

/-- The fields that completion and fault records share, with FAULT_AUX and the code fields. -/
def State.endPayload (s : State) (aux fields : Nat) : BitVec 704 :=
  BitVec.ofNat 704 (s.regs.gearNow.toNat + boolNat s.seq.seedAuto <<< 2 + boolNat s.seq.seedReplayed <<< 3
    + (s.seq.variant % 8) <<< 4 + aux <<< 7 + s.seq.wait.toNat <<< 32 + s.seq.events.toNat <<< 96
    + (s.seq.proof.filter fun p => p.2.tiles != 0).length <<< 128
    + (if s.seq.seedAuto then s.seq.seed.toNat else 0) <<< 192 + fields <<< 448)

def State.endRecord (s : State) (kind code aux fields : Nat) : State :=
  let r := { s.mkRecord kind srcSeq code (s.endPayload aux fields) with step := s.seq.curStep }
  let s := s.addRecord r
  if kind = 1 then s.logRecord r else s

/-- One proof record for each slot whose count is not zero, slots ascending. -/
def State.proofRecords (s : State) : State :=
  s.seq.proof.foldl (fun s p =>
    if p.2.tiles.toNat = 0 then s
    else s.addRecord (s.mkRecord 3 srcSeq 0x0150
      (BitVec.ofNat 704 (p.1 + p.2.tiles.toNat <<< 16 + p.2.sum.toNat <<< 192)))) s

/-- A stop notice to every other role (R44). -/
def State.sendStop (s : State) (code : Nat) : State :=
  s.sendToAll 4 (stopPayload code (s.role.getD 0) s.recStep.toNat s.recStroke.toNat)

/-! ### The end of a run -/

/-- Whether an OUT descriptor's step has ended, and how: in a completion record, or in a fault record. -/
def State.stepEnded (s : State) (n : Nat) : Option Bool :=
  if s.seq.faultStep = some (BitVec.ofNat 64 n) then some false
  else if s.seq.runBase.toNat ≤ n ∧ n < s.seq.runBase.toNat + s.seq.stepsDone then some true
  else none

/-- The step of the descriptor at the head of a ring. -/
def State.headStep (s : State) (k : Nat) : Nat := field (ofLe (s.ringEntry k)) 0 64

/-- A descriptor is skipped: the device pointer passes it, and event 0x0243 names its index. -/
def State.skipDescriptor (s : State) (k : Nat) : State :=
  (s.ringAdvance k).emit (srcRing k) 0x0243 [f32 (s.ring k).headIndex]

/-- Whether the head of an OUT ring is one that the end of a run skips (R330). -/
def State.outSkips (s : State) (k : Nat) : Bool :=
  match smapGet none s.seq.outSkip k with
  | some p => decide ((s.ring k).posted ≠ 0) && decide (0 < (p - (s.ring k).devPtr).toNat)
      && decide ((p - (s.ring k).devPtr).toNat ≤ (s.ring k).posted) && (s.stepEnded (s.headStep k)).isNone
  | none => false

def State.skipRing : Nat → Nat → State → State
  | 0, _, s => s
  | f + 1, k, s => if s.outSkips k then State.skipRing f k (s.skipDescriptor k) else s

/-- Entering LOADED at the end of a run or after an abort: OUT descriptors whose step has not ended are skipped,
in ring order, those behind a copy that is still due when that is done (R330). -/
def State.skipOut (s : State) : State :=
  let outs := (s.rings.filter fun p => p.2.kind == 1 && p.2.state == .active).map fun p => (p.1, p.2.hostPtr)
  let s := { s with seq := { s.seq with
    outSkip := outs.foldl (fun m p => smapPut none m p.1 (some p.2)) s.seq.outSkip } }
  outs.foldl (fun s p => State.skipRing (s.ring p.1).posted p.1 s) s

/-- Remote marks take effect (R94, R339). -/
def State.addRemoteMarks (s : State) : State :=
  let l := s.remoteMarks
  l.foldl (fun s r => s.updateMark r.mark.toNat (· + r.value)) { s with remoteMarks := [] }

/-- A device whose run goes on: RUNNING or WAITING, with a tail to come (R292, R339). -/
def State.goesOn (s : State) : Bool :=
  s.seq.phase != .none && (s.seq.state == .running || s.seq.state == .waiting)

/-- A role-stale report at any other device is an event (R292). -/
def State.staleEvent (s : State) (k : Nat) (m : StaleMsg) : State :=
  s.emit (srcPort k) 0x0320 [f16 k, f8 m.staleKind.toNat, f64 m.staleSeq.toNat, f16 m.rxSlot.toNat, f16 m.rxRole.toNat,
    f16 m.rxEpoch.toNat, s.slotField]

/-- What has landed for a tail that no longer comes acts at the end of the run. Log entry 68. -/
def State.landedRest (s : State) : State :=
  s.seq.staleReports.foldl (fun s p => s.staleEvent p.1 p.2.1)
    ({ s with seq := { s.seq with staleReports := [] } }).addRemoteMarks

/-- A run or a launch ends: a run that leaves RUNNING or WAITING drops an armed capture (R371). The batches that
are held, and the gate notices, stay for the steps of a later run (R38). Log entry 20. -/
def State.leaveRun (s : State) : State :=
  let s := { s with seq := { s.seq with phase := .none } }.landedRest
  { s with
    ports := smapMap .reset (fun (p : Port) => { p with left := false }) s.ports,
    regs := { s.regs with capArmed := s.regs.capArmed && s.seq.state != .running && s.seq.state != .waiting },
    seq := { s.seq with firstOpen := none, stopBy := none,
                        abortAt := none, nextSeed := none, seedFault := none, faults := [], launchOk := false,
                        closing := false, gearPending := none } }

/-- The run has stopped with a fault record: FAULTED, unless an abort is under way, which returns the device to
LOADED (R340, R341). A plate that has failed is held from then on. -/
def State.stopped (s : State) : State :=
  let abort := s.seq.abortAt.isSome
  let s := s.leaveRun.holdFailed
  { s with seq := { s.seq with
      faultStep := some s.seq.curStep, abortPending := abort,
      state := if abort then s.seq.state else .faulted } }

/-- The run has reached its STEP_LIMIT: LOADED, unless an abort is under way. -/
def State.runEnded (s : State) : State :=
  let abort := s.seq.abortAt.isSome
  let s := s.leaveRun
  if abort then { s with seq := { s.seq with abortPending := true } }
  else { s with seq := { s.seq with state := .loaded } }.skipOut

/-- The steps that STEP_LIMIT counts have ended. -/
def State.limitDone (s : State) : Bool :=
  match s.seq.cartoon with
  | some c => c.stepLimit != 0 && decide (c.stepLimit.toNat ≤ s.seq.stepsDone)
  | none => true

/-- The next step does not begin, because an abort has come: the device stops at once (R340). -/
def State.abortBetween (s : State) : State :=
  let s := s.sendStop 0x0109
  let s := s.leaveRun
  { s with seq := { s.seq with abortPending := true } }

/-- Stands in where no cartoon is held. -/
def noCartoon : Cartoon :=
  { groupSize := 0, role := 0, plateMask := 0, quanta := 0, maskEpoch := 0, digest := 0, stepLimit := 0,
    variants := [], rules := [], consts := [], streams := [], deferred := [], half := false }

/-- A step that does not begin, or a run that stops between its steps: its fault record, and the stop notice
unless a peer has caused it. The record names the step that would have begun, and the number of its first stroke;
CUR_STEP and CUR_STROKE stay at the last step begun (R354). Log entry 29. -/
def State.stopBetween (s : State) (code fields : Nat) (notice : Bool) : State :=
  let last := s.seq.curStep
  let stroke := s.seq.curStroke
  let auto := decide ((s.variantOf s.seq.nextStep.toNat).seedSel = 1)
  let replay := auto && s.regs.seedReplay
  let events := if s.seq.alarmed then 1 else 0
  let s := { s with seq := { s.seq with
    curStep := s.seq.nextStep, curStroke := BitVec.ofNat 64 s.seq.strokesRun,
    variant := (selectVariant (s.seq.cartoon.getD noCartoon) s.seq.nextStep.toNat).1,
    seed := (match s.seq.nextSeed with | some x => x.1 | none => 0), seedAuto := auto,
    seedReplayed := replay, wait := 0, events := events, proof := [] } }
  let s := s.endRecord 1 code 0 fields
  let s := (if notice then s.sendStop code else s).stopped
  { s with seq := { s.seq with curStep := last, curStroke := stroke } }

/-! ### A fault or stop that comes between the stations' commands -/

/-- A step-ending fault from outside the stations: it belongs to the stroke that runs or follows at once, or to the
check stroke after a probe step; it stops a run between its steps, and is nothing to a device without a run. -/
def State.raiseAsync (s : State) (src code : Nat) (fields : List (Nat × Nat)) : State :=
  match s.seq.phase with
  | .inStroke => s.pend src code s.nowCycle 0 fields false
  | .strokeDue => s.pend src code 0 0 fields false
  | .none => s
  | .checkDue => if s.seq.checkFault then s else s.pend src code 0 0 fields false
  | .stepDue => s.stopBetween code (packFields fields) true

/-- The MSS declares a plate failed (R414): a running stroke, or a check stroke after a probe step, ends in fault 0x050A;
a run between steps stops with it, and otherwise it is an event. -/
def State.failPlate (s : State) (p : Nat) : State :=
  if bitAt s.mss.plateFailed.toNat p then s
  else
    let s := s.markPlate p
    if s.busyRun && s.seq.phase != .none then s.raiseAsync srcMss 0x050A []
    else (s.emit srcMss 0x050A []).holdFailed

/-! ### Which fault a step's record names (R134, R199) -/

def faultBefore (a b : PendingFault) : Bool :=
  decide (a.cycle < b.cycle) || (a.cycle == b.cycle && decide (a.order < b.order))

def firstOf (before : PendingFault → PendingFault → Bool) : List PendingFault → Option PendingFault
  | [] => none
  | f :: r => match firstOf before r with
    | some g => if before g f then some g else some f
    | none => some f

/-- A fault that R199 numbers among the poison records. -/
def PendingFault.ofPoison (f : PendingFault) : Bool := f.code == 0x0210 || f.code == 0x0211

/-- The fault that the step's record names: the first to arrive; among poison reads, the one of the earliest
command (R134, R199). Of two of other kinds that arrive in one cycle the spec names neither; `order` decides. Log
entry 64. -/
def chooseFault (l : List PendingFault) : Option PendingFault :=
  match firstOf faultBefore l with
  | some f =>
    if f.ofPoison then firstOf (fun a b => decide (a.order < b.order)) (l.filter PendingFault.ofPoison) else some f
  | none => none

/-- The event that reports a fault in its own record. -/
def State.reportFault (s : State) (f : PendingFault) : State :=
  s.emitRaw f.source f.code (BitVec.ofNat 704 (f.fields.toNat <<< 192))

/-- The other faults of the stroke, each in its own record. -/
def State.reportOthers (s : State) (f : PendingFault) : State :=
  (s.seq.faults.erase f).foldl (fun s g => if g.reported then s else s.reportFault g) s

/-! ### What the end of a stroke or check stroke asks -/

/-- Role-stale reports that landed at a running device before the tail began (R292). -/
def State.checkStale (s : State) : State :=
  (s.seq.staleReports.filter fun p => !p.2.2).foldl (fun s p =>
    let m := p.2.1
    s.pend (srcPort p.1) 0x0320 s.tailStart (3000 + p.1)
      [f16 p.1, f8 m.staleKind.toNat, f64 m.staleSeq.toNat, f16 m.rxSlot.toNat, f16 m.rxRole.toNat,
       f16 m.rxEpoch.toNat, s.slotField] false) s

/-- A source that is part of a plate, or the MSS for a plate (R332). -/
def isPlateSource (src : Nat) : Bool := [0, 1, 2, 3, 6, 9].contains (src >>> 20)

/-- A plate has a fault of its own (R278, R297). -/
def State.plateFault (s : State) : Bool :=
  s.mss.plateFailed != 0 || s.seq.faults.any fun g => isPlateSource g.source

end Sys2Proof.Machine
end

