-- ==== Sys2Proof/Machine/Late.lean ====
section
/-! DEFINITION. What the stroke tail asks of the links (R262–R265, R292): closes, counts, RECVs and control
messages that are due. -/

namespace Sys2Proof.Machine

/-- Whether a port is one whose stroke close is due: UP at LAUNCH_AT, and wired to a role of the group or to
the device itself (R263, R276). -/
def State.closeDue (s : State) (k : Nat) : Bool :=
  s.seq.upAtLaunch.contains k &&
    ((s.lane k).use == 2 || ((s.lane k).use == 1 && (mapRole s.regs.roleMap (s.lane k).peerSlot.toNat).isSome))

/-- The first control number in [lo, hi) that has not landed. -/
def missingCtrl (x : Link) (lo hi : Nat) : Option Nat :=
  ((List.range (hi - lo)).map (· + lo)).find? fun n => isNew x.rxCtrlNext x.rxCtrlAhead n

/-- What is late on a link (R263): the first missing data or control number. -/
def lateOn (x : Link) (taken : Nat) : Option Nat :=
  match x.rxClose with
  | none => some x.rxCtrlNext
  | some m =>
    match missingCtrl x (x.rxCloseNumber - m.ctrlFlits.toNat) x.rxCloseNumber with
    | some n => some n
    | none =>
      if x.rxNext ≠ m.dataFlits.toNat ∨ !x.rxAhead.isEmpty then some x.rxNext
      else if x.rxNext < taken then some x.rxNext
      else none

/-- Whether a link's close counts more flits than the RECVs take, or a flit is left that no RECV takes
(R264). -/
def surplusOn (x : Link) (taken : Nat) : Bool :=
  !x.rxBuffer.isEmpty || (match x.rxClose with | some m => decide (taken < m.dataFlits.toNat) | none => false)

/-- A late-delivery fault of a link, found when the tail begins. -/
def State.lateFault (s : State) (src n : Nat) (order missing : Nat) (more : List (Nat × Nat) := []) : State :=
  s.pend src 0x0301 s.tailStart order ([f16 n, f8 1, f64 missing] ++ more) false

/-- The close and the flits of one link, whose close is due (R263). -/
def State.checkLink (s : State) (l : LinkRef) : State :=
  match lateOn (s.link l) (flitsTaken s.recvs l) with
  | some n => s.lateFault (srcLink l) (linkNumber l) (linkKey l) n
  | none => s

/-- The surplus of one link (R264). -/
def State.checkSurplus (s : State) (l : LinkRef) : State :=
  if surplusOn (s.link l) (flitsTaken s.recvs l) then
    s.pend (srcLink l) 0x0302 s.tailStart (linkKey l) [f16 (linkNumber l), f8 1] false
  else s

/-- All links whose closes are due: the Seam only on a full device. -/
def State.dueLinks (s : State) : List LinkRef :=
  (if s.boot.plates = 3 then seamLinks else [])
    ++ (allPorts.filter fun k => s.closeDue k.val).map LinkRef.kazin

/-- The link that carries flit `j` of a RECV. -/
def flitLink (r : OpenRecv) (j : Nat) : LinkRef :=
  match r.relay with
  | .kazin k => .kazin k
  | .seam p => .seam p (Fin.ofNat 48 (r.args.firstCh.toNat + j % (r.args.widthM1.toNat + 1)))

/-- A RECV none of whose links is late may still hold a byte that no flit has written: its flit was stale, it came when
the reservation had ended, or its port has no close. The first missing flit is named by its link and number. -/
def State.checkRecv (s : State) (x : OpenRecv × Nat) : State :=
  let r := x.1
  let first := ((List.range (recvFlits r.args)).find? fun j => (smapGet none r.landed j).isNone).orElse fun _ => r.missed
  let links := recvLinks r.relay r.args
  match first with
  | some j =>
    if links.any (fun l => s.dueLinks.contains l && (lateOn (s.link l) (flitsTaken s.recvs l)).isSome) then s
    else
      let l := flitLink r j
      s.lateFault (srcLink l) (linkNumber l) (500 + srcRelay r.relay)
        (flitsTaken (s.recvs.take x.2) l + j / (r.args.widthM1.toNat + 1))
  | none => s

/-- Of some ports, the one whose peer port has the lowest number. -/
def State.lowestPeer (s : State) (l : List Nat) : Option Nat :=
  l.foldl (fun o k => match o with
    | some j => if (s.lane k).peerPort.toNat < (s.lane j).peerPort.toNat then some k else some j
    | none => some k) none

/-- The port on which a role's control messages land: R266 has the role send on its own lowest port that is UP, or else
the one wired so. -/
def State.portOfRole (s : State) (role : Nat) : Nat :=
  let wired := (List.range 16).filter fun k => s.wiredTo k role
  ((s.lowestPeer (wired.filter fun k => (s.port k).state == .up)).orElse fun _ => s.lowestPeer wired).getD 0

/-- A control message of a type that a role has not sent. -/
def State.lateMessage (s : State) (role ctype : Nat) : State :=
  let k := s.portOfRole role
  s.lateFault (srcPort k) k (1000 + 16 * ctype + role) (2 ^ 64 - 1) [f8 ctype, f16 role]

/-- Control messages that are due and missing: norm totals and exponent maxima. -/
def State.checkDue (s : State) : State :=
  s.otherRoles.foldl (fun s r =>
    let s := if s.normDue && (s.normMsgOf r).isNone then s.lateMessage r 5 else s
    if !s.segMax.isEmpty && !(s.seq.maxima.any fun p => p.1.toNat == r) then s.lateMessage r 6 else s) s

/-- A norm total of another MODE than the NORM's, that landed before the NORM issued (R264). -/
def State.checkModes (s : State) : State :=
  match s.norm with
  | none => s
  | some j =>
    (s.seq.normMsgs.filter fun p => p.2.mode != j.mode).foldl (fun s p =>
      let k := s.portOfRole p.1.toNat
      s.pend (srcPort k) 0x0302 s.tailStart (2000 + p.1.toNat) [f16 k, f8 1] false) s

/-- The Seam's sources (R332). -/
def isSeamSource (src : Nat) : Bool := src >>> 20 == 5

/-- The Seam fault when a Seam transfer is late and nothing else has failed (R278). -/
def State.checkSeam (s : State) : State :=
  match s.seq.faults.find? (fun f => f.code == 0x0301 && isSeamSource f.source) with
  | none => s
  | some f =>
    if s.plateFault then s
    else
      let ch := field f.fields.toNat 0 16
      let s := { s with seq := { s.seq with seamFailed := true } }
      { s with seq := { s.seq with faults :=
          { f with code := 0x0310, fields := BitVec.ofNat 256 (packFields [f16 ch, f8 1]) } :: s.seq.faults } }

/-- Step 1 of the tail, for the links. -/
def State.collectLate (s : State) : State :=
  let s := s.dueLinks.foldl State.checkLink s
  let s := (seamLinks ++ allPorts.map LinkRef.kazin).foldl State.checkSurplus s
  let s := s.recvs.zipIdx.foldl State.checkRecv s
  (s.checkDue.checkModes.checkStale).checkSeam

/-! ### Replays (R265) and the flip of the buffers (R262) -/

/-- Replay slots among the slots below a count (R258): those with n mod 100 from 96 to 98. -/
def replayBelow (n : Nat) : Nat := 3 * (n / 100) + min 3 (n % 100 - 96)

/-- Replay slots of a link in the stroke: every slot that starts in the tail is a control slot. -/
def State.replaySlotsIn (s : State) : Nat :=
  replayBelow (s.countAt s.tailStart) - replayBelow s.seq.strokeStart.toNat

def State.countReplays (s : State) (l : LinkRef) : State :=
  let n := (s.link l).replayed
  if n = 0 then s
  else
    let s := match l with
      | .kazin k =>
        let p := s.port k.val
        s.setPort k.val { p with replaySlots := satAdd p.replaySlots n }
      | .seam _ ch =>
        let f := fun (c : SeamChan) => { c with replaySlots := satAdd c.replaySlots n }
        { s with seam := smapMod .up s.seam ch.val f }
    if s.replaySlotsIn < 2 * n then s.emit (srcLink l) 0x0303 [f16 (linkNumber l), f8 0, f32 n] else s

/-- A link as it enters the next stroke: numbers of data flits begin again. -/
def Link.nextStroke (x : Link) : Link :=
  let m := x.rxLate.foldl (fun m n => markLanded m.1 m.2 n) (x.rxCtrlNext, x.rxCtrlAhead)
  { x with txData := 0, txUnacked := [], sendQueue := [], replayed := 0, rxNext := 0, rxAhead := [],
           rxBuffer := [], rxClose := none, rxCloseNumber := 0, rxCtrlNext := m.1, rxCtrlAhead := m.2, rxLate := [],
           replayQueue := x.replayQueue.filter (·.1), nacks := x.nacks.filter (·.1) }

/-- The flip: RECV destinations open, and every link's landing side begins the next stroke. -/
def State.flipLinks (s : State) : State :=
  { s with recvs := [], links := smapMap .empty Link.nextStroke s.links,
           seq := { s.seq with
             normMsgs := [], maxima := [],
             staleReports := (s.seq.staleReports.filter fun p => p.2.2).map fun p => (p.1, p.2.1, false) } }

end Sys2Proof.Machine
end

