-- ==== Sys2Proof/Machine/Checks.lean ====
section
/-! DEFINITION. The comparison of the rotating shadow (R438–R440) and check strokes (R441–R445). -/

namespace Sys2Proof.Machine

/-! ### Remap words (R55, R364) -/

def remapWord (r : Remap) : Nat :=
  (r.lmap.zipIdx.foldl (fun a p => a + p.1.val <<< (4 * p.2)) 0)
    + (match r.spare with | some f => f.val | none => 15) <<< 32 + r.retired.toNat <<< 36

/-- The pending mappings take effect (step 2 of R28). -/
def State.applyRemaps (s : State) : State :=
  { s with remaps := s.nextRemaps.foldl (fun m p => smapPut .reset m p.1 p.2) s.remaps, nextRemaps := [] }

/-! ### The shadow (R438–R440) -/

def itemBefore (a b : CheckItem) : Bool :=
  decide (a.cycle < b.cycle) || (a.cycle == b.cycle && decide (a.station < b.station))

def insertItem (a : CheckItem) : List CheckItem → List CheckItem
  | [] => [a]
  | x :: r => if itemBefore a x then a :: x :: r else x :: insertItem a r

/-- Items in cycle order, and within a cycle Fetch, Finish, Store. -/
def sortItems (l : List CheckItem) : List CheckItem := l.foldl (fun acc x => insertItem x acc) []

/-- The check value of some items under SK. -/
def checkValue (sk : QWord) (l : List CheckItem) : BitVec 128 :=
  (sortItems l).zipIdx.foldl (fun v p =>
    v + BitVec.ofNat 128 (hashH (leBytes 16 sk.toNat) p.2 p.1.bytes)) 0

/-- The logical engine that the spares shadow in this stroke (R436). -/
def State.shadowL (s : State) : Fin 8 := Fin.ofNat 8 s.seq.curStroke.toNat

/-- FAULT_AUX of 0x0170 (R439). -/
def shadowAux (c : ClusterLoc) (l phys spare : Nat) : Nat :=
  c.cluster.val + c.plate.val <<< 6 + l <<< 7 + phys <<< 10 + spare <<< 14

/-- The comparison of one cluster. -/
def State.compareShadow (s : State) (i : Nat) : State :=
  let c := clusterAt i
  match (s.remap c).spare with
  | none => s
  | some spare =>
    if smapGet false s.seq.spareEcc i then s.emit (srcCluster c 3) 0x0173 []
    else
      let a := checkValue s.sec.sk (smapGet [] s.seq.shadowItems i)
      let b := checkValue s.sec.sk (smapGet [] s.seq.spareItems i)
      if a = b then s
      else
        s.pend (srcCluster c 3) 0x0170 s.tailStart (tieOrder (.counterproof c)) [f128 a.toNat, f128 b.toNat] false
          (shadowAux c s.shadowL.val (s.phys ⟨c.plate, c.cluster, s.shadowL⟩) spare.val)

/-- The clusters whose engines formed something to compare. -/
def State.compareShadows (s : State) : State :=
  ((List.range 72).filter fun i =>
    smapGet false s.seq.spareEcc i || smapGet [] s.seq.shadowItems i != smapGet [] s.seq.spareItems i).foldl
    State.compareShadow s

/-- Clusters with a shadow mismatch among the faults of the stroke. -/
def mismatched (l : List PendingFault) : List Nat :=
  (l.filter fun f => f.code == 0x0170).map fun f =>
    field f.aux.toNat 0 6 + 36 * field f.aux.toNat 6 1

/-! ### Check strokes (R441–R445) -/

/-- What a tested engine reduced its results to; engines that the command does not list agree on zero. -/
def resultOf (l : List EngineResult) (c : ClusterLoc) (f : Fin 9) : QWord :=
  match l.find? (fun r => decide (r.cluster = c) && decide (r.phys = f)) with
  | some r => r.value
  | none => 0

/-- The engines of a cluster that are not retired. -/
def liveEngines (r : Remap) : List (Fin 9) :=
  (List.finRange 9).filter fun f => !bitAt r.retired.toNat f.val

/-- The value that more than half of the engines hold. -/
def reference (vals : List QWord) : Option QWord :=
  vals.find? fun v => decide (vals.length < 2 * (vals.filter (· == v)).length)

/-- What a cluster's check found: no reference, or the engines that differ from it. -/
def findCluster (l : List EngineResult) (c : ClusterLoc) (r : Remap) : Option (List (Fin 9)) :=
  let live := liveEngines r
  (reference (live.map (resultOf l c))).map fun v => live.filter fun f => resultOf l c f != v

/-- Retire an engine: the spare takes its place, or it was the spare. -/
def Remap.retire (r : Remap) (f : Fin 9) : Remap :=
  let bits := r.retired ||| BitVec.ofNat 9 (2 ^ f.val)
  match r.spare with
  | some sp =>
    if f = sp then { r with spare := none, retired := bits }
    else { lmap := r.lmap.map fun g => if g = f then sp else g, spare := none, retired := bits }
  | none => { r with retired := bits }

/-- What the MSS decides about a cluster with offenders (R444): 0 only reported, 1 the engine is retired, 2 the plate
fails. -/
def checkAction (auto : Bool) (r : Remap) (off : List (Fin 9)) : Nat :=
  let active := off.filter fun f => r.lmap.contains f
  let spares := match r.spare with | some f => if off.contains f then 0 else 1 | none => 0
  if !auto then 0 else if active.length > spares then 2 else 1

/-- The MSS acts on a cluster with offenders. -/
def State.actOn (s : State) (c : ClusterLoc) (off : List (Fin 9)) : State :=
  let r := s.remap c
  match checkAction s.edition.spareAuto r off, off with
  | 1, f :: _ =>
    let r' := r.retire f
    ({ s with nextRemaps := smapPut .reset s.nextRemaps (clusterIdx c) r' }).emit srcMss 0x0172
      [f16 (clusterIdx c), f16 (engineField c.plate.val c.cluster.val f.val), f64 (remapWord r')]
  | 2, _ => s.failPlate c.plate.val
  | _, _ => s

/-- One tested cluster: the MSS logs its finding, whatever it is, and the sets of clusters with offenders and
inconclusive ones grow. -/
def State.checkCluster (l : List EngineResult) (z : (Nat × Nat) × State) (i : Nat) : (Nat × Nat) × State :=
  let c := clusterAt i
  let s := z.2.decide_ 0x0509 []
  match findCluster l c (s.remap c) with
  | none => ((z.1.1, z.1.2 + 2 ^ i), s.emit (srcCluster c 3) 0x0174 [])
  | some [] => (z.1, s)
  | some off => ((z.1.1 + 2 ^ i, z.1.2), s.actOn c off)

/-- The seed that SK gives for a check stroke that begins at a count (R443). -/
def skSeed (sk : QWord) (begins : Nat) : BitVec 256 :=
  let t := [67, 77, 78, 32, 99, 104, 101, 99, 107].map (BitVec.ofNat 8)
  let key := leBytes 16 sk.toNat
  BitVec.ofNat 256 (ofLe (hashHBytes key (2 * begins) t ++ hashHBytes key (2 * begins + 1) t))

/-- The seed of the check stroke: one of the grain source's, or one formed from SK, with event 0x0175. What the test
program makes of it is the firmware's, and shows in the engines' results. Log entry 70. -/
def State.takeCheckSeed (s : State) (begins : Nat) : State :=
  match s.grain.seeds with
  | x :: rest => { s with grain := { s.grain with seeds := rest }, seq := { s.seq with checkSeed := x } }
  | [] => { s with seq := { s.seq with checkSeed := skSeed s.sec.sk begins } }.emit srcMss 0x0175 []

/-- Board-time counts that the check stroke lasts. -/
def State.checkCounts (s : State) : Nat :=
  (if s.seq.checkFault then 8 else s.quanta) * quantumCounts s.regs.gearNow.toNat

/-- The count at which the check stroke ends: after a probe step it lies before any gear gap; after a fault it
begins at the present count. -/
def State.checkEnd (s : State) : Nat :=
  if s.seq.checkFault then s.boardTime.toNat + s.checkCounts
  else s.seq.prevEnd.toNat - (if s.seq.gearPending.isSome then 20000 else 0)

/-- A gear that waits for the end of the check stroke takes effect (R295). -/
def State.takeGear (s : State) : State :=
  match s.seq.gearPending with
  | some g => { s with regs := { s.regs with gearNow := g }, seq := { s.seq with gearPending := none },
                       mss := { s.mss with gearSince := s.seq.prevEnd } }
  | none => s

/-- The run stops with the check stroke: its fault record carries the step and stroke before it (R441), and that step
has completed. A Seam that has failed retrains, unless a plate has a fault of its own (R297). Log entry 70. -/
def State.stopChecked (s : State) (code aux fields : Nat) (notice : Bool) : State :=
  let seam := s.seq.seamFailed && !s.plateFault
  let s := { s with seq := { s.seq with proof := [] } }.endRecord 1 code aux fields
  let s := (if notice then s.sendStop code else s).stopped
  { s with seamRetraining := s.seamRetraining || seam,
           seq := { s.seq with faultStep := none, seamFailed := false } }

/-- How the check stroke of a run ends: with a fault of its own, with a peer's stop notice, with the run's last step,
with an abort, or with the next step due (R35, R43, R44, R340). -/
def State.afterCheck (s : State) : State :=
  match chooseFault s.seq.faults with
  | some f => (s.reportOthers f).stopChecked f.code f.aux.toNat f.fields.toNat true
  | none =>
    match s.seq.stopBy with
    | some (code, role) => s.stopChecked code.toNat 0 (packFields [f16 role.toNat]) false
    | none =>
      if s.limitDone then s.runEnded
      else if s.seq.abortAt.isSome then s.abortBetween
      else { s with seq := { s.seq with phase := .stepDue } }.betweenSteps

/-- The tested clusters, and the record of the check stroke (R332, R443, R444). -/
def State.checkClusters_ (s : State) (results : List EngineResult) : State :=
  let tested := s.seq.checkClusters
  let z := tested.foldl (State.checkCluster results) ((0, 0), s)
  z.2.emit srcMss 0x0171 [f128 (tested.foldl (fun a i => a + 2 ^ i) 0), f128 z.1.1, f128 z.1.2]

/-- The boundary actions of the check stroke's tail (R28, R441). -/
def State.checkTail (s : State) : State := s.applyRemaps.flipLinks.addRemoteMarks.takeGear

def checkStrokeEffect (results : List EngineResult) (s : State) : State :=
  let fault := s.seq.checkFault
  let s := (s.takeCheckSeed (s.checkEnd - s.checkCounts)).advanceTo s.checkEnd
  let s := s.checkClusters_ results
  let s := (if fault then s else s.checkStale).checkTail
  let s := { s with seq := { s.seq with checkClusters := [], checkFault := false } }
  if fault then { s with seq := { s.seq with phase := .none } } else s.afterCheck

/-- CHECK_STROKE (R441–R445): the results are what the engines' hardware reduced the test to. -/
def execCheckStroke (results : List EngineResult) (s : State) : Out :=
  if s.seq.phase = .checkDue then .next (checkStrokeEffect results s) else .next s

end Sys2Proof.Machine
end

