-- ==== Sys2Proof/Machine/Sequencer.lean ====
section
/-! DEFINITION. The step sequencer: STROKE_START, STROKE_TAIL, STEP_BEGIN and what happens in a wait
(R27–R46, R114, R436, R441). -/

namespace Sys2Proof.Machine

/-! ### STROKE_START (R27, R29) -/

/-- Writes of the stroke that ended, on the count of the next; those that every read sees are dropped. -/
def shiftEarly (c : Nat) (l : List EarlyWrite) : List EarlyWrite :=
  (l.map fun w => { w with cycle := w.cycle - c }).filter fun w => (hbmPlate w.addr).isSome && decide (0 ≤ w.cycle)

/-- Changes of a window that lie before the new stroke are in force; others move to its count. -/
def PickWin.shift (w : PickWin) (c : Nat) : PickWin :=
  let l := w.next.map fun n => (n.1 - (c : Int), n.2)
  { cur := winAt { w with next := l } 0, next := l.filter fun n => decide (0 < n.1) }

/-- A Stipple's operation lives in one variant (R174): it is not carried into a new step. -/
def Stipple.nextStroke (first : Bool) (x : Stipple) : Stipple :=
  { x with open_ := if first then false else x.open_, op := if first then none else x.op, clearing := none, runs := [],
           claims := [] }

def Port.nextStroke (p : Port) : Port := { p with staleRun := 0 }

/-- The value at the start of a stroke is the last one written (R159). -/
def PickEntry.nextStroke (e : PickEntry) : PickEntry :=
  ⟨match e.writes with | w :: _ => w.2 | [] => e.value, []⟩

/-- The accesses of the stroke that begins which the load check has placed later than their cycle (R189). -/
def State.strokeDeferrals (s : State) : List Deferral :=
  match s.seq.cartoon with
  | some c => c.deferred.filter fun d => d.variant == s.seq.variant && d.stroke == s.seq.strokeInStep
  | none => []

/-- What the boundary clears or moves to the new stroke's count. -/
def State.freshStroke (s : State) : State :=
  let first := s.seq.strokeInStep = 0
  let c := s.cycles
  { s with
    mem := { s.mem with fresh := [], early := shiftEarly c s.mem.early },
    engines := [],
    picks := smapMap .zero PickEntry.nextStroke s.picks,
    windows := smapMap .empty (fun w => w.shift c) s.windows,
    stipples := smapMap .empty (Stipple.nextStroke first) s.stipples,
    ports := smapMap .reset Port.nextStroke s.ports,
    busy := [], nextIssue := [], taken := if first then [] else s.taken, clock := 0, works := [], writes := [],
    deferred := s.strokeDeferrals, tailEvents := [], reports := [], segMax := [],
    clip := { s.clip with validFrom := s.clip.validFrom.map fun _ => 0 } }

def strokeStartEffect (s : State) : State :=
  let s := (s.advanceTo s.seq.strokeStart.toNat).freshStroke
  let s := { s with seq := { s.seq with
    phase := .inStroke, curStroke := BitVec.ofNat 64 s.seq.strokesRun, strokesRun := s.seq.strokesRun + 1,
    refreshDone := [], closeSent := false, shadowItems := [], spareItems := [], spareEcc := [] } }
  s.normStart

/-- STROKE_START (R27): the engine store, the planes and the accumulators read as zero, and the spares shadow
the next logical engine. -/
def execStrokeStart (s : State) : Out :=
  if s.seq.phase = .strokeDue then .next (strokeStartEffect s) else .next s

/-! ### The tail, step 1: faults and reports (R28, R43, R133, R195, R202, R435) -/

def isMeta (f : PendingFault) : Bool := decide (0x0110 ≤ f.code) && decide (f.code ≤ 0x0112)

def insertFault (f : PendingFault) : List PendingFault → List PendingFault
  | [] => [f]
  | x :: r => if f.cycle < x.cycle then f :: x :: r else x :: insertFault f r

/-- Metadata faults in arrival order, each with its number within its source, from 1. -/
def numberMeta (l : List PendingFault) : List (PendingFault × Nat) :=
  ((l.foldl (fun acc f => insertFault f acc) []).foldl (fun (z : List (PendingFault × Nat) × SMap Nat) f =>
    let n := smapGet 0 z.2 f.source + 1
    (z.1 ++ [({ f with fields := f.fields ||| BitVec.ofNat 256 (n <<< 224), reported := true }, n)],
     smapPut 0 z.2 f.source n)) ([], [])).1

/-- Metadata events: at most 16 for each source, then the count of the others. -/
def State.reportMeta (s : State) : State :=
  let l := numberMeta (s.seq.faults.filter isMeta)
  let s := { s with seq := { s.seq with
    faults := (s.seq.faults.filter fun f => !isMeta f) ++ l.map fun p => p.1 } }
  let s := l.foldl (fun s p => if p.2 ≤ 16 then s.reportFault p.1 else s) s
  let counts := l.foldl (fun m p => smapPut 0 m p.1.source p.2) ([] : SMap Nat)
  counts.foldl (fun s p => if 16 < p.2 then s.emit p.1 0x0113 [f32 (p.2 - 16)] else s) s

/-- The code that tells how many reports of a kind were left out. -/
def suppressedCode (kind : Nat) : Option Nat :=
  if kind = repEcc then some 0x0202
  else if kind = repUnwritten then some 0x0221
  else if kind = repGauge then some 0x0162
  else none

def State.reportSuppressed (s : State) : State :=
  s.reports.foldl (fun s p =>
    match suppressedCode (p.1 / 2 ^ 24) with
    | some code => if 16 < p.2 then s.emit (p.1 % 2 ^ 24) code [f32 (p.2 - 16)] else s
    | none => s) s

/-- Stipple commands that are still incomplete (R180). -/
def State.checkOverruns (s : State) : State :=
  (List.range 72).foldl (fun s i =>
    let c := clusterAt i
    match s.works.find? (fun w => w.job.ofStipple c) with
    | some w => s.pend (srcCluster c 2) 0x0103 s.tailStart (tieOrder (.stipple c)) (stFields c w.cycle) false
    | none => s) s

/-- What commands have left undone is dropped, and the writes that have issued are taken (R197). -/
def State.dropWorks (s : State) : State := ({ s with works := [] } : State).takeWrites

/-! ### The gear of the next step (R294) -/

/-- The tick of the step's last stroke. -/
def State.tick (s : State) : Nat := s.seq.strokeStart.toNat / 65536 * 65536

/-- The gear that this device requested at a tick. -/
def State.ownRequest (s : State) (t : Nat) : Nat :=
  match s.mss.gearReqs.find? (fun r => decide (r.1.toNat ≤ t)) with
  | some r => r.2.toNat
  | none => s.regs.gearReq.toNat

/-- The gear that a role's check for a tick carried. -/
def State.roleRequest (s : State) (t role : Nat) : Option Nat :=
  (s.seq.gearChecks.find? fun g => g.1 == t && g.2.1 == role).map fun g => g.2.2.toNat

def State.nextGear (s : State) : Nat :=
  s.otherRoles.foldl (fun m r => max m ((s.roleRequest s.tick r).getD 0)) (s.ownRequest s.tick)

def State.lastStroke (s : State) : Bool := decide (s.seq.strokeInStep + 1 = strokesOf s)

/-- Whether the run ends with this step (R35). -/
def State.limitReached (s : State) : Bool :=
  match s.seq.cartoon with
  | some c => c.stepLimit != 0 && decide (c.stepLimit.toNat ≤ s.seq.stepsDone + 1)
  | none => true

/-- A role whose check for the tick is missing when the last tail begins. -/
def State.checkGears (s : State) : State :=
  if s.lastStroke then
    s.otherRoles.foldl (fun s r => if (s.roleRequest s.tick r).isNone then s.lateMessage r 7 else s) s
  else s

/-! ### The capture (R114, R115) -/

def captureBytes (e : Engine) : List Byte :=
  ((List.range 512).flatMap fun r => (e.accRow r).vals.flatMap fun v => leBytes 4 v.toNat)
    ++ (List.range 512).flatMap fun r => leBytes 2 (unsigned 16 (e.accRow r).t)

def State.capEngine (s : State) : EngineLoc :=
  { plate := Fin.ofNat 2 s.regs.capPlate.toNat, cluster := Fin.ofNat 36 s.regs.capCluster.toNat,
    lengine := Fin.ofNat 8 s.regs.capLengine.toNat }

def State.captureTail (s : State) : State :=
  if s.regs.capArmed && s.regs.capStep == s.seq.curStep && s.regs.capStroke.toNat == s.seq.strokeInStep then
    { s with regs := { s.regs with capture := captureBytes (s.engine s.capEngine), capDone := true } }
  else s

/-- Step 1 of R28, and what the tail forms beside it. -/
def State.tailCollect (s : State) : State :=
  let s := (s.reachTail.advanceTo (s.countAt s.tailStart)).checkOverruns.dropWorks
  let s := (s.settleCharges s.cycles).reportMeta.reportSuppressed.compareShadows
  let s := s.checkGears.collectLate.normTail.setExponents
  let s := s.tailEvents.foldl (fun s e => s.emitRaw e.source e.code e.payload) { s with tailEvents := [] }
  ((seamLinks ++ allPorts.map LinkRef.kazin).foldl State.countReplays s).captureTail

/-! ### Steps 2 to 5 -/

/-- Step 4: stations' mark updates, then the remote ones. -/
def State.tailMarks (s : State) : State := s.settleMarks.addRemoteMarks

/-- Step 5: the stroke's records close in its last cycle. -/
def State.closeRecords (s : State) : State :=
  let t := BitVec.ofNat 64 s.strokeEnd
  let l := s.opened.map fun r => { r with time := t }
  ({ s with closed := s.closed ++ l, opened := [] }).advanceTo s.strokeEnd

/-! ### How the stroke ends the step, or does not (R24, R43, R44, R340) -/

/-- The step ends here with a fault record. -/
def State.endFaulted (s : State) (code aux fields : Nat) (notice : Bool) : State :=
  let s := s.proofRecords.endRecord 1 code aux fields
  if notice then s.sendStop code else s

/-- After the records have closed: the state of a device whose step ended in a fault. -/
def State.afterFault (s : State) : State :=
  let bad := mismatched s.seq.faults
  let seam := s.seq.seamFailed && !s.plateFault
  let s := s.stopped
  { s with
    seamRetraining := s.seamRetraining || seam,
    seq := { s.seq with seamFailed := false, checkFault := !bad.isEmpty, checkClusters := bad,
                        phase := if bad.isEmpty then .none else .checkDue } }

/-- The checkpoint block (R450). -/
def State.laneBytes (s : State) : List Byte :=
  (List.range 2320).flatMap fun i =>
    let on := decide (2304 ≤ i) || (smapGet Gate.reset s.gates (i / 32)).state == .on
    leBytes 8 (if on then (smapGet 0 s.lanes i).toNat else 0)

def State.checkpointBody (s : State) : List Byte :=
  leBytes 4 0x4B43_4D43 ++ leBytes 2 1 ++ leBytes 2 0x4230 ++ leBytes 8 s.seq.curStep.toNat
    ++ leBytes 8 s.seq.curStroke.toNat ++ leBytes 4 s.edition.number.toNat
    ++ leBytes 1 (s.role.getD 0 + 8 * boolNat s.role.isSome) ++ leBytes 1 s.groupSize
    ++ leBytes 2 s.regs.roleEpoch.toNat
    ++ leBytes 48 (match s.seq.cartoon with | some c => c.digest.toNat | none => 0)
    ++ leBytes 1 (boolNat s.edition.genMode) ++ leBytes 1 s.boot.plates.toNat ++ List.replicate 174 0
    ++ s.laneBytes ++ (List.range 4096).flatMap fun m => leBytes 8 (s.mark m).toNat

def State.writeCheckpoint (s : State) : State :=
  let body := s.checkpointBody
  let d := sha384 body
  let p := if bitAt s.boot.plates.toNat 0 then 0 else 1
  (s.placeBytes srcSeq (s.ckptBase p) (body ++ d)).emit srcSeq 0x0180 [(384, ofLe d)]

/-- The gap, or check stroke, that follows a finished step (R295, R442, R507). -/
def State.checkFollows (s : State) : Bool :=
  s.edition.xcheck && (s.variantOf s.seq.curStep.toNat).probe

/-- The count from which the next step may begin: after the check stroke, and after the gap of a gear change. -/
def State.nextBegin (s : State) (changes : Bool) : Nat :=
  s.strokeEnd + (if s.checkFollows then s.quanta * quantumCounts s.regs.gearNow.toNat else 0)
    + (if changes then 20000 else 0)

/-- What a finished step writes before its records close: the checkpoint block, the gear change of the next step,
the proof records and the completion record; and the next step's seed (R306). -/
def State.endComplete (s : State) (seedReadFails : Bool) : State :=
  let s := if (s.variantOf s.seq.curStep.toNat).checkpoint then s.writeCheckpoint else s
  let s := if !s.limitReached && s.nextGear != s.regs.gearNow.toNat then
      s.emit srcSeq 0x0327 [f8 s.regs.gearNow.toNat, f8 s.nextGear, f64 (s.nextBegin true), s.slotField]
    else s
  let s := s.proofRecords.endRecord 0 0x0100 0 0
  if s.limitReached then s else s.seedFor (s.seq.curStep.toNat + 1) seedReadFails

/-- What follows the step's records: a check stroke or the next step, at the gear that the group chose. The run's last
step is followed by no gear change. -/
def State.followStep (s : State) (last : Bool) : State :=
  let check := s.checkFollows
  let gear := s.nextGear
  let changes := !last && gear != s.regs.gearNow.toNat
  let gates := (List.range 72).filter fun i =>
    s.plateOffered (i / 36) && (smapGet Gate.reset s.gates i).state == .on
  { s with seq := { s.seq with
    prevEnd := BitVec.ofNat 64 (s.nextBegin changes), phase := if check then .checkDue else .stepDue, alarmed := false,
    checkClusters := if check then gates else [], checkFault := false,
    gearPending := if changes then some (BitVec.ofNat 2 gear) else none } }

/-- After the records have closed: a check stroke follows a probe step, the run's last step among them (R442), and then
the next step is due. -/
def State.afterComplete (s : State) : State :=
  let s := s.followStep s.limitReached
  let s := { s with seq := { s.seq with
    stepsDone := s.seq.stepsDone + 1, firstOpen := some (s.seq.curStep + 1), nextStep := s.seq.curStep + 1 } }
  if s.seq.phase = .checkDue then (if s.limitDone then s else s.betweenSteps)
  else if s.limitDone then s.runEnded
  else
    let s := s.takeGear.betweenSteps
    if s.seq.state = .waiting && s.seq.abortAt.isSome then s.abortBetween else s

/-- The stroke was not the step's last: the next one follows at once. -/
def State.afterStroke (s : State) : State :=
  { s with seq := { s.seq with phase := .strokeDue, strokeInStep := s.seq.strokeInStep + 1,
                               strokeStart := s.boardTime } }

/-- How the stroke ends. -/
inductive StrokeEnd where
  | faulted (code aux fields : Nat) (notice : Bool)
  | complete
  | goesOn
  deriving DecidableEq, Repr

/-- Own faults come first, then a peer's stop notice, then an abort (R43, R44, R340). -/
def State.strokeEnds (s : State) : StrokeEnd :=
  match chooseFault s.seq.faults with
  | some f => .faulted f.code f.aux.toNat f.fields.toNat true
  | none =>
    match s.seq.stopBy with
    | some (code, role) => .faulted code.toNat 0 (packFields [f16 role.toNat]) false
    | none =>
      if s.seq.abortAt = some s.seq.curStroke.toNat then .faulted 0x0109 0 0 true
      else if s.lastStroke then .complete else .goesOn

def State.reportRest (s : State) : State :=
  match chooseFault s.seq.faults with
  | some f => s.reportOthers f
  | none => s

def strokeTailEffect (seedReadFails : Bool) (s : State) : State :=
  let s := s.tailCollect.applyRemaps.flipLinks.tailMarks
  match s.strokeEnds with
  | .faulted code aux fields notice =>
    (s.reportRest.endFaulted code aux fields notice).closeRecords.afterFault
  | .complete => (s.endComplete seedReadFails).closeRecords.afterComplete
  | .goesOn => s.closeRecords.afterStroke

/-- STROKE_TAIL (R28). -/
def execStrokeTail (seedReadFails : Bool) (s : State) : Out :=
  if s.seq.phase = .inStroke then .next (strokeTailEffect seedReadFails s) else .next s

/-! ### STEP_BEGIN (R32–R40) -/

/-- What keeps the step from beginning: a seed that could not be taken, or R34. Of a step with both the spec names
neither code first; the record takes the seed's. Log entry 71. -/
def State.beginFault (s : State) : Option (Nat × Nat) :=
  let n := s.seq.nextStep.toNat
  let c := s.seq.cartoon.getD noCartoon
  let v := selectVariant c n
  let probe := (s.variantOf n).probe
  match s.seq.seedFault with
  | some f => some (f.code, f.fields.toNat)
  | none =>
    if probe != isProbeStep c.maskEpoch.toNat n then
      some (0x0105, packFields [f16 v.1, f16 v.2, f8 (boolNat probe), f32 c.maskEpoch.toNat])
    else if (s.variantOf n).seedSel = 1 ∧ s.seq.nextSeed.isNone then some (0x0141, 0)
    else none

/-- The step's own state as it begins (R227, R306, R448). -/
def State.freshStep (s : State) (start : Nat) : State :=
  let n := s.seq.nextStep.toNat
  let v := s.variantOf n
  let auto := decide (v.seedSel = 1)
  { s with
    partials := [], charges := [], norm := none,
    clip := { factor := 0x3F80_0000#32, nonfinite := false, validFrom := none },
    seq := { s.seq with
      state := .running, phase := .strokeDue, curStep := s.seq.nextStep,
      curStroke := BitVec.ofNat 64 s.seq.strokesRun, strokeInStep := 0,
      variant := (selectVariant (s.seq.cartoon.getD noCartoon) n).1, strokeStart := BitVec.ofNat 64 start,
      wait := BitVec.ofNat 64 (start - s.seq.prevEnd.toNat), events := if s.seq.alarmed then 1 else 0,
      seed := if auto then (match s.seq.nextSeed with | some x => x.1 | none => 0) else v.seed,
      seedAuto := auto, seedReplayed := auto && (match s.seq.nextSeed with | some x => x.2 | none => false),
      nextSeed := none, proof := [], closing := false } }

/-- The gate-wait records of R40. -/
def State.gateEvents (s : State) (start : Nat) : State :=
  let n := s.seq.curStep.toNat
  if start ≤ s.seq.prevEnd.toNat then s
  else
    let role := match s.latestReady n (List.range s.groupSize) with | some x => x.2 | none => 0
    let s := s.emit srcSeq 0x0106 [f64 s.seq.prevEnd.toNat, f64 start, f16 role]
    if s.regs.gateAlarm.toNat < start - s.seq.prevEnd.toNat ∧ !s.seq.alarmed then s.emit srcSeq 0x0107 []
    else s

def stepBeginEffect (start : Nat) (s : State) : State :=
  let s := s.advanceTo start
  match s.beginFault with
  | some (code, fields) => s.stopBetween code fields true
  | none => (s.freshStep start).gateEvents start

/-- STEP_BEGIN (R39). -/
def execStepBegin (s : State) : Out :=
  if s.seq.phase = .stepDue then
    match s.startCount s.seq.nextStep.toNat with
    | some start => .next (stepBeginEffect start s)
    | none => .next s
  else .next s

/-! ### What happens in a wait (R40, R41) -/

/-- The count at which the wait exceeds the threshold. -/
def State.alarmCount (s : State) : Nat := s.seq.prevEnd.toNat + s.regs.gateAlarm.toNat + 1

/-- The alarm's record carries the step that waits, and the number of its first stroke. -/
def gateAlarmEffect (s : State) : State :=
  let s := s.advanceTo s.alarmCount
  let r := { s.mkRecord 2 srcSeq 0x0107 0 with step := s.seq.nextStep, stroke := BitVec.ofNat 64 s.seq.strokesRun }
  let s := { s with seq := { s.seq with alarmed := true } }
  (s.addRecord r).logRecord r

/-- GATE_ALARM (R40): the wait goes on. -/
def execGateAlarm (s : State) : Out :=
  let late := match s.startCount s.seq.nextStep.toNat with
    | some t => decide (s.alarmCount ≤ t)
    | none => true
  if s.seq.phase = .stepDue ∧ s.seq.state = .waiting ∧ s.seq.alarmed = false ∧ late = true then .next (gateAlarmEffect s)
  else .next s

/-- A stack's controller refreshes: in the band that the MSS has last set, with as many commands as the band and the
gear ask for (R31, R412). -/
def State.refreshStack (s : State) (closing : Bool) (n : Nat) : State :=
  let double := (smapGet RefreshBand.reset s.mss.bands n).double
  { s with mss := { s.mss with
      bandInForce := smapPut false s.mss.bandInForce n double,
      refreshes := smapMod 0 s.mss.refreshes n (· + Config.refreshCommands closing s.regs.gearNow double) } }

/-- Every controller completes a closing refresh (R41). -/
def closingRefreshEffect (start : Nat) (s : State) : State :=
  let s := { s with seq := { s.seq with closing := true } }.advanceTo (start - 2000)
  (List.range 10).foldl (fun s n => if s.plateOffered (n / 5) then s.refreshStack true n else s) s

/-- CLOSING_REFRESH, 2,000 counts before the start. Where that count has passed when the start is known, the spec names
no closing refresh, and none comes. Log entry 69. -/
def execClosingRefresh (s : State) : Out :=
  match s.startCount s.seq.nextStep.toNat with
  | some start =>
    if s.seq.phase = .stepDue ∧ !s.seq.closing ∧ s.boardTime.toNat + 2000 ≤ start then
      .next (closingRefreshEffect start s)
    else .next s
  | none => .next s

/-- REFRESH_SLOT (R30): slot `k` of a stack, from cycle 2,520 k + 252 n on, once in every stroke. -/
def execRefreshSlot (stack : Fin 10) (k : BitVec 12) (s : State) : Out :=
  if s.seq.phase = .inStroke ∧ 2520 * k.toNat + 252 * stack.val + 252 ≤ s.cycles
      ∧ !s.seq.refreshDone.contains (stack.val, k.toNat) then
    .next ({ s with seq := { s.seq with refreshDone := s.seq.refreshDone ++ [(stack.val, k.toNat)] } }.refreshStack
      false stack.val)
  else .next s

end Sys2Proof.Machine
end

