-- ==== Sys2Proof/Machine/Landing.lean ====
section
/-! DEFINITION. What lands on the links: stroke closes, data flits, frames and their replay, and the control
messages (R256, R259–R266, R273, R286–R293). -/

namespace Sys2Proof.Machine

/-- Whether a link carries flits: a Kazin port that is UP or finishes its drain, and has not left the run; a Seam
channel that is locked. -/
def State.linkLive (s : State) : LinkRef → Bool
  | .kazin k => (s.port k.val).live && !(s.port k.val).left
  | .seam _ ch => (s.seamChan ch.val).locked

/-- The form of every landing: the link must carry flits. -/
def landStep (s : State) (l : LinkRef) (effect : State → State) : Out :=
  if s.linkLive l then .next (effect s) else .next s

/-- The header of a landed control message, of the type that its row names. -/
def ctrlHeader (h : FlitHeader) (ctype : Nat) : FlitHeader := { h with kind := 2, ctype := BitVec.ofNat 8 ctype }

/-- A control flit lands; its message is acted on unless it is a duplicate or stale. -/
def landCtrl (l : LinkRef) (h : FlitHeader) (act : Nat → State → State) (s : State) : State :=
  let n := s.ctrlNumber l h
  let r := s.acceptCtrl l h
  if r.1 then act n r.2 else r.2

/-! ### Launches refused -/

/-- A launch is refused before LAUNCH_AT (R289): event 0x0326 names a role, the device returns to LOADED and tells
every role. -/
def State.refuseLaunch (s : State) (role : Nat) : State :=
  let s := s.emit srcSeq 0x0326 [f16 role, s.slotField]
  let s := s.sendStop 0x0326
  let s := s.leaveRun
  { s with seq := { s.seq with state := .loaded } }

/-! ### STROKE_CLOSE (R263) -/

/-- A close that lands when the tail has begun is missing. -/
def landClose (l : LinkRef) (m : CloseMsg) (n : Nat) (s : State) : State :=
  if s.tailPassed then s else s.setLink l { s.link l with rxClose := some m, rxCloseNumber := n }

/-- STROKE_CLOSE: the counts are compared when the tail begins. -/
def execStrokeClose (l : LinkRef) (h : FlitHeader) (m : CloseMsg) (s : State) : Out :=
  landStep s l (landCtrl l (ctrlHeader h 1) (landClose l m))

/-! ### STROKE_CLOSE_SEND (R263, R273) -/

/-- The control number of the next flit that a link takes. -/
def Link.nextCtrl (x : Link) : Nat := x.txCtrl + x.ctrlQueue.length

/-- The close of one port: its data flits, and its control flits since the previous close. -/
def State.sendClose (s : State) (k : Fin 16) : State :=
  if s.linkUp (.kazin k) then
    let x := s.link (.kazin k)
    let n := x.nextCtrl
    let s := s.sendCtrl k ((mapRole s.regs.roleMap (s.lane k.val).peerSlot.toNat).getD 0) 1
      (closePayload x.txData (n - x.ctrlAtClose) s.seq.curStroke.toNat)
    s.setLink (.kazin k) { s.link (.kazin k) with ctrlAtClose := n + 1 }
  else s

/-- The close of one Seam channel: it crosses and lands on the other plate. -/
def State.seamClose (s : State) (p : Fin 2) (ch : Fin 48) : State :=
  let l := LinkRef.seam p ch
  if s.linkUp l then
    let x := s.link l
    let h := { s.flitHeader (s.role.getD 0) true 1 false with seq := BitVec.ofNat 12 x.txCtrl }
    let m : CloseMsg := ⟨BitVec.ofNat 32 x.txData, BitVec.ofNat 32 (x.txCtrl - x.ctrlAtClose), s.seq.curStroke⟩
    let n := s.ctrlSlotFrom (max x.ctrlFrom s.nowCount)
    let f : Flit := ⟨h, x.txCtrl, padTo 250 0 (closePayload x.txData (x.txCtrl - x.ctrlAtClose) s.seq.curStroke.toNat), n⟩
    let s := s.setLink l ({ x with txCtrl := x.txCtrl + 1, ctrlAtClose := x.txCtrl + 1, ctrlFrom := n + 1 }.put
      s.nowCount f)
    landCtrl (.seam (1 - p) ch) h (landClose (.seam (1 - p) ch) m) s
  else s

def strokeCloseSendEffect (s : State) : State :=
  let s := s.runTo (s.cycles - 4000)
  let s := allPorts.foldl State.sendClose s
  let s := (List.finRange 48).foldl (fun s ch => (s.seamClose 0 ch).seamClose 1 ch) s
  let s := if s.segMax.isEmpty then s else s.sendToAll 6 s.maximaOut
  { s with seq := { s.seq with closeSent := true } }

/-- STROKE_CLOSE_SEND, once in every stroke. -/
def execStrokeCloseSend (s : State) : Out :=
  if s.seq.phase = .inStroke ∧ s.seq.closeSent = false then .next (strokeCloseSendEffect s) else .next s

/-! ### DATA_FLIT (R262) -/

def landDataFlit (l : LinkRef) (h : FlitHeader) (payload : List Byte) (s : State) : State :=
  s.landData l h (fun n => s.openPayload l h payload n)

/-- DATA_FLIT: the payload is as the wire carries it. -/
def execDataFlit (l : LinkRef) (h : FlitHeader) (payload : List Byte) (s : State) : Out :=
  landStep s l (landDataFlit l { h with kind := 1 } payload)

/-! ### GATE_NOTICE (R38, R39, R42) -/

/-- A notice that comes after the start count it completes is a late delivery (R42). -/
def State.checkLateNotice (s : State) (k : Fin 16) (role step : Nat) : State :=
  if s.seq.phase = .stepDue ∧ s.seq.nextStep.toNat = step then
    match s.startCount step with
    | some t =>
      if t < s.boardTime.toNat then
        s.stopBetween 0x0301 (packFields [f16 k.val, f8 1, f64 (2 ^ 64 - 1), f8 3, f16 role]) true
      else s
    | none => s
  else s

/-- A role's latest notice for a step holds. Log entry 20. -/
def landGate (k : Fin 16) (role : Nat) (step ready : DWord) (s : State) : State :=
  let s := { s with seq := { s.seq with
    notices := smapPut none s.seq.notices (noticeKey step.toNat role) (some ready) } }
  s.checkLateNotice k role step.toNat

def execGateNotice (port : Fin 16) (h : FlitHeader) (step ready : DWord) (s : State) : Out :=
  landStep s (.kazin port) (landCtrl (.kazin port) (ctrlHeader h 3) fun _ => landGate port h.srcRole.toNat step ready)

/-! ### STOP_NOTICE (R44, R289, R340) -/

def landStop (role : Nat) (m : StopMsg) (s : State) : State :=
  let keep := { s with seq := { s.seq with stopBy := s.seq.stopBy.orElse fun _ => some (m.code, m.role) } }
  match s.seq.phase with
  | .inStroke => keep
  | .strokeDue => keep
  | .checkDue => if s.seq.checkFault then s else keep
  | .stepDue =>
    -- A step whose start has come runs its first stroke; any other does not begin.
    match s.startCount s.seq.nextStep.toNat with
    | some t => if t ≤ s.boardTime.toNat then keep else s.stopBetween m.code.toNat (packFields [f16 m.role.toNat]) false
    | none => s.stopBetween m.code.toNat (packFields [f16 m.role.toNat]) false
  | .none => if s.seq.state = .armed ∧ s.seq.abortPending = false then s.refuseLaunch role else s

def execStopNotice (port : Fin 16) (h : FlitHeader) (m : StopMsg) (s : State) : Out :=
  landStep s (.kazin port) (landCtrl (.kazin port) (ctrlHeader h 4) fun _ => landStop h.srcRole.toNat m)

/-! ### REMOTE_MARK (R94, R339) -/

/-- At a RUNNING or WAITING device the add waits for the stroke tail; at any other it takes effect on landing. -/
def landMark (mark : BitVec 16) (value : DWord) (s : State) : State :=
  if s.goesOn then { s with remoteMarks := s.remoteMarks ++ [⟨mark.setWidth 12, value⟩] }
  else s.updateMark (mark.toNat % 4096) (· + value)

def execRemoteMark (port : Fin 16) (h : FlitHeader) (mark : BitVec 16) (value : DWord) (s : State) : Out :=
  landStep s (.kazin port) (landCtrl (.kazin port) (ctrlHeader h 2) fun _ => landMark mark value)

/-! ### NORM_TOTAL (R231, R264) -/

/-- A total of another MODE than that of the NORM is discarded and ends the step; one that lands when the tail has
begun has not arrived. -/
def landNorm (k : Fin 16) (role : BitVec 3) (m : NormMsg) (s : State) : State :=
  if s.seq.phase = .none ∨ s.tailPassed then s
  else if (match s.norm with | some j => j.mode != m.mode | none => false) then
    s.raiseAsync (srcPort k.val) 0x0302 [f16 k.val, f8 1]
  else { s with seq := { s.seq with normMsgs := s.seq.normMsgs ++ [(role, m)] } }

def execNormTotal (port : Fin 16) (h : FlitHeader) (m : NormMsg) (s : State) : Out :=
  landStep s (.kazin port) (landCtrl (.kazin port) (ctrlHeader h 5) fun _ => landNorm port h.srcRole m)

/-! ### EXPONENT_MAXIMA (R273) -/

def landMaxima (role : BitVec 3) (maxima : List (BitVec 16)) (s : State) : State :=
  if s.seq.phase = .none ∨ s.tailPassed then s
  else { s with seq := { s.seq with maxima := s.seq.maxima ++ [(role, maxima)] } }

def execExponentMaxima (port : Fin 16) (h : FlitHeader) (maxima : List (BitVec 16)) (s : State) : Out :=
  landStep s (.kazin port) (landCtrl (.kazin port) (ctrlHeader h 6) fun _ => landMaxima h.srcRole maxima)

/-! ### ROLE_STALE_REPORT (R292) -/

/-- A running or waiting device raises the fault in its stroke tail, for a report that lands when the tail has begun in
the next one; any other writes the event. -/
def landStale (k : Fin 16) (m : StaleMsg) (s : State) : State :=
  if s.goesOn then { s with seq := { s.seq with staleReports := s.seq.staleReports ++ [(k.val, m, s.tailPassed)] } }
  else s.staleEvent k.val m

def execRoleStaleReport (port : Fin 16) (h : FlitHeader) (m : StaleMsg) (s : State) : Out :=
  landStep s (.kazin port) (landCtrl (.kazin port) (ctrlHeader h 8) fun _ => landStale port m)

/-! ### Board-time checks (R286, R287) -/

def runStateCode : RunState → Nat
  | .idle => 0 | .loaded => 1 | .armed => 2 | .running => 3 | .waiting => 4 | .faulted => 5

/-- The check that a port sends. -/
def State.checkMsg (s : State) (k : Nat) : CheckMsg :=
  { txTime := s.boardTime,
    echoTx := match (s.port k).check with | some c => c.msg.txTime | none => 0,
    echoRx := match (s.port k).check with | some c => BitVec.ofNat 64 c.landing16 | none => 0,
    launchAt := if s.busyRun then s.seq.launchAt else 0,
    baseStep := s.regs.baseStep, edition := s.edition.number, roleEpoch := s.regs.roleEpoch,
    slot := s.boot.boardSlot, hasRole := BitVec.ofNat 1 (boolNat s.role.isSome),
    role := BitVec.ofNat 3 (s.role.getD 0), groupSize := BitVec.ofNat 4 s.groupSize, gearReq := s.regs.gearReq,
    gearNow := s.regs.gearNow, runState := BitVec.ofNat 3 (runStateCode s.seq.state),
    strokeQuanta := BitVec.ofNat 10 s.quanta }

def State.sendCheck (s : State) (k : Fin 16) : State :=
  s.sendCtrl k ((mapRole s.regs.roleMap (s.lane k.val).peerSlot.toNat).getD 0) 7 (checkPayload (s.checkMsg k.val))

/-- The multiple of 65,536 at which a port sends its next check. -/
def State.checkAt (s : State) (k : Nat) : Nat :=
  let t := s.boardTime.toNat
  if t % 65536 = 0 ∧ (s.port k).checkTick ≠ t + 1 then t else (t / 65536 + 1) * 65536

/-- The check goes out in the first control slot from the tick on. -/
def tickCheckEffect (k : Fin 16) (s : State) : State :=
  let t := s.checkAt k.val
  let s := s.advanceTo t
  (s.setPort k.val { s.port k.val with checkTick := t + 1 }).sendCheck k

/-- BOARD_TIME_CHECK_SEND (R286), on a port that is UP. -/
def execBoardTimeCheckSend (port : Fin 16) (s : State) : Out :=
  if (s.port port.val).state = .up then .next (tickCheckEffect port s) else .next s

/-- The offset of the peer, in units of 1/16 count; none before the peer has a check to echo. Log entry 21. -/
def checkOffset (m : CheckMsg) (landing16 : Nat) : Option Int :=
  if m.echoTx = 0 ∧ m.echoRx = 0 then none
  else some ((((m.echoRx.toNat : Int) - 16 * m.echoTx.toNat) - ((landing16 : Int) - 16 * m.txTime.toNat)).tdiv 2)

def overBoth (limit : Nat) (old new : Option Int) : Bool :=
  match old, new with
  | some a, some b => decide (limit < a.natAbs) && decide (limit < b.natAbs)
  | _, _ => false

/-- The role of the slot behind a port. -/
def State.peerRole (s : State) (k : Nat) : Nat := (mapRole s.regs.roleMap (s.lane k).peerSlot.toNat).getD 0

def State.checkSkew (s : State) (k : Fin 16) (old new : Option Int) : State :=
  let n := fun (o : Option Int) => f64 (unsigned 64 (o.getD 0))
  let s := if overBoth 32 old new then
      s.emit (srcPort k.val) 0x0324 [f16 k.val, n old, n new, s.slotField] else s
  if overBoth 320 old new then
    -- An ARMED device has no step that the fault could end: it is an event, and refuses the launch.
    if s.seq.state = .armed ∧ s.seq.abortPending = false then
      (s.emit (srcPort k.val) 0x0325 [s.slotField]).refuseLaunch (s.peerRole k.val)
    else s.raiseAsync (srcPort k.val) 0x0325 [s.slotField]
  else s

/-- The gear that a role requested at a tick; of ticks before the one that this stroke needs, none is kept (R294). -/
def State.keepGear (s : State) (tick role : Nat) (g : BitVec 2) : State :=
  let first := (if s.busyRun then s.seq.strokeStart.toNat else s.boardTime.toNat) / 65536 * 65536
  { s with seq := { s.seq with
      gearChecks := (tick, role, g) :: s.seq.gearChecks.filter fun x =>
        decide (first ≤ x.1) && !(x.1 == tick && x.2.1 == role) } }

def landCheck (k : Fin 16) (m : CheckMsg) (landing16 : Nat) (s : State) : State :=
  let p := s.port k.val
  let off := checkOffset m landing16
  let s := s.setPort k.val { p with check := some ⟨m, landing16⟩, offset := off }
  let s := if m.hasRole = 1 then s.keepGear (m.txTime.toNat / 65536 * 65536) m.role.toNat m.gearReq else s
  s.checkSkew k p.offset off

/-- BOARD_TIME_CHECK: the landing time is measured in units of 1/16 count. -/
def execBoardTimeCheck (port : Fin 16) (h : FlitHeader) (m : CheckMsg) (landing16 : Nat) (s : State) : Out :=
  landStep s (.kazin port) (landCtrl (.kazin port) (ctrlHeader h 7) fun _ => landCheck port m landing16)

/-! ### FRAME (R254–R260) -/

/-- Reading payload fields. -/
def payInt (p : List Byte) (at_ n : Nat) : Nat := ofLe ((p.drop at_).take n)

def parseClose (p : List Byte) : CloseMsg :=
  ⟨BitVec.ofNat 32 (payInt p 0 4), BitVec.ofNat 32 (payInt p 4 4), BitVec.ofNat 64 (payInt p 8 8)⟩
def parseStop (p : List Byte) : StopMsg :=
  ⟨BitVec.ofNat 16 (payInt p 0 2), BitVec.ofNat 8 (payInt p 2 1), BitVec.ofNat 64 (payInt p 3 8),
   BitVec.ofNat 64 (payInt p 11 8)⟩
def parseNorm (p : List Byte) : NormMsg :=
  { mode := BitVec.ofNat 1 (payInt p 249 1), aligned := BitVec.ofNat 1 (payInt p 249 1 / 2),
    total := BitVec.ofNat 32 (payInt p 0 4), expMax := BitVec.ofNat 16 (payInt p 0 2),
    slots := (List.range 10).map fun i => BitVec.ofNat 128 (payInt p (10 + 16 * i) 16) }
def parseStale (p : List Byte) : StaleMsg :=
  let x := ofLe p
  { staleDestRole := BitVec.ofNat 3 x, staleEpoch := BitVec.ofNat 16 (x >>> 3),
    staleSrcRole := BitVec.ofNat 3 (x >>> 19), staleKind := BitVec.ofNat 2 (x >>> 22),
    staleSeq := BitVec.ofNat 40 (x >>> 24), rxSlot := BitVec.ofNat 3 (x >>> 64),
    rxHasRole := BitVec.ofNat 1 (x >>> 67), rxRole := BitVec.ofNat 3 (x >>> 68),
    rxEpoch := BitVec.ofNat 16 (x >>> 72), staleCount := BitVec.ofNat 32 (x >>> 88),
    stroke := BitVec.ofNat 64 (x >>> 120) }
def parseCheck (p : List Byte) : CheckMsg :=
  let x := ofLe p
  { txTime := BitVec.ofNat 64 x, echoTx := BitVec.ofNat 64 (x >>> 64), echoRx := BitVec.ofNat 64 (x >>> 128),
    launchAt := BitVec.ofNat 64 (x >>> 192), baseStep := BitVec.ofNat 64 (x >>> 256),
    edition := BitVec.ofNat 32 (x >>> 320), roleEpoch := BitVec.ofNat 16 (x >>> 352),
    slot := BitVec.ofNat 3 (x >>> 368), hasRole := BitVec.ofNat 1 (x >>> 371), role := BitVec.ofNat 3 (x >>> 372),
    groupSize := BitVec.ofNat 4 (x >>> 376), gearReq := BitVec.ofNat 2 (x >>> 380),
    gearNow := BitVec.ofNat 2 (x >>> 382), runState := BitVec.ofNat 3 (x >>> 384),
    strokeQuanta := BitVec.ofNat 10 (x >>> 392) }

/-- The message of a control flit, by its type. -/
def actOnMessage (k : Fin 16) (h : FlitHeader) (p : List Byte) (n : Nat) (s : State) : State :=
  match h.ctype.toNat with
  | 1 => landClose (.kazin k) (parseClose p) n s
  | 2 => landMark (BitVec.ofNat 16 (payInt p 0 2)) (BitVec.ofNat 64 (payInt p 2 8)) s
  | 3 => landGate k h.srcRole.toNat (BitVec.ofNat 64 (payInt p 0 8)) (BitVec.ofNat 64 (payInt p 8 8)) s
  | 4 => landStop h.srcRole.toNat (parseStop p) s
  | 5 => landNorm k h.srcRole (parseNorm p) s
  | 6 => landMaxima h.srcRole ((List.range 64).map fun j => BitVec.ofNat 16 (payInt p (2 * j) 2)) s
  | 7 => landCheck k (parseCheck p) (16 * s.boardTime.toNat) s
  | 8 => landStale k (parseStale p) s
  | _ => s

/-- A kept flit lands. An idle flit, and one of KIND 3, is nothing. -/
def landFlit (l : LinkRef) (fl : List Byte) (s : State) : State :=
  let h := parseHeader fl
  let p := fl.take 250
  match h.kind.toNat with
  | 1 => landDataFlit l h p s
  | 2 =>
    match l with
    | .kazin k =>
      landCtrl l h (fun n s => actOnMessage k h (s.openPayload l h p n) n s) s
    | .seam _ _ => landCtrl l h (fun n s => if h.ctype = 1 then landClose l (parseClose p) n s else s) s
  | _ => s

/-- The unacknowledged flit that a sequence names. -/
def findSeq (l : List Flit) (seq : Nat) : Option Nat :=
  (l.find? fun f => f.number % 4096 == seq % 4096).map (·.number)

/-- The acknowledgements, the losses and the lane request of a frame control field (R256). -/
def Link.control (x : Link) (c : Nat) : Link :=
  let x := { x with txUnacked := dropAcked (field c 0 12) x.txUnacked,
                    txCtrlUnacked := dropAcked (field c 12 12) x.txCtrlUnacked }
  if bitAt c 24 then
    let ctrl := bitAt c 25
    (List.range (field c 38 3 + 1)).foldl (fun x i =>
      match findSeq (if ctrl then x.txCtrlUnacked else x.txUnacked) (field c 26 12 + i) with
      | some n => queueReplay x ctrl n
      | none => x) x
  else x

/-- The peer asks for a swap of a lane that this end sends on: an urgent request takes the place of a planned one. -/
def LaneDir.asked (d : LaneDir) (lane : Fin 8) (urgent : Bool) : LaneDir :=
  match d.request with
  | none => { d with request := some (lane, urgent), acked := none }
  | some (_, old) => if urgent && !old then { d with request := some (lane, true), acked := none } else d

/-- The peer answers a request of this end, in frame `n`. -/
def LaneDir.answered (d : LaneDir) (n : Nat) : LaneDir :=
  if d.request.isSome && d.acked.isNone then { d with acked := some n } else d

/-- The lane requests and answers of frame `n`. -/
def Port.control (p : Port) (n c : Nat) : Port :=
  { p with
    tx := if bitAt c 41 then p.tx.asked (Fin.ofNat 8 (field c 43 3)) (bitAt c 42) else p.tx,
    rx := if bitAt c 46 then p.rx.answered n else p.rx }

/-- The frame control field of frame `n` acts (R256). -/
def State.frameControl (s : State) (l : LinkRef) (n c : Nat) : State :=
  let s := s.setLink l { (s.link l).control c with peerTime := BitVec.ofNat 31 (field c 47 31) }
  match l with
  | .kazin k => (s.setPort k.val ((s.port k.val).control n c)).pumpLink k
  | .seam _ _ => s

/-- The numbers that the receiver names as lost: the gaps below the highest landed number and, while more flits of
the frame were lost than that, the numbers that follow. Log entry 22. -/
def lostNumbers (next : Nat) (ahead : List Nat) (lost : Nat) : List Nat :=
  let top := ahead.foldl max next
  let gaps := ((List.range (top - next)).map (· + next)).filter fun n => !ahead.contains n
  let first := if ahead.isEmpty then next else top + 1
  gaps ++ (List.range (lost - gaps.length)).map (· + first)

/-- The class of a lost flit's slot says whether it was a data or a control flit. -/
def Link.nameLost (x : Link) (data ctrl : Nat) : Link :=
  let l := (lostNumbers x.rxNext x.rxAhead data).map fun n => (false, n)
  let c := (lostNumbers x.rxCtrlNext x.rxCtrlAhead ctrl).map fun n => (true, n)
  { x with nacks := (l ++ c).foldl addNack x.nacks }

/-- The counters of R366, and of each active lane position (R274). -/
def State.countCodewords (s : State) (l : LinkRef) (f : RxFrame) : State :=
  let bad := (f.kept.filter (!·)).length
  match l with
  | .kazin k =>
    let p := s.port k.val
    s.setPort k.val { p with
      correctedSymbols := satAdd p.correctedSymbols f.corrected, uncorrectable := satAdd p.uncorrectable bad,
      rx := { p.rx with corrected := addLanes p.rx.corrected f.byLane } }
  | .seam _ ch =>
    let g := fun (c : SeamChan) => { c with correctedSymbols := satAdd c.correctedSymbols f.corrected,
                                            uncorrectable := satAdd c.uncorrectable bad }
    { s with seam := smapMod .up s.seam ch.val g }

/-- Lost flits of a frame in slots of a class. -/
def State.lostIn (s : State) (c : SlotClass) (first : Nat) (flits : List (Option (List Byte))) : Nat :=
  (flits.zipIdx.filter fun p => p.1.isNone && s.slotClass (first + p.2) == c).length

/-- The first losses that a frame can name: up to eight consecutive flits of a kind. -/
def nackRun : List (Bool × Nat) → List (Bool × Nat)
  | [] => []
  | x :: _ => (List.range 8).map fun i => (x.1, x.2 + i)

/-- The losses of a run that are to be named, in order. -/
def nackNamed (l : List (Bool × Nat)) : List (Bool × Nat) := (nackRun l).takeWhile fun x => l.contains x

/-- The lane fields of an outgoing frame control: the request of this end's receiver, and the answer to the peer's. -/
def Port.outControl (p : Port) : Nat :=
  (match p.rx.request with
    | some (l, urgent) => 1 <<< 41 + boolNat urgent <<< 42 + l.val <<< 43
    | none => 0)
    + boolNat p.tx.request.isSome <<< 46

/-- The frame control field of outgoing frame `n` (R256). -/
def State.outControl (s : State) (l : LinkRef) (n : Nat) : Nat :=
  let x := s.link l
  let named := nackNamed x.nacks
  let nack := match named with
    | (ctrl, m) :: _ => 1 <<< 24 + boolNat ctrl <<< 25 + (m % 4096) <<< 26 + (named.length - 1) <<< 38
    | [] => 0
  let lanes := match l with | .kazin k => (s.port k.val).outControl | .seam _ _ => 0
  (x.rxNext + 4095) % 4096 + ((x.rxCtrlNext + 4095) % 4096) <<< 12 + nack + lanes
    + (5 * n / 32 % 2 ^ 31) <<< 47

/-- The flit of a slot: what has been sent in it, or an idle flit. -/
def Link.slotFlit (x : Link) (slot : Nat) : List Byte :=
  match x.sent.find? (fun f => f.slot == slot) with
  | some f => flitBytes f.header f.payload
  | none => List.replicate 256 0

/-- Outgoing frame `n` of a link (R254, R255): slots 5n to 5n + 4 behind the frame control field. -/
def State.outFrame (s : State) (l : LinkRef) (n : Nat) : List (BitVec 10) :=
  symbolsOf (s.outControl l n) ((List.range 5).map fun i => (s.link l).slotFlit (5 * n + i))

/-- The lane on which an active position's symbols go out. -/
def LaneDir.symbols (d : LaneDir) (frame : List (BitVec 10)) (lane : Fin 9) : List (BitVec 10) :=
  match d.active.findIdx? (· == lane) with
  | some i => (frame.zipIdx.filter fun p => p.2 % 8 == i).map (·.1)
  | none => []

/-- The next frame goes out: the losses that it names are named, and a request that it answers is answered. -/
def State.sendFrame (s : State) (l : LinkRef) : State :=
  let n := s.nowCount / 5 + 1
  let x := s.link l
  let named := nackNamed x.nacks
  let t := s.setLink l { x with frameOut := s.outFrame l n, nacks := x.nacks.filter fun y => !named.contains y }
  match l with
  | .kazin k => let p := t.port k.val; t.setPort k.val { p with tx := p.tx.answered n }
  | .seam _ _ => t

/-- Frame `n` of the peer has come. -/
def frameEffect (l : LinkRef) (n : Nat) (symbols : List (BitVec 10)) (s : State) : State :=
  let s := s.advanceTo (5 * n + 5)
  let f := rxFrame (symbols.map (·.toNat))
  let s := s.countCodewords l f
  let s := match f.control with | some c => s.frameControl l n c | none => s
  let flits := (List.range 5).map f.flit
  let data := s.lostIn .data (5 * n) flits
  let ctrl := s.lostIn .control (5 * n) flits
  let s := flits.foldl (fun s o => match o with | some fl => landFlit l fl s | none => s) s
  let s := if flits.all (·.isSome) then s else s.setLink l ((s.link l).nameLost data ctrl)
  s.sendFrame l

/-- FRAME: the 1,088 symbols of frame `n` of the peer, which ends with slot 5n + 4; the port's own next frame follows. -/
def execFrame (l : LinkRef) (n : DWord) (symbols : List (BitVec 10)) (s : State) : Out :=
  landStep s l (frameEffect l n.toNat symbols)

/-! ### Replay (R259, R260, R265) -/

/-- The slot in which a flit is resent: the first free replay slot that starts after the present count. Where no replay
slot comes, in a tail and outside a stroke, a control flit takes a control slot. Log entry 22. -/
def State.resendSlot (s : State) (x : Link) (ctrl : Bool) : Option Nat :=
  let now := s.nowCount + 1
  match s.replaySlotFrom (max x.replayFrom now) with
  | some n => some n
  | none => if ctrl then some (s.ctrlSlotFrom (max x.ctrlFrom now)) else none

/-- An unacknowledged flit leaves again in a slot; a replay slot is one more of the stroke's (R265). -/
def Link.resend (x : Link) (ctrl replay : Bool) (now : Nat) (f : Flit) (rest : List (Bool × Nat)) : Link :=
  let at_ := fun (g : Flit) => if g.number = f.number then f else g
  { x with
    replayQueue := rest, replayed := x.replayed + boolNat replay,
    replayFrom := if replay then f.slot + 1 else x.replayFrom,
    ctrlFrom := if replay then x.ctrlFrom else f.slot + 1,
    txUnacked := if ctrl then x.txUnacked else x.txUnacked.map at_,
    txCtrlUnacked := if ctrl then x.txCtrlUnacked.map at_ else x.txCtrlUnacked }.put now f

/-- The oldest flit to be resent leaves again; on the Seam it lands on the other plate. -/
def replayEffect (l : LinkRef) (ctrl : Bool) (n : Nat) (rest : List (Bool × Nat)) (s : State) : State :=
  let x := s.link l
  let un := if ctrl then x.txCtrlUnacked else x.txUnacked
  match un.find? (fun f => f.number == n) with
  | none => s.setLink l { x with replayQueue := rest }
  | some f =>
    match s.resendSlot x ctrl with
    | none => s
    | some slot =>
      let f := { f with slot := slot }
      let s := s.setLink l (x.resend ctrl (s.slotClass slot == .replay) s.nowCount f rest)
      match l with
      | .kazin _ => s
      | .seam p ch => if ctrl then s else s.seamCross p ch f

/-- REPLAY_SEND: the next free replay slot takes the flit at the head of the queue. -/
def execReplaySend (l : LinkRef) (s : State) : Out :=
  match (s.link l).replayQueue with
  | (ctrl, n) :: rest => if s.linkLive l then .next (replayEffect l ctrl n rest s) else .next s
  | [] => .next s

/-- REPLAY_TIMEOUT: 400 ns have passed since the latest sending of a flit that is still unacknowledged. -/
def execReplayTimeout (l : LinkRef) (control : Bool) (number : Nat) (s : State) : Out :=
  let x := s.link l
  match (if control then x.txCtrlUnacked else x.txUnacked).find? (fun f => f.number == number) with
  | some f => .next ((s.setLink l (queueReplay x control number)).advanceTo (f.slot + 400))
  | none => .next s

end Sys2Proof.Machine
end

