-- ==== Sys2Proof/Machine/Rings.lean ====
section
/-! DEFINITION. The ring commands (R324–R335, R342, R343): contexts, enabling and draining, doorbells, copies, and
the records' way to the host. -/

namespace Sys2Proof.Machine

/-! ### Offsets in BAR0 (R361) -/

def ringContextOffset (n word : Nat) : Nat := 0x10_0000 + 64 * n + 8 * word
def doorbellOffset (n : Nat) : Nat := 0x14_0000 + 8 * n
def ringControlOffset (n : Nat) : Nat := 0x14_8000 + 8 * n

/-! ### RING_CONTEXT_WRITE (R325) -/

/-- A word of the context with the fields that a write sets; the rest of the context is RO. -/
def Ring.setWord (r : Ring) (word : Nat) (v : Nat) : Ring :=
  match word with
  | 0 => { r with kind := BitVec.ofNat 3 v, log2Size := BitVec.ofNat 5 (v >>> 3), vector := BitVec.ofNat 11 (v >>> 8),
                  irqEn := bitAt v 19, coalCount := BitVec.ofNat 12 (v >>> 20),
                  coalTime := BitVec.ofNat 16 (v >>> 32), depth := BitVec.ofNat 16 (v >>> 48) }
  | 1 => { r with base := BitVec.ofNat 64 v }
  | 2 => { r with shadow := BitVec.ofNat 64 v }
  | _ => r

/-- Whether a write keeps the limits stated for its fields (R351). -/
def ringWordOk (word v : Nat) : Bool :=
  match word with
  | 0 => decide (field v 32 16 ≤ 1000)
  | 1 => v % 4096 == 0
  | 2 => v % 64 == 0
  | _ => true

def ringContextWriteEffect (n word : Nat) (v : DWord) (s : State) : State :=
  let r := s.ring n
  if word ≥ 3 then s
  else if r.state ≠ .off ∨ !ringWordOk word v.toNat then s.refuse (ringContextOffset n word)
  else s.setRing n (r.setWord word v.toNat)

def execRingContextWrite (ring : BitVec 12) (word : Fin 8) (v : DWord) (s : State) : Out :=
  hostWr (ringContextWriteEffect ring.toNat word.val v) s

/-! ### Held records (R335) -/

/-- Whether an earlier record of a source is still held for any ring. -/
def State.sourceHeld (s : State) (src : BitVec 24) (seq : DWord) : Bool :=
  s.rings.any fun p => p.2.held.any fun x => x.source == src && decide (x.seq.toNat < seq.toNat)

def Ring.takesRecords (r : Ring) : Bool := r.state == .active && r.kind == 2

/-- Whether the head of a holding buffer can go out now. -/
def State.canRelease (s : State) (n : Nat) : Bool :=
  let r := s.ring n
  match r.held with
  | x :: _ => r.takesRecords && decide (r.room ≠ 0) && !s.sourceHeld x.source x.seq
  | [] => false

def State.releaseOne (s : State) (n : Nat) : State :=
  let r := s.ring n
  match r.held with
  | x :: rest => (s.setRing n { r with held := rest }).putRecord n x
  | [] => s

/-- Held records go out while the rings have room and every source keeps its order. -/
def State.releaseFuel : Nat → State → State
  | 0, s => s
  | f + 1, s =>
    match s.rings.find? (fun p => s.canRelease p.1) with
    | some p => State.releaseFuel f (s.releaseOne p.1)
    | none => s

def State.releaseAll (s : State) : State :=
  State.releaseFuel (s.rings.foldl (fun a p => a + p.2.held.length) 0) s

/-! ### RING_ENABLE and RING_DISABLE (R327, R342, R343) -/

/-- What an enable refuses of a context (R327). -/
def Ring.configOk (r : Ring) : Bool :=
  decide (r.kind.toNat < 4) && decide (4 ≤ r.log2Size.toNat) && decide (r.log2Size.toNat ≤ 20)
    && !(r.kind == 0 && r.depth == 0)

/-- A write pointer that has returned to 0 has passed no batch (R38). -/
def State.forgetReady (s : State) (n : Nat) : State :=
  { s with seq := { s.seq with ready := s.seq.ready.filter fun p => decide (p.1 / 2 ^ 64 ≠ n) } }

/-- To ACTIVE with both pointers 0, whereupon held records go out, or to ERROR. -/
def State.activate (s : State) (n : Nat) : State :=
  let r := s.ring n
  if r.configOk then
    (((s.setRing n { r with hostPtr := 0, devPtr := 0, pending := false, started := false }).forgetReady n).ringTo n
      .active).releaseAll
  else (s.setRing n { r with pending := false }).ringError n 0x0244 []

def ringEnableEffect (n : Nat) (s : State) : State :=
  let r := s.ring n
  match r.state with
  | .off => s.activate n
  | .active => s
  | .draining => s.setRing n { r with pending := true }
  | .error => s.refuse (ringControlOffset n)

def execRingEnable (ring : BitVec 12) (s : State) : Out := hostWr (ringEnableEffect ring.toNat) s

/-! ### Copy descriptors (R328) -/

structure CopyRequest where
  step : Nat
  host : Nat
  dev : Nat
  len : Nat
  end_ : Bool
  rsvd : Nat
  deriving DecidableEq, Repr

def copyRequest (x : Nat) : CopyRequest :=
  { step := field x 0 64, host := field x 64 64, dev := field x 128 48, len := field x 176 32, end_ := bitAt x 208,
    rsvd := x >>> 209 }

/-- Whether a descriptor is one that R327 allows. -/
def State.copyOk (s : State) (isIn : Bool) (d : CopyRequest) : Bool :=
  d.rsvd == 0 && d.host % 64 == 0 && d.dev % 64 == 0 && d.len != 0 && d.len % 64 == 0 && (isIn || !d.end_)
    && s.rangeAllowed d.dev d.len && !s.straddles d.dev d.len

def State.headCopy (s : State) (k : Nat) : CopyRequest := copyRequest (ofLe (s.ringEntry k))

/-- F of R329. -/
def State.firstOpenStep (s : State) : Nat := (s.seq.firstOpen.getD s.regs.baseStep).toNat

/-- Whether a ring's copies go on: an ACTIVE ring's, and the one that was under way when a drain began (R342). -/
def Ring.copies (r : Ring) : Bool := r.state == .active || (r.state == .draining && r.started)

/-- Whether a ring has a descriptor to take. -/
def Ring.hasWork (r : Ring) (kind : Nat) : Bool := r.copies && r.kind.toNat == kind && decide (r.posted ≠ 0)

/-! ### What a copy moves (R329, R330, R394, R452) -/

/-- Host bytes into HBM: into a weight range they are ciphertext already. -/
def State.copyIn (s : State) (k : Nat) (d : CopyRequest) : State :=
  let bs := s.hostRead d.host d.len
  let bs := if s.inWeights d.dev d.len then s.inlineCrypt false d.dev bs else bs
  s.outsideWrite (srcRing k) d.dev bs

/-- What a copy delivers of plain bytes: the spec does not say what it delivers of a poisoned word, so these bytes
are free. Log entry 4. -/
def State.plainOut (s : State) (a : Nat) (v : ReadData) : List Byte :=
  v.bytes.zipIdx.map fun b =>
    if v.poison.contains (wordOf (a + b.2)) then Config.freeByte (s.freeCount + b.2) else b.1

/-- The bytes that an OUT copy delivers; the words corrected on the way are reported. -/
def State.outBytes (s : State) (k : Nat) (d : CopyRequest) : List Byte × State :=
  let v := s.hostView d.dev d.len
  let s := v.corrected.foldl (fun s w => s.reportCorrected (srcRing k) w) s
  if s.sec.tenant.isNone then
    (s.plainOut d.dev v, if v.poison.isEmpty then s else { s with freeCount := s.freeCount + d.len })
  else (if s.inWeights d.dev d.len then s.inlineCrypt true d.dev v.bytes else v.bytes, s)

/-- Whether the record that ended a step has still to be written. -/
def State.endUnwritten (s : State) (step : Nat) : Bool :=
  let p := fun (r : Record) => decide (r.kind.toNat < 2) && r.step.toNat == step
  s.closed.any p || s.rings.any fun r => r.2.held.any p

/-- What becomes of the head of an OUT ring: nothing yet, an error, a skip or a copy. -/
inductive OutAction where
  | wait
  | bad
  | skip
  | copy
  deriving DecidableEq, Repr

def State.outAction (s : State) (k : Nat) : OutAction :=
  let d := s.headCopy k
  if !s.copyOk false d then .bad
  else
    match s.stepEnded d.step with
    | some ok => if s.endUnwritten d.step then .wait else if ok then .copy else .skip
    | none => if s.outSkips k then .skip else .wait

/-- Whether an IN descriptor is held: it runs DEPTH steps ahead. -/
def State.inHeld (s : State) (k : Nat) : Bool :=
  let d := s.headCopy k
  s.copyOk true d && decide (s.firstOpenStep + (s.ring k).depth.toNat ≤ d.step)

/-- Whether the copy of the head descriptor of a ring may be under way. -/
def State.copyRuns (s : State) (k : Nat) : Bool :=
  let r := s.ring k
  let d := s.headCopy k
  (r.hasWork 0 && s.copyOk true d && decide (s.firstOpenStep ≤ d.step) && !s.inHeld k)
    || (r.hasWork 1 && s.outAction k == .copy)

/-- The first `n` bytes of the head descriptor's data are moved; the device pointer does not pass it. -/
def State.movePart (s : State) (k n : Nat) : State :=
  let d := { s.headCopy k with len := min n (s.headCopy k).len }
  if (s.ring k).kind = 0 then s.copyIn k d
  else
    let r := s.outBytes k d
    r.2.hostWrite d.host r.1

/-- The copy that was under way when a drain began has ended (R342). -/
def State.copyEnded (s : State) (k : Nat) : State := s.setRing k { s.ring k with started := false }

/-! ### RING_DISABLE (R342, R343) -/

/-- Whether the held cartoon names an IN ring as a GATE_RING. -/
def State.gatesOn (s : State) (n : Nat) : Bool :=
  match s.seq.cartoon with
  | some c => c.variants.any fun v => v.gate && v.gateRing.toNat == n
  | none => false

/-- The rings that a run needs (R343). -/
def State.ringNeeded (s : State) (n : Nat) : Bool :=
  n == s.regs.completionRing.toNat || n == s.regs.eventRing.toNat || n == s.regs.proofRing.toNat
    || n == s.regs.seedRing.toNat || ((s.ring n).kind == 0 && s.gatesOn n)

def ringDisableEffect (n : Nat) (s : State) : State :=
  let r := s.ring n
  if s.busyRun && s.ringNeeded n then s.refuse (ringControlOffset n)
  else
    match r.state with
    | .off => s
    | .active => (s.setRing n { r with started := s.copyRuns n }).ringTo n .draining
    | .draining => s.setRing n { r with pending := false }
    | .error => s.ringTo n .draining

def execRingDisable (ring : BitVec 12) (s : State) : Out := hostWr (ringDisableEffect ring.toNat) s

/-! ### Records on their way to the host (R333–R335) -/

/-- The fault record 0x0241 that takes the place of a completion record (R43, R335). -/
def Record.noRoom (r : Record) (fields : Nat) : Record :=
  { r with kind := 1, code := 0x0241,
           payload := BitVec.ofNat 704 (r.payload.toNat % 2 ^ 448 + fields <<< 448) }

/-- Whether a record is the completion record of a step. -/
def Record.completes (r : Record) (step : DWord) : Bool := r.kind == 0 && r.step == step

/-- A completion or proof record finds no room (R335). Between the strokes the step that the record belongs to ends
in the fault: its fault record takes the place of its completion record, and the run stops. In a stroke the fault
belongs to the step that runs. Log entry 30. -/
def recordNoRoom (n : Nat) (rec : Record) (s : State) : State :=
  let fields := [f16 n, f16 rec.code.toNat, f32 (s.ring n).held.length]
  if s.seq.phase = .inStroke ∨ s.seq.phase = .strokeDue then s.raiseAsync (srcRing n) 0x0241 fields
  else
    let waiting := if rec.kind = 0 then rec :: s.closed else s.closed
    match waiting.find? fun x => x.completes rec.step with
    | some c =>
      let f := c.noRoom (packFields fields)
      let s := { s with closed := waiting.map fun (x : Record) => if x.completes rec.step then f else x }
      let s := ((s.logRecord f).sendStop 0x0241).stopped
      { s with seq := { s.seq with faultStep := some rec.step } }
    | none => s

/-- The oldest closed record is written to its ring, or held when the ring is full or not ACTIVE with kind REC, or
an earlier record of its source is still held. With no place left, an event is dropped and counted, and a
completion or proof record raises 0x0241. -/
def recordWriteEffect (rec : Record) (rest : List Record) (s : State) : State :=
  let s := { s with closed := rest }
  let n := s.recordRing rec
  let r := s.ring n
  if r.takesRecords && r.held.isEmpty && decide (r.room ≠ 0) && !s.sourceHeld rec.source rec.seq then
    s.putRecord n rec
  else if r.held.length < holdLimit rec.kind.toNat then s.setRing n { r with held := r.held ++ [rec] }
  else if rec.kind = 2 then s.setRing n (r.drop rec)
  else if rec.kind = 1 then s
  else recordNoRoom n rec s

/-- RECORD_WRITE (R334): a PCIe error on the record's or the shadow's write leaves the record to be written, and
its ring in ERROR (R327). -/
def execRecordWrite (busError : Option DWord) (s : State) : Out :=
  match s.closed with
  | rec :: _ =>
    let n := s.recordRing rec
    let s := if (s.ring n).takesRecords then s.ringAccessed n busError else s
    .next (recordWriteEffect rec s.closed.tail s)
  | [] => .next s

/-- Every record that has closed is written (R341). -/
def State.writeRecords : Nat → State → State
  | 0, s => s
  | f + 1, s => match s.closed with
    | rec :: rest => State.writeRecords f (recordWriteEffect rec rest s)
    | [] => s

def recordsLostEffect (n : Nat) (s : State) : State :=
  let r := s.ring n
  (s.setRing n { r with dropped := 0, dropLow := 0, dropHigh := 0 }).emit (srcRing n) 0x0242
    [f32 r.dropped, f64 r.dropLow.toNat, f64 r.dropHigh.toNat]

/-- RECORDS_LOST (R335): room has returned after events were dropped. -/
def execRecordsLost (ring : BitVec 12) (s : State) : Out :=
  let r := s.ring ring.toNat
  if r.dropped ≠ 0 ∧ r.takesRecords ∧ r.held.isEmpty ∧ r.room ≠ 0 then .next (recordsLostEffect ring.toNat s)
  else .next s

/-- COALESCE_TIMEOUT (R334): COAL_TIME after the first unsignalled record or advance. -/
def execCoalesceTimeout (ring : BitVec 12) (s : State) : Out :=
  let r := s.ring ring.toNat
  if r.irqEn ∧ r.unsignalled ≠ 0 then
    .next ((s.advanceTo (r.firstUnsignalled.toNat + 1000 * r.coalTime.toNat)).ringSignal ring.toNat)
  else .next s

/-! ### DOORBELL (R326) -/

def sub32 (a b : Word) : Nat := (a - b).toNat

/-- Whether a doorbell's value is one that the ring accepts. -/
def Ring.doorbellOk (r : Ring) (n : Word) : Bool :=
  if r.kind = 2 then decide (sub32 n r.hostPtr ≤ sub32 r.devPtr r.hostPtr)
  else decide (sub32 n r.hostPtr ≤ sub32 n r.devPtr) && decide (sub32 n r.devPtr ≤ r.size)

def doorbellEffect (k : Nat) (v : DWord) (s : State) : State :=
  let r := s.ring k
  let n : Word := v.setWidth 32
  if r.state ≠ .active then s.refuse (doorbellOffset k)
  else if r.doorbellOk n then (s.setRing k { r with hostPtr := n }).releaseAll
  else s.ringError k 0x0240 [f16 k, f32 r.hostPtr.toNat, f32 r.devPtr.toNat, f32 n.toNat]

def execDoorbell (ring : BitVec 12) (v : DWord) (s : State) : Out := hostWr (doorbellEffect ring.toNat v) s

/-! ### IN_COPY_DONE and OUT_DESCRIPTOR (R329, R330) -/

/-- The head descriptor's data is wholly in HBM: the write pointer passes it, and END completes the batch. -/
def State.passIn (s : State) (k : Nat) : State :=
  let d := s.headCopy k
  let s := ((s.copyIn k d).ringAdvance k).copyEnded k
  if d.end_ then s.batchReady k d.step else s

/-- The copy digest of a descriptor: every 64-byte block as it was delivered. -/
def State.copyDigest (s : State) (dev : Nat) (bs : List Byte) : Nat :=
  let key := s.proofKey
  ((chunks 64 bs).zipIdx.foldl (fun a b => a + hashH key (dev / 64 + b.2) b.1) 0) % 2 ^ 128

/-- Event 0x0181 carries the step of its descriptor in its header (R331, R510); it is no event of the step that runs. -/
def State.copyEvent (s : State) (k : Nat) (d : CopyRequest) (index : Nat) (bs : List Byte) : State :=
  s.addRecord { s.mkRecord 2 (srcRing k) 0x0181 (eventPayload
    [f16 k, f32 index, f64 d.dev, f64 d.len, f128 (s.copyDigest d.dev bs)]) with step := BitVec.ofNat 64 d.step }

/-- The head descriptor's data is wholly with the host: the done pointer passes it. -/
def State.passOut (s : State) (k : Nat) : State :=
  let d := s.headCopy k
  let index := (s.ring k).headIndex
  let r := s.outBytes k d
  let s := ((r.2.hostWrite d.host r.1).ringAdvance k).copyEnded k
  if (s.variantOf d.step).checkpoint then s.copyEvent k d index r.1 else s

/-- A PCIe error ends the copy under way, if one is, behind the words that it has moved, and the ring with it
(R327). -/
def State.copyFails (s : State) (k : Nat) (addr : DWord) (moved : Nat) : State :=
  ((if s.copyRuns k then s.movePart k (64 * moved) else s).copyEnded k).ringBusError k addr

/-- What an IN ring does with the descriptor at its head: error, skip or copy. -/
def inCopyDoneEffect (k : Nat) (at_ : DWord) (end_ : CopyEnd) (s : State) : State :=
  let s := s.advanceTo at_.toNat
  match end_ with
  | .busError a moved => s.copyFails k a moved.toNat
  | .served =>
    let d := s.headCopy k
    if !s.copyOk true d then s.ringError k 0x0244 [f32 (s.ring k).headIndex]
    else if d.step < s.firstOpenStep ∧ (s.ring k).state = .active then s.skipDescriptor k
    else s.passIn k

/-- IN_COPY_DONE: the board-time count is that at which the stack has served the last word. A descriptor that runs
DEPTH steps ahead is held. -/
def execInCopyDone (ring : BitVec 12) (at_ : DWord) (end_ : CopyEnd) (s : State) : Out :=
  if (s.ring ring.toNat).hasWork 0 && !s.inHeld ring.toNat then .next (inCopyDoneEffect ring.toNat at_ end_ s)
  else .next s

def outDescriptorEffect (k : Nat) (end_ : CopyEnd) (s : State) : State :=
  match end_ with
  | .busError a moved => s.copyFails k a moved.toNat
  | .served =>
    match s.outAction k with
    | .wait => s
    | .bad => s.ringError k 0x0244 [f32 (s.ring k).headIndex]
    | .skip => s.skipDescriptor k
    | .copy => s.passOut k

/-- OUT_DESCRIPTOR: the descriptor at the head of an OUT ring, once the step that it names has ended. -/
def execOutDescriptor (ring : BitVec 12) (end_ : CopyEnd) (s : State) : Out :=
  if (s.ring ring.toNat).hasWork 1 then .next (outDescriptorEffect ring.toNat end_ s) else .next s

/-! ### Copies that are stopped (R341, R342) -/

/-- The copy under way on a ring stops at its next 4 KiB boundary, which is that after `blocks` blocks of it: its
descriptor is not passed, unless the boundary lies at or behind its end. Log entry 65. -/
def State.stopCopy (s : State) (k blocks : Nat) : State :=
  if !s.copyRuns k then s.copyEnded k
  else if 4096 * blocks < (s.headCopy k).len then (s.movePart k (4096 * blocks)).copyEnded k
  else if (s.ring k).kind = 0 then s.passIn k else s.passOut k

/-- Every ring's copy stops, each with its own number of blocks. -/
def State.stopCopies (s : State) (stops : List CopyStop) : State :=
  s.rings.foldl (fun s p =>
    match stops.find? fun x => x.ring.toNat == p.1 with
    | some x => s.stopCopy p.1 x.blocks.toNat
    | none => s) s

/-! ### RING_DRAIN_END (R342) -/

/-- Held events are dropped and counted; records of other kinds stay held. -/
def Ring.dropHeld (r : Ring) : Ring :=
  let events := r.held.filter fun x => x.kind == 2
  { events.foldl Ring.drop r with held := r.held.filter fun x => x.kind != 2 }

/-- Both pointers return to 0 and the shadow is written, whereupon the ring is ACTIVE again or OFF. -/
def State.drained (s : State) (n : Nat) : State :=
  let r := s.ring n
  let s := ((s.setRing n { r.dropHeld with hostPtr := 0, devPtr := 0 }).forgetReady n).hostWrite r.shadow.toNat
    (shadowBytes 0)
  if r.pending then s.activate n else (s.ringTo n .off).releaseAll

/-- A copy that is still under way 5 µs after the drain began is stopped at a 4 KiB boundary; what was posted and not
processed is dropped. -/
def ringDrainEndEffect (n : Nat) (blocks : Nat) (busError : Option DWord) (s : State) : State :=
  let s := if (s.ring n).started then s.stopCopy n blocks else s
  match busError with
  | some a => s.ringBusError n a
  | none => s.drained n

/-- RING_DRAIN_END. -/
def execRingDrainEnd (ring : BitVec 12) (blocks : BitVec 20) (busError : Option DWord) (s : State) : Out :=
  if (s.ring ring.toNat).state = .draining then .next (ringDrainEndEffect ring.toNat blocks.toNat busError s)
  else .next s

end Sys2Proof.Machine
end

