-- ==== Sys2Proof/Machine/Launch.lean ====
section
/-! DEFINITION. Launch, abort, roles and board time (R284–R290, R339–R341, R354–R358). -/

namespace Sys2Proof.Machine

/-! ### LAUNCH_AT (R288) -/

def launchAtOffset : Nat := 0x2018

/-- A tenant change is under way (R384): from its acceptance to the event that ends it. -/
def State.tenantChanging (s : State) : Bool :=
  (match s.sec.job with | some j => j.purpose != .policy | none => false)
    || (match s.sec.scrub with | some j => j.after.isSome | none => false)
    || s.sec.waiting.any fun j => j.purpose != .policy

/-- The held cartoon is the one of the device's own role and group size. -/
def State.cartoonFits (s : State) : Bool :=
  match s.seq.cartoon, s.role with
  | some c, some r => c.role.toNat == r && c.groupSize.toNat == s.groupSize
  | _, _ => false

/-- What an accepted LAUNCH_AT write asks for. -/
def State.launchOk (s : State) (v : DWord) : Bool :=
  s.seq.state == .loaded && s.timeValid && s.cartoonFits && v.toNat % 1000 == 0
    && decide (s.boardTime.toNat + 1000000 ≤ v.toNat) && !s.tenantChanging && s.sec.importState != .running

/-- A board-time check on every port that is UP. -/
def State.sendChecks (s : State) : State :=
  allPorts.foldl (fun s k => if (s.port k.val).state = .up then s.sendCheck k else s) s

/-- Gate notices for the batches that are complete already (R38). -/
def State.sendReadyGates (s : State) : State :=
  s.seq.ready.foldl (fun s p =>
    let ring := p.1 / 2 ^ 64
    let n := p.1 % 2 ^ 64
    match p.2 with
    | some t =>
      if (s.variantOf n).gate && (s.variantOf n).gateRing.toNat == ring then s.sendGate n t.toNat else s
    | none => s) s

def launchAtEffect (v : DWord) (s : State) : State :=
  if s.launchOk v then
    { s with counts := [], seq := { s.seq with state := .armed, launchAt := v, launchOk := false } }.sendChecks
  else s.refuse launchAtOffset

/-- LAUNCH_AT: a LOADED device is armed, its run counters return to 0, and it sends a check at once. -/
def execLaunchAt (value : DWord) (s : State) : Out := hostWr (launchAtEffect value) s

/-! ### LAUNCH_CHECK (R289) -/

/-- Whether a check agrees with the device's own launch. -/
def State.checkAgrees (s : State) (role : Nat) (m : CheckMsg) : Bool :=
  let own := s.checkMsg 0
  m.runState == 2 && m.launchAt == own.launchAt && m.baseStep == own.baseStep && m.edition == own.edition
    && m.roleEpoch == own.roleEpoch && m.groupSize == own.groupSize && m.strokeQuanta == own.strokeQuanta
    && m.hasRole == 1 && m.role.toNat == role && mapSlotOf s.regs.roleMap role == some m.slot.toNat

/-- The check of a role that agrees, on whichever port it landed. -/
def State.agreedCheck (s : State) (role : Nat) : Option CheckMsg :=
  ((List.range 16).filterMap fun k => (s.port k).check.map (·.msg)).find? fun m => s.checkAgrees role m

/-- The gear of the first step: the slowest that any role requests in the checks compared, the device's own of the
last tick among them (R289, R294). -/
def State.firstGear (s : State) : Nat :=
  s.otherRoles.foldl (fun g r => match s.agreedCheck r with | some m => max g m.gearReq.toNat | none => g)
    (s.ownRequest (s.boardTime.toNat / 65536 * 65536))

def launchCheckEffect (seedReadFails : Bool) (s : State) : State :=
  let s := s.advanceTo (s.seq.launchAt.toNat - 100000)
  match s.otherRoles.find? (fun r => (s.agreedCheck r).isNone) with
  | some r => s.refuseLaunch r
  | none =>
    let g := BitVec.ofNat 2 s.firstGear
    let s := if g = s.regs.gearNow then s
      else { s with regs := { s.regs with gearNow := g }, mss := { s.mss with gearSince := s.boardTime } }
    let s := s.seedFor s.regs.baseStep.toNat seedReadFails
    { s with seq := { s.seq with launchOk := true } }

/-- LAUNCH_CHECK, 100,000 counts before LAUNCH_AT: a launch that fails is refused; one that passes takes its gear
and its automatic seed (R306). -/
def execLaunchCheck (seedReadFails : Bool) (s : State) : Out :=
  if s.seq.state = .armed ∧ s.seq.abortPending = false ∧ s.seq.launchOk = false then .next (launchCheckEffect seedReadFails s)
  else .next s

/-! ### LAUNCH (R289) -/

/-- A link as a run begins: its strokes' numbers begin at 0, and its next close counts the control flits from here. -/
def Link.launched (x : Link) : Link := { x.nextStroke with ctrlAtClose := x.nextCtrl }

def launchEffect (s : State) : State :=
  let t := s.seq.launchAt
  let up := (List.range 16).filter fun k => (s.port k).state == .up
  let s := s.advanceTo t.toNat
  { s with
    links := smapMap .empty Link.launched s.links, recvs := [],
    ports := smapMap .reset (fun (p : Port) => { p with left := false }) s.ports,
    seq := { s.seq with
      phase := .stepDue, nextStep := s.regs.baseStep, strokesRun := 0, stepsDone := 0, runBase := s.regs.baseStep,
      faultStep := none, outSkip := [], upAtLaunch := up, prevEnd := t, alarmed := false, closing := false,
      stopBy := none, abortAt := none, faults := [], normMsgs := [], maxima := [], staleReports := [],
      seamFailed := false, gearPending := none } }.betweenSteps

/-- LAUNCH: board time reaches LAUNCH_AT, and the first step is due. -/
def execLaunch (s : State) : Out :=
  if s.seq.state = .armed ∧ s.seq.abortPending = false ∧ s.seq.launchOk = true then .next (launchEffect s)
  else .next s

/-! ### ABORT (R340, R341) -/

/-- The device is to stop at the end of a stroke; an earlier abort keeps its stroke. -/
def State.abortAfter (s : State) (stroke : Nat) : State :=
  { s with seq := { s.seq with abortAt := s.seq.abortAt.orElse fun _ => some stroke } }

def abortEffect (s : State) : State :=
  if s.quiet || s.seq.abortPending then s
  else
    match s.seq.phase with
    | .none => s.abortBetween
    | .stepDue =>
      match s.startCount s.seq.nextStep.toNat with
      | some t => if t ≤ s.boardTime.toNat then s.abortAfter s.seq.strokesRun else s.abortBetween
      | none => s.abortBetween
    | .checkDue => s.abortAfter s.seq.strokesRun
    | .strokeDue => s.abortAfter s.seq.strokesRun
    | .inStroke =>
      s.abortAfter (s.seq.curStroke.toNat + (if s.countAt s.tailStart ≤ s.boardTime.toNat then 1 else 0))

/-- ABORT: the abort doorbell. -/
def execAbort (s : State) : Out := hostWr abortEffect s

def State.heldState (s : State) : RunState := if s.seq.cartoon.isSome then .loaded else .idle

def abortCompleteEffect (stops : List CopyStop) (s : State) : State :=
  let s := s.stopCopies stops
  let s := { s with engines := [], seq := { s.seq with state := s.heldState, abortPending := false } }.skipOut
  let s := State.writeRecords (2 * s.closed.length) s
  let s := { s with regs := { s.regs with abortDone := true } }
  if s.regs.abortIrqEn then s.signal s.regs.abortVector.toNat else s

/-- ABORT_COMPLETE: the ring copies stop, the OUT descriptors of steps that have not ended are skipped, the remaining records are written,
and the device is LOADED with every station idle. -/
def execAbortComplete (stops : List CopyStop) (s : State) : Out :=
  if s.seq.abortPending then .next (abortCompleteEffect stops s) else .next s

/-! ### FAULT_CLEAR and COUNTER_CLEAR (R354, R356, R366) -/

def faultClearEffect (s : State) : State :=
  if s.seq.state ≠ .faulted ∨ s.seamRetraining then s.refuse 0x1038
  else { s with seq := { s.seq with state := s.heldState } }.skipOut

def execFaultClear (s : State) : Out := hostWr faultClearEffect s

def Port.clearCounters (p : Port) : Port :=
  { p with stale := 0, replaySlots := 0, correctedSymbols := 0, uncorrectable := 0, drainDiscards := 0, laneSwaps := 0 }
def SeamChan.clearCounters (c : SeamChan) : SeamChan :=
  { c with replaySlots := 0, correctedSymbols := 0, uncorrectable := 0 }

def counterClearEffect (s : State) : State :=
  { s with
    clusterCounts := [], stackCounts := [], ports := smapMap .reset Port.clearCounters s.ports,
    seam := smapMap .up SeamChan.clearCounters s.seam }

/-- COUNTER_CLEAR: the cumulative counters, not those of a run. -/
def execCounterClear (s : State) : Out := hostWr counterClearEffect s

/-! ### ROLE_COMMIT (R290) -/

/-- The roles of a map are exactly 0 to n − 1, each held once. -/
def mapOk (m : Word) : Bool := (List.range (mapSize m)).all fun r =>
  ((List.range 8).filter fun k => mapRole m k == some r).length == 1

def State.commitOk (s : State) : Bool :=
  !s.busyRun && decide (s.regs.roleEpoch.toNat < s.regs.nextEpoch.toNat) && mapOk s.regs.nextMap

/-- The held cartoon goes: LOADED becomes IDLE, and FAULTED stays. -/
def State.dropCartoon (s : State) : State :=
  { s with seq := { s.seq with
      cartoon := none, state := if s.seq.state = .loaded then .idle else s.seq.state } }

def roleCommitEffect (s : State) : State :=
  if s.commitOk then
    let old := s.regs.roleEpoch.toNat
    let t := { s with regs := { s.regs with roleMap := s.regs.nextMap, roleEpoch := s.regs.nextEpoch } }
    let u := if t.role = s.role ∧ t.groupSize = s.groupSize then t else t.dropCartoon
    u.emit srcSeq 0x0322 [f16 old, f16 u.regs.roleEpoch.toNat, u.slotField]
  else s.refuse 0x2038

def execRoleCommit (s : State) : Out := hostWr roleCommitEffect s

/-! ### Board time (R284, R285, R493, R494) -/

def syncFireEffect (s : State) : State := { s with syncEnds := s.refclk + 2 }

/-- SYNC_FIRE: SYNC_OUT is high for 20 ns, two periods of REFCLK. -/
def execSyncFire (s : State) : Out := hostWr syncFireEffect s

/-- Slots are counted anew from a board time that has been loaded. -/
def Link.retimed (x : Link) : Link := { x with dataFrom := 0, ctrlFrom := 0, replayFrom := 0, sent := [] }

/-- SYNC_IN: a quiet device loads its board time; any other ignores the edge. -/
def execSyncIn (s : State) : Out :=
  if s.quiet then
    .next { s with boardTime := s.regs.syncLoad, timeValid := true, refclk := s.refclk + 1,
                   links := smapMap .empty Link.retimed s.links,
                   ports := smapMap .reset (fun (p : Port) => { p with checkTick := 0 }) s.ports }
  else .next (s.emit srcSeq 0x0323 [s.slotField])

/-! ### Remote signals (R339) -/

def remoteSignalEffect (mark : BitVec 12) (role : BitVec 3) (s : State) : State :=
  if s.regs.remoteBusy.isSome ∨ s.role.isNone then s.refuse 0x2048
  else { s with regs := { s.regs with remoteBusy := some (mark, role, s.regs.remoteValue) } }

/-- REMOTE_SIGNAL: the add waits for a control slot. -/
def execRemoteSignal (mark : BitVec 12) (role : BitVec 3) (s : State) : Out := hostWr (remoteSignalEffect mark role) s

/-- REMOTE_SIGNAL_SEND: on the port that R266 chooses. -/
def execRemoteSignalSend (s : State) : Out :=
  match s.regs.remoteBusy with
  | none => .next s
  | some (mark, role, value) =>
    match s.ctrlPortFin role.toNat with
    | none => .next s
    | some k =>
      .next ({ s with regs := { s.regs with remoteBusy := none } }.sendCtrl k role.toNat 2
        (markPayload mark.toNat value.toNat))

end Sys2Proof.Machine
end

