-- ==== Sys2Proof/Machine/Editions.lean ====
section
/-! DEFINITION. Edition records (R469–R474), their selection (R475), and their places in flash (R463, R478, R480). -/

namespace Sys2Proof.Machine

/-! ### A record (R469–R473) -/

def recordNat (b : List Byte) (off n : Nat) : Nat := ofLe ((b.drop off).take n)

def laneEntry (x : Nat) : LaneMapEntry :=
  { use := BitVec.ofNat 2 x, peerSlot := BitVec.ofNat 3 (x >>> 2), peerPort := BitVec.ofNat 4 (x >>> 5) }

def hbmEntry (x : Nat) : HbmMap :=
  { cartBase := BitVec.ofNat 18 x, cartSize := BitVec.ofNat 16 (x >>> 18), ckptBase := BitVec.ofNat 22 (x >>> 34) }

/-- The edition that a record of 4,096 bytes holds, read from a place. -/
def readEdition (b : List Byte) (place : Nat) : Edition :=
  let c := recordNat b 0x40 8
  let p := recordNat b 0x60 32
  { number := BitVec.ofNat 32 (recordNat b 8 4), floor := BitVec.ofNat 32 (recordNat b 0xC 4),
    qMin := BitVec.ofNat 10 c, qMax := BitVec.ofNat 10 (c >>> 16), gearFast := BitVec.ofNat 2 (c >>> 32),
    gearSlow := BitVec.ofNat 2 (c >>> 34), genMode := bitAt c 36, fallbackPlate := BitVec.ofNat 1 (c >>> 37),
    offer := BitVec.ofNat 2 (c >>> 38), spareAuto := bitAt c 40, xcheck := bitAt c 41, mctpBind := bitAt c 42,
    debugAllowed := bitAt c 43, slot := BitVec.ofNat 3 (c >>> 44), roleEpoch := BitVec.ofNat 16 (c >>> 48),
    roleMap := BitVec.ofNat 32 (recordNat b 0x48 4),
    tHot := BitVec.ofNat 8 p, tCool := BitVec.ofNat 8 (p >>> 8), tCrit := BitVec.ofNat 8 (p >>> 16),
    tHbmHot := BitVec.ofNat 8 (p >>> 24), tHbmMax := BitVec.ofNat 8 (p >>> 32),
    tHbmCrit := BitVec.ofNat 8 (p >>> 40), pLimit := BitVec.ofNat 16 (p >>> 48),
    droopLimit := BitVec.ofNat 16 (p >>> 64), droopLevel := BitVec.ofNat 8 (p >>> 80),
    holdMs := BitVec.ofNat 16 (p >>> 96), laneThresh := BitVec.ofNat 32 (p >>> 128),
    gaugeFault := BitVec.ofNat 256 (recordNat b 0x80 32),
    lanes := (List.range 16).map fun k => laneEntry (recordNat b (0xA0 + 4 * k) 4),
    hbm := (List.range 2).map fun q => hbmEntry (recordNat b (0xE0 + 8 * q) 8),
    mgmtRoot := BitVec.ofNat 384 (recordNat b 0xF0 48), place := place,
    digest := BitVec.ofNat 384 (ofLe (sha384 (b.take 0xF60))) }

/-- Bytes and RSVD bits that must be zero. -/
def recordRsvd (b : List Byte) : Nat :=
  let c := recordNat b 0x40 8
  let p := recordNat b 0x60 32
  recordNat b 0x10 48 + recordNat b 0x4C 20 + recordNat b 0x120 0xDE0 + recordNat b 0xFC0 56
    + field c 10 6 + field c 26 6 + field c 47 1 + field p 88 8 + field p 112 16 + field p 160 96
    + sumNat ((List.range 16).map fun k => recordNat b (0xA0 + 4 * k) 4 >>> 9)
    + sumNat ((List.range 2).map fun q => recordNat b (0xE0 + 8 * q) 8 >>> 56)

/-! ### Validity (R474) -/

/-- Every field lies in its range. -/
def Edition.inRange (e : Edition) : Bool :=
  decide (8 ≤ e.qMin.toNat) && decide (e.qMin.toNat ≤ 800) && decide (e.qMin.toNat ≤ e.qMax.toNat)
    && decide (e.qMax.toNat ≤ 800) && decide (e.gearFast.toNat ≤ e.gearSlow.toNat) && e.offer != 0
    && decide (e.tCool.toNat < e.tHot.toNat) && decide (e.tHot.toNat < e.tCrit.toNat) && decide (e.tCrit.toNat ≤ 110)
    && decide (e.tHbmHot.toNat < e.tHbmMax.toNat) && decide (e.tHbmMax.toNat < e.tHbmCrit.toNat)
    && decide (e.tHbmCrit.toNat ≤ 105) && decide (300 ≤ e.pLimit.toNat) && decide (e.pLimit.toNat ≤ 1500)
    && e.droopLimit != 0 && decide (10 ≤ e.droopLevel.toNat) && decide (e.droopLevel.toNat ≤ 100)
    && decide (10 ≤ e.holdMs.toNat) && decide (e.holdMs.toNat ≤ 10000) && e.laneThresh != 0
    && e.lanes.all (fun l => l.use != 3)
    && e.hbm.all (fun h => h.cartSize.toNat % 2 == 0 && decide (2 ≤ h.cartSize.toNat)
      && decide (h.cartSize.toNat ≤ 16384))

/-- A lane-map entry agrees with the others (R472). -/
def Edition.laneOk (e : Edition) (k : Nat) (l : LaneMapEntry) : Bool :=
  match l.use.toNat with
  | 1 => l.peerSlot != e.slot
  | 2 =>
    let o := nth ⟨0, 0, 0⟩ e.lanes l.peerPort.toNat
    l.peerSlot == e.slot && l.peerPort.toNat != k && o.use == 2 && o.peerPort.toNat == k
  | _ => true

/-- A slot is reached from both plates. -/
def Edition.reaches (e : Edition) (slot : Nat) : Bool :=
  let p := fun lo => (List.range 8).any fun i =>
    let l := nth ⟨0, 0, 0⟩ e.lanes (lo + i)
    l.use == 1 && l.peerSlot.toNat == slot
  p 0 && p 8

/-- The lane map and the role map keep R472 and R470. -/
def Edition.mapsOk (e : Edition) : Bool :=
  e.lanes.zipIdx.all (fun l => e.laneOk l.2 l.1)
    && ((mapRole e.roleMap e.slot.toNat).isNone || (List.range 8).all fun k =>
      k == e.slot.toNat || (mapRole e.roleMap k).isNone || e.reaches k)
    && mapOk e.roleMap
    && (List.range 8).all fun k => decide (8 ≤ mapNibble e.roleMap k) || mapNibble e.roleMap k == 0

/-- Both regions of every offered plate lie in it, apart from each other (R473). -/
def Edition.hbmOk (e : Edition) : Bool :=
  (List.range 2).all fun p => !bitAt e.offer.toNat p ||
    (match e.hbm[p]? with
     | some h =>
       let a := h.cartBase.toNat * 2 ^ 20
       let n := h.cartSize.toNat * 2 ^ 20
       let c := h.ckptBase.toNat * 2 ^ 16
       decide (a + n ≤ hbmSize) && decide (c + 2 ^ 16 ≤ hbmSize) && !overlap a n c (2 ^ 16)
     | none => false)

def editionSignatureOk (owner : Option (BitVec 384)) (b : List Byte) : Bool :=
  let key := (b.drop 0xF00).take 96
  (match owner with | some d => ofLe (sha384 key) == d.toNat | none => false)
    && Config.ecdsaVerify (BitVec.ofNat 768 (ofLe key)) (BitVec.ofNat 384 (ofLe (sha384 (b.take 0xF60))))
      (BitVec.ofNat 768 (ofLe ((b.drop 0xF60).take 96)))

/-- The first check that a record fails; `numbers` are those of the valid records in lower places. -/
def State.editionReason (s : State) (b : List Byte) (numbers : List Nat) : Option Nat :=
  let e := readEdition b 0
  firstBad [
    (recordNat b 0 4 == 0x44454D43 && recordNat b 4 2 == 1 && recordNat b 6 2 == 0x4230, 1),
    (editionSignatureOk s.boot.ownerKeyDigest b, 2), (e.slot == s.boot.boardSlot, 3),
    (e.number != 0 && decide (e.floor.toNat ≤ e.number.toNat)
      && decide (s.boot.editionFloor.toNat ≤ e.number.toNat), 4),
    (!numbers.contains e.number.toNat, 5), (recordRsvd b == 0 && e.inRange, 6), (e.mapsOk, 7), (e.hbmOk, 8)]

/-! ### The eight places (R463, R475) -/

def editionPlaceAddr (i : Nat) : Nat := 0x4_0000 + 0x1_0000 * i

def State.editionBytes (s : State) (i : Nat) : List Byte := flashRead s.boot.flash (editionPlaceAddr i) 4096

/-- An erased place holds no record. -/
def blank (b : List Byte) : Bool := b.all (· == 0xFF)

/-- Whether the word REVOKED holds a 0 bit. -/
def revokedRecord (b : List Byte) : Bool := (b.drop 0xFF8).any (· != 0xFF)

/-- How a place stands. -/
inductive PlaceState where
  | empty
  | revoked (number : Nat)
  | invalid (reason : Nat)
  | valid (edition : Edition)
  deriving DecidableEq, Repr

def validNumbers (l : List PlaceState) : List Nat :=
  l.filterMap fun p => match p with | .valid e => some e.number.toNat | _ => none

def State.placeState (s : State) (i : Nat) (before : List PlaceState) : PlaceState :=
  let b := s.editionBytes i
  if blank b then .empty
  else if revokedRecord b then .revoked (recordNat b 8 4)
  else
    match s.editionReason b (validNumbers before) with
    | some r => .invalid r
    | none => .valid (readEdition b i)

def State.places (s : State) : List PlaceState :=
  (List.range 8).foldl (fun l i => l ++ [s.placeState i l]) []

/-- The valid record with the highest NUMBER that satisfies a test. -/
def highest (l : List PlaceState) (p : Edition → Bool) : Option Edition :=
  l.foldl (fun best x =>
    match x, best with
    | .valid e, some b => if p e && decide (b.number.toNat < e.number.toNat) then some e else best
    | .valid e, none => if p e then some e else none
    | _, _ => best) none

/-- The previous edition (R475). -/
def State.previousEdition (s : State) : Option Edition :=
  highest s.places fun e => decide (e.number.toNat < s.edition.number.toNat)

/-- Event 0x0552: the place and the reason. -/
def State.skipEvent (s : State) (place reason : Nat) : State := s.emit srcMss 0x0552 [f32 place, f8 reason]

/-- Program REVOKED of a place to zero. -/
def State.revokePlace (s : State) (i : Nat) : State :=
  { s with boot := { s.boot with flash := flashProgram s.boot.flash (editionPlaceAddr i + 0xFF8) (List.replicate 8 0) } }

/-! ### EDITION_REVERT (R478) and carried records (R480) -/

/-- Event 0x0551 with its cause. -/
def State.revokedEvent (s : State) (command : Bool) : State :=
  s.emit srcMss 0x0551 [f8 (Config.revokeCause command).toNat]

/-- Whether a revert may be accepted: the active record is not revoked, and a previous edition exists. -/
def State.canRevert (s : State) : Bool :=
  !revokedRecord (s.editionBytes s.edition.place) && s.edition.number != 0 && s.previousEdition.isSome

/-- Where a carried record goes: an erased or invalid place; then a revoked one; then the lowest valid one that is
neither active nor previous. -/
def State.carriedPlace (s : State) : Option Nat :=
  let l := s.places.zipIdx
  let prev := match s.previousEdition with | some e => e.number.toNat | none => 0
  let free := l.find? fun x => match x.1 with | .empty => true | .invalid _ => true | _ => false
  let rev := l.find? fun x => match x.1 with | .revoked _ => true | _ => false
  let old := (l.filterMap fun x => match x.1 with
    | .valid e => if e.number = s.edition.number ∨ e.number.toNat = prev then none else some (e.number.toNat, x.2)
    | _ => none).foldl (fun best x => match best with
      | some b => if x.1 < b.1 then some x else best
      | none => some x) (none : Option (Nat × Nat))
  ((free.orElse fun _ => rev).map (·.2)).orElse fun _ => old.map (·.2)

/-- The numbers held in flash, valid or revoked. -/
def State.heldNumbers (s : State) : List Nat :=
  s.places.filterMap fun p => match p with
    | .valid e => some e.number.toNat | .revoked n => some n | _ => none

/-- The place that holds a number. -/
def State.placeOf (s : State) (n : Nat) : Nat :=
  (s.places.findIdx? fun p => match p with
    | .valid e => e.number.toNat == n | .revoked m => m == n | _ => false).getD 0

/-- One record that an image carries. -/
def State.writeCarried (s : State) (b : List Byte) : State :=
  let n := recordNat b 8 4
  match s.editionReason b [] with
  | some _ => s
  | none =>
    if s.heldNumbers.contains n then s.skipEvent (s.placeOf n) 5
    else
      match s.carriedPlace with
      | some i =>
        let a := editionPlaceAddr i
        { s with boot := { s.boot with flash := flashProgram (flashErase s.boot.flash a) a b } }.emit srcMss 0x0556 []
      | none => s

end Sys2Proof.Machine
end

