-- ==== Sys2Proof/Machine/Boot.lean ====
section
/-! DEFINITION. Reset, boot, power and clocks (R200, R457–R468, R475–R479, R484–R492, R501, R406, R414). -/

namespace Sys2Proof.Machine

/-! ### What a reset loses (R457) -/

/-- Everything but the flash, the key store, the floor cells, what VDD_AUX latches, what the bed die holds for good,
the levels of the input pins, and what is not the device's: the host's memory and the commands that wait. -/
def State.lost (s : State) : State :=
  { State.reset with
    pending := s.pending,
    mem := { State.reset.mem with host := s.mem.host },
    sec := { Security.reset with slots := s.sec.slots, cell0 := s.sec.cell0, cell1 := s.sec.cell1 },
    boot := { Boot.reset with
      phase := .inReset, plates := 0, uniqueId := s.boot.uniqueId, ownerKeyDigest := s.boot.ownerKeyDigest,
      romDigest := s.boot.romDigest, flash := s.boot.flash, floor0 := s.boot.floor0, floor1 := s.boot.floor1,
      pgood := s.boot.pgood, perstLow := s.boot.perstLow, pwrFail := s.boot.pwrFail, thermTrip := s.boot.thermTrip,
      latches := s.boot.latches },
    gates := (List.range 72).map fun i => (i, ⟨.off, false⟩),
    freeCount := s.freeCount }

def State.noLatches (s : State) : State :=
  { s with boot := { s.boot with latches := { trip := none, sequencing := none, refclkLost := false } } }

/-- PERST_N_ASSERT. -/
def execPerstNAssert (s : State) : Out :=
  .next { s.lost with boot := { s.lost.boot with perstLow := true } }

/-- PGOOD_DEASSERT (R490): as PERST_N, and the fall of PGOOD_1 resets the VDD_AUX domain too. -/
def execPgoodDeassert (group : Fin 6) (s : State) : Out :=
  let s := { s with boot := { s.boot with pgood := s.boot.pgood &&& ~~~(BitVec.ofNat 6 (2 ^ group.val)) } }
  let s := if s.boot.perstLow then s else s.lost
  .next (if group = 0 then { s.noLatches with boot := { s.noLatches.boot with thermTrip := false } } else s)

/-- REFCLK_LOSS (R492). -/
def execRefclkLoss (s : State) : Out :=
  let s := s.lost
  .next { s with boot := { s.boot with latches := { s.boot.latches with refclkLost := true } } }

/-- SEQUENCING_VIOLATION (R486): the groups join those latched. -/
def execSequencingViolation (groups : BitVec 6) (s : State) : Out :=
  let old := match s.boot.latches.sequencing with | some g => g | none => 0
  .next { s with boot := { s.boot with latches := { s.boot.latches with sequencing := some (old ||| groups) } } }

/-- THERMAL_TRIP (R501): both plates in reset, with the loss of state of R457, until PERST_N falls and rises again. -/
def execThermalTrip (sensor : TripSensor) (s : State) : Out :=
  let s := s.lost
  .next { s with boot := { s.boot with
    phase := .stopped, thermTrip := true, latches := { s.boot.latches with trip := some sensor } } }

/-! ### Power-fail warning (R488, R489) -/

/-- PWR_FAIL_N_ASSERT: from now on no flash program or erase starts. -/
def execPwrFailNAssert (s : State) : Out :=
  let t := { s with boot := { s.boot with pwrFail := true } }
  .next (if s.mssRuns && !s.boot.pwrFail then t.emit srcMss 0x0560 [] else t)

/-- What an update that is taken up puts into its slot: a REKEY or a POLICY_SET changes the tenant that is then
installed. -/
def State.jobTenant (s : State) (j : CommitJob) : Option Tenant :=
  match j.purpose, j.tenant with
  | .rekey, some n => s.sec.tenant.map fun t => { t with tmk := n.tmk, generation := t.generation + 1 }
  | .policy, some n => s.sec.tenant.map fun t => { t with policy := n.policy }
  | _, t => t

/-- The next update that waits is taken up, when none is under way and no scrub runs; one that has lost its tenant has
nothing to write. -/
def State.nextJob (s : State) : State :=
  if s.sec.job.isSome || s.sec.scrub.isSome then s
  else
    match s.sec.waiting.filter (fun j => j.purpose == .begin_ || j.purpose == .end_ || s.sec.tenant.isSome) with
    | j :: r => ({ s with sec := { s.sec with job := some { j with tenant := s.jobTenant j }, waiting := r } }).sealSync
    | [] => ({ s with sec := { s.sec with waiting := [] } }).sealSync

/-- BAR2 stays closed while the device is sealed, and until the tenant changes that were accepted are complete (R384). -/
def State.bar2Reopens (s : State) : State :=
  { s with sec := { s.sec with bar2Closed := s.sec.sealed || s.sec.waiting.any fun j => j.purpose != .policy } }

/-- A key-store update ends without effect: event 0x0406, and BAR2 reopens where no tenant is installed. -/
def State.commitFails (s : State) : State :=
  ({ s with sec := { s.sec with job := none } }.bar2Reopens.emit srcMss 0x0406 []).nextJob

/-- A firmware update fails (R430): the slot stays invalid, and becomes so again where its marker had been written. -/
def State.fwFails (s : State) : State :=
  let applied := s.mss.fw.state == .activate
  let a := 0x10_0000 + 0x80_0000 * (1 - s.boot.fwSlot.toNat)
  ({ s with
    boot := { s.boot with flash := if applied then flashErase s.boot.flash a else s.boot.flash },
    mss := { s.mss with fw := { s.mss.fw with state := .idle, received := 0, failed := false } } }).sealSync.emit srcMss
    0x0542 []

/-- PWR_FAIL_N_DEASSERT: with every PGOOD still asserted what the warning stopped fails now. -/
def execPwrFailNDeassert (s : State) : Out :=
  let t := { s with boot := { s.boot with pwrFail := false } }
  if s.boot.pwrFail && s.mssRuns && s.boot.pgood == 0x3F then
    let s := t.emit srcMss 0x0561 []
    let s := if s.sec.job.isSome then s.commitFails else s
    .next (if s.mss.fw.failed then s.fwFails else s)
  else .next t

/-! ### The ROM (R464, R465) -/

def fwSlotAddr (k : Nat) : Nat := 0x10_0000 + 0x80_0000 * k

/-- A firmware header that is in order and signed by the Tolusk firmware key. -/
def fwHeaderOk (h : List Byte) : Bool :=
  recordNat h 0 4 == 0x57464D43 && recordNat h 4 2 == 1 && recordNat h 6 2 == 0x4230
    && decide (recordNat h 0x10 4 ≤ 0x7F_F000)
    && Config.ecdsaVerify Config.firmwareKey (BitVec.ofNat 384 (ofLe (sha384 (h.take 0x48))))
      (BitVec.ofNat 768 (recordNat h 0x48 96))

def State.fwHeader (s : State) (k : Nat) : List Byte := flashRead s.boot.flash (fwSlotAddr k) 4096
def State.fwBody (s : State) (k n : Nat) : List Byte := flashRead s.boot.flash (fwSlotAddr k + 4096) n

/-- Whether the ROM may run a slot. -/
def State.slotUsable (s : State) (k : Nat) : Bool :=
  let h := s.fwHeader k
  (h.drop 0xFF8).all (· == 0) && fwHeaderOk h
    && ofLe (sha384 (s.fwBody k (recordNat h 0x10 4))) == recordNat h 0x18 48
    && decide (s.boot.fwFloor.toNat ≤ recordNat h 0xC 2)

/-- The ROM returns to the slot that was last good after three failed attempts of another. -/
def romReverts (e : BootEntry) : Bool :=
  e.kind == 1 && e.failCount == 3 && e.fwSlot != e.lastSlot && e.lastSlot != 0xFF

def State.romRevert (s : State) : State :=
  let e := currentOf s.boot.flash
  if romReverts e then s.appendBoot { e with kind := 3, fwSlot := 0xFF, failCount := 0, fwPref := e.lastSlot } else s

/-- The slot that the ROM chooses. -/
def State.romSlot (s : State) : Option Nat :=
  let p := (currentOf s.boot.flash).fwPref % 2
  if s.slotUsable p then some p else if s.slotUsable (1 - p) then some (1 - p) else none

/-! ### The firmware starts: log, latches, key store (R391, R422, R486, R492, R501) -/

/-- The mirror's entries whose CRC checks: place and LOG_SEQ. -/
def mirrorFound (f : SMap Byte) : List (Nat × Nat) :=
  (usedPlaces f mirrorBase 128 mirrorEntries).filterMap fun i =>
    let b := flashRead f (mirrorBase + 128 * i) 128
    if ofLe (b.drop 126) = crc16 (b.take 126) then some (i, recordNat b 8 8) else none

/-- The place behind the entries that were mirrored after 0x0520 with lower LOG_SEQ (R425), from `pos` on. -/
def afterDegrade (found : List (Nat × Nat)) (low high : Nat) : Nat → Nat → Nat
  | 0, pos => pos
  | f + 1, pos =>
    if found.any fun p => p.1 == pos % mirrorEntries && decide (low ≤ p.2) && decide (p.2 < high) then
      afterDegrade found low high f (pos + 1)
    else pos

/-- Where the mirror goes on behind its entry of the highest LOG_SEQ. -/
def mirrorResume (f : SMap Byte) (found : List (Nat × Nat)) (place seq : Nat) : Nat :=
  let b := flashRead f (mirrorBase + 128 * place) 128
  if recordNat b 0 2 = 0x0520 then afterDegrade found (recordNat b 72 8) seq 1024 (place + 1) else place + 1

/-- LOG_SEQ goes on from one above the highest in the mirror. -/
def State.loadLog (s : State) : State :=
  match (mirrorFound s.boot.flash).foldl (fun (best : Option (Nat × Nat)) p => match best with
    | some b => if b.2 < p.2 then some p else best
    | none => some p) none with
  | some p => { s with mss := { s.mss with nextSeq := BitVec.ofNat 64 (p.2 + 1), mirrorPos := mirrorResume s.boot.flash (mirrorFound s.boot.flash) p.1 p.2 } }
  | none => s

/-- Sixteen random bytes: the key SK of R438. -/
def State.drawKey (s : State) : State :=
  let z := (List.range 16).foldl (fun (z : List Byte × State) _ =>
    let y := z.2.freeByte
    (z.1 ++ [y.1], y.2)) ([], s)
  { z.2 with sec := { z.2.sec with sk := BitVec.ofNat 128 (ofLe z.1) } }

def tripSource : TripSensor → Nat
  | .trip _ => srcMss
  | .stack n => srcStack n.val
def tripNumber : TripSensor → Nat
  | .trip n => n.val
  | .stack n => n.val

/-- The causes that VDD_AUX has latched are reported and forgotten. -/
def State.reportLatches (s : State) : State :=
  let l := s.boot.latches
  let s := match l.trip with | some t => s.emit (tripSource t) 0x0563 [f16 (tripNumber t)] | none => s
  let s := match l.sequencing with | some g => s.emit srcMss 0x0564 [f8 g.toNat] | none => s
  let s := if l.refclkLost then s.emit srcMss 0x0565 [] else s
  s.noLatches

/-- The firmware of a slot starts. -/
def State.startFirmware (s : State) (k : Nat) (reverted : Bool) : State :=
  let h := s.fwHeader k
  let e := currentOf s.boot.flash
  let s := { s with boot := { s.boot with
    fwVersion := BitVec.ofNat 32 (recordNat h 8 4), fwSlot := BitVec.ofNat 1 k,
    fwDigest := BitVec.ofNat 384 (recordNat h 0x18 48), fwSvnFloor := BitVec.ofNat 16 (recordNat h 0xE 2),
    bootCount := BitVec.ofNat 32 (e.bootCount + 1) } }
  let s := (s.loadLog.drawKey).reportLatches.loadKeyStore
  if reverted then s.emit srcMss 0x0555 [] else s

/-! ### The edition (R467, R468, R475, R479) -/

/-- The automatic return after three failed boots of the slot that runs. -/
def State.autoReturn (s : State) : State :=
  let e := currentOf s.boot.flash
  if e.kind = 1 ∧ e.failCount = 3 ∧ e.fwSlot = s.boot.fwSlot.toNat ∧ s.boot.pwrFail = false then
    match s.places.findIdx? (fun p => match p with | .valid x => x.number.toNat == e.edition | _ => false) with
    | some i => (s.revokePlace i).revokedEvent false
    | none => s
  else s

/-- The attempt entry of a slot and an edition. -/
def attemptEntry (cur : BootEntry) (slot edition : Nat) : BootEntry :=
  { cur with
    bootCount := cur.bootCount + 1, kind := 1, fwSlot := slot, edition := edition,
    failCount := if cur.kind = 1 ∧ cur.fwSlot = slot ∧ cur.edition = edition then cur.failCount + 1 else 1 }

/-- The edition in force, and the policy of the MSS under it. -/
def State.takeEdition (s : State) (e : Edition) : State :=
  { s with edition := e, mss := { s.mss with choice := e.gearSlow, gearReqs := [(0, e.gearSlow)] } }

/-- Registers take their edition values (R459, R460). -/
def State.takeRegisters (s : State) : State :=
  let e := s.edition
  { s with
    regs := { s.regs with gearNow := e.gearSlow, gearReq := e.gearSlow, roleMap := e.roleMap, roleEpoch := e.roleEpoch,
                          nextMap := e.roleMap, nextEpoch := e.roleEpoch },
    mss := { s.mss with choice := e.gearSlow, gearReqs := [(0, e.gearSlow)] } }

/-- The edition of a recovery boot: number 0, no plate, no role. -/
def recoveryEdition : Edition := { Edition.default with number := 0, offer := 0, roleMap := 0 }

/-- Skipped records, each invalid one with its event. -/
def State.reportSkipped (s : State) (l : List PlaceState) : State :=
  l.zipIdx.foldl (fun s p => match p.1 with | .invalid r => s.skipEvent p.2 r | _ => s) s

def skippedCount (l : List PlaceState) : Nat :=
  (l.filter fun p => match p with | .invalid _ => true | .revoked _ => true | _ => false).length

/-- Selection, with its event and the attempt entry. -/
def State.selectEdition (s : State) : State :=
  let s := s.autoReturn
  let l := s.places
  let s := s.reportSkipped l
  let cur := currentOf s.boot.flash
  match highest l (fun _ => true) with
  | some e =>
    let s := (s.takeEdition e).emit srcMss 0x0550 [f32 e.number.toNat, f32 e.place, f32 s.boot.editionFloor.toNat,
      f32 s.boot.fwFloor.toNat, f32 (skippedCount l)]
    s.appendBoot (attemptEntry cur s.boot.fwSlot.toNat e.number.toNat)
  | none =>
    let s := { s.takeEdition recoveryEdition with boot := { s.boot with recovery := true } }.emit srcMss 0x0553 []
    s.appendBoot (attemptEntry cur s.boot.fwSlot.toNat 0)

/-! ### Clocks, plates, Seam, scrub, Kazin (R298, R414, R459, R484) -/

/-- The fastest gear that a core setpoint supports. -/
def gearOfSetpoint (mv : Nat) : Nat := if 800 ≤ mv then 0 else if 760 ≤ mv then 1 else if 730 ≤ mv then 2 else 3

/-- A plate that fails at start-up. -/
def State.plateFails (s : State) (p : Nat) (ok : Bool) : State :=
  if ok || !s.plateOffered p then s else s.failPlate p

/-- A Seam that fails to train leaves the fallback plate. -/
def State.halfDevice (s : State) : State :=
  if s.boot.plates = 3 then s.holdPlate (if s.edition.fallbackPlate = 0 then 1 else 0) else s

/-- The ports that the lane map uses begin to train; those of a plate that is held stay OFF. -/
def State.trainPorts (s : State) : State :=
  (List.range 16).foldl (fun s k =>
    if (s.lane k).use ≠ 0 ∧ s.plateOffered (k / 8) then s.portTo k .training else s) s

/-- A cluster powers up (R344): from OFF through POWERING to ON, each change with its event. -/
def State.powerUp (s : State) (i : Nat) : State :=
  let to_ := fun (g : GateState) (s : State) =>
    { s with gates := smapPut .reset s.gates i ⟨g, false⟩ }.emit (srcCluster (clusterAt i) 3) 0x010A []
  to_ .on (to_ .powering s)

/-- Every cluster of each offered plate powers up. -/
def State.powerClusters (s : State) : State :=
  ((List.range 72).filter fun i => s.plateOffered (i / 36)).foldl State.powerUp s

/-- The phases from the clocks and plates to the HBM training; the scrub begins. -/
def State.bringUp (s : State) (facts : BootFacts) : State :=
  let s := { s with
    boot := { s.boot with plates := s.edition.offer },
    mss := { s.mss with vSet := min facts.vSetE facts.vSetW,
                        vGear := BitVec.ofNat 2 (gearOfSetpoint (min facts.vSetE facts.vSetW)) } }
  let s := ((s.plateFails 0 facts.plateEOk).plateFails 1 facts.plateWOk).powerClusters
  let s := if facts.seamOk then s else s.halfDevice
  { s with sec := { s.sec with scrub := some { started := s.boardTime, after := none } } }

/-- A boot from the ROM phase on. BOARD_SLOT holds from one release of PERST_N to the next (R458). -/
def State.bootFrom (s : State) (facts : BootFacts) : State :=
  let s := { s with boot := { s.boot with
    boardSlot := if s.boot.slotHeld then s.boot.boardSlot else facts.boardSlot, slotHeld := true } }.loadFloors
  let reverted := romReverts (currentOf s.boot.flash)
  let s := s.romRevert
  match s.romSlot with
  | none => { s with boot := { s.boot with phase := .stopped }, mss := { s.mss with mgmtAlert := true } }
  | some k =>
    let s := { s with boot := { s.boot with phase := .booting } }.startFirmware k reverted
    let s := s.selectEdition
    if s.boot.recovery then s else s.bringUp facts

/-- BOOT: PERST_N is released, or the boot begins again after a watchdog expiry. Every supply is good by then. -/
def execBoot (facts : BootFacts) (s : State) : Out :=
  if s.boot.phase = .inReset then
    .next ({ s with boot := { s.boot with perstLow := false, pgood := 0x3F, thermTrip := false } }.bootFrom facts)
  else .next s

/-! ### SCRUB_COMPLETE (R200, R386) -/

/-- The unwritten pattern everywhere; picks, capture, marks and draw counters (R302) are cleared. -/
def State.scrubbed (s : State) : State :=
  { s with
    mem := { s.mem with bytes := [], marks := [], fresh := [], early := [] },
    stipples := [], picks := [], marks := [], markUpdates := [], engines := [], lanes := [],
    regs := { s.regs with capture := [] } }

/-- Event 0x0400 carries the fingerprint (R386). -/
def changeFields (code : BitVec 16) (s : State) : List (Nat × Nat) :=
  if code = 0x0400 then [f128 s.fingerprintNow] else []

def scrubCompleteEffect (j : ScrubJob) (s : State) : State :=
  let s := s.scrubbed.emit srcMss 0x0230 [f64 (s.boardTime.toNat - j.started.toNat)]
  let s := { s with sec := { s.sec with scrub := none } }.bar2Reopens
  match j.after with
  | some code => (s.emit srcMss code.toNat (changeFields code s)).nextJob
  | none => s.trainPorts

/-- SCRUB_COMPLETE: the end of a scrub, and of the tenant change that ran it; at power-up the ports train next. -/
def execScrubComplete (s : State) : Out :=
  match s.sec.scrub with
  | some j => .next (scrubCompleteEffect j s)
  | none => .next s

/-! ### BOOT_READY (R459, R476, R484) -/

def readyEntry (cur : BootEntry) (s : State) : BootEntry :=
  if s.boot.recovery then { cur with kind := 2, failCount := 0, lastSlot := s.boot.fwSlot.toNat }
  else { cur with kind := 2, failCount := 0, lastEdition := s.edition.number.toNat, lastSlot := s.boot.fwSlot.toNat,
                  lastRoot := s.edition.mgmtRoot.toNat }

def bootReadyEffect (s : State) : State :=
  let s := s.appendBoot (readyEntry (currentOf s.boot.flash) s)
  let s := s.raiseFloors (if s.boot.recovery then 0 else s.edition.floor.toNat) s.boot.fwSvnFloor.toNat
  let s := if s.edition.gearFast.toNat < s.mss.vGear.toNat ∧ !s.boot.recovery then
      s.emit srcMss 0x0562 [f32 s.mss.vSet, f8 s.mss.vGear.toNat]
    else s
  { s.takeRegisters with boot := { s.boot with phase := .ready } }.emit srcMss 0x0500
    [f32 s.boot.fwVersion.toNat, f32 s.boot.bootCount.toNat]

/-- No port is still training. -/
def State.portsSettled (s : State) : Bool := (List.range 16).all fun k => (s.port k).state != .training

/-- BOOT_READY. -/
def execBootReady (s : State) : Out :=
  if s.boot.phase = .booting ∧ s.sec.scrub.isNone ∧ s.portsSettled = true then .next (bootReadyEffect s)
  else .next s

/-! ### The watchdog (R406, R461) and the array PLLs (R414) -/

/-- WATCHDOG_EXPIRY: once ready, the management core restarts alone; before, the boot starts again. -/
def execWatchdogExpiry (s : State) : Out :=
  match s.boot.phase with
  | .ready =>
    let n := s.mss.restarts + 1
    .next ({ s with mss := { s.mss with restarts := n } }.emit srcMss 0x050C [f32 n])
  | .booting =>
    -- PERST_N stays released, so BOARD_SLOT holds.
    .next { s.lost with refclk := s.refclk, boardTime := s.boardTime,
                        boot := { s.lost.boot with boardSlot := s.boot.boardSlot, slotHeld := s.boot.slotHeld } }
  | _ => .next s

/-- PLL_LOCK_TIMEOUT: the plate has failed. -/
def execPllLockTimeout (plate : Fin 2) (s : State) : Out :=
  if s.plateOffered plate.val then .next (s.failPlate plate.val) else .next s

end Sys2Proof.Machine
end

