-- ==== Sys2Proof/Machine/Debug.lean ====
section
/-! DEFINITION. Debug mode, the capture, and the two windows through which the host reaches device memory
(R114–R116, R186, R187, R198, R200, R369–R372, R393, R401). -/

namespace Sys2Proof.Machine

/-! ### Refusals that show after 400 µs (R401) -/

/-- REFCLK edges in 400 µs. -/
def edges400us : Nat := 40000

/-- A refused DEBUG_EN or CAP_ARMED write becomes visible later. -/
def State.refuseLater (s : State) (offset : Nat) : State :=
  { s with sec := { s.sec with
      refusals := s.sec.refusals ++ [⟨s.refclk + BitVec.ofNat 64 edges400us, BitVec.ofNat 26 offset⟩] } }

/-- Time moves on to a REFCLK edge. -/
def State.advanceRef (s : State) (edge : DWord) : State :=
  s.advanceTo (s.boardTime.toNat + 10 * (edge.toNat - s.refclk.toNat))

/-- DEBUG_REFUSAL_REPORT: REFUSED and REFUSED_AT, with event 0x0420 (R402). -/
def execDebugRefusalReport (s : State) : Out :=
  match s.sec.refusals with
  | r :: rest =>
    let s := s.advanceRef r.due
    .next (({ s with sec := { s.sec with refusals := rest } }.refuse r.offset.toNat).securityRefusal r.offset.toNat)
  | [] => .next s

/-! ### DEBUG_EN (R370) -/

def debugEnOffset : Nat := 0x5000
def captureOffset : Nat := 0x5010

/-- Leaving debug mode, and sealing, discard an armed capture. -/
def State.leaveDebug (s : State) : State :=
  { s with regs := { s.regs with debug := false, capArmed := false, capDone := false, capture := [] } }

def State.debugAllowed (s : State) : Bool :=
  (s.seq.state == .idle || s.seq.state == .loaded) && !s.sec.sealed && s.edition.debugAllowed

def debugEnEffect (v : DWord) (s : State) : State :=
  if bitAt v.toNat 0 then
    if s.debugAllowed then { s with regs := { s.regs with debug := true } } else s.refuseLater debugEnOffset
  else if s.quiet then s.leaveDebug
  else s.refuseLater debugEnOffset

/-- DEBUG_EN. -/
def execDebugEn (value : DWord) (s : State) : Out := hostWr (debugEnEffect value) s

/-! ### The capture (R114, R369, R371) -/

/-- The place fields of the capture word. -/
def State.setCapture (s : State) (v : Nat) : State :=
  { s with regs := { s.regs with
      capStroke := BitVec.ofNat 10 v, capCluster := BitVec.ofNat 6 (v >>> 10), capPlate := BitVec.ofNat 1 (v >>> 16),
      capLengine := BitVec.ofNat 3 (v >>> 17) } }

/-- A write that arms: in debug mode, with no capture armed, at a cluster that exists. -/
def captureArmEffect (v : DWord) (s : State) : State :=
  if s.regs.debug && !s.sec.sealed && !s.regs.capArmed && decide (field v.toNat 10 6 < 36) then
    let s := s.setCapture v.toNat
    { s with regs := { s.regs with capArmed := true, capDone := false } }
  else s.refuseLater captureOffset

/-- A write of the capture word. While a capture is armed only a disarm is accepted. -/
def captureWordEffect (v : DWord) (s : State) : State :=
  let arm := bitAt v.toNat 32
  let disarm := bitAt v.toNat 33
  if arm && !disarm then captureArmEffect v s
  else if disarm && !arm && s.regs.capArmed then { s with regs := { s.regs with capArmed := false } }
  else if s.regs.capArmed || decide (36 ≤ field v.toNat 10 6) || arm then
    if arm then s.refuseLater captureOffset else s.refuse captureOffset
  else s.setCapture v.toNat

/-- CAP_ARMED: a write of the capture word with bit 32 set. -/
def execCapArmed (value : DWord) (s : State) : Out := hostWr (captureWordEffect (value ||| 0x1_0000_0000#64)) s

/-- CAP_DISARM: a write of the capture word with bit 33 set. -/
def execCapDisarm (value : DWord) (s : State) : Out := hostWr (captureWordEffect (value ||| 0x2_0000_0000#64)) s

/-! ### The store data window (R184, R372) -/

def winBaseOffset : Nat := 0x5018
def windowOffset : Nat := 0x4_0000

/-- The 64 KiB lie wholly within the store windows of a plate that the device offers. -/
def State.windowOk (s : State) (a : Nat) : Bool :=
  a % 0x1_0000 == 0 && ((s.plateOffered 0 && inside a 0x1_0000 (storeBase 0) storeSize)
    || (s.plateOffered 1 && inside a 0x1_0000 (storeBase 1) storeSize))

def winBaseEffect (v : DWord) (s : State) : State :=
  let a := field v.toNat 0 48
  if s.windowOk a then { s with regs := { s.regs with winBase := BitVec.ofNat 48 a } } else s.refuse winBaseOffset

/-- WIN_BASE. -/
def execWinBase (value : DWord) (s : State) : Out := hostWr (winBaseEffect value) s

/-- What a read returns: the data, whether its completion was poisoned, whether it was an Unsupported Request. -/
def State.returned (s : State) (data : List Byte) (poisoned : Bool) : State :=
  { s with regs := { s.regs with readData := data, readPoisoned := poisoned, unsupported := false } }

def State.unsupported (s : State) : State :=
  { s with regs := { s.regs with readData := [], readPoisoned := false, unsupported := true } }

/-- An access that BAR0 accepts (R321). -/
def bar0Shape (offset len : Nat) : Bool := (len == 4 || len == 8) && offset % len == 0

/-- A store address that the window reaches: none in the unmapped parts, or on a plate that the device does not
offer. -/
def State.windowMapped (s : State) (a : Nat) : Bool :=
  mapped a && (match storePlace a with | some (p, _, _) => s.plateOffered p | none => false)

/-- The store words of an access as they are, without regard to the stroke rule of R29. -/
def State.plainStore (s : State) (a n : Nat) : State :=
  let ws := ((List.range (wordsOf a n)).map fun i => wordOf a + i).filter fun w => isEngineStore (8 * w)
  { s with mem := { s.mem with fresh := ws.foldl (fun m w => smapPut false m w true) s.mem.fresh } }

/-- Event 0x0212 of one poisoned word that the host has read, under the MSS; a word of HBM is counted for its stack.
Log entry 16. -/
def State.hostPoison (s : State) (w : Nat) : State :=
  let f := fun (x : StackCounts) => { x with poisonReads := satInc x.poisonReads }
  let s := if (hbmPlate (8 * w)).isSome then
      { s with stackCounts := smapMod .zero s.stackCounts (stackOf (8 * w)) f }
    else s
  s.emit srcMss 0x0212 [f64 (8 * w)]

/-- What the host's read of device memory leaves besides its data: corrections and poison reads (R195, R198). -/
def State.hostReported (s : State) (v : ReadData) : State :=
  v.poison.foldl State.hostPoison (v.corrected.foldl (fun s w => s.reportCorrected noReader w) s)

def State.windowOpen (s : State) : Bool := s.regs.debug && s.quiet

/-- A read through the window. A poisoned word is delivered as zeros. Log entry 66. -/
def windowRead (offset len : Nat) (s : State) : State :=
  let s := { s with regs := { s.regs with readLatch := none } }
  let a := s.regs.winBase.toNat + offset
  if s.windowOpen && s.windowMapped a then
    let v := (s.plainStore a len).hostView a len
    (s.hostReported v).returned v.bytes false
  else s.returned (List.replicate len 0) false

def windowWrite (offset : Nat) (data : List Byte) (s : State) : State :=
  if s.windowOpen then
    let a := s.regs.winBase.toNat + offset
    if s.windowMapped a then (s.plainStore a data.length).outsideWrite noReader a data else s
  else s.refuse (windowOffset + offset)

def storeWindowEffect (offset : Nat) (x : HostAccess) (s : State) : State :=
  match x with
  | .read len => if bar0Shape offset len then windowRead offset len s else s.unsupported
  | .write data => if bar0Shape offset data.length then windowWrite offset data s else s.unsupported

/-- Whether an access is a write that BAR0 accepts, which ends the wait of an earlier low half (R350). -/
def acceptedWrite (offset : Nat) : HostAccess → Bool
  | .read _ => false
  | .write data => bar0Shape offset data.length

/-- STORE_WINDOW_ACCESS. -/
def execStoreWindowAccess (offset : BitVec 16) (access : HostAccess) (s : State) : Out :=
  if acceptedWrite offset.toNat access then hostWr (storeWindowEffect offset.toNat access) s
  else if s.hostAnswers then .next (storeWindowEffect offset.toNat access s)
  else .next s

/-! ### BAR2 (R186, R187, R198, R200, R393) -/

/-- The device address of a BAR2 offset. -/
def State.bar2Address (s : State) (offset : Nat) : Nat := s.regs.bar2Aperture.toNat * 2 ^ 36 + offset

/-- An access that BAR2 serves: it is open, and all of it lies in the HBM of plates that are offered. A tenant change
closes BAR2 (R384); while its scrub runs, an unsealed device answers as R200 has it. -/
def State.bar2Open (s : State) (a n : Nat) : Bool :=
  (!s.sec.bar2Closed || s.sec.scrub.isSome) && !s.sec.sealed
    && (List.range (n / 2 ^ 30 + 1)).all (fun i => match hbmPlate (a + i * 2 ^ 30) with
      | some p => s.plateOffered p | none => false)
    && (match hbmPlate (a + (n - 1)) with | some p => s.plateOffered p | none => false)

def bar2Read (a len : Nat) (s : State) : State :=
  if s.sec.scrub.isSome then s.returned (List.replicate len 0) false
  else
    let v := s.hostView a len
    (s.hostReported v).returned v.bytes (!v.poison.isEmpty)

/-- A host write, word by word: those in a cartoon region are discarded while a cartoon is held. -/
def State.bar2Put : Nat → Nat → List Byte → State → State
  | 0, _, _, s => s
  | _ + 1, _, [], s => s
  | f + 1, a, bs, s =>
    let k := 8 - a % 8
    let piece := bs.take k
    let s := if s.seq.cartoon.isSome && s.inCartoonRegion a piece.length then s
      else s.outsideWrite noReader a piece
    State.bar2Put f (a + k) (bs.drop k) s

def bar2Write (a : Nat) (data : List Byte) (s : State) : State :=
  let s := s.returned [] false
  if s.sec.scrub.isSome then s else State.bar2Put (data.length + 1) a data s

def bar2Effect (offset : Nat) (x : HostAccess) (s : State) : State :=
  let a := s.bar2Address offset
  match x with
  | .read len => if s.bar2Open a len then bar2Read a len s else s.unsupported
  | .write data => if s.bar2Open a data.length then bar2Write a data s else s.unsupported

/-- BAR2_ACCESS. -/
def execBar2Access (offset : BitVec 36) (access : HostAccess) (s : State) : Out :=
  if s.hostAnswers then .next (bar2Effect offset.toNat access s) else .next s

end Sys2Proof.Machine
end

