-- ==== Sys2Proof/Machine/LogMirror.lean ====
section
/-! DEFINITION. The flash mirror of the log (R423–R426). -/

namespace Sys2Proof.Machine

/-- Entries of the SRAM ring that are not in flash yet, oldest first. -/
def Mss.waiting (m : Mss) : List LogEntry := m.sram.drop (m.sram.length - m.unmirrored)

def State.mirrorAll (s : State) (l : List LogEntry) : State := l.foldl State.mirrorOne s

/-- The sector that the next entry goes to is retired, with event 0x0522 (R423). -/
def State.retireSector (s : State) : State :=
  let p := mirrorNext s.mss.retiredSectors 32 s.mss.mirrorPos
  { s with mss := { s.mss with retiredSectors := s.mss.retiredSectors ++ [p / 512] } }.emit srcMss 0x0522 []

/-- The place of an entry in the SRAM ring. Log entry 16. -/
def sramOffset (seq : Nat) : Nat := 128 * (seq % 512)

/-- A gap marker for the entries from `first` to `last` (R425). Log entry 22. -/
def State.gapMarker (s : State) (first last : Nat) : LogEntry :=
  { code := 0, kind := 3, timeBase := if s.timeValid then 0 else 1, source := BitVec.ofNat 24 srcMss,
    boot := BitVec.ofNat 16 s.boot.bootCount.toNat, seq := BitVec.ofNat 64 first,
    time := if s.timeValid then s.boardTime else s.refclk, step := s.recStep, stroke := s.recStroke,
    detail := BitVec.ofNat 672 (packFields [f64 first, f64 last]), dropped := 0 }

/-- What the mirror receives of entries of which some cannot be read: `run` is the run of unreadable ones so far. -/
def State.withGaps (s : State) (bad : List Nat) : List LogEntry → Option (Nat × Nat) → List LogEntry
  | [], none => []
  | [], some g => [s.gapMarker g.1 g.2]
  | e :: r, run =>
    let n := e.seq.toNat
    if bad.contains n then
      s.withGaps bad r (some (match run with | some g => (g.1, n) | none => (n, n)))
    else
      match run with
      | some g => s.gapMarker g.1 g.2 :: e :: s.withGaps bad r none
      | none => e :: s.withGaps bad r none

/-- An uncorrectable entry in the SRAM ring (R425). -/
def logDegrade (bad : List Nat) (e : LogEntry) (s : State) : State :=
  let old := s.mss.waiting
  let low := match old with | x :: _ => x.seq.toNat | [] => s.mss.nextSeq.toNat
  let s := { s with mss := { s.mss with degraded := true, backup := [], unmirrored := 0 } }
  let s := (s.emit srcMss 0x0520 [f64 (sramOffset e.seq.toNat), f64 low]).mssAlert
  let s := s.mirrorAll s.mss.backup
  let s := { s with mss := { s.mss with backup := [] } }
  s.mirrorAll (s.withGaps bad old none)

/-- The backup log reads badly too (R426): its entries are lost, and counted. -/
def backupFails (s : State) : State :=
  { s with mss := { s.mss with backupFailed := true, backup := [], dropped := s.mss.dropped + s.mss.backup.length } }.emit
    srcMss 0x0521 []

/-- One round of the mirror. -/
def mirrorRound (facts : MirrorFacts) (s : State) : State :=
  if s.mss.backupFailed then s
  else if s.mss.degraded then
    if facts.backupBad then backupFails s
    else
      let s := s.mirrorAll s.mss.backup
      { s with mss := { s.mss with backup := [] } }
  else
    match s.mss.waiting.find? (fun e => facts.sramBad.contains e.seq.toNat) with
    | some e => logDegrade facts.sramBad e s
    | none =>
      let s := s.mirrorAll s.mss.waiting
      { s with mss := { s.mss with unmirrored := 0 } }

/-- Entries that wait for flash. -/
def Mss.waitCount (m : Mss) : Nat := if m.degraded then m.backup.length else m.unmirrored

/-- REFCLK edges in 20 ms. -/
def edges20ms : Nat := 2000000

/-- With fewer than 16 entries waiting the round comes 20 ms after the last one. -/
def State.mirrorTime (s : State) : State :=
  if 16 ≤ s.mss.waitCount then s else s.advanceRef (s.mss.lastMirror + BitVec.ofNat 64 edges20ms)

/-- A direct write to flash has ended (R426). A flash program that fails makes the round go on in the next sector. -/
def logMirrorEffect (facts : MirrorFacts) (s : State) : State :=
  let s := { s with mss := { s.mss with writing := false } }.mirrorTime
  let s := if facts.programOk then s else s.retireSector
  let s := mirrorRound facts s
  { s with mss := { s.mss with lastMirror := s.refclk } }

/-- LOG_MIRROR. While PWR_FAIL_N is asserted no program starts (R424). -/
def execLogMirror (facts : MirrorFacts) (s : State) : Out :=
  if s.mssRuns ∧ s.boot.pwrFail = false then .next (logMirrorEffect facts s) else .next s

end Sys2Proof.Machine
end

