-- ==== Sys2Proof/Machine/Gates.lean ====
section
/-! DEFINITION. The power gates of the clusters (R344). -/

namespace Sys2Proof.Machine

def gateOffset (i : Nat) : Nat := 0x4100 + 8 * i

/-- Each change of state of a gate writes event 0x010A, under the cluster's source. -/
def State.setGate (s : State) (c : ClusterLoc) (g : Gate) : State :=
  { s with gates := smapPut .reset s.gates (clusterIdx c) g }.emit (srcCluster c 3) 0x010A []

def State.gateTo (s : State) (c : ClusterLoc) (st : GateState) : State :=
  if (s.gate c).state = st then s else s.setGate c { s.gate c with state := st }

def State.gatePending (s : State) (c : ClusterLoc) (b : Bool) : State :=
  { s with gates := smapPut .reset s.gates (clusterIdx c) { s.gate c with pending := b } }

def clusterEnableEffect (c : ClusterLoc) (s : State) : State :=
  match (s.gate c).state with
  | .on => s
  | .draining => s.gatePending c true
  | .off => s.gateTo c .powering
  | .powering => s

/-- CLUSTER_ENABLE. -/
def execClusterEnable (c : ClusterLoc) (s : State) : Out := hostWr (clusterEnableEffect c) s

/-- A disable outside IDLE, or of a gate that powers up, is refused. -/
def clusterDisableEffect (c : ClusterLoc) (s : State) : State :=
  if s.seq.state ≠ .idle then s.refuse (gateOffset (clusterIdx c))
  else
    match (s.gate c).state with
    | .on => s.gateTo c .draining
    | .draining => s.gatePending c false
    | .off => s
    | .powering => s.refuse (gateOffset (clusterIdx c))

/-- CLUSTER_DISABLE. -/
def execClusterDisable (c : ClusterLoc) (s : State) : Out := hostWr (clusterDisableEffect c) s

/-- CLUSTER_DRAIN_END, 2 µs after the drain began. -/
def execClusterDrainEnd (c : ClusterLoc) (s : State) : Out :=
  let g := s.gate c
  if g.state = .draining then .next (s.setGate c ⟨if g.pending then .powering else .off, false⟩)
  else .next s

/-- The unwritten pattern in every word of a cluster's stores. -/
def Memory.dropCluster (m : Memory) (c : ClusterLoc) : Memory :=
  let a := clusterStoreAddr c
  let b := a + 0x100_0000
  { m with bytes := smapDrop m.bytes a b, marks := smapDrop m.marks (a / 8) (b / 8),
           fresh := smapDrop m.fresh (a / 8) (b / 8) }

/-- Stores and Stipple slots hold the unwritten pattern, and every lane counter of the cluster is 0. -/
def State.clearCluster (s : State) (c : ClusterLoc) : State :=
  let i := clusterIdx c
  { s with mem := s.mem.dropCluster c, stipples := smapPut .empty s.stipples i .empty,
           lanes := smapDrop s.lanes (32 * i) (32 * i + 32) }

/-- CLUSTER_POWERED. -/
def execClusterPowered (c : ClusterLoc) (s : State) : Out :=
  if (s.gate c).state = .powering then .next ((s.clearCluster c).gateTo c .on) else .next s

end Sys2Proof.Machine
end

