-- ==== Sys2Proof/Machine/Gears.lean ====
section
/-! DEFINITION. The gear that a device requests (R294, R355, R410, R484). -/

namespace Sys2Proof.Machine

/-- The slowest of the MSS's choice, the host's floor and the edition's fastest gear; never beyond the edition's
slowest. -/
def State.gearWanted (s : State) : Nat :=
  min s.edition.gearSlow.toNat
    (max (max s.mss.choice.toNat s.mss.vGear.toNat) (max s.regs.gearFloor.toNat s.edition.gearFast.toNat))

/-- The causes of a change, as `Config.gearCondition` counts them. -/
def causeHot : Fin 4 := 0
def causeCalm : Fin 4 := 1
def causeCritical : Fin 4 := 2
def causeFloor : Fin 4 := 3

/-- Form GEAR_REQ anew: a change is requested from the present count on, and is logged. -/
def State.requestGear (s : State) (cause : Fin 4) : State :=
  let g := BitVec.ofNat 2 s.gearWanted
  if g = s.regs.gearReq then s
  else
    let old := s.regs.gearReq.toNat
    { s with regs := { s.regs with gearReq := g },
             mss := { s.mss with gearReqs := ((s.boardTime, g) :: s.mss.gearReqs).take 64 } }.decide_ 0x0501
      [f8 old, f8 g.toNat, f8 (Config.gearCondition cause).toNat]

/-- The MSS's own choice moves. -/
def State.chooseGear (s : State) (g : Nat) (cause : Fin 4) : State :=
  { s with mss := { s.mss with choice := BitVec.ofNat 2 g } }.requestGear cause

end Sys2Proof.Machine
end

