-- ==== Sys2Proof/Machine/CommandWord.lean ====
section
/-! DEFINITION. The 128-bit command words of a cartoon's streams (R49): how a station reads one, and how one is
written, from the field tables of the station chapters. Fields are written from the highest bits down; bits of no
field are RSVD and zero (R9). -/

namespace Sys2Proof.Machine

/-- A command word. -/
abbrev CmdWord := BitVec 128

/-- The frame of R49. -/
def wordIssue (w : CmdWord) : Issue := ⟨w.extractLsb' 0 22, w.extractLsb' 22 10⟩
def wordOpcode (w : CmdWord) : BitVec 6 := w.extractLsb' 32 6

/-- A word from its operands, opcode and frame. -/
def frameWord (operands : BitVec 90) (opcode : BitVec 6) (i : Issue) : CmdWord :=
  operands ++ opcode ++ i.stroke ++ i.cycle

/-! ### Operands, read (R73–R93, R144–R179, R207, R221, R228, R268–R272) -/

def readLoad (w : CmdWord) : LoadArgs :=
  { space := w.extractLsb' 38 2, addr := w.extractLsb' 40 36, qsel := w.extractLsb' 76 1,
    rowsM1 := w.extractLsb' 77 9, fmt := w.extractLsb' 86 2, rowLen := w.extractLsb' 88 3,
    runM1 := w.extractLsb' 91 6, runStride := w.extractLsb' 97 24 }

def readLoadMeta (w : CmdWord) : LoadMetaArgs :=
  { space := w.extractLsb' 38 2, metaAddr := w.extractLsb' 40 36, cls := w.extractLsb' 76 1,
    trans := w.extractLsb' 77 1, slot := w.extractLsb' 78 4, metaStride := w.extractLsb' 82 24 }

def readLoadW (w : CmdWord) : LoadWArgs :=
  { space := w.extractLsb' 38 2, addr := w.extractLsb' 40 36, srcFmt := w.extractLsb' 76 2,
    dstFmt := w.extractLsb' 78 2, mode := w.extractLsb' 80 3, trans := w.extractLsb' 83 1,
    rowStride := w.extractLsb' 84 24 }

def readPass (w : CmdWord) : PassArgs :=
  { form := w.extractLsb' 38 3, osp := w.extractLsb' 41 1, start := w.extractLsb' 42 2,
    fmt := w.extractLsb' 44 2, qsel := w.extractLsb' 46 1, rowsM1 := w.extractLsb' 47 9,
    accBase := w.extractLsb' 56 9 }

def readDrain (w : CmdWord) : DrainArgs :=
  { accBase := w.extractLsb' 38 9, rowsM1 := w.extractLsb' 47 9, func := w.extractLsb' 56 6,
    outFmt := w.extractLsb' 62 2, sr := w.extractLsb' 64 1, gauge := w.extractLsb' 65 1,
    gaugeId := w.extractLsb' 66 8, digest := w.extractLsb' 74 1, digestSlot := w.extractLsb' 75 12,
    tileIndex := w.extractLsb' 87 24, psel := w.extractLsb' 111 2, protate := w.extractLsb' 113 1,
    src := w.extractLsb' 114 1, srcAddr := w.extractLsb' 115 12 }

def readParam (w : CmdWord) : ParamArgs := { space := w.extractLsb' 38 2, addr := w.extractLsb' 40 36 }

def readWrite (w : CmdWord) : WriteArgs :=
  { space := w.extractLsb' 38 2, addr := w.extractLsb' 40 36, rowsM1 := w.extractLsb' 76 9,
    runM1 := w.extractLsb' 85 6, runStride := w.extractLsb' 91 24, sumsq := w.extractLsb' 115 1 }

def readMarkWait (w : CmdWord) : MarkWaitArgs :=
  { mark := w.extractLsb' 38 12, cmp := w.extractLsb' 50 2, value := w.extractLsb' 52 64 }

def readMarkSignal (w : CmdWord) : MarkSignalArgs :=
  { mark := w.extractLsb' 38 12, op := w.extractLsb' 50 1, value := w.extractLsb' 51 64 }

def readMarkRemote (w : CmdWord) : MarkRemoteArgs :=
  { mark := w.extractLsb' 38 12, role := w.extractLsb' 50 3, port := w.extractLsb' 53 3,
    value := w.extractLsb' 56 64 }

def readBurnish (w : CmdWord) : BurnishArgs :=
  { space := w.extractLsb' 38 2, descAddr := w.extractLsb' 40 36, firstBrow := w.extractLsb' 76 20,
    browsM1 := w.extractLsb' 96 16, pace := w.extractLsb' 112 4 }

def readTopb (w : CmdWord) : TopbArgs :=
  { descAddr := w.extractLsb' 38 36, firstGroup := w.extractLsb' 74 13, ngM1 := w.extractLsb' 87 13 }

def readSetwin (w : CmdWord) : SetwinArgs :=
  { win := w.extractLsb' 38 4, arm := w.extractLsb' 42 1, descAddr := w.extractLsb' 43 36 }

def readSample (w : CmdWord) : SampleArgs :=
  { descAddr := w.extractLsb' 38 36, firstRow := w.extractLsb' 74 20, rowsM1 := w.extractLsb' 94 12 }

def readClear (w : CmdWord) : ClearArgs := { space := w.extractLsb' 38 2, descAddr := w.extractLsb' 40 36 }

def readAccum (w : CmdWord) : AccumArgs :=
  { space := w.extractLsb' 38 2, keyAddr := w.extractLsb' 40 36, vecAddr := w.extractLsb' 76 36,
    neM1 := w.extractLsb' 112 13, record := w.extractLsb' 125 1 }

def readGather (w : CmdWord) : GatherArgs :=
  { listAddr := w.extractLsb' 38 36, sliceMaxM1 := w.extractLsb' 74 16, reserve := w.extractLsb' 90 22 }

def readFold (w : CmdWord) : FoldArgs := { reserve := w.extractLsb' 38 22 }

def readCopy (w : CmdWord) : CopyArgs :=
  { space := w.extractLsb' 38 2, descAddr := w.extractLsb' 40 36, firstTile := w.extractLsb' 76 20,
    tilesM1 := w.extractLsb' 96 20 }

def readUpdate (w : CmdWord) : UpdateArgs :=
  { descAddr := w.extractLsb' 38 36, first := w.extractLsb' 74 32, chunksM1 := w.extractLsb' 106 16,
    pace := w.extractLsb' 122 4 }

def readNorm (w : CmdWord) : NormArgs := { mode := w.extractLsb' 38 1, scope := w.extractLsb' 39 1 }

def readSend (w : CmdWord) : SendArgs :=
  { srcAddr := w.extractLsb' 38 36, wordsM1 := w.extractLsb' 74 24, destRole := w.extractLsb' 98 3,
    conv := w.extractLsb' 101 1, seg := w.extractLsb' 102 6, firstCh := w.extractLsb' 108 6,
    widthM1 := w.extractLsb' 114 6 }

def readRecv (w : CmdWord) : RecvArgs :=
  { dstAddr := w.extractLsb' 38 36, wordsM1 := w.extractLsb' 74 24, op := w.extractLsb' 98 1,
    firstCh := w.extractLsb' 99 6, widthM1 := w.extractLsb' 105 6, reserve := w.extractLsb' 111 17 }

def readFxexp (w : CmdWord) : FxexpArgs :=
  { srcAddr := w.extractLsb' 38 36, contribM1 := w.extractLsb' 74 9, seg := w.extractLsb' 110 6,
    lenM1 := w.extractLsb' 116 12 }

def readFx (w : CmdWord) : FxArgs :=
  { srcAddr := w.extractLsb' 38 36, dstAddr := w.extractLsb' 74 36, seg := w.extractLsb' 110 6,
    lenM1 := w.extractLsb' 116 12 }

/-! ### Operands, written -/

def loadBits (a : LoadArgs) : BitVec 90 :=
  0#7 ++ a.runStride ++ a.runM1 ++ a.rowLen ++ a.fmt ++ a.rowsM1 ++ a.qsel ++ a.addr ++ a.space
def loadMetaBits (a : LoadMetaArgs) : BitVec 90 :=
  0#22 ++ a.metaStride ++ a.slot ++ a.trans ++ a.cls ++ a.metaAddr ++ a.space
def loadWBits (a : LoadWArgs) : BitVec 90 :=
  0#20 ++ a.rowStride ++ a.trans ++ a.mode ++ a.dstFmt ++ a.srcFmt ++ a.addr ++ a.space
def passBits (a : PassArgs) : BitVec 90 :=
  0#63 ++ a.accBase ++ a.rowsM1 ++ a.qsel ++ a.fmt ++ a.start ++ a.osp ++ a.form
def drainBits (a : DrainArgs) : BitVec 90 :=
  0#1 ++ a.srcAddr ++ a.src ++ a.protate ++ a.psel ++ a.tileIndex ++ a.digestSlot ++ a.digest ++ a.gaugeId
    ++ a.gauge ++ a.sr ++ a.outFmt ++ a.func ++ a.rowsM1 ++ a.accBase
def paramBits (a : ParamArgs) : BitVec 90 := 0#52 ++ a.addr ++ a.space
def writeBits (a : WriteArgs) : BitVec 90 :=
  0#12 ++ a.sumsq ++ a.runStride ++ a.runM1 ++ a.rowsM1 ++ a.addr ++ a.space
def markWaitBits (a : MarkWaitArgs) : BitVec 90 := 0#12 ++ a.value ++ a.cmp ++ a.mark
def markSignalBits (a : MarkSignalArgs) : BitVec 90 := 0#13 ++ a.value ++ a.op ++ a.mark
def markRemoteBits (a : MarkRemoteArgs) : BitVec 90 := 0#8 ++ a.value ++ a.port ++ a.role ++ a.mark
def burnishBits (a : BurnishArgs) : BitVec 90 :=
  0#12 ++ a.pace ++ a.browsM1 ++ a.firstBrow ++ a.descAddr ++ a.space
def topbBits (a : TopbArgs) : BitVec 90 := 0#28 ++ a.ngM1 ++ a.firstGroup ++ a.descAddr
def setwinBits (a : SetwinArgs) : BitVec 90 := 0#49 ++ a.descAddr ++ a.arm ++ a.win
def sampleBits (a : SampleArgs) : BitVec 90 := 0#22 ++ a.rowsM1 ++ a.firstRow ++ a.descAddr
def clearBits (a : ClearArgs) : BitVec 90 := 0#52 ++ a.descAddr ++ a.space
def accumBits (a : AccumArgs) : BitVec 90 := 0#2 ++ a.record ++ a.neM1 ++ a.vecAddr ++ a.keyAddr ++ a.space
def gatherBits (a : GatherArgs) : BitVec 90 := 0#16 ++ a.reserve ++ a.sliceMaxM1 ++ a.listAddr
def foldBits (a : FoldArgs) : BitVec 90 := 0#68 ++ a.reserve
def copyBits (a : CopyArgs) : BitVec 90 := 0#12 ++ a.tilesM1 ++ a.firstTile ++ a.descAddr ++ a.space
def updateBits (a : UpdateArgs) : BitVec 90 := 0#2 ++ a.pace ++ a.chunksM1 ++ a.first ++ a.descAddr
def normBits (a : NormArgs) : BitVec 90 := 0#88 ++ a.scope ++ a.mode
def sendBits (a : SendArgs) : BitVec 90 :=
  0#8 ++ a.widthM1 ++ a.firstCh ++ a.seg ++ a.conv ++ a.destRole ++ a.wordsM1 ++ a.srcAddr
def recvBits (a : RecvArgs) : BitVec 90 :=
  a.reserve ++ a.widthM1 ++ a.firstCh ++ a.op ++ a.wordsM1 ++ a.dstAddr
def fxexpBits (a : FxexpArgs) : BitVec 90 := a.lenM1 ++ a.seg ++ 0#27 ++ a.contribM1 ++ a.srcAddr
def fxBits (a : FxArgs) : BitVec 90 := a.lenM1 ++ a.seg ++ a.dstAddr ++ a.srcAddr

/-! ### Opcodes (R72, R79–R91, R143, R163, R173, R206, R220, R267) -/

/-- The mark opcodes, which every station has (R72). -/
def readMark (st : StationRef) (w : CmdWord) : Option Instr :=
  match (wordOpcode w).toNat with
  | 61 => some (.markWait st (wordIssue w) (readMarkWait w))
  | 62 => some (.markSignal st (wordIssue w) (readMarkSignal w))
  | 63 => some (.markRemote st (wordIssue w) (readMarkRemote w))
  | _ => none

def readFetch (e : EngineLoc) (w : CmdWord) : Option Instr :=
  match (wordOpcode w).toNat with
  | 1 => some (.loadA e (wordIssue w) (readLoad w))
  | 2 => some (.loadW e (wordIssue w) (readLoadW w))
  | 3 => some (.loadMeta e (wordIssue w) (readLoadMeta w))
  | 4 => some (.loadS e (wordIssue w) (readLoad w))
  | 5 => some (.loadDiag e (wordIssue w) (readLoad w))
  | _ => none

def readEtch (e : EngineLoc) (w : CmdWord) : Option Instr :=
  match (wordOpcode w).toNat with
  | 1 => some (.pass e (wordIssue w) (readPass w))
  | 2 => some (.swap e (wordIssue w))
  | _ => none

def readFinish (e : EngineLoc) (w : CmdWord) : Option Instr :=
  match (wordOpcode w).toNat with
  | 1 => some (.drain e (wordIssue w) (readDrain w))
  | 2 => some (.param e (wordIssue w) (readParam w))
  | _ => none

def readStore (e : EngineLoc) (w : CmdWord) : Option Instr :=
  match (wordOpcode w).toNat with
  | 1 => some (.write e (wordIssue w) (readWrite w))
  | _ => none

def readCounterproof (c : ClusterLoc) (w : CmdWord) : Option Instr :=
  match (wordOpcode w).toNat with
  | 1 => some (.copy c (wordIssue w) (readCopy w))
  | _ => none

def readBurnisher (c : ClusterLoc) (w : CmdWord) : Option Instr :=
  match (wordOpcode w).toNat with
  | 1 => some (.burnish c (wordIssue w) (readBurnish w))
  | _ => none

def readStipple (c : ClusterLoc) (w : CmdWord) : Option Instr :=
  match (wordOpcode w).toNat with
  | 1 => some (.clear c (wordIssue w) (readClear w))
  | 2 => some (.accum c (wordIssue w) (readAccum w))
  | 3 => some (.gather c (wordIssue w) (readGather w))
  | 4 => some (.fold c (wordIssue w) (readFold w))
  | _ => none

/-- A SAMPLE word is MODE 0 or MODE 1 by its descriptor (R167): the word alone reads as `sample`. -/
def readSelector (x : SelectorLoc) (w : CmdWord) : Option Instr :=
  match (wordOpcode w).toNat with
  | 1 => some (.topb x (wordIssue w) (readTopb w))
  | 2 => some (.setwin x (wordIssue w) (readSetwin w))
  | 3 => some (.sample x (wordIssue w) (readSample w))
  | _ => none

def readUnit (u : UnitLoc) (w : CmdWord) : Option Instr :=
  match (wordOpcode w).toNat with
  | 1 => some (.update u (wordIssue w) (readUpdate w))
  | 2 => some (.norm u (wordIssue w) (readNorm w))
  | _ => none

def readRelay (r : RelayLoc) (w : CmdWord) : Option Instr :=
  match (wordOpcode w).toNat with
  | 1 => some (.send r (wordIssue w) (readSend w))
  | 2 => some (.recv r (wordIssue w) (readRecv w))
  | 3 => some (.fxexp r (wordIssue w) (readFxexp w))
  | 4 => some (.fxset r (wordIssue w) (readFx w))
  | 5 => some (.fxadd r (wordIssue w) (readFx w))
  | 6 => some (.fxout r (wordIssue w) (readFx w))
  | _ => none

/-- The command that a word of a station's stream spells, if its opcode is one that the station has. -/
def readCommand (st : StationRef) (w : CmdWord) : Option Instr :=
  (match st with
   | .fetch e => readFetch e w
   | .etch e => readEtch e w
   | .finish e => readFinish e w
   | .store e => readStore e w
   | .counterproof c => readCounterproof c w
   | .burnisher c => readBurnisher c w
   | .stipple c => readStipple c w
   | .selector x => readSelector x w
   | .updateUnit u => readUnit u w
   | .relay r => readRelay r w).orElse fun _ => readMark st w

/-- The station and the word of a station command; none for a command of no stream. -/
def commandWord : Instr → Option (StationRef × CmdWord)
  | .loadA e i a => some (.fetch e, frameWord (loadBits a) 1 i)
  | .loadW e i a => some (.fetch e, frameWord (loadWBits a) 2 i)
  | .loadMeta e i a => some (.fetch e, frameWord (loadMetaBits a) 3 i)
  | .loadS e i a => some (.fetch e, frameWord (loadBits a) 4 i)
  | .loadDiag e i a => some (.fetch e, frameWord (loadBits a) 5 i)
  | .pass e i a => some (.etch e, frameWord (passBits a) 1 i)
  | .swap e i => some (.etch e, frameWord 0 2 i)
  | .drain e i a => some (.finish e, frameWord (drainBits a) 1 i)
  | .param e i a => some (.finish e, frameWord (paramBits a) 2 i)
  | .write e i a => some (.store e, frameWord (writeBits a) 1 i)
  | .markWait st i a => some (st, frameWord (markWaitBits a) 61 i)
  | .markSignal st i a => some (st, frameWord (markSignalBits a) 62 i)
  | .markRemote st i a => some (st, frameWord (markRemoteBits a) 63 i)
  | .burnish c i a => some (.burnisher c, frameWord (burnishBits a) 1 i)
  | .topb x i a => some (.selector x, frameWord (topbBits a) 1 i)
  | .setwin x i a => some (.selector x, frameWord (setwinBits a) 2 i)
  | .sample x i a => some (.selector x, frameWord (sampleBits a) 3 i)
  | .fill x i a => some (.selector x, frameWord (sampleBits a) 3 i)
  | .clear c i a => some (.stipple c, frameWord (clearBits a) 1 i)
  | .accum c i a => some (.stipple c, frameWord (accumBits a) 2 i)
  | .gather c i a => some (.stipple c, frameWord (gatherBits a) 3 i)
  | .fold c i a => some (.stipple c, frameWord (foldBits a) 4 i)
  | .copy c i a => some (.counterproof c, frameWord (copyBits a) 1 i)
  | .update u i a => some (.updateUnit u, frameWord (updateBits a) 1 i)
  | .norm u i a => some (.updateUnit u, frameWord (normBits a) 2 i)
  | .send r i a => some (.relay r, frameWord (sendBits a) 1 i)
  | .recv r i a => some (.relay r, frameWord (recvBits a) 2 i)
  | .fxexp r i a => some (.relay r, frameWord (fxexpBits a) 3 i)
  | .fxset r i a => some (.relay r, frameWord (fxBits a) 4 i)
  | .fxadd r i a => some (.relay r, frameWord (fxBits a) 5 i)
  | .fxout r i a => some (.relay r, frameWord (fxBits a) 6 i)
  | .stippleInsert .. | .strokeStart .. | .strokeTail .. | .stepBegin .. | .gateAlarm .. | .closingRefresh ..
  | .refreshSlot .. | .strokeCloseSend .. | .strokeClose .. | .dataFlit .. | .frame .. | .replaySend ..
  | .replayTimeout .. | .gateNotice .. | .stopNotice .. | .remoteMark .. | .normTotal .. | .exponentMaxima ..
  | .roleStaleReport .. | .boardTimeCheckSend .. | .boardTimeCheck .. | .laneLossOfLock .. | .laneSwap ..
  | .spareLaneRestore .. | .laneWindow .. | .portEnable .. | .portDisable .. | .portTrained ..
  | .portTrainingTimeout .. | .portDrainEnd .. | .seamLossOfLock .. | .seamRetrained .. | .seamRetrainTimeout ..
  | .launchAt .. | .launchCheck .. | .launch .. | .abort .. | .abortComplete .. | .faultClear ..
  | .counterClear .. | .roleCommit .. | .syncFire .. | .syncIn .. | .remoteSignal .. | .remoteSignalSend ..
  | .loadTrigger .. | .loadCheck .. | .ringContextWrite .. | .ringEnable .. | .ringDisable .. | .ringDrainEnd ..
  | .doorbell .. | .inCopyDone .. | .outDescriptor .. | .recordWrite .. | .recordsLost .. | .coalesceTimeout ..
  | .markWrite .. | .markAdd .. | .watchArm .. | .watchDisarm .. | .clusterEnable .. | .clusterDisable ..
  | .clusterDrainEnd .. | .clusterPowered .. | .debugEn .. | .capArmed .. | .capDisarm ..
  | .debugRefusalReport .. | .storeWindowAccess .. | .winBase .. | .bar2Access .. | .bar2Aperture ..
  | .namedRings .. | .gearFloor .. | .generatorCounterWrite .. | .gaugeSettingWrite .. | .refusedClear ..
  | .registerWrite .. | .flr .. | .perstNAssert .. | .boot .. | .bootReady .. | .watchdogExpiry ..
  | .pgoodDeassert .. | .pwrFailNAssert .. | .pwrFailNDeassert .. | .refclkLoss .. | .thermalTrip ..
  | .scrubComplete .. | .seedReady .. | .grainHealthFailure .. | .grainRestart .. | .checkStroke ..
  | .sensorSample .. | .gearPolicyTick .. | .telemetryWindow .. | .logMirror .. | .sensorRead ..
  | .getStatus .. | .logRead .. | .setPowerCap .. | .editionRevert .. | .cperAck ..
  | .queryDeviceIdentifiers .. | .getFirmwareParameters .. | .requestUpdate .. | .passComponentTable ..
  | .updateComponent .. | .firmwareData .. | .transferComplete .. | .verifyComplete .. | .applyComplete ..
  | .activateFirmware .. | .pldmGetStatus .. | .cancelUpdateComponent .. | .cancelUpdate ..
  | .doeDiscovery .. | .getVersion .. | .getCapabilities .. | .negotiateAlgorithms .. | .getDigests ..
  | .getCertificate .. | .challenge .. | .getMeasurements .. | .keyExchange .. | .finishSession ..
  | .heartbeat .. | .keyUpdate .. | .endSession .. | .sessionTimeout .. | .tenantBegin .. | .tenantEnd ..
  | .rekey .. | .policySet .. | .importBegin .. | .importSegment .. | .status .. | .bind ..
  | .tenantResponse .. | .keyStoreCommit .. | .query .. | .keyProg .. | .kSetGo .. | .kSetStop ..
  | .getTdispVersion .. | .getTdispCapabilities .. | .lockInterfaceRequest .. | .getDeviceInterfaceReport ..
  | .getDeviceInterfaceState .. | .startInterfaceRequest .. | .stopInterfaceRequest .. | .bypass .. | .idcode ..
  | .samplePreload .. | .extest .. | .clamp .. | .highz .. | .pllLockTimeout .. | .sequencingViolation ..
  | .endpointIdAssignment .. | .dynamicAddressAssignment .. => none

/-- Whether every RSVD bit of a word is zero (R9): the word is the one that its command is written as. -/
def wordClean (st : StationRef) (w : CmdWord) : Bool :=
  match readCommand st w with
  | some c => (match commandWord c with | some x => x.2 == w | none => true)
  | none => true

end Sys2Proof.Machine
end

