-- ==== Sys2Proof/Machine/Budget.lean ====
section
/-! DEFINITION. What the load check asks of the memories in one stroke: the ports of the engine stores and the
banks of the cluster stores (R70), and the words of the HBM stacks (R188, R189, R191, R218, R271). -/

namespace Sys2Proof.Machine

/-! ### Sorting -/

/-- Two ascending lists as one; `fuel` is at least their joint length. -/
def mergeOn {α : Type} (key : α → Nat) : Nat → List α → List α → List α
  | 0, a, b => a ++ b
  | _ + 1, [], b => b
  | _ + 1, a, [] => a
  | f + 1, x :: a, y :: b =>
    if key y < key x then y :: mergeOn key f (x :: a) b else x :: mergeOn key f a (y :: b)

/-- A list in ascending order of a key; equal keys keep their order. -/
def sortOn {α : Type} (key : α → Nat) : Nat → List α → List α
  | 0, l => l
  | f + 1, l =>
    if l.length ≤ 1 then l
    else
      let h := l.length / 2
      mergeOn key (l.length + 1) (sortOn key f (l.take h)) (sortOn key f (l.drop h))

def sorted {α : Type} (key : α → Nat) (l : List α) : List α := sortOn key (l.length.log2 + 1) l

/-- Whether an ascending list holds a number twice. -/
def hasTwice : List Nat → Bool
  | a :: b :: r => a == b || hasTwice (b :: r)
  | _ => false

/-! ### Accesses and reservations -/

/-- How the words of an access are placed: all in one service cycle; each word by itself; two words in one cycle on every
stack of the plate (R218); or the 17 words of a record on whichever stack of the plate it may fall, so on each of them by
itself (R175). -/
inductive Placing where
  | whole
  | split
  | everyStack
  | eachStack
  deriving DecidableEq, Repr

/-- One access: its cycle t, its rank among those of a cycle (R189), the space, the store that it uses, its place
there (a device address in HBM), the place that its command names, its bytes. -/
structure Touch where
  t : Nat
  rank : Nat
  space : Nat
  unit : Nat
  addr : Nat
  named : Nat
  n : Nat
  write : Bool
  how : Placing
  deriving DecidableEq, Repr

/-- Words claimed on every stack of a plate in the service cycles of a range (R191, R271). -/
structure Reserve where
  plate : Nat
  start : Nat
  stop : Nat
  words : Nat
  deriving DecidableEq, Repr

def touchHbm (st : StationRef) (t a n : Nat) (write : Bool) (how : Placing := .whole) : Touch :=
  ⟨t, stationRank st, 2, 0, a, a, n, write, how⟩

/-! ### Stores (R70) -/

/-- What one access takes of a store in a cycle, as numbers that no other access may take. -/
def storeClaims (x : Touch) : List Nat :=
  match x.space with
  | 0 => [(x.unit * 2 + boolNat x.write) * 2 ^ 24 + x.t]
  | 1 => (List.range (min 16 (ceilDiv x.n 64))).map fun i =>
      2 ^ 40 + (x.unit * 2 ^ 24 + x.t) * 16 + (x.addr / 64 + i) % 16
  | _ => []

def storesApart (l : List Touch) : Bool := !hasTwice (sorted (fun n => n) (l.flatMap storeClaims))

/-! ### Stacks (R188, R189) -/

def stackBudget : Nat := 125

/-- Words of a reservation that a stack keeps free in a cycle. -/
def reservedAt (rs : List Reserve) (plate u : Nat) : Nat :=
  sumNat (rs.map fun r => if r.plate = plate ∧ r.start ≤ u ∧ u < r.stop then r.words else 0)

/-- Words that take their place on a stack: the cycle and their number, and the words placed from a cycle on. -/
abbrev Laid := List (Nat × Nat) × List (Nat × Nat)

/-- Place words on a stack from cycle `u` on; `used` lists the words placed in cycles from `u` on. None where
no place is found within the fuel. -/
def placeFrom (rs : List Reserve) (stack : Nat) (whole : Bool) : Nat → Nat → Nat → List (Nat × Nat) → Option Laid
  | 0, _, _, _ => none
  | f + 1, u, n, used =>
    let hr : Nat × List (Nat × Nat) := match used with
      | (c, k) :: r => if c = u then (k, r) else (0, used)
      | [] => (0, [])
    if serviceCycle stack u then
      let free := stackBudget - hr.1 - reservedAt rs (stack / 5) u
      if n ≤ free then some ([(u, n)], (u, hr.1 + n) :: hr.2)
      else if whole then
        (placeFrom rs stack whole f (u + 1) n hr.2).map fun r => (r.1, if hr.1 = 0 then r.2 else (u, hr.1) :: r.2)
      else (placeFrom rs stack whole f (u + 1) (n - free) hr.2).map fun r => ((u, free) :: r.1, (u, hr.1 + free) :: r.2)
    else placeFrom rs stack whole f (u + 1) n hr.2

/-- The words placed on each stack in cycles that have not passed, and the bytes that are served later than their
access's cycle. -/
structure Placed where
  used : List (List (Nat × Nat))
  late : List Deferral
  deriving DecidableEq, Repr

def Placed.of (p : Placed) (stack t : Nat) : List (Nat × Nat) :=
  (nth [] p.used stack).dropWhile fun x => decide (x.1 < t)

/-- The earliest cycle in which five stacks have two free words each (R218). -/
def everyStackCycle (rs : List Reserve) (plate : Nat) (p : Placed) : Nat → Nat → Option Nat
  | 0, _ => none
  | f + 1, u =>
    if (List.range 5).all (fun i =>
        let k := 5 * plate + i
        let used := match (nth [] p.used k).find? (fun x => x.1 == u) with | some x => x.2 | none => 0
        serviceCycle k u && decide (used + 2 + reservedAt rs plate u ≤ stackBudget)) then some u
    else everyStackCycle rs plate p f (u + 1)

/-- The words of a part in the cycles that serve them. -/
def lateParts (x : Touch) : Nat → List (Nat × Nat) → List Deferral
  | _, [] => []
  | a, (u, n) :: r =>
    let next := 8 * (wordOf a + n)
    (if u = x.t then [] else [⟨0, 0, x.t, x.rank, x.write, a, next - a, u⟩]) ++ lateParts x next r

/-- Place the part of an access that lies in one granule. -/
def placePiece (rs : List Reserve) (x : Touch) (p : Placed) (y : Nat × Nat) : Option Placed :=
  let stack := stackOf y.1
  (placeFrom rs stack (x.how == .whole) 1024 x.t (wordsOf y.1 y.2) (p.of stack x.t)).map fun z =>
    ⟨setNth p.used stack z.2, lateParts x y.1 z.1 ++ p.late⟩

/-- Place a record on one stack of its plate; a service cycle later than t is kept for that stack's granules. -/
def placeRecord (rs : List Reserve) (x : Touch) (p : Placed) (i : Nat) : Option Placed :=
  let plate := x.addr / hbmSize
  let k := 5 * plate + i
  (placeFrom rs k true 1024 x.t 17 (p.of k x.t)).map fun z =>
    ⟨setNth p.used k z.2, (match z.1 with
      | [(u, _)] => if u = x.t then [] else [⟨0, 0, x.t, spillRank + x.rank, true, plateBase plate + 2048 * i, 2048, u⟩]
      | _ => []) ++ p.late⟩

/-- Place one access; none where it cannot be placed by t + 1,023. -/
def placeTouch (rs : List Reserve) (p : Placed) (x : Touch) : Option Placed :=
  match x.how with
  | .everyStack =>
    let plate := x.addr / hbmSize
    (everyStackCycle rs plate p 1024 x.t).bind fun u =>
      let used := (List.range 5).foldl (fun (l : Option (List (List (Nat × Nat)))) i =>
        let k := 5 * plate + i
        l.bind fun l => (placeFrom rs k true 1024 u 2 ((nth [] l k).dropWhile fun x => decide (x.1 < u))).map fun z =>
          setNth l k z.2) (some p.used)
      used.map fun l => ⟨l, if u = x.t then p.late
        else ⟨0, 0, x.t, scheduleRank + x.rank, x.write, x.addr, 10240, u⟩ :: p.late⟩
  | .eachStack => (List.range 5).foldl (fun p i => p.bind fun p => placeRecord rs x p i) (some p)
  | _ => (granules x.addr x.n).foldl (fun p y => p.bind fun p => placePiece rs x p y) (some p)

/-- The placement of a stroke's accesses in the order of R189: what is served later than its cycle. None where an
access finds no place, or a reservation asks for words that the others have left none of. By R188 and R191 a cycle has
room for one reservation of 36 and 34 words on a stack, although the example behind R180 overlaps eight. Log entry 75. -/
def placement (rs : List Reserve) (l : List Touch) : Option (List Deferral) :=
  let hbm := l.filter fun x => x.space == 2 && decide (x.n ≠ 0)
  if rs.all (fun r => r.start == r.stop || decide (reservedAt rs r.plate r.start ≤ stackBudget)) then
    ((sorted (fun x => x.t * 2 ^ 14 + x.rank) hbm).foldl
      (fun (p : Option Placed) x => p.bind fun p => placeTouch rs p x) (some ⟨List.replicate 10 [], []⟩)).map (·.late)
  else none

end Sys2Proof.Machine
end

