-- ==== Sys2Proof/Machine/Timing.lean ====
section
/-! DEFINITION. The timing model of the load check (R53, R136): the queues of an engine, its passes, drains and
writes cycle by cycle (R61–R68, R74, R79, R83, R84, R89), and the accesses of every command. -/

namespace Sys2Proof.Machine

/-- A command of a stream with its place in the step: stroke, cycle, command. -/
structure Planned where
  stroke : Nat
  cycle : Nat
  cmd : Instr
  deriving DecidableEq, Repr

/-- What the timing model finds: reasons, accesses, reservations, the cycles of SUMSQ rows, and the byte ranges in HBM
that accesses may reach whose places depend on data. -/
structure Found where
  bad : List Nat
  touches : List Touch
  reserves : List Reserve
  sumsq : List Nat
  reach : List (Nat × Nat)
  deriving DecidableEq, Repr

def Found.none : Found := ⟨[], [], [], [], []⟩
def Found.join (a b : Found) : Found :=
  ⟨a.bad ++ b.bad, a.touches ++ b.touches, a.reserves ++ b.reserves, a.sumsq ++ b.sumsq, a.reach ++ b.reach⟩
def Found.all (l : List Found) : Found :=
  ⟨l.flatMap (·.bad), l.flatMap (·.touches), l.flatMap (·.reserves), l.flatMap (·.sumsq), l.flatMap (·.reach)⟩
def foundBad (l : List (Bool × Nat)) : List Nat := l.filterMap fun x => if x.1 then Option.none else some x.2

/-! ### Row accesses through pick windows (R158, R161) -/

/-- The armed window that covers an address, and the pick position there. -/
def State.windowPlace (s : State) (p a t : Nat) : Option (WinDesc × Nat) :=
  (s.windowOf p a t).map fun d => (d, (a - 8 * d.winBase) / (8 * d.slotWords))

/-- Where a row access goes for the load check, which takes pick u to be u. -/
def State.checkPlace (s : State) (p a t : Nat) : Nat :=
  match s.windowOf p a t with
  | some d => 8 * d.tgtBase + (a - 8 * d.winBase)
  | Option.none => a

/-- A row access of an engine station. -/
def State.rowTouch (s : State) (st : StationRef) (e : EngineLoc) (space t off n : Nat) (write : Bool) : Touch :=
  match space with
  | 0 => ⟨t, stationRank st, 0, engineIdx e, off, off, n, write, .whole⟩
  | 1 => ⟨t, stationRank st, 1, clusterIdx (clOf e), off, off, n, write, .whole⟩
  | _ => { touchHbm st t (s.checkPlace e.plate.val off t) n write with named := off }

/-- The read of a row at cycle `t`: a 256-byte row of the engine store takes two port cycles. -/
def State.rowReads (s : State) (st : StationRef) (e : EngineLoc) (space t off n : Nat) : List Touch :=
  if space = 0 ∧ n = 256 then
    [s.rowTouch st e space t off 128 false, s.rowTouch st e space (t + 1) (off + 128) 128 false]
  else [s.rowTouch st e space t off n false]

/-! ### What Fetch pushes (R65, R73–R79) -/

/-- An entry of a queue: the cycle of its push, its format and its row length. -/
structure Push where
  t : Nat
  fmt : Nat
  len : Nat
  deriving DecidableEq, Repr

/-- The queues of an engine. -/
structure Feeds where
  q0 : List Push
  q1 : List Push
  q2 : List Push
  q3 : List Push
  deriving DecidableEq, Repr

def loadPushes (c : Nat) (a : LoadArgs) : List Push :=
  (List.range a.rows).map fun i => ⟨rowArrives a.space.toNat a.len c i, a.fmt.toNat, a.rowLen.toNat⟩

/-- The cycles in which a LOAD_W writes plane rows, and so pushes them into Q2 (R66, R79). -/
def planePushes (c : Nat) (a : LoadWArgs) : List Nat :=
  let f := a.windowFirst c
  if a.mx then (List.range 33).map (f + ·)
  else if a.mode = 1 then
    if a.space = 0 && a.srcFmt == 2 then (List.range 8).map fun j => f + 2 * j + 1 else (List.range 8).map (f + ·)
  else (List.range 32).map (f + ·)

/-- The pushes of one command of Fetch. -/
def feedOf (p : Planned) (f : Feeds) : Feeds :=
  match p.cmd with
  | .loadA _ _ a => if a.qsel = 0 then { f with q0 := f.q0 ++ loadPushes p.cycle a }
      else { f with q1 := f.q1 ++ loadPushes p.cycle a }
  | .loadS _ _ a => { f with q3 := f.q3 ++ loadPushes p.cycle a }
  | .loadDiag _ _ a => { f with q2 := f.q2 ++ loadPushes p.cycle a }
  | _ => f

/-- Plane-row pushes of an engine's LOAD_Ws. -/
def planeFeeds (l : List Planned) : List Nat :=
  l.flatMap fun p => match p.cmd with | .loadW _ _ a => planePushes p.cycle a | _ => []

def byPush (l : List Push) : List Push := sorted (·.t) l

/-- The queues that an engine's commands fill, in the order of the pushes. -/
def feedsOf (l : List Planned) : Feeds :=
  let f := l.foldl (fun f p => feedOf p f) ⟨[], [], [], []⟩
  ⟨byPush f.q0, byPush f.q1, byPush f.q2, byPush f.q3⟩

/-! ### Row slots (R61, R66, R67, R74) -/

/-- A walk through the passes of an engine: the entries left, the pops of each queue, the Q3 entries that each
landing takes, the first cycle after every landing, and what is refused. -/
structure Slots where
  left : Feeds
  pops0 : List Nat
  pops1 : List Nat
  pops2 : List Nat
  pre : List (Nat × Nat)
  stop : Nat
  bad : List Nat
  deriving DecidableEq, Repr

def Slots.queue (x : Slots) (second : Bool) (qsel : BitVec 1) : List Push :=
  if (qsel = 0) = (second = false) then x.left.q0 else x.left.q1

/-- Take the heads of the queues that operand row pops at `t`. -/
def Slots.pop (x : Slots) (a : PassArgs) (pair : Bool) (t : Nat) : Slots :=
  let p0 := a.qsel = 0 ∨ pair
  let p1 := a.qsel = 1 ∨ pair
  let diag := a.form = 5
  { x with
    left := ⟨if p0 then x.left.q0.drop 1 else x.left.q0, if p1 then x.left.q1.drop 1 else x.left.q1,
      if diag then x.left.q2.drop 1 else x.left.q2, x.left.q3⟩,
    pops0 := if p0 then t :: x.pops0 else x.pops0, pops1 := if p1 then t :: x.pops1 else x.pops1,
    pops2 := if diag then t :: x.pops2 else x.pops2 }

/-- Whether the second entry of an operand row is what R74 asks: an MXFP4 scale row, or dY in the plane's format. -/
def secondOk (a : PassArgs) (planeFmt : Nat) (y : Push) : Bool :=
  if a.osp = 1 then y.fmt == planeFmt && operandLen 0 planeFmt == some y.len
  else y.fmt == 3 && y.len == 0

/-- The operand rows of a pass from row slot `t` on. -/
def passSlots (a : PassArgs) (planeFmt : Nat) : Nat → Nat → Slots → Slots
  | 0, _, x => x
  | f + 1, t, x =>
    let pair := (a.osp == 1 || a.fmt == 3) && a.form != 5
    let second := if a.form = 5 then some x.left.q2 else if pair then some (x.queue true a.qsel) else Option.none
    let fail := { x with bad := 16 :: x.bad }
    let fail2 := if a.form = 5 then { x with bad := 13 :: x.bad } else fail
    match x.queue false a.qsel with
    | [] => fail
    | q :: _ =>
      let y := match second with
        | some (y :: _) => some y
        | some [] => Option.none
        | Option.none => some q
      match y with
      | Option.none => fail2
      | some y =>
        let r := rowCycles a.fmt.toNat
        let u := t + ceilDiv (max q.t y.t + 1 - t) r * r
        let d := passDepth a.form.toNat
        let x := x.pop a pair u
        passSlots a planeFmt f (u + r)
          { x with
            pre := if a.start = 2 then (u + d, preNeeded a) :: x.pre else x.pre,
            stop := max x.stop (u + d + 1),
            bad := foundBad [
              (q.fmt == a.fmt.toNat && operandLen a.form.toNat a.fmt.toNat == some q.len, 13),
              (!pair || secondOk a planeFmt y, 13)] ++ x.bad }

/-- The formats of the two planes as the SWAPs go by, and the loads whose windows have not begun. -/
structure PlaneFmts where
  active : Nat
  shadow : Nat
  loads : List (Nat × Nat)
  deriving DecidableEq, Repr

def PlaneFmts.swap (p : PlaneFmts) (c : Nat) : PlaneFmts :=
  let begun := p.loads.filter fun l => decide (l.1 ≤ c)
  let sh := match begun.getLast? with | some l => l.2 | Option.none => p.shadow
  ⟨sh, p.active, p.loads.filter fun l => decide (c < l.1)⟩

/-- Etch's commands in order. -/
def etchWalk (p : Planned) (z : PlaneFmts × Slots) : PlaneFmts × Slots :=
  match p.cmd with
  | .swap _ _ => (z.1.swap p.cycle, z.2)
  | .pass _ _ a => (z.1, passSlots a z.1.active (a.rowsM1.toNat + 1) p.cycle z.2)
  | _ => z

def planeLoads (l : List Planned) : List (Nat × Nat) :=
  sorted (·.1) (l.filterMap fun p => match p.cmd with
    | .loadW _ _ a => some (a.windowFirst p.cycle, a.dstFmt.toNat) | _ => Option.none)

/-- The landing cycles in which rows take Q3 entries: two rows never take theirs in one cycle (R66). -/
def preApart (pre : List (Nat × Nat)) : Bool := !hasTwice (sorted (fun n => n) (pre.map (·.1)))

/-- The Q3 entries taken in the order of the landings: each must have been pushed before its landing (R83). -/
def takePre : List (Nat × Nat) → List Push → List Nat × List Push × Bool
  | [], q => ([], q, true)
  | (t, n) :: r, q =>
    let z := takePre r (q.drop n)
    (List.replicate n t ++ z.1, z.2.1, z.2.2 && (q.take n).length == n && (q.take n).all fun x => decide (x.t < t))

/-- A queue of 16 entries: the pushes that came to a full queue, or two in one cycle, and what is left. `pops`
ascends; an entry that leaves in a cycle makes room for a push in it. -/
def queueOk : Nat → List Nat → List Nat → Nat → Bool
  | 0, _, _, _ => true
  | _ + 1, [], _, _ => true
  | f + 1, t :: r, pops, held =>
    let gone := (pops.takeWhile fun p => decide (p ≤ t)).length
    let held := held - gone
    decide (held < 16) && (match r with | u :: _ => t != u | [] => true)
      && queueOk f r (pops.drop gone) (held + 1)

def queueFits (pushes pops : List Nat) : Bool := queueOk (pushes.length + 1) pushes (sorted (fun n => n) pops) 0

/-- Fetch, the queues and Etch. -/
def engineFlow (tail : Nat) (l : List Planned) : List Nat :=
  let f := feedsOf l
  let z := (l.foldl (fun z p => etchWalk p z) (⟨0, 0, planeLoads l⟩, (⟨f, [], [], [], [], 0, []⟩ : Slots))).2
  let pre := takePre (sorted (·.1) z.pre) z.left.q3
  let ts := fun (q : List Push) => q.map (·.t)
  z.bad ++ foundBad [
    (pre.2.2, 16),
    (queueFits (ts f.q0) z.pops0, 16), (queueFits (ts f.q1) z.pops1, 16), (queueFits (ts f.q2) z.pops2, 16),
    (queueFits (ts f.q3) pre.1, 16),
    (!hasTwice (sorted (fun n => n) (ts f.q2 ++ planeFeeds l)), 16),
    (!hasTwice (sorted (fun n => n) (z.pops2 ++ planeFeeds l)), 16),
    (preApart z.pre, 16),
    (z.left.q0.isEmpty && z.left.q1.isEmpty && z.left.q2.isEmpty && pre.2.1.isEmpty, 16),
    (decide (z.stop ≤ tail), 16),
    ((f.q0 ++ f.q1 ++ f.q2 ++ f.q3).all (fun x => decide (x.t < tail)), 16),
    ((planeFeeds l).all (fun t => decide (t < tail)), 16)]

/-! ### Finish and Store (R66, R68, R84, R89) -/

/-- A DRAIN or a WRITE under way: its issue cycle, its arguments, its next row, and what its rows wait for. -/
structure Flow (α : Type) where
  cycle : Nat
  args : α
  row : Nat
  base : Nat
  deriving DecidableEq, Repr

structure Pipe where
  drains : List (Nat × DrainArgs)
  writes : List (Nat × WriteArgs)
  drain : Option (Flow DrainArgs)
  write : Option (Flow WriteArgs × Nat)
  qf : List (Nat × Nat)
  free : List Nat
  stalls : List (Nat × Nat)
  nextDrain : Nat
  nextWrite : Nat
  stop : Nat
  found : Found
  deriving DecidableEq, Repr

/-- The next DRAIN, or the next WRITE, becomes the one under way. -/
def Pipe.open_ (x : Pipe) : Pipe :=
  let x := match x.drain, x.drains with
    | Option.none, d :: r =>
      { x with drain := some ⟨d.1, d.2, 0, pipeVirtual x.stalls d.1⟩, drains := r,
               found := { x.found with bad := foundBad [(decide (x.nextDrain ≤ d.1), 16)] ++ x.found.bad } }
    | _, _ => x
  match x.write, x.writes, x.qf with
  | Option.none, w :: r, q :: _ =>
    { x with write := some (⟨w.1, w.2, 0, 0⟩, q.2), writes := r,
             found := { x.found with bad := foundBad [(decide (x.nextWrite ≤ w.1), 16)] ++ x.found.bad } }
  | _, _, _ => x

/-- One row of a DRAIN, when QF has room. -/
def Pipe.drainRow (s : State) (e : EngineLoc) (x : Pipe) : Option Pipe :=
  match x.drain, x.free with
  | some j, room :: fs =>
    let v := j.base + j.row
    let t := pipeReal x.stalls v
    let want := pipeReal x.stalls (v + 12)
    let p := max want room
    let touch := if j.args.src = 1 then
      [s.rowTouch (.finish e) e 0 t (128 * (j.args.srcAddr.toNat + j.row)) 128 false] else []
    some { x with
      drain := if j.row = j.args.rowsM1.toNat then Option.none else some { j with row := j.row + 1 },
      nextDrain := t + 1, qf := x.qf ++ [(p, j.args.outFmt.toNat)], free := fs,
      stalls := if want < p then x.stalls ++ [(v + 12, p - want)] else x.stalls, stop := max x.stop (p + 1),
      found := { x.found with touches := touch ++ x.found.touches } }
  | _, _ => Option.none

/-- One row of a WRITE, when QF has an entry. -/
def Pipe.writeRow (s : State) (e : EngineLoc) (x : Pipe) : Option Pipe :=
  match x.write, x.qf with
  | some (j, fmt), q :: qs =>
    let a := j.args
    let want := j.cycle + j.row + j.base
    let p := max want (q.1 + 1)
    let n := outRowLen q.2
    let off := runOffset a.addr.toNat a.runM1.toNat a.runStride.toNat n j.row
    some { x with
      write := if j.row = a.rowsM1.toNat then Option.none
        else some ({ j with row := j.row + 1, base := j.base + (p - want) }, fmt),
      nextWrite := p + 1, qf := qs, free := x.free ++ [p], stop := max x.stop (p + 1),
      found := { x.found with
        bad := foundBad [(q.2 == fmt, 13), (s.spaceOk (.store e) a.space.toNat off n, 13)] ++ x.found.bad,
        touches := s.rowTouch (.store e) e a.space.toNat p off n true :: x.found.touches,
        sumsq := if a.sumsq = 1 then p :: x.found.sumsq else x.found.sumsq } }
  | _, _ => Option.none

/-- Rows move as far as they can. -/
def Pipe.run (s : State) (e : EngineLoc) : Nat → Pipe → Pipe
  | 0, x => x
  | f + 1, x =>
    let x := x.open_
    match x.drainRow s e with
    | some y => Pipe.run s e f y
    | Option.none =>
      match x.writeRow s e with
      | some y => Pipe.run s e f y
      | Option.none => x

/-- Finish and Store of an engine in a stroke. -/
def finishFlow (s : State) (e : EngineLoc) (tail : Nat) (l : List Planned) : Found :=
  let ds := l.filterMap fun p => match p.cmd with | .drain _ _ a => some (p.cycle, a) | _ => Option.none
  let ws := l.filterMap fun p => match p.cmd with | .write _ _ a => some (p.cycle, a) | _ => Option.none
  let rows := sumNat (ds.map fun d => d.2.rowsM1.toNat + 1) + sumNat (ws.map fun w => w.2.rowsM1.toNat + 1)
  let x := Pipe.run s e (rows + 1)
    ⟨ds, ws, Option.none, Option.none, [], List.replicate 16 0, [], 0, 0, 0, Found.none⟩
  { x.found with bad := foundBad [
      (x.qf.isEmpty && x.drain.isNone && x.write.isNone && x.drains.isEmpty && x.writes.isEmpty, 16),
      (decide (x.stop ≤ tail), 16)] ++ x.found.bad }

/-! ### The accesses of Fetch and PARAM -/

/-- The metadata words of a LOAD_META whose LOAD_W has, or has not, MXFP4 rows (R76). -/
def metaTouches (s : State) (e : EngineLoc) (c : Nat) (a : LoadMetaArgs) (mx : Bool) : List Touch :=
  (a.offs 0 (metaRows a.cl (a.trans == 1) mx)).zipIdx.map fun o =>
    s.rowTouch (.fetch e) e a.space.toNat (c + o.2) o.1 8 false

/-- Fetch's commands in order, with the LOAD_META that waits for its LOAD_W (R76, R77). -/
def fetchFlow (s : State) (e : EngineLoc) (tail : Nat) : List Planned → Option (Nat × LoadMetaArgs) → Found
  | [], waiting => { Found.none with bad := foundBad [(waiting.isNone, 13)] }
  | p :: r, waiting =>
    let rows := fun (a : LoadArgs) => a.offsets.zipIdx.flatMap fun o =>
      s.rowReads (.fetch e) e a.space.toNat (rowReadAt a.space.toNat a.len p.cycle o.2) o.1 a.len
    match p.cmd with
    | .loadA _ _ a => ({ Found.none with touches := rows a } : Found).join (fetchFlow s e tail r waiting)
    | .loadS _ _ a => ({ Found.none with touches := rows a } : Found).join (fetchFlow s e tail r waiting)
    | .loadDiag _ _ a => ({ Found.none with touches := rows a } : Found).join (fetchFlow s e tail r waiting)
    | .loadMeta _ _ a =>
      ({ Found.none with bad := foundBad [(waiting.isNone, 13)] } : Found).join
        (fetchFlow s e tail r (some (p.cycle, a)))
    | .loadW _ _ a =>
      let data := a.accesses.flatMap fun o => s.rowReads (.fetch e) e a.space.toNat (p.cycle + o.2.2) o.1 o.2.1
      let words := match waiting with
        | some m => if a.sparse then metaTouches s e m.1 m.2 a.mx else []
        | Option.none => []
      ({ Found.none with touches := data ++ words } : Found).join
        (fetchFlow s e tail r (if a.sparse then Option.none else waiting))
    | .param _ _ a =>
      let t := (List.range 4).map fun k => s.rowTouch (.finish e) e a.space.toNat (p.cycle + k) (8 * a.addr.toNat + 128 * k) 128 false
      ({ Found.none with touches := t, bad := foundBad [(decide (p.cycle + latency a.space.toNat + 4 ≤ tail), 16)] } : Found).join
        (fetchFlow s e tail r waiting)
    | _ => fetchFlow s e tail r waiting

/-- The engine that a command belongs to. -/
def cmdEngine : Instr → Option EngineLoc
  | .loadA e _ _ | .loadW e _ _ | .loadMeta e _ _ | .loadS e _ _ | .loadDiag e _ _ | .pass e _ _ | .swap e _
  | .drain e _ _ | .param e _ _ | .write e _ _ => some e
  | _ => Option.none

/-- Everything that one engine does in a stroke. -/
def engineFound (s : State) (tail : Nat) (plan : List Planned) (e : EngineLoc) : Found :=
  let l := plan.filter fun p => cmdEngine p.cmd == some e
  (({ Found.none with bad := engineFlow tail l } : Found).join (finishFlow s e tail l)).join
    (fetchFlow s e tail l Option.none)

/-! ### The accesses of the other stations -/

/-- An access at an offset of a space, by a station of a cluster. -/
def clusterTouch (st : StationRef) (c : ClusterLoc) (space t off n : Nat) (write : Bool) : Touch :=
  if space = 1 then ⟨t, stationRank st, 1, clusterIdx c, off, off, n, write, .whole⟩ else touchHbm st t off n write

/-- A descriptor's bytes in the constant data. -/
def State.constNat (s : State) (st : StationRef) (space off n : Nat) : Nat :=
  match s.spaceAddr st space off n with
  | some a => ofLe (bytesAt s.mem a n)
  | Option.none => 0

/-- COPY (R210). -/
def copyTouches (s : State) (c : ClusterLoc) (t : Nat) (a : CopyArgs) : List Touch :=
  let st := StationRef.counterproof c
  let d := copyDesc (s.constNat st a.space.toNat (8 * a.descAddr.toNat) 64)
  clusterTouch st c a.space.toNat t (8 * a.descAddr.toNat) 64 false ::
  (List.range (copyTiles a)).flatMap fun i =>
    let o := d.tile a i
    let p := if d.trans then (o.2, o.1) else o
    (List.range 32).flatMap fun j =>
      [clusterTouch st c d.srcSpace (copyRead t a i j) (d.srcRow p.1 p.2 j) d.srcLen false,
       clusterTouch st c d.dstSpace (copyWrite t a d i j) (d.dstRow o.1 o.2 j) d.dstLen true]
      ++ (match d.scalePlace o.1 o.2 j with
        | some q => [clusterTouch st c d.dstSpace (copyWrite t a d i j) q.1 q.2 true]
        | Option.none => [])

/-- BURNISH (R145, R146). -/
def burnTouches (s : State) (cl : ClusterLoc) (c : Nat) (a : BurnishArgs) : List Touch :=
  let st := StationRef.burnisher cl
  let d := layerDesc (s.constNat st a.space.toNat (8 * a.descAddr.toNat) 64)
  let at_ := fun i => burnFirst c a + i * (a.pace.toNat + 1)
  let rd := fun (t : Nat) (x : Nat × Nat) => touchHbm st t x.1 x.2 false
  let wr := fun (t : Nat) (x : Nat × Nat) => touchHbm st (t + 1286) x.1 x.2 true
  clusterTouch st cl a.space.toNat c (8 * a.descAddr.toNat) 64 false ::
  (List.range (a.browsM1.toNat + 1)).flatMap fun k =>
    let b := a.firstBrow.toNat + k
    (List.range d.bcols).flatMap fun col =>
      let t := at_ (k * d.bcols + col)
      let word := (d.wordAddr b (col / 9), 8)
      let reads := (if d.score = 2 then gPieces d b col
        else planePieces d b col ++ (if d.score = 1 then gPieces d b col else []))
      (reads.map (rd t)) ++ ((planePieces d b col).map (wr t))
        ++ (if col % 9 = 0 ∧ d.score ≠ 2 then [rd t word] else [])
        ++ (if col % 9 = 8 ∨ col + 1 = d.bcols then [wr t word] else [])

/-- A row of values read 64 at a time. -/
def rowTouches (st : StationRef) (t0 a n e : Nat) : List Touch :=
  (List.range (ceilDiv n 64)).map fun v => touchHbm st (t0 + v) (a + 64 * e * v) (e * min 64 (n - 64 * v)) false

/-- TOPB (R167). -/
def topbTouches (s : State) (x : SelectorLoc) (c : Nat) (a : TopbArgs) : List Touch :=
  let st := StationRef.selector x
  let d := topbDesc (s.constNat st 2 (8 * a.descAddr.toNat) 64)
  touchHbm st c (8 * a.descAddr.toNat) 64 false ::
  (List.range (topbGroups a)).flatMap fun g => (List.range 32).flatMap fun t =>
    rowTouches st (c + 1281 + 32 * topbU d * g + topbU d * t)
      (8 * d.scoreBase + 8 * d.pitch * (32 * (a.firstGroup.toNat + g) + t)) d.nblk (scoreBytes d.bf16)

/-- SAMPLE in either MODE (R314, R317). -/
def sampleTouches (s : State) (x : SelectorLoc) (c : Nat) (a : SampleArgs) : List Touch :=
  let st := StationRef.selector x
  let raw := s.constNat st 2 (8 * a.descAddr.toNat) 64
  touchHbm st c (8 * a.descAddr.toNat) 64 false ::
  (if field raw 0 2 = 0 then
    let d := sampleDesc raw
    (List.range (sampleRows a)).flatMap fun r =>
      let i := a.firstRow.toNat + r
      rowTouches st (c + 1281 + r * sampleP d) (8 * d.logitBase + 8 * d.pitch * i) d.v (scoreBytes d.bf16)
        ++ [touchHbm st (sampleWrite c d r) (8 * d.outBase + 8 * i) 8 true]
   else
    let d := fillDesc raw
    let e := fillBytes d
    (List.range (2 * sampleRows a)).flatMap fun g =>
      let off := 8 * d.pitch * (a.firstRow.toNat + g / 2) + e * 16 * (g % 2)
      touchHbm st (c + 1290 + g) (8 * d.outBase + off) (16 * e) true ::
        (if d.outFmt = 4 then [touchHbm st (c + 1290 + g) (8 * d.loBase + off) (16 * e) true] else []))

/-- The planes of an UPDATE's chunk: base and bytes per element of those written, then the gradient. -/
def updatePlanes (d : UpdateDesc) : List (Nat × Nat) :=
  [(d.hi, 2), (d.lo, 2), (d.m1, 4)] ++ (if d.opt = 0 then [(d.m2, 4)] else [])

def State.updateDescOf (s : State) (a : UpdateArgs) : UpdateDesc :=
  updateDesc (ofLe (bytesAt s.mem (8 * a.descAddr.toNat) 64))

/-- UPDATE (R218, R223). -/
def updateTouches (s : State) (u : UnitLoc) (c : Nat) (a : UpdateArgs) : List Touch :=
  let st := StationRef.updateUnit u
  let d := s.updateDescOf a
  let h := hyperSet s.paramBlock d.hset
  touchHbm st c (8 * a.descAddr.toNat) 64 false ::
  (if h.schedLen = 0 then [] else [touchHbm st (c + 1281) (plateBase u.plate.val) 16 false .everyStack])
  ++ (List.range (updateChunks a)).flatMap fun i =>
    let k := a.first.toNat + 16 * i
    let n := chunkElems a d i
    let t := chunkRead c a i
    if n = 0 then []
    else
      ((updatePlanes d ++ [(d.g, if d.gBf16 then 2 else 4)]).map fun (p : Nat × Nat) => touchHbm st t (planeAddr p.1 p.2 k) (p.2 * n) false)
      ++ ((updatePlanes d).map fun (p : Nat × Nat) => touchHbm st (t + 1288) (planeAddr p.1 p.2 k) (p.2 * n) true)

/-- ACCUM (R175): its reads, and for each entry a cycle for the write of a spill record, whose place depends on the data.
Log entry 62. -/
def accumTouches (c : ClusterLoc) (t : Nat) (a : AccumArgs) : List Touch :=
  let st := StationRef.stipple c
  let sp := a.space.toNat
  (List.range (accumEntries a)).flatMap fun i =>
    touchHbm st (t + latency sp + 6 + i) (plateBase c.plate.val) 136 true .eachStack ::
    (if a.record = 1 then [clusterTouch st c sp (t + i) (8 * a.vecAddr.toNat + 136 * i) 136 false]
    else [clusterTouch st c sp (t + i) (8 * a.keyAddr.toNat + 4 * i) 4 false,
      clusterTouch st c sp (t + i) (8 * a.vecAddr.toNat + 128 * i) 128 false])

/-- The cycles of a SEND's reads, with the words of each. -/
def sendTouches (r : RelayLoc) (c : Nat) (a : SendArgs) : List Touch :=
  let rate := sendRate a
  (List.range (ceilDiv (sendWords a) rate)).map fun i =>
    touchHbm (.relay r) (c + i) (8 * a.srcAddr.toNat + 8 * rate * i) (8 * min rate (sendWords a - rate * i)) false .split

/-- FXSET, FXADD and FXOUT (R272). -/
def fxTouches (r : RelayLoc) (c : Nat) (a : FxArgs) (srcLen dstLen : Nat) (readDst : Bool) : List Touch :=
  (List.range (fxElems a.lenM1 / 8)).flatMap fun i =>
    let dst := 8 * a.dstAddr.toNat + dstLen * i
    touchHbm (.relay r) (c + i) (8 * a.srcAddr.toNat + srcLen * i) srcLen false ::
      (if readDst then [touchHbm (.relay r) (c + i) dst dstLen false] else [])
      ++ [touchHbm (.relay r) (c + 1284 + i) dst dstLen true]

/-- The operation that a Stipple's command belongs to: that of the latest CLEAR before it (R172). -/
def stOpOf (s : State) (whole : List Planned) (c : ClusterLoc) (p : Planned) : StOp :=
  let clears := whole.filterMap fun q => match q.cmd with
    | .clear d _ a =>
      if d = c ∧ (q.stroke < p.stroke ∨ (q.stroke = p.stroke ∧ q.cycle < p.cycle)) then some a else Option.none
    | _ => Option.none
  stOp (match clears.getLast? with
    | some a => s.constNat (.stipple c) a.space.toNat (8 * a.descAddr.toNat) 64
    | Option.none => 0)

def spillRange (o : StOp) : Nat × Nat := (8 * o.spillBase, 136 * o.spillCap)
def dRange (o : StOp) : Nat × Nat :=
  (8 * o.dBase, if o.dRows = 0 then 0 else 8 * o.dPitch * (o.dRows - 1) + dRowBytes o)

/-- The bytes of the schedule of an UPDATE (R218). -/
def scheduleRange (s : State) (u : UnitLoc) (a : UpdateArgs) : Nat × Nat :=
  let h := hyperSet s.paramBlock (s.updateDescOf a).hset
  (plateBase u.plate.val + 8 * h.schedBase, 16 * h.schedLen)

/-- The accesses and reservations of a command of a station without an engine; `whole` are the commands of its step. -/
def stationFound (s : State) (whole : List Planned) (p : Planned) : Found :=
  let t := p.cycle
  let found := fun (l : List Touch) => ({ Found.none with touches := l } : Found)
  match p.cmd with
  | .copy c _ a => found (copyTouches s c t a)
  | .burnish c _ a => found (burnTouches s c t a)
  | .topb x _ a => found (topbTouches s x t a)
  | .setwin x _ a => found (if a.arm = 1 then [touchHbm (.selector x) t (8 * a.descAddr.toNat) 32 false] else [])
  | .sample x _ a => found (sampleTouches s x t a)
  | .update u _ a => { found (updateTouches s u t a) with reach := [scheduleRange s u a] }
  | .clear c _ a => found [clusterTouch (.stipple c) c a.space.toNat t (8 * a.descAddr.toNat) 64 false]
  | .accum c _ a => { found (accumTouches c t a) with reach := [spillRange (stOpOf s whole c p)] }
  | .gather c _ a =>
    let o := stOpOf s whole c p
    { Found.none with
      reserves := [⟨c.plate.val, t, t + a.reserve.toNat, 70⟩],
      reach := [(listBase a, 8 * (1 + sliceMax a + 128 * sliceMax a)), dRange o, spillRange o] }
  | .fold c _ a =>
    let o := stOpOf s whole c p
    { Found.none with
      reserves := [⟨c.plate.val, t, t + a.reserve.toNat, 70⟩],
      reach := [spillRange o, (8 * o.outBase, 136 * o.outCap), (8 * o.countAddr, 8)] }
  | .send r _ a => found (sendTouches r t a)
  | .recv r _ a =>
    { Found.none with reserves := [⟨relayPlate r, t, recvLimit t a, (if a.op = 0 then 4 else 12) * (a.widthM1.toNat + 1)⟩] }
  | .fxexp r _ a => found ((List.range (fxElems a.lenM1 / 32)).map fun i =>
      touchHbm (.relay r) (t + i) (8 * a.srcAddr.toNat + 128 * i) 128 false)
  | .fxset r _ a => found (fxTouches r t a 32 128 false)
  | .fxadd r _ a => found (fxTouches r t a 32 128 true)
  | .fxout r _ a => found (fxTouches r t a 128 32 false)
  | _ => Found.none

/-- Everything that a stroke's commands do to the memories, and what the timing model refuses of them. -/
def strokeFound (s : State) (tail : Nat) (whole plan : List Planned) : Found :=
  let es := (plan.filterMap fun p => cmdEngine p.cmd).eraseDups
  Found.all (es.map (engineFound s tail plan) ++ plan.map (stationFound s whole))

end Sys2Proof.Machine
end

