-- ==== Sys2Proof/Machine/Conflicts.lean ====
section
/-! DEFINITION. What the load check refuses of commands taken together (R53): the planes of the updates and the norm
(R213, R224, R228), pick windows and TOPBs (R160, R163, R166), closed destinations (R262), the slots of the links
(R266, R269), and operations left open (R172). -/

namespace Sys2Proof.Machine

/-- A command on the count of its step: `c` cycles to a stroke. -/
def Planned.time (c : Nat) (p : Planned) : Nat := p.stroke * c + p.cycle

/-! ### Updates and the norm -/

/-- The update descriptors of a cartoon's plans, as the constant data has them. -/
def updateDescs (s : State) (l : List Planned) : List UpdateDesc :=
  (l.filterMap fun p => match p.cmd with | .update _ _ a => some (s.updateDescOf a) | _ => none).eraseDups

/-- Byte ranges of a tensor's lo and moment planes; of its moment planes; of its hi and lo planes. -/
def momentRanges (d : UpdateDesc) : List (Nat × Nat) :=
  (8 * d.m1, 4 * d.elems) :: (if d.opt = 0 then [(8 * d.m2, 4 * d.elems)] else [])
def closedRanges (d : UpdateDesc) : List (Nat × Nat) := (8 * d.lo, 2 * d.elems) :: momentRanges d
def masterRanges (d : UpdateDesc) : List (Nat × Nat) := [(8 * d.hi, 2 * d.elems), (8 * d.lo, 2 * d.elems)]

def hitsAny (a n : Nat) (rs : List (Nat × Nat)) : Bool := rs.any fun r => overlap a n r.1 r.2

/-- An access of Fetch or Counterproof. -/
def Touch.fetchOrCopy (x : Touch) : Bool := x.space == 2 && (x.rank / 1024 == 1 || x.rank / 1024 == 4)

/-- No Fetch or Counterproof reaches a lo or moment plane (R213). -/
def planesClosed (ds : List UpdateDesc) (l : List Touch) : Bool :=
  let rs := ds.flatMap closedRanges
  l.all fun x => !(x.fetchOrCopy && hitsAny x.addr x.n rs)

/-- The byte ranges that a fill writes. -/
def fillRanges (s : State) (x : SelectorLoc) (a : SampleArgs) : List (Nat × Nat) :=
  let raw := s.constNat (.selector x) 2 (8 * a.descAddr.toNat) 64
  if field raw 0 2 ≠ 1 then []
  else
    let d := fillDesc raw
    (List.range (sampleRows a)).flatMap fun r =>
      let off := 8 * d.pitch * (a.firstRow.toNat + r)
      (8 * d.outBase + off, 32 * fillBytes d) :: (if d.outFmt = 4 then [(8 * d.loBase + off, 32 * fillBytes d)] else [])

/-- Fills with the ranges that they write, and the cycle from which their last write is visible. -/
def fillsOf (s : State) (c : Nat) (l : List Planned) : List (List (Nat × Nat) × Nat) :=
  l.filterMap fun p => match p.cmd with
    | .sample x _ a => some (fillRanges s x a,
        p.stroke * c + fillEnd p.cycle a + 1280)
    | _ => none

/-- What R213 asks of the fills of a variant. -/
def fillReasons (s : State) (c : Nat) (ds : List UpdateDesc) (l : List Planned) : List Nat :=
  let fills := fillsOf s c l
  let ups := l.filterMap fun p => match p.cmd with | .update _ _ a => some (p.time c, s.updateDescOf a) | _ => none
  foundBad [
    (fills.all (fun f => f.1.all fun r => !hitsAny r.1 r.2 (ds.flatMap momentRanges)), 13),
    (fills.all (fun f => ups.all fun u => decide (f.2 ≤ u.1)
      || f.1.all fun r => !hitsAny r.1 r.2 (masterRanges u.2)), 16)]

/-- The byte ranges that an UPDATE writes. -/
def updateWrites (s : State) (a : UpdateArgs) : List (Nat × Nat) :=
  let d := s.updateDescOf a
  let k := a.first.toNat
  let n := min (16 * updateChunks a) (d.elems - k)
  (updatePlanes d).map fun p => (planeAddr p.1 p.2 k, p.2 * n)

/-- The bytes that one UPDATE writes do not overlap those of any of some others. -/
def updateApartFrom (x : List (Nat × Nat)) (l : List (List (Nat × Nat))) : Bool :=
  l.all fun y => x.all fun r => !hitsAny r.1 r.2 y

def allUpdatesApart : List (List (Nat × Nat)) → Bool
  | [] => true
  | x :: r => updateApartFrom x r && allUpdatesApart r

/-- No two UPDATEs of a step write a common byte (R224). -/
def updatesApart (s : State) (l : List Planned) : Bool :=
  allUpdatesApart (l.filterMap fun p => match p.cmd with | .update _ _ a => some (updateWrites s a) | _ => none)

/-- The NORM of a step: where it stands, and whether every unit of the cartoon's plates carries it alike (R228). -/
def normPlace (l : List Planned) : Option (Nat × Nat) :=
  l.findSome? fun p => match p.cmd with | .norm _ _ _ => some (p.stroke, p.cycle) | _ => none

def normWhole (units : Nat) (l : List Planned) : Bool :=
  let ns := l.filterMap fun p => match p.cmd with
    | .norm u _ a => some (unitIdx u, p.stroke, p.cycle, a) | _ => none
  match ns with
  | [] => true
  | n :: _ => ns.all (fun x => x.2 == n.2) && ns.length == units && (ns.map (·.1)).eraseDups.length == units

/-- No SUMSQ row is written at or after the NORM. -/
def sumsqInTime (l : List Planned) (stroke : Nat) (rows : List Nat) : Bool :=
  match normPlace l with
  | some n => rows.all fun t => decide (stroke < n.1) || (stroke == n.1 && decide (t < n.2))
  | none => true

/-! ### Pick windows -/

/-- A row access of Fetch or Store. -/
def Touch.isRow (x : Touch) : Bool := x.space == 2 && (x.rank / 1024 == 1 || x.rank / 1024 == 3)
def Touch.plate (x : Touch) : Nat := x.rank % 1024 / 288

/-- A use of a window: time in the step, target, span of a position, the first pick entry of its group and their
number, whether it writes. -/
structure WindowUse where
  time : Nat
  target : Nat
  span : Nat
  group : Nat × Nat
  write : Bool
  deriving DecidableEq, Repr

/-- The pick entries of a plate that a step's TOPBs have written, with the cycles of the writes. -/
def pickWrites (s : State) (c : Nat) (l : List Planned) : List (Nat × Nat × Nat × Nat) :=
  l.flatMap fun p => match p.cmd with
    | .topb x _ a =>
      let d := topbDesc (s.constNat (.selector x) 2 (8 * a.descAddr.toNat) 64)
      (List.range (topbGroups a)).map fun g =>
        (x.plate.val, d.pickBase + (a.firstGroup.toNat + g) * d.b, d.b, p.stroke * c + topbWrite p.cycle d g)
    | _ => []

/-- The armed windows that a list of commands asks for: plate, window, time, descriptor. -/
def armings (s : State) (c : Nat) (l : List Planned) : List (Nat × Nat × Nat × WinDesc) :=
  l.filterMap fun p => match p.cmd with
    | .setwin x _ a => if a.arm = 1 then
        some (x.plate.val, a.win.toNat, p.time c + 1344,
          winDesc (s.constNat (.selector x) 2 (8 * a.descAddr.toNat) 32)) else none
    | _ => none

/-- Whether the step has set a window, to armed or to disarmed, by a time. -/
def windowSet (c : Nat) (l : List Planned) (plate w time : Nat) : Bool :=
  l.any fun p => match p.cmd with
    | .setwin x _ a => x.plate.val == plate && a.win.toNat == w && decide (p.time c + 1344 ≤ time)
    | _ => false

/-- The changes of windows that a list of commands makes, by plate and window: when each takes effect, and what it
leaves armed. -/
def windowChanges (s : State) (c : Nat) (l : List Planned) : List (Nat × Nat × Option WinDesc) :=
  sorted (·.2.1) (l.filterMap fun p => match p.cmd with
    | .setwin x _ a => some (16 * x.plate.val + a.win.toNat, p.time c + 1344,
        if a.arm = 1 then some (winDesc (s.constNat (.selector x) 2 (8 * a.descAddr.toNat) 32)) else none)
    | _ => none)

/-- What a variant leaves each window armed with at its end, by plate and window. -/
def windowsLeft (s : State) (c : Nat) (l : List Planned) : List (Nat × WinDesc) :=
  let ch := windowChanges s c l
  (List.range 32).filterMap fun k =>
    match (ch.filter fun x => x.1 == k).getLast? with
    | some (_, _, some d) => some (k, d)
    | _ => none

/-- What a window may be armed with when changes of a step have been made: the latest of them, or else what any variant
may have left. -/
def windowMay (left : List (Nat × WinDesc)) (done : List (Nat × Nat × Option WinDesc)) (k : Nat) : List WinDesc :=
  match (done.filter fun x => x.1 == k).getLast? with
  | some x => x.2.2.toList
  | none => (left.filter fun x => x.1 == k).map (·.2)

/-- No window is armed over a range that another of its plate may have (R160). -/
def windowsApart (left : List (Nat × WinDesc)) : List (Nat × Nat × Option WinDesc) → List (Nat × Nat × Option WinDesc) → Bool
  | _, [] => true
  | done, x :: r =>
    (match x.2.2 with
      | none => true
      | some d => (List.range 16).all fun w =>
          let k := x.1 / 16 * 16 + w
          k == x.1 || (windowMay left done k).all fun e => !windowsClash d e)
      && windowsApart left (done ++ [x]) r

/-- What R160 and R187 refuse of one row access, in stroke `k`. `arms` are the windows that any variant arms. -/
def rowReasons (s : State) (c k : Nat) (l : List Planned) (picks : List (Nat × Nat × Nat × Nat))
    (arms : List (Nat × Nat × Nat × WinDesc)) (x : Touch) : List Nat :=
  match s.windowPlace x.plate x.named x.t with
  | some (d, u) =>
    let e := d.pickBase + u
    foundBad [
      (decide ((x.named - 8 * d.winBase) % (8 * d.slotWords) + x.n ≤ 8 * d.slotWords), 13),
      ((List.range d.nblk).all (fun b => s.hbmOk x.plate
        (8 * d.tgtBase + b * (8 * d.slotWords) + (x.named - 8 * d.winBase) % (8 * d.slotWords)) x.n), 13),
      (picks.any (fun q => q.1 == x.plate && decide (q.2.1 ≤ e) && decide (e < q.2.1 + q.2.2.1)
        && decide (q.2.2.2 < k * c + x.t)), 16)]
  | none =>
    foundBad [
      ((List.range 16).all (fun w => match winAt (smapGet .empty s.windows (16 * x.plate + w)) x.t with
        | some d => !overlap x.named x.n (8 * d.winBase) d.span
        | none => true), 13),
      (arms.all (fun q => q.1 != x.plate || !overlap x.named x.n (8 * q.2.2.2.winBase) q.2.2.2.span
      || windowSet c l x.plate q.2.1 (k * c + x.t)), 16)]

def windowUse (s : State) (c k : Nat) (x : Touch) : Option WindowUse :=
  (s.windowPlace x.plate x.named x.t).map fun y =>
    ⟨k * c + x.t, y.1.tgtBase, y.1.slotWords, (y.1.pickBase + y.2 / y.1.b * y.1.b, y.1.b), x.write⟩

/-- No use falls within the visibility of a write to another group of the same target (R160). `recent` lists the
last write to each target and group. -/
def usesApart : List WindowUse → List WindowUse → Bool
  | [], _ => true
  | x :: r, recent =>
    let clash := recent.any fun w => w.target == x.target && w.span == x.span && w.group != x.group
      && decide (x.time < w.time + 1280)
    let recent := if x.write then
        x :: recent.filter (fun w => !(w.target == x.target && w.span == x.span && w.group == x.group)
          && decide (x.time < w.time + 1280))
      else recent
    !clash && usesApart r recent

/-- A window's target has as many blocks as every TOPB that writes its entries ranks (R166). -/
def windowsCover (s : State) (c : Nat) (l : List Planned) : Bool :=
  (armings s c l).all fun q => l.all fun p => match p.cmd with
    | .topb x _ a =>
      let d := topbDesc (s.constNat (.selector x) 2 (8 * a.descAddr.toNat) 64)
      x.plate.val != q.1
        || !overlap (d.pickBase + a.firstGroup.toNat * d.b) (topbGroups a * d.b) q.2.2.2.pickBase (q.2.2.2.ng * q.2.2.2.b)
        || decide (d.nblk ≤ q.2.2.2.nblk)
    | _ => true

/-- No two TOPBs of a plate that run at once write a common pick entry (R163). -/
def topbsApart (s : State) (l : List Planned) : Bool :=
  let ts := l.filterMap fun p => match p.cmd with
    | .topb x _ a =>
      let d := topbDesc (s.constNat (.selector x) 2 (8 * a.descAddr.toNat) 64)
      some (x.plate.val, p.cycle, topbEnd p.cycle a d + 1 - p.cycle,
        d.pickBase + a.firstGroup.toNat * d.b, topbGroups a * d.b)
    | _ => none
  let rec go : List (Nat × Nat × Nat × Nat × Nat) → Bool
    | [] => true
    | a :: r => r.all (fun b => a.1 != b.1 || !overlap a.2.1 a.2.2.1 b.2.1 b.2.2.1
        || !overlap a.2.2.2.1 a.2.2.2.2 b.2.2.2.1 b.2.2.2.2) && go r
  go ts

/-! ### Links -/

/-- Two FXEXPs of one segment declare one number of contributors (R272); a segment is that of its stroke (R273). Log
entry 63. -/
def contribsAgree (l : List Planned) : Bool :=
  let xs := l.filterMap fun p => match p.cmd with | .fxexp _ _ a => some (a.seg, a.contribM1) | _ => none
  xs.all fun x => xs.all fun y => x.1 != y.1 || x.2 == y.2

/-- The destinations that are closed in a stroke (R262). -/
def closedDests (l : List Planned) : List (Nat × Nat) :=
  l.filterMap fun p => match p.cmd with | .recv _ _ a => some (8 * a.dstAddr.toNat, recvDest a) | _ => none

/-- The first data slot after slot `n` that starts at or after a cycle; at G0 a slot takes two cycles (R258). -/
def dataSlot (n cycle : Nat) : Nat :=
  let k := max n (ceilDiv cycle 2)
  if k % 100 ≥ 96 then k / 100 * 100 + 100 else k

/-- The flits of a SEND: the channel, and the cycle in which the last byte has arrived. -/
def sendFlits (r : RelayLoc) (c : Nat) (a : SendArgs) : List (Nat × Nat) :=
  let total := sendWords a * wordBytes a
  (List.range (ceilDiv total 250)).map fun j =>
    let last := min total (250 * (j + 1)) - 1
    (linkKey (match r with
      | .kazin k => .kazin k
      | .seam p => .seam p (Fin.ofNat 48 (a.firstCh.toNat + j % sendWidth a))),
     sendRead c a (last / wordBytes a) + 1280)

/-- Every flit leaves by a cycle. `next` holds each channel's next slot. -/
def flitsLeave (limit : Nat) : List (Nat × Nat) → SMap Nat → Bool
  | [], _ => true
  | (ch, ready) :: r, next =>
    let n := dataSlot (smapGet 0 next ch) ready
    decide (2 * n ≤ limit) && flitsLeave limit r (smapPut 0 next ch (n + 1))

def sendsLeave (c : Nat) (l : List Planned) : Bool :=
  flitsLeave (c - 4000) (l.flatMap fun p => match p.cmd with | .send r _ a => sendFlits r p.cycle a | _ => []) []

/-- The port that R266 names for a role, with every port taken as usable. -/
def State.wiredPort (s : State) (role : Nat) : Option Nat := (List.range 16).find? fun k => s.wiredTo k role

/-- An access of which the load check knows the place. -/
def Touch.placed (x : Touch) : Bool := x.space == 2 && (x.how == .whole || x.how == .split)

/-- The scheduled control flits of a stroke: their ports, and the cycles from which they may leave (R231, R263,
R266, R273). `prior` are the commands of the stroke before. -/
def ctrlFlits (s : State) (c : Nat) (l prior : List Planned) : List (Nat × Nat) :=
  let all := fun (t : Nat) => s.otherRoles.filterMap fun r => (s.wiredPort r).map fun k => (k, t)
  let norm := fun (l : List Planned) => l.findSome? fun p => match p.cmd with
    | .norm _ _ a => if a.scope = 1 then some (p.cycle, a.mode) else none
    | _ => none
  (List.range 16).map (fun k => (k, c - 4000))
    ++ (l.filterMap fun p => match p.cmd with
      | .markRemote st _ a => some (remotePort st a.port, p.cycle)
      | _ => none)
    ++ (match norm l with | some n => all (n.1 + 64) | none => [])
    ++ (match norm prior with | some n => if n.2 = 1 then all 64 else [] | none => [])
    ++ (if l.any (fun p => match p.cmd with | .fxexp _ _ _ => true | _ => false) then all (c - 4000) else [])

/-- Ascending ready cycles, each in a control slot of its own that starts before a cycle; `k` counts the slots
passed. -/
def ctrlLeave (limit : Nat) : List Nat → Nat → Bool
  | [], _ => true
  | t :: r, k =>
    let k := max k (ceilDiv (ceilDiv t 2 - 99) 100)
    decide (2 * (100 * k + 99) < limit) && ctrlLeave limit r (k + 1)

/-- Control slots that start before a cycle. -/
def ctrlSlots (limit : Nat) : Nat := (ceilDiv limit 2) / 100

def ctrlFits (s : State) (c : Nat) (l prior : List Planned) : Bool :=
  let fs := ctrlFlits s c l prior
  (List.range 16).all fun k =>
    let ts := (fs.filter (·.1 == k)).map (·.2)
    ctrlLeave (c - 1784) (sorted (fun n => n) ts) 0 && decide (ts.length + 8 ≤ ctrlSlots (c - 1784))

/-! ### One stroke, and one variant -/

/-- What the load check finds of a stroke: reasons, the uses of windows, and the accesses that are served late. -/
structure StrokeFound where
  bad : List Nat
  uses : List WindowUse
  late : List Deferral
  deriving DecidableEq, Repr

/-- What is refused of one stroke: `s` is the device with the image's constant data, in the stroke; `l` the whole
step; `arms` the windows that any variant arms. -/
def strokeReasons (s : State) (l : List Planned) (ds : List UpdateDesc) (arms : List (Nat × Nat × Nat × WinDesc))
    (k : Nat) : StrokeFound :=
  let c := s.cycles
  let mine := l.filter fun p => p.stroke == k
  let f := strokeFound s s.tailStart l mine
  let dests := closedDests mine
  let picks := pickWrites s c l
  let rows := f.touches.filter Touch.isRow
  let p := placement f.reserves f.touches
  ⟨f.bad ++ foundBad [
      (storesApart f.touches, 16), (p.isSome, 16),
      (f.touches.all (fun x => decide (x.t < s.tailStart)), 16),
      (f.touches.all (fun x => !x.placed || !hitsAny x.addr x.n dests), 16),
      (f.reach.all (fun r => !hitsAny r.1 r.2 dests), 16), (contribsAgree mine, 13),
      (planesClosed ds f.touches, 13), (sumsqInTime l k f.sumsq, 16),
      (topbsApart s mine, 16), (sendsLeave c mine, 16),
      (ctrlFits s c mine (l.filter fun p => p.stroke + 1 == k), 16)]
    ++ (if arms.isEmpty then [] else rows.flatMap (rowReasons s c k l picks arms)),
   if arms.isEmpty then [] else rows.filterMap (windowUse s c k),
   (p.getD []).map fun d => { d with variant := s.seq.variant, stroke := k }⟩

/-- What is refused of a step as a whole; `left` are the windows that any variant leaves armed. -/
def stepReasons (s : State) (ds : List UpdateDesc) (left : List (Nat × WinDesc)) (l : List Planned) : List Nat :=
  fillReasons s s.cycles ds l ++ foundBad [
    (windowsApart left [] (windowChanges s s.cycles l), 13),
    (updatesApart s l, 16), (normWhole s.normUnits l, 16), (windowsCover s s.cycles l, 13)]

end Sys2Proof.Machine
end

