-- ==== Sys2Proof/Machine/Issue.lean ====
section
/-! DEFINITION. The station commands, one meaning each: in its issue cycle a command is checked and begins; what it
does later stands on the agenda (R49, R50). -/

namespace Sys2Proof.Machine

/-! ### Fetch (R73–R80) -/

def loadStep (e : EngineLoc) (i : Issue) (k : LoadKind) (a : LoadArgs) (s : State) : Out :=
  stationStep s (.fetch e) i (fun s => loadBad s e k a) (loadEffect e i.cycle.toNat k a)

/-- LOAD_A (R73). -/
def execLoadA (e : EngineLoc) (i : Issue) (a : LoadArgs) (s : State) : Out := loadStep e i .a a s
/-- LOAD_S (R75). -/
def execLoadS (e : EngineLoc) (i : Issue) (a : LoadArgs) (s : State) : Out := loadStep e i .s a s
/-- LOAD_DIAG (R75). -/
def execLoadDiag (e : EngineLoc) (i : Issue) (a : LoadArgs) (s : State) : Out := loadStep e i .diag a s
/-- LOAD_META (R76). -/
def execLoadMeta (e : EngineLoc) (i : Issue) (a : LoadMetaArgs) (s : State) : Out :=
  stationStep s (.fetch e) i (fun s => loadMetaBad s e a) (loadMetaEffect e i.cycle.toNat a)
/-- LOAD_W (R77). -/
def execLoadW (e : EngineLoc) (i : Issue) (a : LoadWArgs) (s : State) : Out :=
  stationStep s (.fetch e) i (fun s => loadWBad s e i.cycle.toNat a) (loadWEffect e i.cycle.toNat a)

/-! ### Etch (R59, R81) -/

/-- PASS (R81). -/
def execPass (e : EngineLoc) (i : Issue) (a : PassArgs) (s : State) : Out :=
  stationStep s (.etch e) i (passRefused e i.cycle.toNat a) (passEffect e i.cycle.toNat a)
/-- SWAP (R59). -/
def execSwap (e : EngineLoc) (i : Issue) (s : State) : Out :=
  stationStep s (.etch e) i (fun s => swapBad (s.engine e) i.cycle.toNat) (swapEffect e i.cycle.toNat)

/-! ### Finish and Store (R84, R88, R89) -/

/-- DRAIN (R84). -/
def execDrain (e : EngineLoc) (i : Issue) (a : DrainArgs) (s : State) : Out :=
  stationStep s (.finish e) i (fun s => drainBad (s.engine e) i.cycle.toNat a) (drainEffect e i.cycle.toNat a)
/-- PARAM (R88). -/
def execParam (e : EngineLoc) (i : Issue) (a : ParamArgs) (s : State) : Out :=
  stationStep s (.finish e) i (fun s => paramBad s e a) (paramEffect e i.cycle.toNat a)
/-- WRITE (R89). -/
def execWrite (e : EngineLoc) (i : Issue) (a : WriteArgs) (s : State) : Out :=
  stationStep s (.store e) i (fun s => writeBad s e i.cycle.toNat a) (writeEffect e i.cycle.toNat a)

/-! ### The mark commands of every station (R91–R93) -/

/-- MARK_WAIT: it never stalls; a condition that does not hold is the fault 0x0104. -/
def execMarkWait (st : StationRef) (i : Issue) (a : MarkWaitArgs) (s : State) : Out :=
  stationStep s st i (fun _ => markWaitBad a) (markWaitEffect st i.cycle.toNat a)
/-- MARK_SIGNAL: an update that takes effect 64 cycles later. -/
def execMarkSignal (st : StationRef) (i : Issue) (a : MarkSignalArgs) (s : State) : Out :=
  stationStep s st i (fun s => markSignalBad s i.cycle.toNat a) (markSignalEffect st i.cycle.toNat a)
/-- MARK_REMOTE: the add travels as control type 2 on the port that the command names. -/
def execMarkRemote (st : StationRef) (i : Issue) (a : MarkRemoteArgs) (s : State) : Out :=
  stationStep s st i (fun s => markRemoteBad s st a) (markRemoteEffect st a)

/-! ### Burnisher, Selector, Stipple, Counterproof -/

/-- BURNISH (R144). -/
def execBurnish (c : ClusterLoc) (i : Issue) (a : BurnishArgs) (s : State) : Out :=
  stationStep s (.burnisher c) i (fun s => burnishBad s c i.cycle.toNat a) (burnishEffect c i.cycle.toNat a)
/-- TOPB (R164). -/
def execTopb (x : SelectorLoc) (i : Issue) (a : TopbArgs) (s : State) : Out :=
  stationStep s (.selector x) i (fun s => topbBad s x i.cycle.toNat a) (topbEffect x i.cycle.toNat a)
/-- SETWIN (R166). -/
def execSetwin (x : SelectorLoc) (i : Issue) (a : SetwinArgs) (s : State) : Out :=
  stationStep s (.selector x) i (fun s => setwinBad s x i.cycle.toNat a) (setwinEffect x i.cycle.toNat a)
/-- SAMPLE with a MODE 0 descriptor; with one of MODE 1 the same opcode is a fill (R310–R319). -/
def execSample (x : SelectorLoc) (i : Issue) (a : SampleArgs) (s : State) : Out :=
  stationStep s (.selector x) i (fun s => samplingBad s x i.cycle.toNat a) (samplingEffect x i.cycle.toNat a)
/-- SAMPLE with a MODE 1 descriptor; with one of MODE 0 the same opcode samples. -/
def execFill (x : SelectorLoc) (i : Issue) (a : SampleArgs) (s : State) : Out :=
  stationStep s (.selector x) i (fun s => samplingBad s x i.cycle.toNat a) (samplingEffect x i.cycle.toNat a)
/-- CLEAR (R174). -/
def execClear (c : ClusterLoc) (i : Issue) (a : ClearArgs) (s : State) : Out :=
  stationStep s (.stipple c) i (fun s => clearBad s c i.cycle.toNat a) (clearEffect c i.cycle.toNat a)
/-- ACCUM (R175). -/
def execAccum (c : ClusterLoc) (i : Issue) (a : AccumArgs) (s : State) : Out :=
  stationStep s (.stipple c) i (fun s => accumBad s c i.cycle.toNat a) (accumEffect c i.cycle.toNat a)
/-- GATHER (R177). -/
def execGather (c : ClusterLoc) (i : Issue) (a : GatherArgs) (s : State) : Out :=
  stationStep s (.stipple c) i (fun s => gatherBad s c i.cycle.toNat a) (gatherEffect c i.cycle.toNat a)
/-- FOLD (R179). -/
def execFold (c : ClusterLoc) (i : Issue) (a : FoldArgs) (s : State) : Out :=
  stationStep s (.stipple c) i (fun s => foldBad s c i.cycle.toNat a) (foldEffect c i.cycle.toNat a)
/-- COPY (R207). -/
def execCopy (c : ClusterLoc) (i : Issue) (a : CopyArgs) (s : State) : Out :=
  stationStep s (.counterproof c) i (fun s => copyBad s c i.cycle.toNat a) (copyEffect c i.cycle.toNat a)

/-! ### Update units (R221, R228) -/

/-- UPDATE (R221). -/
def execUpdate (u : UnitLoc) (i : Issue) (a : UpdateArgs) (s : State) : Out :=
  stationStep s (.updateUnit u) i (fun s => updateBad s u i.cycle.toNat a) (updateEffect u i.cycle.toNat a)
/-- NORM (R228). -/
def execNorm (u : UnitLoc) (i : Issue) (a : NormArgs) (s : State) : Out :=
  stationStep s (.updateUnit u) i (fun s => normBad s u i.cycle.toNat a) (normEffect u i.cycle.toNat a)

/-! ### Relays (R268–R273) -/

/-- SEND (R268). -/
def execSend (r : RelayLoc) (i : Issue) (a : SendArgs) (s : State) : Out :=
  stationStep s (.relay r) i (fun s => sendBad s r i.cycle.toNat a) (sendEffect r i.cycle.toNat a)
/-- RECV (R270). -/
def execRecv (r : RelayLoc) (i : Issue) (a : RecvArgs) (s : State) : Out :=
  stationStep s (.relay r) i (fun s => recvBad s r i.cycle.toNat a) (recvEffect r i.cycle.toNat a)
/-- FXEXP (R272). -/
def execFxexp (r : RelayLoc) (i : Issue) (a : FxexpArgs) (s : State) : Out :=
  stationStep s (.relay r) i (fun s => fxexpBad s r i.cycle.toNat a) (fxexpEffect r i.cycle.toNat a)
/-- FXSET (R272). -/
def execFxset (r : RelayLoc) (i : Issue) (a : FxArgs) (s : State) : Out :=
  stationStep s (.relay r) i (fun s => fxBad s r i.cycle.toNat true a) (fxEffect .set r i.cycle.toNat a)
/-- FXADD (R272). -/
def execFxadd (r : RelayLoc) (i : Issue) (a : FxArgs) (s : State) : Out :=
  stationStep s (.relay r) i (fun s => fxBad s r i.cycle.toNat true a) (fxEffect .add r i.cycle.toNat a)
/-- FXOUT (R272). -/
def execFxout (r : RelayLoc) (i : Issue) (a : FxArgs) (s : State) : Out :=
  stationStep s (.relay r) i (fun s => fxBad s r i.cycle.toNat false a) (fxEffect .out r i.cycle.toNat a)

end Sys2Proof.Machine
end

