-- ==== Sys2Proof/Machine/Load.lean ====
section
/-! DEFINITION. Loading a cartoon: the trigger (R323), the image (R35–R37, R47–R50, R508, R509, R216, R217) and the
load check (R53). -/

namespace Sys2Proof.Machine

/-! ### LOAD_TRIGGER (R323) -/

def loadTriggerOffset : Nat := 0x3010

/-- Plates that are offered. -/
def State.offered (s : State) : List Nat := [0, 1].filter s.plateOffered

/-- The size fits half of every cartoon region. -/
def State.loadFits (s : State) : Bool :=
  s.offered.all fun p => decide (2 * s.regs.loadSize.toNat ≤ s.cartSize p)

/-- Every cluster of an offered plate is ON. -/
def State.allGatesOn (s : State) : Bool :=
  (List.range 72).all fun i =>
    !s.plateOffered (i / 36) || (smapGet Gate.reset s.gates i).state == .on

def State.loadAllowed (s : State) : Bool :=
  (s.seq.state == .idle || s.seq.state == .loaded) && !s.regs.loadBusy && s.loadFits && s.allGatesOn
    && !s.tenantChanging && s.sec.importState != .running

def loadTriggerEffect (s : State) : State :=
  if s.loadAllowed then
    { s with regs := { s.regs with
        loadBusy := true, loadStatus := 1, loadFrom := s.regs.loadAddr, loadBytes := s.regs.loadSize } }
  else s.refuse loadTriggerOffset

/-- LOAD_TRIGGER. -/
def execLoadTrigger (s : State) : Out := hostWr loadTriggerEffect s

/-! ### The image -/

/-- `n` bytes of an image from an offset on, as a number; bytes beyond its end count as zero. -/
def imageNat (img : List Byte) (off n : Nat) : Nat := ofLe ((img.drop off).take n)

/-- The header of R47. -/
structure ImageHeader where
  magic : Nat
  version : Nat
  stepping : Nat
  groupSize : Nat
  role : Nat
  plateMask : Nat
  quanta : Nat
  editionMin : Nat
  editionMax : Nat
  segCount : Nat
  tableOffset : Nat
  imageSize : Nat
  maskEpoch : Nat
  digest : Nat
  rsvd : Nat
  deriving DecidableEq, Repr

def imageHeader (img : List Byte) : ImageHeader :=
  let h := imageNat img 0 256
  { magic := field h 0 32, version := field h 32 16, stepping := field h 48 16, groupSize := field h 64 4,
    role := field h 68 3, plateMask := field h 72 2, quanta := field h 80 10, editionMin := field h 96 32,
    editionMax := field h 128 32, segCount := field h 160 32, tableOffset := field h 192 64,
    imageSize := field h 256 64, maskEpoch := field h 320 32, digest := field h 384 384,
    rsvd := field h 71 1 + field h 74 6 + field h 90 6 + field h 352 32 + field h 768 1280 }

/-- A segment table entry of R48. -/
structure Segment where
  type : Nat
  station : Nat
  plate : Nat
  cluster : Nat
  lengine : Nat
  inst : Nat
  variant : Nat
  offset : Nat
  length : Nat
  dest : Nat
  rsvd : Nat
  deriving DecidableEq, Repr

def segmentOf (x : Nat) : Segment :=
  { type := field x 0 8, station := field x 8 4, plate := field x 12 1, cluster := field x 13 6,
    lengine := field x 19 3, inst := field x 22 3, variant := field x 32 3, offset := field x 64 64,
    length := field x 128 64, dest := field x 192 64, rsvd := field x 25 7 + field x 35 29 }

/-- The entries of the table; none where the table does not lie on a multiple of 64 within the image (R47). -/
def imageSegments (img : List Byte) : List Segment :=
  let h := imageHeader img
  if h.tableOffset % 64 = 0 ∧ h.tableOffset + 32 * h.segCount ≤ img.length then
    (List.range h.segCount).map fun i => segmentOf (imageNat img (h.tableOffset + 32 * i) 32)
  else []

/-- The station that a command-stream segment serves (R509); none for a place that does not exist. -/
def Segment.stationRef (g : Segment) : Option StationRef :=
  let p : Fin 2 := Fin.ofNat 2 g.plate
  let c : Fin 36 := Fin.ofNat 36 g.cluster
  let e : EngineLoc := ⟨p, c, Fin.ofNat 8 g.lengine⟩
  let cl : ClusterLoc := ⟨p, c⟩
  let here := decide (g.cluster < 36)
  match g.station with
  | 0 => if here then some (.fetch e) else none
  | 1 => if here then some (.etch e) else none
  | 2 => if here then some (.finish e) else none
  | 3 => if here then some (.store e) else none
  | 4 => if here then some (.counterproof cl) else none
  | 5 => if here then some (.burnisher cl) else none
  | 6 => if here then some (.stipple cl) else none
  | 7 => if g.inst < 2 then some (.selector ⟨p, Fin.ofNat 2 g.inst⟩) else none
  | 8 => if g.inst < 5 then some (.updateUnit ⟨p, Fin.ofNat 5 g.inst⟩) else none
  | 9 => some (.relay (.seam p))
  | 10 => some (.relay (.kazin (Fin.ofNat 16 (8 * g.plate + g.inst))))
  | _ => none

/-- The fields of an entry that R509 marks unused. -/
def Segment.unused (g : Segment) : Nat :=
  if g.type = 2 then
    (if g.station ≤ 3 then g.inst
     else if g.station ≤ 6 then g.lengine + g.inst
     else if g.station ≤ 8 then g.cluster + g.lengine
     else if g.station = 9 then g.cluster + g.lengine + g.inst
     else if g.station = 10 then g.cluster + g.lengine
     else 0)
  else if g.type = 1 ∨ g.type = 3 ∨ g.type = 4 then g.plate + g.cluster + g.lengine + g.inst + g.variant
  else 0

/-! ### The step program (R35–R37) -/

structure VariantEntry where
  strokesM1 : Nat
  flags : Nat
  gateRing : Nat
  seedSel : Nat
  paramOffset : Nat
  paramLength : Nat
  seed : Nat
  rsvd : Nat
  deriving DecidableEq, Repr

def variantEntry (x : Nat) : VariantEntry :=
  { strokesM1 := field x 0 10, flags := field x 10 3, gateRing := field x 16 12, seedSel := field x 32 2,
    paramOffset := field x 64 64, paramLength := field x 128 32, seed := field x 192 256,
    rsvd := field x 13 3 + field x 28 4 + field x 34 30 + field x 160 32 + field x 448 64 }

structure RuleEntry where
  period : Nat
  phase : Nat
  variant : Nat
  rsvd : Nat
  deriving DecidableEq, Repr

def ruleEntry (x : Nat) : RuleEntry :=
  { period := field x 0 32, phase := field x 32 32, variant := field x 64 3, rsvd := field x 67 61 }

structure StepProgram where
  variantCount : Nat
  ruleCount : Nat
  stepLimit : Nat
  variants : List VariantEntry
  rules : List RuleEntry
  length : Nat
  rsvd : Nat
  deriving DecidableEq, Repr

/-- The first `n` of at most eight entries of `size` bytes from an offset on that lie inside `length` bytes. -/
def entriesInside (n off size length : Nat) : List Nat :=
  (List.range (min n 8)).filter fun i => decide (off + size * (i + 1) ≤ length)

/-- The step program at a place in the image; at most eight entries of each kind are read, and none outside the
segment. -/
def stepProgram (img : List Byte) (g : Segment) : StepProgram :=
  let h := imageNat img g.offset 64
  let v := field h 0 8
  let r := field h 8 8
  { variantCount := v, ruleCount := r, stepLimit := field h 32 32,
    variants := (entriesInside v 64 64 g.length).map fun i => variantEntry (imageNat img (g.offset + 64 + 64 * i) 64),
    rules := (entriesInside r (64 + 64 * v) 16 g.length).map fun i => ruleEntry (imageNat img (g.offset + 64 + 64 * v + 16 * i) 16),
    length := g.length, rsvd := field h 16 16 + field h 64 448 }

/-- An image as the load check reads it. -/
structure Image where
  bytes : List Byte
  header : ImageHeader
  segments : List Segment
  program : StepProgram
  deriving DecidableEq, Repr

def noProgram : StepProgram := ⟨0, 0, 0, [], [], 0, 0⟩

def readImage (img : List Byte) : Image :=
  let gs := imageSegments img
  { bytes := img, header := imageHeader img, segments := gs,
    program := match gs.find? (fun g => g.type == 1) with
      | some g => stepProgram img g
      | none => noProgram }

/-- The update-parameter block that a variant names; none at offset 0 (R508). -/
def Image.block (m : Image) (v : VariantEntry) : List Byte :=
  if v.paramOffset = 0 then [] else (m.bytes.drop v.paramOffset).take v.paramLength

/-- The cartoon that an image makes, in the half of the regions that it has been copied to. -/
def Image.cartoon (m : Image) (half : Bool) : Cartoon :=
  { groupSize := BitVec.ofNat 4 m.header.groupSize, role := BitVec.ofNat 3 m.header.role,
    plateMask := BitVec.ofNat 2 m.header.plateMask, quanta := BitVec.ofNat 10 m.header.quanta,
    maskEpoch := BitVec.ofNat 32 m.header.maskEpoch, digest := BitVec.ofNat 384 m.header.digest,
    stepLimit := BitVec.ofNat 32 m.program.stepLimit,
    variants := m.program.variants.map fun v =>
      { strokesM1 := BitVec.ofNat 10 v.strokesM1, gate := bitAt v.flags 0, probe := bitAt v.flags 1,
        checkpoint := bitAt v.flags 2, gateRing := BitVec.ofNat 12 v.gateRing, seedSel := BitVec.ofNat 2 v.seedSel,
        seed := BitVec.ofNat 256 v.seed, params := m.block v },
    rules := m.program.rules.map fun r =>
      { period := BitVec.ofNat 32 r.period, phase := BitVec.ofNat 32 r.phase, variant := BitVec.ofNat 3 r.variant },
    consts := (m.segments.filter fun g => g.type == 3).map fun g => { dest := g.dest, length := g.length },
    streams := (m.segments.filter fun g => g.type == 2).filterMap fun g => g.stationRef.map fun st =>
      { source := srcStation st, variant := g.variant, offset := g.offset, words := g.length / 16 },
    deferred := [], half := half }

/-! ### Checks of the header (reasons 1 to 8) -/

/-- CARTOON_DIGEST: SHA-384 of the image with the field taken as zero, in the order of R7. -/
def imageDigest (img : List Byte) : Nat :=
  ofLe (sha384 (img.take 48 ++ List.replicate 48 0 ++ img.drop 96))

/-- In sealed mode the policy must name the digest (R393). -/
def State.digestApproved (s : State) (d : Nat) : Bool :=
  match s.sec.tenant with
  | some t => (policyDigests t.policy).contains d
  | none => true

/-- Conditions with their reasons: the reasons of those that fail. -/
def failing (l : List (Bool × Nat)) : List Nat := (l.filter fun p => !p.1).map (·.2)

def Image.headerReasons (m : Image) (s : State) : List Nat :=
  let h := m.header
  failing [
    (h.magic == 0x43415254, 1), (h.version == 3, 2), (h.stepping == 0x4230, 3),
    (s.role == some h.role && h.groupSize == s.groupSize, 4),
    (h.plateMask != 0 && (List.range 2).all (fun p => !bitAt h.plateMask p || s.plateOffered p)
      && m.segments.all (fun g => g.type != 2 || bitAt h.plateMask g.plate), 5),
    (decide (8 ≤ h.quanta) && decide (h.quanta ≤ 800) && decide (s.edition.qMin.toNat ≤ h.quanta)
      && decide (h.quanta ≤ s.edition.qMax.toNat), 6),
    (decide (h.editionMin ≤ s.edition.number.toNat) && decide (s.edition.number.toNat ≤ h.editionMax), 7),
    (h.imageSize == m.bytes.length && h.digest == imageDigest m.bytes && s.digestApproved h.digest, 8)]

/-! ### RSVD fields (reason 9) -/

/-- RSVD fields of an update-parameter block (R216, R217). -/
def blockRsvd (b : List Byte) : Nat :=
  let h := ofLe (b.take 64)
  field h 4 28 + field h 65 447 + sumNat (((chunks 64 (b.drop 64)).take 8).map fun x =>
    field (ofLe x) 161 31 + field (ofLe x) 228 28 + field (ofLe x) 320 192)

/-- The words of a command stream. -/
def Image.words (m : Image) (g : Segment) : List CmdWord :=
  (chunks 16 ((m.bytes.drop g.offset).take g.length)).map fun b => BitVec.ofNat 128 (ofLe b)

/-- Every command stream whose station exists: the station, the variant, the words. -/
def Image.streams (m : Image) : List (StationRef × Nat × List CmdWord) :=
  (m.segments.filter fun g => g.type == 2).filterMap fun g => g.stationRef.map fun st => (st, g.variant, m.words g)

def Image.rsvdReasons (m : Image) : List Nat :=
  failing [
    (m.header.rsvd == 0 && m.segments.all (fun g => g.rsvd == 0 && g.unused == 0)
      && m.program.rsvd == 0 && m.program.variants.all (fun v => v.rsvd == 0 && blockRsvd (m.block v) == 0)
      && m.program.rules.all (fun r => r.rsvd == 0)
      && m.streams.all (fun x => x.2.2.all (wordClean x.1)), 9)]

/-! ### Layout (reason 10) -/

/-- Whether a constant-data range keeps R187. -/
def State.destOk (s : State) (mask a n : Nat) : Bool :=
  let hbm := (List.range 2).any fun p => bitAt mask p && inside a n (plateBase p) hbmSize
  let store := match storePlace a with
    | some (p, _, off) => bitAt mask p && decide (off + n ≤ 0x40_0000)
    | none => false
  (hbm || store) && !s.inCartoonRegion a n

/-- Regions that no other may overlap: header, segment table, segments. -/
def Image.regions (m : Image) : List (Nat × Nat) :=
  [(0, 256), (m.header.tableOffset, 32 * m.header.segCount)] ++ m.segments.map fun g => (g.offset, g.length)

/-- Update-parameter blocks, each once. -/
def Image.blocks (m : Image) : List (Nat × Nat) :=
  ((m.program.variants.filter fun v => v.paramOffset != 0).map fun v => (v.paramOffset, v.paramLength)).eraseDups

def apart (a b : Nat × Nat) : Bool := !overlap a.1 a.2 b.1 b.2

/-- No two regions of a list overlap. -/
def allApart : List (Nat × Nat) → Bool
  | [] => true
  | a :: r => r.all (apart a) && allApart r

def Segment.layoutOk (g : Segment) (s : State) (mask variants : Nat) : Bool :=
  (g.type == 1 || g.type == 2 || g.type == 3 || g.type == 4)
    && (if g.type = 2 then g.stationRef.isSome && decide (g.variant < variants) && g.length % 16 == 0
        else g.station == 15)
    && g.offset % 64 == 0 && (g.length != 0 || g.type == 4)
    && (if g.type = 3 then s.destOk mask g.dest g.length else g.dest == 0)

/-- The place that a stream serves: two streams may not agree in it. -/
def Segment.streamKey (g : Segment) : Nat :=
  g.station + 16 * (g.plate + 2 * (g.cluster + 64 * (g.lengine + 8 * (g.inst + 8 * g.variant))))

def Image.layoutReasons (m : Image) (s : State) : List Nat :=
  let size := m.header.imageSize
  let streams := (m.segments.filter fun g => g.type == 2).map Segment.streamKey
  failing [
    (m.header.tableOffset % 64 == 0 && m.segments.length == m.header.segCount
      && m.regions.all (fun r => decide (r.1 + r.2 ≤ size))
      && (m.segments.filter fun g => g.type == 1).length == 1
      && streams.eraseDups.length == streams.length
      && m.segments.all (fun g => g.layoutOk s m.header.plateMask m.program.variantCount)
      && m.program.variants.all (fun v => if v.paramOffset = 0 then v.paramLength == 0
          else v.paramOffset % 64 == 0 && decide (v.paramOffset + v.paramLength ≤ size))
      && allApart (m.regions ++ m.blocks), 10)]

/-! ### Streams (reasons 11 to 13) -/

/-- (STROKE, ISSUE_CYCLE) strictly rises. -/
def ordered : List CmdWord → Bool
  | a :: b :: r =>
    (decide ((wordIssue a).stroke.toNat * 2 ^ 22 + (wordIssue a).cycle.toNat
      < (wordIssue b).stroke.toNat * 2 ^ 22 + (wordIssue b).cycle.toNat)) && ordered (b :: r)
  | _ => true

/-- The descriptor that a command names: its station, space, byte offset and length. -/
def descriptorOf : Instr → Option (StationRef × Nat × Nat × Nat)
  | .burnish c _ a => some (.burnisher c, a.space.toNat, 8 * a.descAddr.toNat, 64)
  | .topb x _ a => some (.selector x, 2, 8 * a.descAddr.toNat, 64)
  | .setwin x _ a => if a.arm = 1 then some (.selector x, 2, 8 * a.descAddr.toNat, 32) else none
  | .sample x _ a => some (.selector x, 2, 8 * a.descAddr.toNat, 64)
  | .clear c _ a => some (.stipple c, a.space.toNat, 8 * a.descAddr.toNat, 64)
  | .copy c _ a => some (.counterproof c, a.space.toNat, 8 * a.descAddr.toNat, 64)
  | .update u _ a => some (.updateUnit u, 2, 8 * a.descAddr.toNat, 64)
  | _ => none

/-- Every descriptor lies inside the DEST copy of a constant-data segment. -/
def State.descriptorPlaced (s : State) (consts : List ConstData) (i : Instr) : Bool :=
  match descriptorOf i with
  | none => true
  | some (st, space, off, n) =>
    match s.spaceAddr st space off n with
    | some a => consts.any fun k => inside a n k.dest k.length
    | none => false

def Image.streamReasons (m : Image) (s : State) : List Nat :=
  let consts := (m.cartoon false).consts
  m.streams.flatMap fun x =>
    let strokes := match m.program.variants[x.2.1]? with | some v => v.strokesM1 | none => 1023
    let cmds := x.2.2.map (readCommand x.1)
    failing [
      (ordered x.2.2, 11),
      (x.2.2.all (fun w => decide ((wordIssue w).cycle.toNat + 504 < 5040 * m.header.quanta)
        && decide ((wordIssue w).stroke.toNat ≤ strokes)), 12),
      (cmds.all (·.isSome) && cmds.all (fun c => match c with
        | some i => s.descriptorPlaced consts i | none => true), 13)]

/-! ### Update-parameter blocks (R219, reason 13) -/

def finiteNonNeg (w : Word) : Bool := isFinite w && !fgt 0 w

/-- Whether one hyper-parameter set keeps R217. -/
def setOk (x : Nat) : Bool :=
  let w := fun i => BitVec.ofNat 32 (field x (32 * i) 32)
  let unit := fun (v : Word) => finiteNonNeg v && fgt oneF v
  isFinite (w 0) && unit (w 1) && unit (w 2) && finiteNonNeg (w 3) && finiteNonNeg (w 4)
    && (field x 256 32 == 0 || decide (8 * field x 192 36 + 16 * field x 256 32 ≤ hbmSize))

def blockOk (b : List Byte) : Bool :=
  decide (1 ≤ setCount b) && decide (setCount b ≤ 8) && b.length == 64 * (1 + setCount b)
    && (chunks 64 (b.drop 64)).all fun x => setOk (ofLe x)

/-- Whether a variant's streams carry an opcode of the update units. -/
def Image.carries (m : Image) (v opcode : Nat) : Bool :=
  m.streams.any fun x => x.2.1 == v && (match x.1 with | .updateUnit _ => true | _ => false)
    && x.2.2.any fun w => (wordOpcode w).toNat == opcode

def Image.blockReasons (m : Image) : List Nat :=
  (m.program.variants.zipIdx.flatMap fun p =>
    let b := m.block p.1
    let none_ := p.1.paramOffset == 0
    failing [
      (none_ || blockOk b, 13),
      (!(none_ && (m.carries p.2 1 || m.carries p.2 2)), 13),
      (!m.carries p.2 2 || (isFinite (maxNorm b) && fgt (maxNorm b) 0), 13)])

/-! ### The step program (reason 15) -/

def Image.programReasons (m : Image) : List Nat :=
  let p := m.program
  let e := m.header.maskEpoch
  failing [
    (decide (1 ≤ p.variantCount) && decide (p.variantCount ≤ 8) && decide (p.ruleCount ≤ 8)
      && p.length == 64 + 64 * p.variantCount + 16 * p.ruleCount
      && p.variants.all (fun v => decide (v.seedSel < 2))
      && p.rules.all (fun r => r.period != 0 && decide (r.phase < r.period) && decide (r.variant < p.variantCount))
      && (e == 0 || (decide (16 ≤ e) && decide (e ≤ 65536)))
      && (e != 0 || p.variants.all (fun v => !bitAt v.flags 1)), 15)]

/-! ### The commands' own checks (reasons 13, 14 and 16)

What a station refuses of a command depends on its fields, on the descriptor it names, and on the commands of the
stroke before it. The check runs every variant's commands in the order of their cycles over a device that holds
nothing but the image's constant data, and collects what the stations refuse, what the timing model refuses of
each stroke, and what is refused of the step. -/

/-- One station command. -/
def stationExec (i : Instr) (s : State) : Out :=
  match i with
  | .loadA e i a => execLoadA e i a s
  | .loadW e i a => execLoadW e i a s
  | .loadMeta e i a => execLoadMeta e i a s
  | .loadS e i a => execLoadS e i a s
  | .loadDiag e i a => execLoadDiag e i a s
  | .pass e i a => execPass e i a s
  | .swap e i => execSwap e i s
  | .drain e i a => execDrain e i a s
  | .param e i a => execParam e i a s
  | .write e i a => execWrite e i a s
  | .markWait st i a => execMarkWait st i a s
  | .markSignal st i a => execMarkSignal st i a s
  | .markRemote st i a => execMarkRemote st i a s
  | .burnish c i a => execBurnish c i a s
  | .topb x i a => execTopb x i a s
  | .setwin x i a => execSetwin x i a s
  | .sample x i a => execSample x i a s
  | .clear c i a => execClear c i a s
  | .accum c i a => execAccum c i a s
  | .gather c i a => execGather c i a s
  | .fold c i a => execFold c i a s
  | .copy c i a => execCopy c i a s
  | .update u i a => execUpdate u i a s
  | .norm u i a => execNorm u i a s
  | .send r i a => execSend r i a s
  | .recv r i a => execRecv r i a s
  | .fxexp r i a => execFxexp r i a s
  | .fxset r i a => execFxset r i a s
  | .fxadd r i a => execFxadd r i a s
  | .fxout r i a => execFxout r i a s
  | _ => .next s

/-- The commands of a variant in the order in which they issue. -/
def Image.plan (m : Image) (v : Nat) : List Planned :=
  sorted (fun p => p.stroke * 2 ^ 22 + p.cycle)
    ((m.streams.filter fun x => x.2.1 == v).flatMap fun x => x.2.2.filterMap fun w =>
      (readCommand x.1 w).map fun c => ⟨(wordIssue w).stroke.toNat, (wordIssue w).cycle.toNat, c⟩)

/-- The reason of what a station refuses. -/
def reasonOf : Out → Option Nat
  | .next _ => none
  | .fault _ => some 13
  | .refused (.loadCheck n) => some n
  | .refused _ => none

/-- What a command does, whether or not its station would refuse it. -/
def stationEffect (i : Instr) (s : State) : State :=
  match i with
  | .loadA e i a => loadEffect e i.cycle.toNat .a a s
  | .loadW e i a => loadWEffect e i.cycle.toNat a s
  | .loadMeta e i a => loadMetaEffect e i.cycle.toNat a s
  | .loadS e i a => loadEffect e i.cycle.toNat .s a s
  | .loadDiag e i a => loadEffect e i.cycle.toNat .diag a s
  | .pass e i a => passEffect e i.cycle.toNat a s
  | .swap e i => swapEffect e i.cycle.toNat s
  | .drain e i a => drainEffect e i.cycle.toNat a s
  | .param e i a => paramEffect e i.cycle.toNat a s
  | .write e i a => writeEffect e i.cycle.toNat a s
  | .topb x i a => topbEffect x i.cycle.toNat a s
  | .setwin x i a => setwinEffect x i.cycle.toNat a s
  | .clear c i a => clearEffect c i.cycle.toNat a s
  | .norm u i a => normEffect u i.cycle.toNat a s
  | _ => s

/-- The commands of one stroke: the reasons so far, and the state after them. A command refused for its time alone
still does what later commands build on. -/
def tryCommands (l : List Planned) (z : List Nat × State) : List Nat × State :=
  l.foldl (fun z p =>
    let o := stationExec p.cmd z.2
    match o with
    | .next s => (z.1, s)
    | _ =>
      match reasonOf o with
      | some n => (n :: z.1, if n = 13 then z.2 else stationEffect p.cmd z.2)
      | none => z) z

/-- What the tail of a stroke does to what later commands are checked against: buffers flip, and a NORM over the
group completes in its stroke (R231). -/
def tryTail (s : State) : State :=
  let s := s.flipLinks
  let s := match s.norm with
    | some j =>
      if j.stage = 2 ∨ (j.stage = 1 ∧ j.mode = 0) then
        { s with norm := some { j with stage := 3 }, clip := { s.clip with validFrom := some 0 } }
      else if j.stage = 1 then { s with norm := some { j with stage := 2 } }
      else s
    | none => s
  { s with seq := { s.seq with phase := .strokeDue, strokeInStep := s.seq.strokeInStep + 1, faults := [] },
           opened := [], tailEvents := [], markUpdates := [] }

/-- The device over which a variant's commands are tried. -/
def State.bare (s : State) (c : Cartoon) (v : Nat) (m : Memory) : State :=
  { s with
    mem := m, engines := [], picks := [], windows := [], stipples := [], busy := [], nextIssue := [],
    taken := [], clock := 0, works := [], writes := [], deferred := [],
    partials := [], charges := [], norm := none, clip := ⟨oneF, false, none⟩, segE := [], segMax := [],
    markUpdates := [], links := [], recvs := [], opened := [], tailEvents := [],
    seq := { Seq.reset with
      cartoon := some { c with streams := [], consts := [] }, variant := v, phase := .strokeDue, state := .running,
      trial := true } }

/-- The strokes of a variant from stroke `k` on: what is found, and the state after the last. -/
def tryStrokes (plan : List Planned) (ds : List UpdateDesc) (arms : List (Nat × Nat × Nat × WinDesc)) (mem : Memory) :
    Nat → Nat → StrokeFound × State → StrokeFound × State
  | 0, _, z => z
  | f + 1, k, z =>
    let y := tryCommands (plan.filter fun p => p.stroke == k) (z.1.bad, strokeStartEffect z.2)
    let t := y.2.reachTail
    let r := strokeReasons { t with mem := mem } plan ds arms k
    tryStrokes plan ds arms mem f (k + 1) (⟨r.bad ++ y.1, z.1.uses ++ r.uses, z.1.late ++ r.late⟩, tryTail t)

/-- What a load check comes to: reasons, and the accesses that are served late. -/
structure Checked where
  bad : List Nat
  late : List Deferral
  deriving DecidableEq, Repr

/-- One variant: an operation of a Stipple ends within it (R172). -/
def tryVariant (s : State) (plan : List Planned) (ds : List UpdateDesc) (arms : List (Nat × Nat × Nat × WinDesc))
    (left : List (Nat × WinDesc)) (strokes : Nat) : Checked :=
  let z := tryStrokes plan ds arms s.mem strokes 0 (⟨[], [], []⟩, s)
  ⟨z.1.bad ++ stepReasons s ds left plan ++ foundBad [
    (z.2.stipples.all (fun p => !p.2.open_), 13),
    (usesApart (sorted (fun u => 2 * u.time + boolNat (!u.write)) z.1.uses) [], 16)], z.1.late⟩

/-- The image's constant data, segment by segment: where it goes, and its bytes. -/
def Image.constData (m : Image) : List (Nat × List Byte) :=
  (m.segments.filter fun g => g.type == 3).map fun g => (g.dest, (m.bytes.drop g.offset).take g.length)

/-- The image's constant data at its places in a memory that holds nothing else. -/
def Image.constants (m : Image) (mem : Memory) : Memory := m.constData.foldl (fun mem x => mem.put x.1 x.2) mem

def noMemory : Memory := ⟨[], [], [], [], []⟩

def Image.tryAll (m : Image) (s : State) : Checked :=
  let c := m.cartoon false
  let mem := m.constants noMemory
  let plans := m.program.variants.zipIdx.map fun p => (p.2, p.1.strokesM1 + 1, m.plan p.2)
  let whole := plans.flatMap fun p => p.2.2
  let base := s.bare c 0 mem
  let ds := updateDescs base whole
  let arms := armings base base.cycles whole
  let left := plans.flatMap fun p => windowsLeft base base.cycles p.2.2
  let l := plans.map fun p => tryVariant (s.bare c p.1 mem) p.2.2 ds arms left p.2.1
  ⟨l.flatMap (·.bad), l.flatMap (·.late)⟩

/-! ### The load check (R53) -/

/-- The times of a stream's commands on the count of its step. -/
def streamTimes (c : Nat) (l : List CmdWord) : List Nat :=
  l.map fun w => (wordIssue w).stroke.toNat * c + (wordIssue w).cycle.toNat

/-- A buffer holds 64 commands (R50): the one that comes 64 places after another finds its place when that one has
issued, 256 cycles before its own issue at the latest. -/
def bufferKeepsUp (ts : List Nat) : Bool := (ts.zip (ts.drop 64)).all fun p => decide (p.1 + 256 ≤ p.2)

/-- Command-reader cycles of a stack among the first `t` of a stroke (R51, R188). -/
def readerCycles (stack t : Nat) : Nat :=
  ((List.range (t / 32)).filter fun i => !inRefresh stack (32 * i + 31)).length

/-- Words that the command readers of a plate can read in the first `t` cycles of a step. -/
def readerWords (plate c t : Nat) : Nat :=
  stackBudget * sumNat ((List.range 5).map fun i =>
    t / c * readerCycles (5 * plate + i) c + readerCycles (5 * plate + i) (t % c))

/-- The readers of a plate can have read what must be in its buffers: of each stream all but the first 64 commands, which
may have come before the step, each two words, 256 cycles before it issues. `ts` ascends. -/
def readersKeepUp (plate c : Nat) (ts : List Nat) : Bool :=
  ts.zipIdx.all fun p => decide (2 * (p.2 + 1) ≤ readerWords plate c (p.1 - 256))

/-- What the delivery of R51 needs of an image however the device spreads its streams over the stacks. Log entry 12. -/
def Image.deliveryPossible (m : Image) : Bool :=
  let c := 5040 * m.header.quanta
  m.streams.all (fun x => bufferKeepsUp (streamTimes c x.2.2))
    && (List.range m.program.variantCount).all fun v => (List.range 2).all fun p =>
      readersKeepUp p c (sorted (fun n => n)
        ((m.streams.filter fun x => x.2.1 == v && (stationPlate x.1).val == p).flatMap fun x =>
          (streamTimes c x.2.2).drop 64))

/-- Reasons that need no run of the commands. -/
def Image.formReasons (m : Image) (s : State) (delivery : Bool) : List Nat :=
  m.headerReasons s ++ m.rsvdReasons ++ m.layoutReasons s ++ m.streamReasons s ++ m.blockReasons
    ++ m.programReasons ++ failing [(delivery && m.deliveryPossible, 17), (s.seq.state == .idle || s.seq.state == .loaded, 18)]

/-- Every reason for which the check fails. The commands are run only when the image's form is right; a form that is
wrong before reason 13 decides the reason without them. -/
def Image.check (m : Image) (s : State) (delivery : Bool) : Checked :=
  let l := m.formReasons s delivery
  if l.any (fun n => decide (n ≤ 13)) then ⟨l, []⟩
  else
    let c := m.tryAll s
    ⟨c.bad ++ l, c.late⟩

/-- The lowest of some reasons. -/
def lowest (l : List Nat) : Option Nat := l.foldl (fun a n => some (match a with | some x => min x n | none => n)) none

/-- The half of a region that an image is copied to: the one that the held cartoon does not occupy. -/
def State.freeHalf (s : State) : Bool := match s.seq.cartoon with | some c => !c.half | none => false

/-- The copies of the image in the cartoon regions. -/
def State.copyImage (s : State) (img : List Byte) (half : Bool) : State :=
  s.offered.foldl (fun s p =>
    s.placeBytes noReader (s.cartBase p + (if half then s.cartSize p / 2 else 0)) img) s

/-- The check passes: constant data goes to its places, and the image is the held cartoon. -/
def State.acceptImage (s : State) (m : Image) (half : Bool) (late : List Deferral) : State :=
  let s := m.constData.foldl (fun s x => s.placeBytes noReader x.1 x.2) s
  let s := { s with
    seq := { s.seq with cartoon := some { m.cartoon half with deferred := late }, state := .loaded, loose := false },
    regs := { s.regs with loadBusy := false, loadStatus := 2 } }
  (s.emit srcSeq 0x0108 [(384, m.header.digest)]).sendReadyGates

def State.refuseImage (s : State) (reason : Nat) : State :=
  { s with regs := { s.regs with loadBusy := false, loadStatus := 3, loadReason := BitVec.ofNat 5 reason } }.emit
    srcSeq 0x0101 [f8 reason]

def loadCheckEffect (delivery : Bool) (s : State) : State :=
  let img := s.hostRead s.regs.loadFrom.toNat s.regs.loadBytes.toNat
  let half := s.freeHalf
  let s := s.copyImage img half
  let m := readImage img
  let k := m.check s delivery
  match lowest k.bad with
  | none => s.acceptImage m half k.late
  | some n => s.refuseImage n

/-- LOAD_CHECK: the copy has completed. The operand says whether the way in which the device spreads the streams over the
stacks, which the spec leaves to it, meets R51; what R51 asks of the image in any case is computed from the image. Log
entry 12. -/
def execLoadCheck (deliveryMet : Bool) (s : State) : Out :=
  if s.regs.loadBusy then .next (loadCheckEffect deliveryMet s) else .next s

end Sys2Proof.Machine
end

