-- ==== Sys2Proof/Machine/Ports.lean ====
section
/-! DEFINITION. Lanes, ports and the Seam (R252, R274–R278, R297, R298, R413). -/

namespace Sys2Proof.Machine

/-! ### Lanes (R274, R413) -/

/-- The two directions of a port, as records name them: 0 transmit, 1 receive. -/
def Port.dir (p : Port) (receive : Bool) : LaneDir := if receive then p.rx else p.tx
def Port.setDir (p : Port) (receive : Bool) (d : LaneDir) : Port := if receive then { p with rx := d } else { p with tx := d }

def laneLossEffect (k : Nat) (lane : Fin 8) (s : State) : State :=
  let p := s.port k
  if p.rx.spare.isNone then s.portTo k .failed
  else s.setPort k { p with rx := { p.rx with request := some (lane, true), acked := none } }

/-- LANE_LOSS_OF_LOCK: the receiving port asks urgently for the spare; without one the port fails. -/
def execLaneLossOfLock (port : Fin 16) (lane : Fin 8) (s : State) : Out :=
  if (s.port port.val).live then .next (laneLossEffect port.val lane s) else .next s

/-- The spare takes the place of an active lane, which carries PRBS31 from then on. -/
def LaneDir.swap (d : LaneDir) (lane : Fin 8) : LaneDir :=
  match d.spare with
  | some sp =>
    { d with active := setNth d.active lane.val sp, spare := none, probation := d.active[lane.val]?, request := none,
             acked := none, prbsErrors := 0 }
  | none => d

/-- The count at which a swap that SPARE_ACK has answered in frame `n` takes effect: an urgent one with the frame after
that one; a planned one at once outside a stroke, and in a stroke with the first frame that starts at a multiple of 100
and at least 50 ns into its tail. -/
def State.swapAt (s : State) (urgent : Bool) (n : Nat) : Nat :=
  if urgent then 5 * (n + 1)
  else if s.seq.phase = .inStroke then roundUp (s.countAt s.tailStart + 50) 100
  else 0

/-- Whether a swap that has been asked for and answered takes effect. -/
def State.swapDue (s : State) (d : LaneDir) (lane : Fin 8) : Bool :=
  d.spare.isSome && (match d.request, d.acked with
    | some (l, urgent), some n => l == lane && decide (s.swapAt urgent n ≤ s.boardTime.toNat)
    | _, _ => false)

/-- Event 0x0304 names the lane that is replaced by its number, 0 to 8 (R4). -/
def laneSwapEffect (k : Nat) (receive : Bool) (lane : Fin 8) (s : State) : State :=
  let p := s.port k
  let d := p.dir receive
  let p' := { p.setDir receive (d.swap lane) with laneSwaps := satInc p.laneSwaps }
  (s.setPort k p').emit (srcPort k) 0x0304 [f16 k, f8 (boolNat receive),
    f32 (match d.active[lane.val]? with | some f => f.val | none => lane.val)]

/-- LANE_SWAP. -/
def execLaneSwap (port : Fin 16) (receive : Bool) (lane : Fin 8) (s : State) : Out :=
  if s.swapDue ((s.port port.val).dir receive) lane then .next (laneSwapEffect port.val receive lane s)
  else .next s

/-- A replaced lane whose errors have stayed under the threshold for 1 s is the spare; a lane whose errors have not is
counted anew. Log entry 36. -/
def LaneDir.restore (d : LaneDir) (threshold : Nat) : LaneDir :=
  match d.probation with
  | some l =>
    if d.prbsErrors < threshold then { d with spare := some l, probation := none, prbsErrors := 0 }
    else { d with prbsErrors := 0 }
  | none => d

/-- SPARE_LANE_RESTORE: 1 s has passed. -/
def execSpareLaneRestore (port : Fin 16) (receive : Bool) (s : State) : Out :=
  let p := s.port port.val
  .next (s.setPort port.val (p.setDir receive ((p.dir receive).restore s.edition.laneThresh.toNat)))

/-- The first lane whose corrected symbols exceed the edition's threshold. -/
def State.worstLane (s : State) (corrected : List Nat) : Option (Fin 8) :=
  (List.finRange 8).find? fun l => decide (s.edition.laneThresh.toNat < nth 0 corrected l.val)

/-- The window closes with what the frames of FRAME and those beside them have counted. -/
def LaneDir.closeWindow (d : LaneDir) (prbs : Nat) : LaneDir :=
  { d with corrected := [], prbsErrors := d.prbsErrors + prbs }

def laneWindowEffect (k : Nat) (corrected : List Nat) (prbs : Nat) (s : State) : State :=
  let p := s.port k
  let d := p.rx.closeWindow prbs
  if p.live && d.spare.isSome && d.request.isNone then
    match s.worstLane (addLanes p.rx.corrected corrected) with
    | some l => (s.setPort k { p with rx := { d with request := some (l, false), acked := none } }).decide_ 0x0508 []
    | none => s.setPort k { p with rx := d }
  else s.setPort k { p with rx := d }

/-- LANE_WINDOW: one request at a time, and none while the direction has no spare. -/
def execLaneWindow (port : Fin 16) (corrected : List Nat) (prbs : Nat) (s : State) : Out :=
  .next (laneWindowEffect port.val corrected prbs s)

/-! ### Port states (R252, R275, R276, R298) -/

def portOffset (k : Nat) : Nat := 0x4000 + 8 * k

/-- A port that may train: its edition gives it a use, and its plate is not held in reset. -/
def State.trainable (s : State) (k : Nat) : Bool :=
  ((s.lane k).use == 1 || (s.lane k).use == 2) && s.plateOffered (k / 8)

def portEnableEffect (k : Nat) (s : State) : State :=
  let p := s.port k
  match p.state with
  | .off => if s.trainable k then s.portTo k .training else s
  | .failed => if s.trainable k then s.portTo k .training else s
  | .training => s
  | .up => s
  | .draining => s.setPort k { p with pending := true }

def execPortEnable (port : Fin 16) (s : State) : Out := hostWr (portEnableEffect port.val) s

/-- A port that the lane map wires to a role of the group: the slot behind it, or for a loopback the device's own,
holds one. -/
def State.groupPort (s : State) (k : Nat) : Bool :=
  ((s.lane k).use == 1 || (s.lane k).use == 2) && (mapRole s.regs.roleMap (s.lane k).peerSlot.toNat).isSome

def portDisableEffect (k : Nat) (s : State) : State :=
  let p := s.port k
  if s.busyRun && s.groupPort k then s.refuse (portOffset k)
  else
    match p.state with
    | .off => s
    | .training => s.portTo k .off
    | .up => s.portTo k .draining
    | .draining => s.setPort k { p with pending := false }
    | .failed => s.portTo k .off

def execPortDisable (port : Fin 16) (s : State) : Out := hostWr (portDisableEffect port.val) s

/-- Whether the peer of a port is the one that the lane map names, with the role that the role map gives its slot. -/
def State.peerMatches (s : State) (k : Nat) (q : PeerId) : Bool :=
  let l := s.lane k
  let slot := if l.use = 2 then s.boot.boardSlot else l.peerSlot
  q.slot == slot && q.port == l.peerPort
    && decide ((q.role.map (·.toNat)) = mapRole s.regs.roleMap slot.toNat)

def portTrainedEffect (k : Fin 16) (q : PeerId) (s : State) : State :=
  if s.peerMatches k.val q then (s.setLink (.kazin k) .empty).portTo k.val .up
  else (s.emit (srcPort k.val) 0x0307 [f16 k.val, f8 1]).portTo k.val .failed

/-- PORT_TRAINED: the peer check, and control flits are numbered from here on. -/
def execPortTrained (port : Fin 16) (peer : PeerId) (s : State) : Out :=
  if (s.port port.val).state = .training then .next (portTrainedEffect port peer s) else .next s

/-- PORT_TRAINING_TIMEOUT. -/
def execPortTrainingTimeout (port : Fin 16) (s : State) : Out :=
  if (s.port port.val).state = .training then .next (s.portTo port.val .failed) else .next s

def portDrainEndEffect (k : Fin 16) (s : State) : State :=
  let x := s.link (.kazin k)
  let p := s.port k.val
  let n := x.txUnacked.length + x.txCtrlUnacked.length
  let s := s.setLink (.kazin k) { x with
    txUnacked := [], txCtrlUnacked := [], sendQueue := [], ctrlQueue := [], replayQueue := [] }
  s.movePort k.val { p with pending := false, drainDiscards := satAdd p.drainDiscards n }
    (if p.pending then .training else .off)

/-- PORT_DRAIN_END: flits that are still unacknowledged are discarded and counted. -/
def execPortDrainEnd (port : Fin 16) (s : State) : Out :=
  if (s.port port.val).state = .draining then .next (portDrainEndEffect port s) else .next s

/-! ### The Seam (R278, R297, R298) -/

def State.lockSeam (s : State) (ch : Nat) (locked : Bool) : State :=
  { s with seam := smapMod .up s.seam ch (fun c => { c with locked := locked }) }

/-- The Seam fault of a channel: in or before a stroke, and in a check stroke of a run, it ends that stroke's step;
between steps it stops the run at once; without a run it is an event. Retraining follows, unless a plate has a fault of
its own (R297). -/
def State.seamFault (s : State) (ch : Nat) : State :=
  let fields := [f16 ch, f8 1]
  let healthy := s.mss.plateFailed == 0
  if s.seq.phase = .none ∨ (s.seq.phase = .checkDue ∧ s.seq.checkFault = true) then
    { s.emit (srcSeam ch) 0x0310 fields with seamRetraining := healthy }
  else if s.seq.phase = .stepDue then { s.raiseAsync (srcSeam ch) 0x0310 fields with seamRetraining := healthy }
  else { s.raiseAsync (srcSeam ch) 0x0310 fields with seq.seamFailed := true }

/-- SEAM_LOSS_OF_LOCK, on a device that offers both plates. -/
def execSeamLossOfLock (_plate : Fin 2) (channel : Fin 48) (s : State) : Out :=
  if s.boot.plates ≠ 3 then .next s
  else
    let t := s.lockSeam channel.val false
    if s.seamRetraining then .next t else .next (t.seamFault channel.val)

/-- Every Seam link as it comes out of training. -/
def State.freshSeam (s : State) : State :=
  seamLinks.foldl (fun s l => s.setLink l .empty) s

def seamRetrainedEffect (s : State) : State :=
  let s := { s with seamRetraining := false, seam := smapMap .up (fun c => { c with locked := true }) s.seam }.freshSeam
  s.emit srcMss 0x0311 [s.slotField]

/-- SEAM_RETRAINED: the device offers full editions again. -/
def execSeamRetrained (s : State) : Out :=
  if s.seamRetraining then .next (seamRetrainedEffect s) else .next s

/-- A device that has lost a plate meanwhile is half a device already. -/
def seamRetrainTimeoutEffect (s : State) : State :=
  let t := { s with seamRetraining := false }.emit srcMss 0x0312 [s.slotField]
  if s.boot.plates = 3 then t.holdPlate (1 - s.edition.fallbackPlate.toNat) else t

/-- SEAM_RETRAIN_TIMEOUT: half-device mode, on the edition's fallback plate. -/
def execSeamRetrainTimeout (s : State) : Out :=
  if s.seamRetraining then .next (seamRetrainTimeoutEffect s) else .next s

end Sys2Proof.Machine
end

