-- ==== Sys2Proof/Machine/Registers.lean ====
section
/-! DEFINITION. The registers of BAR0 as the host writes them (R348–R373): each word's own rules, and REGISTER_WRITE,
which finds the word at an offset; and the Function Level Reset (R345, R380). -/

namespace Sys2Proof.Machine

/-! ### Mark watches (R338, R362, R363) -/

def watchOffset (w word : Nat) : Nat := 0x19_0000 + 32 * w + 8 * word

def State.watch (s : State) (w : Nat) : Watch := smapGet .reset s.watches w
def State.setWatch (s : State) (w : Nat) (x : Watch) : State := { s with watches := smapPut .reset s.watches w x }

/-- A watch is armed, and fires at once when its condition holds already. -/
def State.armWatch (s : State) (w : Nat) (x : Watch) : State :=
  if watchHolds { x with armed := true } x.mark.toNat (s.markNow x.mark.toNat) then
    (s.setWatch w { x with armed := false, hit := true }).signal x.vector.toNat
  else s.setWatch w { x with armed := true }

/-- The fields of a watch after a write of its first word: HIT clears on a 1. -/
def Watch.fields (x : Watch) (v : Nat) : Watch :=
  { x with mark := BitVec.ofNat 12 v, cmp := BitVec.ofNat 2 (v >>> 12), vector := BitVec.ofNat 11 (v >>> 14),
           hit := x.hit && !bitAt v 34 }

def Watch.sameFields (x y : Watch) : Bool := x.mark == y.mark && x.cmp == y.cmp && x.vector == y.vector

/-- A write of a watch's first word: its fields, then DISARM or ARMED, then the test. -/
def watchWordEffect (w : Nat) (v : DWord) (s : State) : State :=
  let x := s.watch w
  let y := x.fields v.toNat
  let arm := bitAt v.toNat 32
  let disarm := bitAt v.toNat 33
  if (arm && disarm) || y.cmp == 3 || (x.armed && !x.sameFields y) then s.refuse (watchOffset w 0)
  else if disarm then s.setWatch w { y with armed := false }
  else if arm then s.armWatch w y
  else s.setWatch w y

def watchValueEffect (w : Nat) (v : DWord) (s : State) : State :=
  let x := s.watch w
  if x.armed && x.value != v then s.refuse (watchOffset w 1) else s.setWatch w { x with value := v }

/-- WATCH_ARM: a write of the watch's word with ARMED set. -/
def execWatchArm (watch : BitVec 8) (value : DWord) (s : State) : Out :=
  hostWr (watchWordEffect watch.toNat (value ||| 0x1_0000_0000#64)) s

/-- WATCH_DISARM: a write of the watch's word with DISARM set. -/
def execWatchDisarm (watch : BitVec 8) (value : DWord) (s : State) : Out :=
  hostWr (watchWordEffect watch.toNat (value ||| 0x2_0000_0000#64)) s

/-! ### Named rings, the aperture, the gear floor (R355, R358, R359) -/

def namedRingsEffect (v : DWord) (s : State) : State :=
  if s.quiet then
    { s with regs := { s.regs with
        completionRing := BitVec.ofNat 12 v.toNat, eventRing := BitVec.ofNat 12 (v.toNat >>> 16),
        proofRing := BitVec.ofNat 12 (v.toNat >>> 32), seedRing := BitVec.ofNat 12 (v.toNat >>> 48),
        seedReplay := bitAt v.toNat 63 } }
  else s.refuse 0x3030

/-- NAMED_RINGS. -/
def execNamedRings (value : DWord) (s : State) : Out := hostWr (namedRingsEffect value) s

def bar2ApertureEffect (v : DWord) (s : State) : State :=
  if field v.toNat 0 3 > 4 then s.refuse 0x3038
  else { s with regs := { s.regs with bar2Aperture := BitVec.ofNat 3 v.toNat } }

/-- BAR2_APERTURE. -/
def execBar2Aperture (value : DWord) (s : State) : Out := hostWr (bar2ApertureEffect value) s

def gearFloorEffect (v : DWord) (s : State) : State :=
  if field v.toNat 0 2 > s.edition.gearSlow.toNat then s.refuse 0x1030
  else { s with regs := { s.regs with gearFloor := BitVec.ofNat 2 v.toNat } }.requestGear causeFloor

/-- GEAR_FLOOR. -/
def execGearFloor (value : DWord) (s : State) : Out := hostWr (gearFloorEffect value) s

/-! ### Generator counters and gauges (R365, R367) -/

def laneOffset (i : Nat) : Nat := 0x1B_0000 + 8 * i

/-- A lane of an engine in a cluster whose gate is not ON. -/
def State.laneGated (s : State) (i : Nat) : Bool :=
  decide (i < 2304) && (smapGet Gate.reset s.gates (i / 32)).state != .on

def generatorCounterEffect (i : Nat) (v : DWord) (s : State) : State :=
  if !s.quiet || s.laneGated i then s.refuse (laneOffset i)
  else { s with lanes := smapPut 0 s.lanes i v }

/-- GENERATOR_COUNTER_WRITE. -/
def execGeneratorCounterWrite (index : Fin 2320) (value : DWord) (s : State) : Out :=
  hostWr (generatorCounterEffect index.val value) s

def gaugeOffset (g : Nat) : Nat := 0x1_0000 + 16 * g

def gaugeSettingEffect (g : Nat) (v : DWord) (s : State) : State :=
  let m := BitVec.ofNat 32 v.toNat
  if !s.quiet || bitAt v.toNat 31 || isNan m then s.refuse (gaugeOffset g)
  else { s with gauges := smapPut .reset s.gauges g ⟨m, BitVec.ofNat 16 (v.toNat >>> 32)⟩ }

/-- GAUGE_SETTING_WRITE. -/
def execGaugeSettingWrite (index : BitVec 8) (value : DWord) (s : State) : Out :=
  hostWr (gaugeSettingEffect index.toNat value) s

/-! ### REFUSED (R354, R356) -/

def refusedClearEffect (v : DWord) (s : State) : State :=
  if bitAt v.toNat 0 then { s with regs := { s.regs with refused := false } } else s

/-- REFUSED_CLEAR. -/
def execRefusedClear (value : DWord) (s : State) : Out := hostWr (refusedClearEffect value) s

/-! ### The registers that have no command of their own -/

def gateAlarmWord (v : DWord) (s : State) : State := { s with regs := { s.regs with gateAlarm := v } }
def syncLoadWord (v : DWord) (s : State) : State := { s with regs := { s.regs with syncLoad := v } }

/-- BASE_STEP: writable only in IDLE and LOADED. -/
def baseStepWord (v : DWord) (s : State) : State :=
  if s.seq.state = .idle ∨ s.seq.state = .loaded then { s with regs := { s.regs with baseStep := v } }
  else s.refuse 0x2020

def nextMapWord (v : DWord) (s : State) : State :=
  { s with regs := { s.regs with nextMap := BitVec.ofNat 32 v.toNat, nextEpoch := BitVec.ofNat 16 (v.toNat >>> 32) } }

def remoteValueWord (v : DWord) (s : State) : State := { s with regs := { s.regs with remoteValue := v } }

/-- LOAD_ADDR: a multiple of 64. -/
def loadAddrWord (v : DWord) (s : State) : State :=
  if v.toNat % 64 = 0 then { s with regs := { s.regs with loadAddr := v } } else s.refuse 0x3000

def loadSizeWord (v : DWord) (s : State) : State := { s with regs := { s.regs with loadSize := v } }

/-- ABORT_DONE clears on a 1; the vector and its enable are written. -/
def abortDoneWord (v : DWord) (s : State) : State :=
  { s with regs := { s.regs with
      abortDone := s.regs.abortDone && !bitAt v.toNat 0, abortVector := BitVec.ofNat 11 (v.toNat >>> 8),
      abortIrqEn := bitAt v.toNat 19 } }

/-- CAP_STEP: not while a capture is armed. -/
def capStepWord (v : DWord) (s : State) : State :=
  if s.regs.capArmed then s.refuse 0x5008 else { s with regs := { s.regs with capStep := v } }

/-- An MSI-X table word (R373): a vector that is unmasked sends the message that waits for it. -/
def State.setMsix (s : State) (n : Nat) (e : MsixEntry) : State :=
  let s := { s with msix := smapPut .reset s.msix n e }
  if s.msixPending.contains n && !bitAt e.control.toNat 0 then
    { s with msixPending := s.msixPending.erase n }.signal n
  else s

def State.msixEntry (s : State) (n : Nat) : MsixEntry := smapGet .reset s.msix n

/-- DWORD `d` of an MSI-X entry. Bits [31:1] of Vector Control are kept as written: the spec lists them nowhere. Log
entry 13. -/
def msixDwordEffect (n d : Nat) (v : Word) (s : State) : State :=
  let e := s.msixEntry n
  match d with
  | 0 => s.setMsix n { e with address := e.address.extractLsb' 32 32 ++ v }
  | 1 => s.setMsix n { e with address := v ++ e.address.extractLsb' 0 32 }
  | 2 => s.setMsix n { e with data := v }
  | _ => s.setMsix n { e with control := v }

/-- A one-bit trigger. -/
def triggered (v : DWord) (f : State → State) (s : State) : State := if bitAt v.toNat 0 then f s else s

/-- ENABLE in bit 0 and DISABLE in bit 1 of a control word; both at once are refused. -/
def controlWord (offset : Nat) (v : DWord) (enable disable : State → State) (s : State) : State :=
  match bitAt v.toNat 0, bitAt v.toNat 1 with
  | true, true => s.refuse offset
  | true, false => enable s
  | false, true => disable s
  | false, false => s

/-! ### The word at an offset (R348, R349) -/

/-- The blocks at single offsets: identity, status, time, load and debug. -/
def singleWord (off : Nat) (v : DWord) (s : State) : State :=
  match off with
  | 0x1008 => refusedClearEffect v s
  | 0x1028 => gateAlarmWord v s
  | 0x1030 => gearFloorEffect v s
  | 0x1038 => triggered v faultClearEffect s
  | 0x1040 => triggered v counterClearEffect s
  | 0x2008 => syncLoadWord v s
  | 0x2010 => triggered v syncFireEffect s
  | 0x2018 => launchAtEffect v s
  | 0x2020 => baseStepWord v s
  | 0x2030 => nextMapWord v s
  | 0x2038 => triggered v roleCommitEffect s
  | 0x2040 => remoteValueWord v s
  | 0x2048 => remoteSignalEffect (v.extractLsb' 0 12) (v.extractLsb' 12 3) s
  | 0x3000 => loadAddrWord v s
  | 0x3008 => loadSizeWord v s
  | 0x3010 => triggered v loadTriggerEffect s
  | 0x3020 => triggered v abortEffect s
  | 0x3028 => abortDoneWord v s
  | 0x3030 => namedRingsEffect v s
  | 0x3038 => bar2ApertureEffect v s
  | 0x5000 => debugEnEffect v s
  | 0x5008 => capStepWord v s
  | 0x5010 => captureWordEffect v s
  | 0x5018 => winBaseEffect v s
  | _ => s

/-- Whether an offset lies in an array of `n` entries of `size` bytes at `base`. -/
def inArray (off base n size : Nat) : Bool := decide (base ≤ off) && decide (off < base + n * size)

/-- A 64-bit write of the word at an aligned offset. An offset in no listed register, and one that is RO, ignores
it. -/
def wordWrite (off : Nat) (v : DWord) (s : State) : State :=
  if inArray off 0x4000 16 8 then
    let k := (off - 0x4000) / 8
    controlWord off v (portEnableEffect k) (portDisableEffect k) s
  else if inArray off 0x4100 72 8 then
    let c := clusterAt ((off - 0x4100) / 8)
    controlWord off v (clusterEnableEffect c) (clusterDisableEffect c) s
  else if inArray off 0x1_0000 256 16 then
    if off % 16 = 0 then gaugeSettingEffect ((off - 0x1_0000) / 16) v s else s
  else if inArray off 0x4_0000 0x1_0000 1 then windowWrite (off - 0x4_0000) (leBytes 8 v.toNat) s
  else if inArray off 0x10_0000 4096 64 then
    ringContextWriteEffect ((off - 0x10_0000) / 64) ((off - 0x10_0000) % 64 / 8) v s
  else if inArray off 0x14_0000 4096 8 then doorbellEffect ((off - 0x14_0000) / 8) v s
  else if inArray off 0x14_8000 4096 8 then
    let n := (off - 0x14_8000) / 8
    controlWord off v (ringEnableEffect n) (ringDisableEffect n) s
  else if inArray off 0x18_0000 4096 8 then s.updateMark ((off - 0x18_0000) / 8) (fun _ => v)
  else if inArray off 0x18_8000 4096 8 then s.updateMark ((off - 0x18_8000) / 8) (· + v)
  else if inArray off 0x19_0000 256 32 then
    match (off - 0x19_0000) % 32 with
    | 0 => watchWordEffect ((off - 0x19_0000) / 32) v s
    | 8 => watchValueEffect ((off - 0x19_0000) / 32) v s
    | _ => s
  else if inArray off 0x1B_0000 2320 8 then generatorCounterEffect ((off - 0x1B_0000) / 8) v s
  else if inArray off 0x20_0000 2048 16 then
    let n := (off - 0x20_0000) / 16
    let d := (off - 0x20_0000) % 16 / 4
    msixDwordEffect n (d + 1) (v.extractLsb' 32 32) (msixDwordEffect n d (v.extractLsb' 0 32) s)
  else singleWord off v s

/-! ### 32-bit writes (R350) -/

/-- Registers all of whose fields lie in the low half. -/
def lowOnly (off : Nat) : Bool :=
  [0x1030, 0x1038, 0x1040, 0x2010, 0x2038, 0x2048, 0x3010, 0x3020, 0x3028, 0x3038, 0x5000].contains off
    || inArray off 0x4000 16 8 || inArray off 0x4100 72 8 || inArray off 0x14_0000 4096 8 || inArray off 0x14_8000 4096 8

def lowWord (v : DWord) : DWord := v &&& 0xFFFF_FFFF#64

/-- The two halves of one register, as one write. -/
def joinHalves (low : Word) (high : DWord) : DWord := high.extractLsb' 0 32 ++ low

/-- A 32-bit write; `held` is the half that waited when it came. A high half whose register has no low half waiting
has no effect. -/
def halfWrite (off : Nat) (v : DWord) (held : Option HeldHalf) (s : State) : State :=
  let base := off / 8 * 8
  let high := off % 8 = 4
  if inArray off 0x4_0000 0x1_0000 1 then windowWrite (off - 0x4_0000) (leBytes 4 v.toNat) s
  else if inArray off 0x20_0000 2048 16 then
    msixDwordEffect ((off - 0x20_0000) / 16) ((off - 0x20_0000) % 16 / 4) (v.extractLsb' 0 32) s
  else if inArray off 0x18_0000 8192 8 then s.refuse off
  else if lowOnly base then if high then s else wordWrite base (lowWord v) s
  else if !high then { s with regs := { s.regs with heldWrite := some ⟨BitVec.ofNat 26 base, v.extractLsb' 0 32⟩ } }
  else
    match held with
    | some h => if h.offset.toNat = base then wordWrite base (joinHalves h.value v) s else s
    | none => s

/-- A write of BAR0 that the device accepts as an access. -/
def registerWriteEffect (off bytes : Nat) (v : DWord) (s : State) : State :=
  let held := s.regs.heldWrite
  let s := { s with regs := { s.regs with heldWrite := none } }
  if bytes = 8 then wordWrite off v s else halfWrite off v held s

/-- REGISTER_WRITE: any write of BAR0. An access of another size, or not aligned, is an Unsupported Request without
effect (R321). -/
def execRegisterWrite (offset : BitVec 26) (bytes : Nat) (value : DWord) (s : State) : Out :=
  if s.hostAnswers then
    .next (if bar0Shape offset.toNat bytes then registerWriteEffect offset.toNat bytes value s else s.unsupported)
  else .next s

/-! ### FLR (R345, R380) -/

/-- A ring that a reset puts in OFF. -/
def State.ringOff (s : State) (n : Nat) : State :=
  let r := s.ring n
  ((s.setRing n { r with hostPtr := 0, devPtr := 0, pending := false, started := false }).forgetReady n).ringTo n .off

def flrEffect (s : State) : State :=
  let s := abortEffect s
  let s := s.rings.foldl (fun s p => s.ringOff p.1) s
  let s : State := { s with
    watches := smapMap .reset (fun (w : Watch) => { w with armed := false }) s.watches,
    regs := { s.regs with loadAddr := 0, loadSize := 0, loadBusy := false, loadFrom := 0, loadBytes := 0, loadStatus := 0, loadReason := 0,
                          heldWrite := none, readLatch := none } }
  if s.sec.tdi = .locked ∨ s.sec.tdi = .run then
    { s with sec := { s.sec with tdi := .error } }.emit srcMss 0x0410 []
  else s

/-- FLR. -/
def execFlr (s : State) : Out := if s.boot.phase = .ready then .next (flrEffect s) else .next s

end Sys2Proof.Machine
end

