-- ==== Sys2Proof/Machine/Readout.lean ====
section
/-! DEFINITION. What the registers of BAR0 read as (R349, R350, R352–R373). No row of the table is a register read:
these functions say what the host sees of a state. -/

namespace Sys2Proof.Machine

def runCode : RunState → Nat
  | .idle => 0 | .loaded => 1 | .armed => 2 | .running => 3 | .waiting => 4 | .faulted => 5
def portCode : PortState → Nat
  | .off => 0 | .training => 1 | .up => 2 | .draining => 3 | .failed => 4
def ringCode : RingState → Nat
  | .off => 0 | .active => 1 | .draining => 2 | .error => 3
def gateCode : GateState → Nat
  | .on => 0 | .draining => 1 | .off => 2 | .powering => 3

def laneCode (x : Option (Fin 9)) : Nat := match x with | some f => f.val | none => 15

/-! ### Identity, status, time, load (R353, R354, R357, R358) -/

def State.statusWord (s : State) : Nat :=
  runCode s.seq.state + s.regs.gearNow.toNat <<< 3 + s.regs.gearReq.toNat <<< 5 + s.boot.plates.toNat <<< 7
    + boolNat s.sec.sealed <<< 9 + boolNat s.regs.debug <<< 10 + boolNat s.timeValid <<< 11
    + boolNat s.seamRetraining <<< 12 + boolNat s.sec.scrub.isSome <<< 13 + boolNat s.regs.loadBusy <<< 14
    + boolNat s.regs.remoteBusy.isSome <<< 15 + boolNat s.mss.degraded <<< 16

def State.editionWord (s : State) : Nat :=
  s.edition.qMin.toNat + s.edition.qMax.toNat <<< 16 + boolNat s.edition.genMode <<< 32
    + s.edition.fallbackPlate.toNat <<< 33 + s.edition.gearFast.toNat <<< 34 + s.edition.gearSlow.toNat <<< 36
    + s.boot.boardSlot.toNat <<< 38

def State.roleWord (s : State) : Nat :=
  s.regs.roleMap.toNat + s.regs.roleEpoch.toNat <<< 32 + (s.role.getD 0) <<< 48 + boolNat s.role.isSome <<< 51
    + s.groupSize <<< 52

def State.digestWord (s : State) (i : Nat) : Nat :=
  match s.seq.cartoon with | some c => field c.digest.toNat (64 * i) 64 | none => 0

def State.singleRead (s : State) (off : Nat) : Nat :=
  match off with
  | 0x0000 => 0x3032_3338_2D4E_4D43
  | 0x0008 => 0x4230
  | 0x0010 => s.boot.uniqueId.toNat
  | 0x0018 => s.boot.fwVersion.toNat + s.boot.fwSlot.toNat <<< 32
  | 0x0020 => s.edition.number.toNat + s.boot.editionFloor.toNat <<< 32
  | 0x0028 => s.editionWord
  | 0x1000 => s.statusWord
  | 0x1008 => boolNat s.regs.refused + s.regs.refusedAt.toNat <<< 32
  | 0x1010 => s.seq.curStep.toNat
  | 0x1018 => s.seq.curStroke.toNat
  | 0x1020 => s.quanta + s.cycles <<< 32
  | 0x1028 => s.regs.gateAlarm.toNat
  | 0x1030 => s.regs.gearFloor.toNat
  | 0x2000 => s.boardTime.toNat
  | 0x2008 => s.regs.syncLoad.toNat
  | 0x2018 => if s.busyRun then s.seq.launchAt.toNat else 0
  | 0x2020 => s.regs.baseStep.toNat
  | 0x2028 => s.roleWord
  | 0x2030 => s.regs.nextMap.toNat + s.regs.nextEpoch.toNat <<< 32
  | 0x2040 => s.regs.remoteValue.toNat
  | 0x3000 => s.regs.loadAddr.toNat
  | 0x3008 => s.regs.loadSize.toNat
  | 0x3018 => s.regs.loadStatus.toNat + (if s.regs.loadStatus = 3 then s.regs.loadReason.toNat <<< 8 else 0)
  | 0x3028 => boolNat s.regs.abortDone + s.regs.abortVector.toNat <<< 8 + boolNat s.regs.abortIrqEn <<< 19
  | 0x3030 => s.regs.completionRing.toNat + s.regs.eventRing.toNat <<< 16 + s.regs.proofRing.toNat <<< 32
      + s.regs.seedRing.toNat <<< 48 + boolNat s.regs.seedReplay <<< 63
  | 0x3038 => s.regs.bar2Aperture.toNat
  | 0x5000 => boolNat s.regs.debug
  | 0x5008 => s.regs.capStep.toNat
  | 0x5010 => s.regs.capStroke.toNat + s.regs.capCluster.toNat <<< 10 + s.regs.capPlate.toNat <<< 16
      + s.regs.capLengine.toNat <<< 17 + boolNat s.regs.capArmed <<< 32 + boolNat s.regs.capDone <<< 34
  | 0x5018 => s.regs.winBase.toNat
  | _ => 0

/-! ### Ports, gates, the Seam (R360) -/

def State.portWord (s : State) (k : Nat) : Nat :=
  let p := s.port k
  portCode p.state <<< 2 + boolNat p.pending <<< 5 + laneCode p.tx.spare <<< 6 + laneCode p.rx.spare <<< 10
    + (s.lane k).use.toNat <<< 14

def State.seamLockWord (s : State) : Nat :=
  (List.range 48).foldl (fun a n => a + boolNat (smapGet SeamChan.up s.seam n).locked <<< n) 0

def State.gateWord (s : State) (i : Nat) : Nat :=
  let g := smapGet Gate.reset s.gates i
  gateCode g.state <<< 2 + boolNat g.pending <<< 4

/-! ### Rings, watches, lanes, gauges (R325, R362, R365, R367) -/

def State.ringContextWord (s : State) (n word : Nat) : Nat :=
  let r := s.ring n
  match word with
  | 0 => r.kind.toNat + r.log2Size.toNat <<< 3 + r.vector.toNat <<< 8 + boolNat r.irqEn <<< 19
      + r.coalCount.toNat <<< 20 + r.coalTime.toNat <<< 32 + r.depth.toNat <<< 48
  | 1 => r.base.toNat
  | 2 => r.shadow.toNat
  | 3 => r.hostPtr.toNat + r.devPtr.toNat <<< 32
  | 4 => ringCode r.state + boolNat r.pending <<< 2
  | _ => 0

def State.watchWord (s : State) (w word : Nat) : Nat :=
  let x := s.watch w
  match word with
  | 0 => x.mark.toNat + x.cmp.toNat <<< 12 + x.vector.toNat <<< 14 + boolNat x.armed <<< 32 + boolNat x.hit <<< 34
  | 1 => x.value.toNat
  | _ => 0

def State.laneWord (s : State) (i : Nat) : Nat := if s.laneGated i then 0 else (smapGet 0 s.lanes i).toNat

def State.gaugeWord (s : State) (g word : Nat) : Nat :=
  let x := smapGet Gauge.reset s.gauges g
  if word = 0 then x.maxAbs.toNat + x.maxNonfinite.toNat <<< 32 else 0

/-! ### Event counters (R366) -/

def State.engineCounter (s : State) (e i : Nat) : Nat :=
  let x := smapGet EngineCounts.zero s.counts e
  (nth 0 [x.feedBubbles, x.drainBubbles, x.saturations, x.storeWaits] i).toNat

def State.clusterCounter (s : State) (c i : Nat) : Nat :=
  let x := smapGet ClusterCounts.zero s.clusterCounts c
  (nth 0 [x.cpSaturations, x.sramCorrected] i).toNat

def State.portCounter (s : State) (k i : Nat) : Nat :=
  let p := s.port k
  (nth 0 [p.stale, p.replaySlots, p.correctedSymbols, p.uncorrectable, p.drainDiscards, p.laneSwaps] i).toNat

def State.seamCounter (s : State) (n i : Nat) : Nat :=
  let x := smapGet SeamChan.up s.seam n
  (nth 0 [x.replaySlots, x.correctedSymbols, x.uncorrectable] i).toNat

def State.stackCounter (s : State) (n i : Nat) : Nat :=
  let x := smapGet StackCounts.zero s.stackCounts n
  (nth 0 [x.corrected, x.poisonReads] i).toNat

/-! ### The capture buffer, the windows, MSI-X (R115, R371–R373) -/

def State.captureWord (s : State) (off : Nat) : Nat :=
  if s.regs.debug && s.regs.capDone then ofLe ((s.regs.capture.drop off).take 8) else 0

def State.windowWord (s : State) (off : Nat) : Nat :=
  let a := s.regs.winBase.toNat + off
  if s.windowOpen && s.windowMapped a then ofLe ((s.plainStore a 8).hostView a 8).bytes else 0

def State.msixWord (s : State) (n word : Nat) : Nat :=
  let e := s.msixEntry n
  if word = 0 then e.address.toNat else e.data.toNat + e.control.toNat <<< 32

def State.pendingWord (s : State) (i : Nat) : Nat :=
  (List.range 64).foldl (fun a b => a + boolNat (s.msixPending.contains (64 * i + b)) <<< b) 0

/-! ### Any word -/

/-- What the 64-bit word at an aligned offset reads as. -/
def State.registerRead (s : State) (off : Nat) : Nat :=
  if inArray off 0x3040 6 8 then s.digestWord ((off - 0x3040) / 8)
  else if inArray off 0x4000 16 8 then s.portWord ((off - 0x4000) / 8)
  else if off = 0x4080 then s.seamLockWord
  else if inArray off 0x4100 72 8 then s.gateWord ((off - 0x4100) / 8)
  else if inArray off 0x1_0000 256 16 then s.gaugeWord ((off - 0x1_0000) / 16) (off % 16 / 8)
  else if inArray off 0x2_0000 66560 1 then s.captureWord (off - 0x2_0000)
  else if inArray off 0x4_0000 0x1_0000 1 then s.windowWord (off - 0x4_0000)
  else if inArray off 0x10_0000 4096 64 then s.ringContextWord ((off - 0x10_0000) / 64) ((off - 0x10_0000) % 64 / 8)
  else if inArray off 0x18_0000 4096 8 then (s.markNow ((off - 0x18_0000) / 8)).toNat
  else if inArray off 0x19_0000 256 32 then s.watchWord ((off - 0x19_0000) / 32) ((off - 0x19_0000) % 32 / 8)
  else if inArray off 0x1A_0000 72 8 then remapWord (smapGet Remap.reset s.remaps ((off - 0x1A_0000) / 8))
  else if inArray off 0x1B_0000 2320 8 then s.laneWord ((off - 0x1B_0000) / 8)
  else if inArray off 0x1C_0000 576 32 then s.engineCounter ((off - 0x1C_0000) / 32) ((off - 0x1C_0000) % 32 / 8)
  else if inArray off 0x1C_8000 72 16 then s.clusterCounter ((off - 0x1C_8000) / 16) ((off - 0x1C_8000) % 16 / 8)
  else if inArray off 0x1C_9000 16 64 then s.portCounter ((off - 0x1C_9000) / 64) ((off - 0x1C_9000) % 64 / 8)
  else if inArray off 0x1C_A000 48 32 then s.seamCounter ((off - 0x1C_A000) / 32) ((off - 0x1C_A000) % 32 / 8)
  else if inArray off 0x1C_B000 10 16 then s.stackCounter ((off - 0x1C_B000) / 16) ((off - 0x1C_B000) % 16 / 8)
  else if inArray off 0x20_0000 2048 16 then s.msixWord ((off - 0x20_0000) / 16) ((off - 0x20_0000) % 16 / 8)
  else if inArray off 0x20_8000 32 8 then s.pendingWord ((off - 0x20_8000) / 8)
  else s.singleRead off

/-- A read of BAR0: 64 bits at once; or 32 bits, of which the low half latches the high one (R350). -/
def State.bar0Read (off bytes : Nat) (s : State) : State :=
  if !bar0Shape off bytes then s.unsupported
  else
    let latch := s.regs.readLatch
    let s := { s with regs := { s.regs with readLatch := none } }
    let v := s.registerRead (off / 8 * 8)
    if bytes = 8 then s.returned (leBytes 8 v) false
    else if off % 8 = 0 then
      { s with regs := { s.regs with
          readLatch := some ⟨BitVec.ofNat 26 off, BitVec.ofNat 32 (v >>> 32)⟩ } }.returned (leBytes 4 v) false
    else
      match latch with
      | some h => if h.offset.toNat + 4 = off then s.returned (leBytes 4 h.value.toNat) false
        else s.returned (leBytes 4 (v >>> 32)) false
      | none => s.returned (leBytes 4 (v >>> 32)) false

end Sys2Proof.Machine
end

