-- ==== Sys2Proof/Machine/Sensors.lean ====
section
/-! DEFINITION. Sensors, telemetry and the gear policy (R407–R412, R414, R485). -/

namespace Sys2Proof.Machine

/-! ### The sensors (R407) -/

/-- The number of a sensor: junctions as R411 numbers them, then stacks, bed-die sensors, rails and droop
detectors. -/
def sensorKey : SensorId → Nat
  | .junction p n => 32 * p.val + n.val
  | .stack n => 64 + n.val
  | .bed n => 80 + n.val
  | .rail n => 96 + n.val
  | .droop n => 128 + n.val

def State.sensor (s : State) (k : Nat) : Sensor := smapGet .reset s.mss.sensors k
def State.setSensor (s : State) (k : Nat) (x : Sensor) : State :=
  { s with mss := { s.mss with sensors := smapPut .reset s.mss.sensors k x } }

def isTemperature : SensorId → Bool
  | .junction _ _ => true | .stack _ => true | .bed _ => true | _ => false

/-- A self-test that fails, or a temperature outside −40 to 150 °C. -/
def readingFails (x : SensorId) (r : SensorReading) : Bool :=
  !r.selfTestOk || (isTemperature x && (decide (r.value < -160) || decide (r.value > 600)))

/-- A sample joins the window of R408; a sensor that fails is excluded from then on, with event 0x0507. -/
def State.takeSample (s : State) (x : SensorId) (r : SensorReading) : State :=
  let k := sensorKey x
  let old := s.sensor k
  let failed := old.failed || readingFails x r
  let s := s.setSensor k { old with
    value := r.value, current := r.current, failed := failed,
    time := if s.timeValid then s.boardTime else s.refclk, onBoardTime := s.timeValid,
    sum := old.sum + r.value, currentSum := old.currentSum + r.current, count := old.count + 1 }
  if failed && !old.failed then s.emit srcMss 0x0507 [] else s

/-! ### Critical readings (R411) -/

/-- A reading that ends the step: one report of a sensor in a stroke, and the slowest gear at once. -/
def State.critical (s : State) (code number : Nat) (value limit : Int) : State :=
  let fields := [f16 number, fTemp value, fTemp limit]
  let again := s.seq.faults.any fun f => f.code == code && f.fields == BitVec.ofNat 256 (packFields fields)
  let s := if again then s else s.raiseAsync srcMss code fields
  s.chooseGear s.edition.gearSlow.toNat causeCritical

def quarter (x : BitVec 8) : Int := 4 * x.toNat

/-! ### Refresh bands (R412) -/

def State.band (s : State) (n : Nat) : RefreshBand := smapGet .reset s.mss.bands n
def State.setBand (s : State) (n : Nat) (b : RefreshBand) : State :=
  { s with mss := { s.mss with bands := smapPut .reset s.mss.bands n b } }

def State.holdCounts (s : State) : Nat := s.edition.holdMs.toNat * 1000000

/-- A stack's band after a reading; each change writes event 0x0504. -/
def State.bandSample (s : State) (n : Nat) (v : Int) : State :=
  let b := s.band n
  if quarter s.edition.tHbmHot ≤ v then
    let t := s.setBand n ⟨true, none⟩
    if b.double then t else t.emit srcMss 0x0504 []
  else if !b.double then s
  else if v < quarter s.edition.tHbmHot - 12 then
    match b.below with
    | none => s.setBand n ⟨true, some s.boardTime⟩
    | some t =>
      if t.toNat + s.holdCounts ≤ s.boardTime.toNat then (s.setBand n .reset).emit srcMss 0x0504 []
      else s
  else s.setBand n ⟨true, none⟩

/-! ### Rails (R410, R414, R485) -/

/-- Package power, in µW, from the latest reading of every rail. -/
def State.powerNow (s : State) : Nat :=
  sumNat ((List.range 9).map fun n =>
    let x := s.sensor (96 + n)
    if x.failed then 0 else x.value.toNat * x.current)

/-- The 10 ms average of package power, in W. -/
def State.powerSample (s : State) : State :=
  let l := ((s.boardTime, s.powerNow) :: s.mss.powers).filter fun p => decide (s.boardTime.toNat ≤ p.1.toNat + 10000000)
  { s with mss := { s.mss with powers := l, packagePower := sumNat (l.map (·.2)) / l.length / 1000000 } }

/-- The 10 ms average of package power is above `n` twentieths of a limit in W. -/
def State.powerOver (s : State) (n watts : Nat) : Bool :=
  decide (n * watts * 1000000 * s.mss.powers.length < 20 * sumNat (s.mss.powers.map (·.2)))

/-- The rail of a plate's core. -/
def coreRail (p : Nat) : Nat := 96 + 5 + p

def State.undervolt (s : State) (v : Int) : Bool := decide (v < (s.mss.vSet : Int) - 100)

/-- A core rail that has been below its limit for two samples, 10 µs apart, while the other plate's is not. -/
def State.railSample (s : State) (n : Nat) (before : Int) (known : Bool) : State :=
  let s := s.powerSample
  if n = 5 ∨ n = 6 then
    let p := n - 5
    if known && s.undervolt before && s.undervolt (s.sensor (96 + n)).value
        && !(s.sensor (coreRail (1 - p))).failed && !s.undervolt (s.sensor (coreRail (1 - p))).value
        && s.plateOffered p then s.failPlate p
    else s
  else s

/-! ### SENSOR_SAMPLE -/

def sensorSampleEffect (x : SensorId) (r : SensorReading) (s : State) : State :=
  let k := sensorKey x
  let before := (s.sensor k).value
  let known := s.mss.sensors.any fun p => p.1 == k
  let s := s.takeSample x r
  if (s.sensor k).failed then s
  else
    match x with
    | .junction _ _ =>
      if quarter s.edition.tCrit ≤ r.value then s.critical 0x0506 k r.value (quarter s.edition.tCrit) else s
    | .stack n =>
      let s := s.bandSample n.val r.value
      if quarter s.edition.tHbmCrit ≤ r.value then s.critical 0x0505 n.val r.value (quarter s.edition.tHbmCrit) else s
    | .bed _ => s
    | .rail n => s.railSample n.val before known
    | .droop n =>
      let p := n.val / 32
      { s with mss := { s.mss with droops := setNth s.mss.droops p (nth 0 s.mss.droops p + r.value.toNat) } }

/-! ### GEAR_POLICY_TICK (R410) -/

/-- Junction sensors of a plate, and those that work. -/
def State.junctions (s : State) (p : Nat) : List Sensor := (List.range 26).map fun n => s.sensor (32 * p + n)
def State.stacks (s : State) : List Sensor := (List.range 10).map fun n => s.sensor (64 + n)

def anySensor (l : List Sensor) (p : Int → Bool) : Bool := l.any fun x => !x.failed && p x.value

/-- More than four failed junction sensors make a plate count as hot. -/
def State.blindPlate (s : State) (p : Nat) : Bool := decide (4 < ((s.junctions p).filter (·.failed)).length)

/-- The power limit L. -/
def State.powerLimit (s : State) : Nat :=
  if s.mss.powerCap = 0 then s.edition.pLimit.toNat else min s.edition.pLimit.toNat s.mss.powerCap.toNat

/-- A plate counts more droop events than DROOP_LIMIT allows per ms, over the 65,536 counts of a tick. -/
def State.droopOver (s : State) : Bool :=
  s.mss.droops.any fun n => decide (s.edition.droopLimit.toNat * 65536 < n * 1000000)

/-- What makes HOT hold at one instant, droops apart. -/
def State.hotNow (s : State) : Bool :=
  (List.range 2).any (fun p => s.blindPlate p || anySensor (s.junctions p) fun v => decide (quarter s.edition.tHot < v))
    || anySensor s.stacks (fun v => decide (quarter s.edition.tHbmMax < v))
    || s.powerOver 20 s.powerLimit

/-- HOT over the interval since the previous tick. -/
def State.hot (s : State) : Bool := s.mss.hotSeen || s.hotNow || s.droopOver

/-- What must hold for CALM at one instant. -/
def State.calmNow (s : State) : Bool :=
  (List.range 2).all (fun p => !s.blindPlate p && !anySensor (s.junctions p) fun v => decide (quarter s.edition.tCool ≤ v))
    && !anySensor s.stacks (fun v => decide (quarter s.edition.tHbmHot ≤ v))
    && !s.powerOver 19 s.powerLimit && !s.droopOver

/-- CALM: it has held for HOLD_MS, all of it under the gear in force. -/
def State.calm (s : State) : Bool :=
  match s.mss.calmSince with
  | some t => decide (max t.toNat s.mss.gearSince.toNat + s.holdCounts ≤ s.boardTime.toNat)
  | none => false

def State.trackCalm (s : State) : State :=
  { s with mss := { s.mss with calmSince := if s.calmNow then s.mss.calmSince.orElse fun _ => some s.boardTime else none } }

/-- A sample tells whether HOT and CALM hold. -/
def State.trackPolicy (s : State) : State :=
  let s := s.trackCalm
  { s with mss := { s.mss with hotSeen := s.mss.hotSeen || s.hotNow } }

/-- SENSOR_SAMPLE. -/
def execSensorSample (sensor : SensorId) (reading : SensorReading) (s : State) : Out :=
  if s.mssRuns then .next (sensorSampleEffect sensor reading s).trackPolicy else .next s

/-- The next multiple of 65,536. -/
def State.nextTick (s : State) : Nat := (s.boardTime.toNat / 65536 + 1) * 65536

def gearTickEffect (s : State) : State :=
  let s := (s.advanceTo s.nextTick).trackCalm
  let now := s.regs.gearNow.toNat
  let t := if s.hot then
      (if s.mss.choice.toNat ≤ now then s.chooseGear (min (now + 1) s.edition.gearSlow.toNat) causeHot else s)
    else if s.calm then s.chooseGear (max (now - 1) s.edition.gearFast.toNat) causeCalm
    else s
  { t with mss := { t.mss with droops := [0, 0], hotSeen := false } }

/-- GEAR_POLICY_TICK: at the next multiple of 65,536 counts. -/
def execGearPolicyTick (s : State) : Out :=
  if s.mssRuns then .next (gearTickEffect s) else .next s

/-! ### TELEMETRY_WINDOW (R408) -/

def Sensor.closeWindow (x : Sensor) : Sensor :=
  { x with windowSum := x.sum, windowCurrent := x.currentSum, windowCount := x.count,
           sum := 0, currentSum := 0, count := 0 }

/-- TELEMETRY_WINDOW: at the next multiple of 4,000,000 counts every sensor's window closes. -/
def execTelemetryWindow (s : State) : Out :=
  if s.mssRuns then
    let s := s.advanceTo ((s.boardTime.toNat / 4000000 + 1) * 4000000)
    .next { s with mss := { s.mss with sensors := smapMap .reset Sensor.closeWindow s.mss.sensors } }
  else .next s

end Sys2Proof.Machine
end

