-- ==== Sys2Proof/Machine/Manage.lean ====
section
/-! DEFINITION. The management requests (R416–R420, R428). Their answers stand in the model's own encoding: a
status byte, then the values in the order of R417. Log entry 24. -/

namespace Sys2Proof.Machine

/-! ### Answers -/

def ansOk : Byte := 0
def ansRefused : Byte := 1
def ansBusy : Byte := 2
def ansError : Byte := 3

def State.mctp (s : State) (b : List Byte) : State := { s with sec := { s.sec with mctpAnswer := b } }
def State.mctpRefused (s : State) : State := s.mctp [ansRefused]
def State.mctpOk (s : State) (b : List Byte) : State := s.mctp (ansOk :: b)

/-! ### Sessions (R416) -/

def sessionOpen (l : List Session) (id : BitVec 32) : Bool := l.any fun x => x.id == id && x.open_

/-- A message keeps its session alive. -/
def touchSession (l : List Session) (id : BitVec 32) (now : DWord) : List Session :=
  l.map fun x => if x.id = id then { x with lastMessage := now } else x

/-- Whether a request comes in an open management session. -/
def State.managed (s : State) (r : MgmtReq) : Bool :=
  !r.pcie && (match r.session with | some id => sessionOpen s.mss.sessions id | none => false)

def State.touchMgmt (s : State) (r : MgmtReq) : State :=
  match r.session with
  | some id => { s with mss := { s.mss with sessions := touchSession s.mss.sessions id s.refclk } }
  | none => s

/-- A request that needs a session: refused without one, and on the PCIe path. -/
def mgmtRequest (r : MgmtReq) (f : State → State) (s : State) : Out :=
  if s.mssRuns then .next (if s.managed r then f (s.touchMgmt r) else s.mctpRefused) else .next s

/-! ### Telemetry (R408, R417, R419) -/

def maxOutstanding : Nat := 8

/-- A telemetry request: a ninth is busy at once. -/
def telemetryRequest (r : TelemetryReq) (answer : State → List Byte) (s : State) : Out :=
  if s.mssRuns then .next (if maxOutstanding ≤ r.outstanding.toNat then s.mctp [ansBusy] else s.mctpOk (answer s))
  else .next s

/-- The value of the last window: droop counts are given per window, the others as averages. -/
def windowValue (x : SensorId) (v : Sensor) : Nat :=
  if v.windowCount = 0 then Config.noSample.toNat
  else match x with
    | .droop _ => unsigned 32 v.windowSum
    | _ => unsigned 32 (v.windowSum / v.windowCount)

def windowCurrentValue (v : Sensor) : Nat :=
  if v.windowCount = 0 then Config.noSample.toNat else v.windowCurrent / v.windowCount

def sensorAnswer (x : SensorId) (s : State) : List Byte :=
  let v := s.sensor (sensorKey x)
  leBytes 1 (boolNat v.failed) ++ leBytes 4 (windowValue x v)
    ++ (match x with | .rail _ => leBytes 4 (windowCurrentValue v) | _ => [])

/-- SENSOR_READ. -/
def execSensorRead (r : TelemetryReq) (sensor : SensorId) (s : State) : Out := telemetryRequest r (sensorAnswer sensor) s

def State.highestLogSeq (s : State) : Nat :=
  if s.mss.nextSeq = 0 then Config.noLogSeq.toNat else s.mss.nextSeq.toNat - 1

def statusAnswer (s : State) : List Byte :=
  leBytes 1 (runCode s.seq.state) ++ leBytes 1 s.regs.gearNow.toNat ++ leBytes 1 s.regs.gearReq.toNat
    ++ leBytes 1 s.boot.plates.toNat ++ leBytes 1 (boolNat s.sec.sealed) ++ leBytes 1 (boolNat s.mss.degraded)
    ++ leBytes 4 s.boot.fwVersion.toNat ++ leBytes 4 s.edition.number.toNat ++ leBytes 8 s.highestLogSeq

/-- GET_STATUS. -/
def execGetStatus (r : TelemetryReq) (s : State) : Out := telemetryRequest r statusAnswer s

/-! ### LOG_READ -/

/-- Every entry that the device still holds, as LOG_SEQ and bytes: the flash mirror, the SRAM ring while it is in
use, the backup log. -/
def State.logEntries (s : State) : List (Nat × List Byte) :=
  (mirrorFound s.boot.flash).map (fun p => (p.2, flashRead s.boot.flash (mirrorBase + 128 * p.1) 128))
    ++ (if s.mss.degraded then [] else s.mss.sram.map fun e => (e.seq.toNat, logBytes e))
    ++ (if s.mss.backupFailed then [] else s.mss.backup.map fun e => (e.seq.toNat, logBytes e))

/-- The entry with the lowest LOG_SEQ from one on. -/
def entryFrom (l : List (Nat × List Byte)) (n : Nat) : Option (Nat × List Byte) :=
  l.foldl (fun best e =>
    if e.1 < n then best
    else match best with
      | some b => if e.1 < b.1 then some e else best
      | none => some e) none

def entriesFrom (l : List (Nat × List Byte)) : Nat → Nat → List Byte
  | 0, _ => []
  | k + 1, n =>
    match entryFrom l n with
    | some e => e.2 ++ entriesFrom l k (e.1 + 1)
    | none => []

/-- LOG_READ: up to 8 entries from a LOG_SEQ, in order. -/
def execLogRead (r : MgmtReq) (seq : DWord) (s : State) : Out :=
  mgmtRequest r (fun s => s.mctpOk (entriesFrom s.logEntries 8 seq.toNat)) s

/-! ### SET_POWER_CAP -/

def setPowerCapEffect (watts : BitVec 16) (s : State) : State :=
  if watts = 0 ∨ (300 ≤ watts.toNat ∧ watts.toNat ≤ s.edition.pLimit.toNat) then
    (({ s with mss := { s.mss with powerCap := watts } }).decide_ 0x050B []).mctpOk []
  else s.mctpRefused

/-- SET_POWER_CAP. -/
def execSetPowerCap (r : MgmtReq) (watts : BitVec 16) (s : State) : Out := mgmtRequest r (setPowerCapEffect watts) s

/-! ### EDITION_REVERT (R478) -/

/-- While PWR_FAIL_N is asserted no program of the flash starts, and the request is refused. Log entry 24. -/
def editionRevertEffect (s : State) : State :=
  if s.quiet && s.mss.fw.state == .idle && !s.boot.pwrFail && s.canRevert then
    ((s.revokePlace s.edition.place).revokedEvent true).mctpOk []
  else s.mctpRefused

/-- EDITION_REVERT. -/
def execEditionRevert (r : MgmtReq) (s : State) : Out := mgmtRequest r editionRevertEffect s

/-! ### CPER_ACK (R428) -/

def cperAckEffect (id : DWord) (s : State) : State :=
  ({ s with mss := { s.mss with cper := s.mss.cper.filter fun c => decide (id.toNat < c.recordId.toNat) } }).mctpOk []

/-- CPER_ACK. -/
def execCperAck (r : MgmtReq) (recordId : DWord) (s : State) : Out := mgmtRequest r (cperAckEffect recordId) s

end Sys2Proof.Machine
end

