-- ==== Sys2Proof/Machine/Tenant.lean ====
section
/-! DEFINITION. Tenant commands, the key store, imports (R378, R382–R400). -/

namespace Sys2Proof.Machine

/-! ### Sessions on the DOE mailbox -/

def State.doe (s : State) (b : List Byte) : State := { s with sec := { s.sec with doeAnswer := b } }
def State.doeSession (s : State) (id : BitVec 32) : Bool := sessionOpen s.sec.sessions id
def State.isTenantSession (s : State) (id : BitVec 32) : Bool := s.sec.tenantSession == some id

def State.touchDoe (s : State) (id : BitVec 32) : State :=
  { s with sec := { s.sec with sessions := touchSession s.sec.sessions id s.refclk } }

/-! ### Requests and responses (R382, R400, R402) -/

def opBegin : Nat := 0x01
def opEnd : Nat := 0x02
def opRekey : Nat := 0x03
def opPolicy : Nat := 0x04
def opImport : Nat := 0x05
def opStatus : Nat := 0x06
def opBind : Nat := 0x07

/-- SPDM ERROR UnsupportedRequest (R375). -/
def errUnsupported : Byte := 0x07

/-- A response: the header of R382 and a payload. -/
def tenantBytes (op result : Nat) (tag : BitVec 32) (payload : List Byte) : List Byte :=
  leBytes 1 op ++ leBytes 1 result ++ leBytes 2 payload.length ++ leBytes 4 tag.toNat ++ payload

/-- A response falls due 400 µs after its request, on the REFCLK count. It echoes the OPCODE. -/
def State.respond (s : State) (r : TenantReq) (result : Nat) (payload : List Byte) : State :=
  { s with sec := { s.sec with responses := s.sec.responses ++
      [⟨s.refclk + BitVec.ofNat 64 edges400us, r.session, tenantBytes r.opcode.toNat result r.tag payload⟩] } }

/-- The header names the command, and counts the bytes that follow. Any other OPCODE, as of a command that R383 does not
list, is refused; so is a wrong PAYLOAD_LEN. Log entry 27. -/
def opcodeNames (r : TenantReq) (op : Nat) : Bool :=
  r.opcode.toNat == op && r.payloadLen.toNat == r.payload.length

/-- A tenant command (R382). Outside a session, and under another vendor's ID, it is no request that the 8320 handles:
ERROR UnsupportedRequest (R375). -/
def tenantCommand (r : TenantReq) (op : Nat) (ok : State → Bool) (f : State → State) (payload : State → List Byte)
    (s : State) : Out :=
  if s.boot.phase = .ready then
    .next (if s.doeSession r.session then
        let s := s.touchDoe r.session
        if r.vendor = Config.pciVendor then
          if opcodeNames r op && ok s then (f s).respond r 0 (payload s) else s.respond r 1 []
        else s.doe [ansError, errUnsupported]
      else s.doe [ansError, errUnsupported])
  else .next s

/-- TENANT_RESPONSE: the answer goes out; a refusal writes event 0x0420, which carries only the opcode. -/
def tenantResponseEffect (d : DueResponse) (rest : List DueResponse) (s : State) : State :=
  let s := (s.advanceRef d.due).doe d.bytes
  let s := { s with sec := { s.sec with responses := rest } }
  if nth 0 d.bytes 1 = 1 then s.securityRefusal (nth 0 d.bytes 0).toNat else s

def execTenantResponse (s : State) : Out :=
  match s.sec.responses with
  | d :: rest => .next (tenantResponseEffect d rest s)
  | [] => .next s

/-! ### Tenant changes (R384–R386) -/

/-- A LOADED or FAULTED device discards its cartoon and enters IDLE; of a fault this clears the state as FAULT_CLEAR
would. -/
def State.discardCartoon (s : State) : State :=
  let t := { s with seq := { s.seq with cartoon := none, state := .idle } }
  if s.seq.state = .faulted then t.skipOut else t

/-- A command that makes a tenant change is accepted. -/
def State.changeOk (s : State) : Bool := s.quiet && !s.seamRetraining

/-- The key store is to be updated, behind the updates that were accepted before. -/
def State.addJob (s : State) (j : CommitJob) : State :=
  { s with sec := { s.sec with waiting := s.sec.waiting ++ [j] } }.nextJob

/-- The change begins: the cartoon goes, BAR2 closes, and the key store is to be updated. -/
def State.beginChange (s : State) (j : CommitJob) : State :=
  let s := s.discardCartoon
  { s with sec := { s.sec with bar2Closed := true } }.addJob j

def beginTenant (p : List Byte) : Tenant :=
  { tenantId := BitVec.ofNat 128 (ofLe (p.take 16)), tmk := BitVec.ofNat 256 (ofLe ((p.drop 16).take 32)),
    generation := 0, policy := p.drop 48 }

/-- TENANT_BEGIN. -/
def execTenantBegin (r : TenantReq) (s : State) : Out :=
  tenantCommand r opBegin
    (fun s => s.sec.tenant.isNone && s.changeOk && decide (48 ≤ r.payload.length) && s.policyOk (r.payload.drop 48))
    (fun s => s.beginChange ⟨.begin_, r.session, some (beginTenant r.payload), false⟩) (fun _ => []) s

/-- TENANT_END: from any session. -/
def execTenantEnd (r : TenantReq) (s : State) : Out :=
  tenantCommand r opEnd (fun s => s.sec.tenant.isSome && s.changeOk && r.payload.isEmpty)
    (fun s => s.beginChange ⟨.end_, r.session, none, false⟩) (fun _ => []) s

def rekeyed (t : Tenant) (p : List Byte) : Tenant :=
  { t with tmk := BitVec.ofNat 256 (ofLe p), generation := t.generation + 1 }

/-- REKEY. -/
def execRekey (r : TenantReq) (s : State) : Out :=
  tenantCommand r opRekey
    (fun s => s.isTenantSession r.session && s.sec.tenant.isSome && s.changeOk && r.payload.length == 32)
    (fun s => s.beginChange ⟨.rekey, r.session, s.sec.tenant.map fun t => rekeyed t r.payload, false⟩) (fun _ => []) s

/-! ### POLICY_SET (R387) -/

/-- The held cartoon's digest is in a policy's list. -/
def State.cartoonApproved (s : State) (p : List Byte) : Bool :=
  match s.seq.cartoon with
  | some c => (policyDigests p).contains c.digest.toNat
  | none => true

def policySetEffect (r : TenantReq) (s : State) : State :=
  let s := if s.cartoonApproved r.payload then s else s.discardCartoon
  s.addJob ⟨.policy, r.session, s.sec.tenant.map fun t => { t with policy := r.payload }, false⟩

/-- POLICY_SET. -/
def execPolicySet (r : TenantReq) (s : State) : Out :=
  tenantCommand r opPolicy
    (fun s => s.isTenantSession r.session && s.sec.tenant.isSome && s.quiet && s.policyOk r.payload)
    (policySetEffect r) (fun _ => []) s

/-! ### KEY_STORE_COMMIT (R390, R392) -/

def State.nextCommit (s : State) : Nat := s.sec.commitCount.toNat + 1

/-- The slot that the commit in force does not name. -/
def State.idleSlot (s : State) : Nat := 1 - s.sec.activeSlot.toNat

def State.putSlot (s : State) (k : Nat) (b : List Byte) : State :=
  { s with sec := { s.sec with slots := smapPutList 0xFF s.sec.slots (4096 * k) b } }

def State.putCell (s : State) (n : Nat) (c : DWord) : State :=
  { s with sec := { s.sec with
      cell0 := if n % 2 = 0 then c else s.sec.cell0, cell1 := if n % 2 = 1 then c else s.sec.cell1 } }

/-- Steps 1 to 5: the new slot and its cell are in the array. -/
def State.programCommit (s : State) (j : CommitJob) : State :=
  let n := s.nextCommit
  let k := s.idleSlot
  (s.putSlot k (makeSlot j.tenant n)).putCell n (commitCell n k j.tenant.isSome)

/-- Step 6: the commit is in force, with its keys. -/
def State.commitInForce (s : State) (j : CommitJob) : State :=
  { s with sec := { s.sec with
      commitCount := BitVec.ofNat 48 s.nextCommit, activeSlot := BitVec.ofNat 1 s.idleSlot, tenant := j.tenant,
      sealed := j.tenant.isSome, job := none } }.sealSync

def State.startScrub (s : State) (after : BitVec 16) : State :=
  { s with sec := { s.sec with scrub := some { started := s.boardTime, after := some after } } }

def State.setTenantSession (s : State) (id : Option (BitVec 32)) : State :=
  { s with sec := { s.sec with tenantSession := id } }

/-- An import that runs ends as failed: event 0x0405 with the index of the segment that it had come to. -/
def State.importFails (s : State) : State :=
  match s.sec.importJob with
  | some _ =>
    { s with sec := { s.sec with importJob := none, importState := .failed } }.sealSync.emit srcMss 0x0405 [f32 s.sec.importDone.toNat]
  | none => s

/-- The tenant session ends, if this was it: so does an import. -/
def State.endTenantSession (s : State) : State := (s.setTenantSession none).importFails

/-- What follows a completed update. Sealing leaves debug mode (R370). -/
def commitDone (j : CommitJob) (s : State) : State :=
  let s := ((s.sealSegment .keyStore).programCommit j).commitInForce j
  match j.purpose with
  | .begin_ => ((if s.doeSession j.session then s.setTenantSession (some j.session) else s).leaveDebug).startScrub 0x0400
  | .end_ => s.endTenantSession.startScrub 0x0401
  | .rekey => s.startScrub 0x0402
  | .policy => (s.emit srcMss 0x0403 []).nextJob

/-- An erased or torn slot, and from step 4 on an erased cell: no valid commit names them. -/
def commitCut (step : Nat) (ended : Bool) (j : CommitJob) (s : State) : State :=
  let s' := { s with sec := { s.sec with job := some { j with stopped := true } } }
  let k := s.idleSlot
  let n := s.nextCommit
  if step = 0 then s'
  else if step < 4 then s'.putSlot k (List.replicate 4096 0xFF)
  else
    let t := (s'.putSlot k (makeSlot j.tenant n)).putCell n (BitVec.allOnes 64)
    if step = 5 && ended then t.putCell n (commitCell n k j.tenant.isSome) else t

def keyStoreEffect (o : CommitOutcome) (j : CommitJob) (s : State) : State :=
  match o with
  | .done => commitDone j s
  | .readBackMismatch => (s.putSlot s.idleSlot (List.replicate 4096 0xFF)).commitFails
  | .powerFail step ended => if step.val = 6 then commitDone j s else commitCut step.val ended j s

/-- Whether an outcome can come about: only a power failure stops an update, and while one lasts none goes on. -/
def outcomeOk (o : CommitOutcome) (pwrFail : Bool) : Bool :=
  match o with | .powerFail _ _ => pwrFail | _ => !pwrFail

/-- KEY_STORE_COMMIT. -/
def execKeyStoreCommit (outcome : CommitOutcome) (s : State) : Out :=
  match s.sec.job with
  | some j =>
    if j.stopped = false ∧ outcomeOk outcome s.boot.pwrFail then .next (keyStoreEffect outcome j s) else .next s
  | none => .next s

/-! ### IMPORT and IMPORT_SEGMENT (R378, R396, R397) -/

/-- The header of a blob. -/
structure BlobHeader where
  magic : Nat
  version : Nat
  devAddr : Nat
  segments : Nat
  nonce : BitVec 96
  rsvd : Nat
  deriving DecidableEq, Repr

def blobHeader (b : List Byte) : BlobHeader :=
  let x := ofLe b
  { magic := field x 0 32, version := field x 32 16, devAddr := field x 64 48, segments := field x 128 32,
    nonce := BitVec.ofNat 96 (x >>> 160), rsvd := field x 48 16 + field x 112 16 + field x 256 256 }

def State.blobOk (s : State) (h : BlobHeader) : Bool :=
  h.magic == 0x494E4D43 && h.version == 1 && h.rsvd == 0 && h.devAddr % 4096 == 0
    && decide (1 ≤ h.segments) && decide (h.segments ≤ 2 ^ 24) && s.rangeAllowed h.devAddr (4096 * h.segments)

def importAddr (r : TenantReq) : Nat := ofLe r.payload

def importOk (r : TenantReq) (s : State) : Bool :=
  s.isTenantSession r.session && s.quiet && s.sec.importJob.isNone && r.payload.length == 8
    && importAddr r % 64 == 0 && s.blobOk (blobHeader (s.hostRead (importAddr r) 64))

def importEffect (r : TenantReq) (s : State) : State :=
  let b := s.hostRead (importAddr r) 64
  let h := blobHeader b
  { s with sec := { s.sec with
      importState := .running, importDone := 0,
      importJob := some { hostAddr := BitVec.ofNat 64 (importAddr r), header := b, devAddr := h.devAddr,
                          segments := h.segments, nonce := h.nonce, session := r.session } } }.sealSync

/-- IMPORT. -/
def execImportBegin (r : TenantReq) (s : State) : Out :=
  tenantCommand r opImport (importOk r) (importEffect r) (fun _ => []) s

/-- The session import key. -/
def importKey (x : Session) : List Byte :=
  hkdfExpand (leBytes 48 x.exportSecret.toNat) (ascii "CMN weight import") 32

def State.importKeyOf (s : State) (id : BitVec 32) : List Byte :=
  match s.sec.sessions.find? (fun x => x.id == id) with
  | some x => importKey x
  | none => []

/-- NONCE_BASE with bits [31:0] exclusive-ORed with the segment's index. -/
def importNonce (n : BitVec 96) (i : Nat) : List Byte := leBytes 12 (n ^^^ BitVec.ofNat 96 (i % 2 ^ 32)).toNat

/-- The plaintext of a segment, if its tag verifies. -/
def State.openSegment (s : State) (j : ImportJob) (i : Nat) : Option (List Byte) :=
  let base := j.hostAddr.toNat + 64
  gcmOpen (s.importKeyOf j.session) (importNonce j.nonce i) (j.header ++ leBytes 8 i)
    (s.hostRead (base + 4096 * i) 4096) (s.hostRead (base + 4096 * j.segments + 16 * i) 16)

def importSegmentEffect (j : ImportJob) (s : State) : State :=
  let s := s.sealSegment .tenantImport
  let i := s.sec.importDone.toNat
  match s.openSegment j i with
  | none => s.importFails
  | some bs =>
    let s := { s with sec := { s.sec with importDone := BitVec.ofNat 32 (i + 1) } }.placeBytes srcMss
      (j.devAddr + 4096 * i) bs
    if i + 1 = j.segments then
      { s with sec := { s.sec with importJob := none, importState := .done } }.sealSync.emit srcMss 0x0404 []
    else s

/-- IMPORT_SEGMENT: the next segment, in ascending order. A PCIe error on one of its reads ends the import as failed. -/
def execImportSegment (busError : Bool) (s : State) : Out :=
  match s.sec.importJob with
  | some j => .next (if busError then s.importFails else importSegmentEffect j s)
  | none => .next s

/-! ### STATUS (R399) -/

def importCode : ImportState → Nat
  | .none => 0 | .running => 1 | .done => 2 | .failed => 3

/-- The seal engine is occupied. -/
def State.sealBusy (s : State) : Bool := !s.sec.sealEngine.held.isEmpty

def statusBytes (id : BitVec 32) (s : State) : List Byte :=
  let own := s.isTenantSession id
  leBytes 28 (boolNat s.sec.sealed + boolNat own <<< 1 + boolNat s.sealBusy <<< 2
    + (if own then importCode s.sec.importState else 0) <<< 3 + s.sec.commitCount.toNat <<< 16
    + (if own then s.sec.importDone.toNat else 0) <<< 64 + s.fingerprintNow <<< 96)

/-- STATUS: from any session, in any run state. -/
def execStatus (r : TenantReq) (s : State) : Out :=
  tenantCommand r opStatus (fun _ => r.payload.isEmpty) id (statusBytes r.session) s

/-! ### BIND (R383) -/

/-- The proof is the HMAC of the session's transcript hash under the bind key. -/
def State.bindProof (s : State) (id : BitVec 32) : Option (List Byte) :=
  match s.sec.tenant, s.sec.sessions.find? (fun x => x.id == id) with
  | some t, some x => some (hmac384 (bindKey t) (leBytes 48 x.transcript.toNat))
  | _, _ => none

/-- BIND. -/
def execBind (r : TenantReq) (s : State) : Out :=
  tenantCommand r opBind
    (fun s => s.sec.tenant.isSome && s.sec.tenantSession.isNone && !s.busyRun && s.bindProof r.session == some r.payload)
    (fun s => s.setTenantSession (some r.session)) (fun _ => []) s

end Sys2Proof.Machine
end

