-- ==== Sys2Proof/Machine/Attest.lean ====
section
/-! DEFINITION. SPDM on the DOE mailbox and over MCTP (R374–R378, R416, R479). The order of requests, their error
codes and the layout of their answers are SPDM 1.2's (PRESUMED, log entry 26); answers stand in the model's own
encoding (log entry 24). -/

namespace Sys2Proof.Machine

/-! ### Channels and answers -/

def errInvalidRequest : Byte := 0x01
def errBusy : Byte := 0x03
def errUnexpected : Byte := 0x04
def errDecrypt : Byte := 0x06

def State.answer (s : State) (c : Chan) (b : List Byte) : State :=
  match c with | .doe => s.doe b | .mctp => s.mctp b
def State.answerOk (s : State) (c : Chan) (b : List Byte) : State := s.answer c (ansOk :: b)
def State.answerError (s : State) (c : Chan) (code : Byte) : State := s.answer c [ansError, code]

/-- The endpoint answers when the device is ready; the management network from the edition phase of the boot on
(R459). -/
def State.answers (s : State) (c : Chan) : Bool :=
  match c with | .doe => s.boot.phase == .ready | .mctp => s.mssRuns

def State.spdm (s : State) (c : Chan) : Spdm := match c with | .doe => s.sec.spdm | .mctp => s.mss.spdm
def State.setSpdm (s : State) (c : Chan) (x : Spdm) : State :=
  match c with
  | .doe => { s with sec := { s.sec with spdm := x } }
  | .mctp => { s with mss := { s.mss with spdm := x } }

def State.sessionsOf (s : State) (c : Chan) : List Session :=
  match c with | .doe => s.sec.sessions | .mctp => s.mss.sessions
def State.setSessions (s : State) (c : Chan) (l : List Session) : State :=
  match c with
  | .doe => { s with sec := { s.sec with sessions := l } }
  | .mctp => { s with mss := { s.mss with sessions := l } }

/-- A request on a channel that answers. -/
def spdmRequest (c : Chan) (f : State → State) (s : State) : Out :=
  if s.answers c then .next (f s) else .next s

/-- A request that comes after NEGOTIATE_ALGORITHMS. -/
def negotiated (c : Chan) (f : State → State) (s : State) : Out :=
  spdmRequest c (fun s => if (s.spdm c).algorithms then f s else s.answerError c errUnexpected) s

/-- A request that comes after NEGOTIATE_ALGORITHMS, outside a session or, as one of its messages, inside an open one
(R375). -/
def negotiatedIn (c : Chan) (session : Option (BitVec 32)) (f : State → State) (s : State) : Out :=
  negotiated c (fun s =>
    match session with
    | none => f s
    | some id =>
      if sessionOpen (s.sessionsOf c) id then f (s.setSessions c (touchSession (s.sessionsOf c) id s.refclk))
      else s.answerError c errUnexpected) s

/-! ### DOE Discovery -/

/-- The protocol of an index, as its vendor ID, its type and the next index: Discovery, CMA/SPDM, Secured CMA/SPDM. -/
def doeProtocol (index : Nat) : List Byte :=
  if index < 3 then leBytes 2 0x0001 ++ leBytes 1 index ++ leBytes 1 (if index = 2 then 0 else index + 1)
  else leBytes 2 0xFFFF ++ leBytes 2 0

/-- DOE_DISCOVERY. -/
def execDoeDiscovery (index : BitVec 8) (s : State) : Out :=
  spdmRequest .doe (fun s => s.answerOk .doe (doeProtocol index.toNat)) s

/-! ### Version, capabilities, algorithms (R375, R376) -/

/-- GET_VERSION: the one entry 1.2. A negotiation begins anew. -/
def execGetVersion (c : Chan) (s : State) : Out :=
  spdmRequest c (fun s => (s.setSpdm c ⟨true, false, false⟩).answerOk c [0x12]) s

/-- CERT, CHAL, MEAS (signed), MEAS_FRESH, KEY_EX, ENCRYPT, MAC, HBEAT, KEY_UPD, by their bits of SPDM 1.2; over MCTP
the requester is authenticated as well: MUT_AUTH (R416). -/
def capabilityBits (c : Chan) : Nat :=
  2 ^ 1 + 2 ^ 2 + 2 ^ 4 + 2 ^ 5 + 2 ^ 6 + 2 ^ 7 + 2 ^ 9 + 2 ^ 13 + 2 ^ 14
    + (match c with | .doe => 0 | .mctp => 2 ^ 8)

/-- GET_CAPABILITIES. -/
def execGetCapabilities (c : Chan) (s : State) : Out :=
  spdmRequest c (fun s =>
    if (s.spdm c).version then
      (s.setSpdm c { s.spdm c with capabilities := true }).answerOk c (leBytes 4 (capabilityBits c))
    else s.answerError c errUnexpected) s

/-- Every selection of R376 is offered. -/
def offersAll (o : AlgOffer) : Bool :=
  o.ecdsaP384 && o.baseSha384 && o.measSha384 && o.secp384r1 && o.aes256gcm && o.spdmSchedule && o.dmtf

def negotiateEffect (c : Chan) (o : AlgOffer) (s : State) : State :=
  if !(s.spdm c).capabilities then s.answerError c errUnexpected
  else if offersAll o then (s.setSpdm c { s.spdm c with algorithms := true }).answerOk c []
  else (s.setSpdm c { s.spdm c with algorithms := false }).answerError c errInvalidRequest

/-- NEGOTIATE_ALGORITHMS. -/
def execNegotiateAlgorithms (c : Chan) (offer : AlgOffer) (s : State) : Out := spdmRequest c (negotiateEffect c offer) s

/-! ### Certificates (R374) -/

def chainBase : Nat := 0x2_0000

/-- The chain of slot 0: its first two bytes give its length. -/
def State.certChain (s : State) : List Byte :=
  flashRead s.boot.flash chainBase (ofLe (flashRead s.boot.flash chainBase 2))

/-- GET_DIGESTS: slot 0 only. -/
def execGetDigests (c : Chan) (session : Option (BitVec 32)) (s : State) : Out :=
  negotiatedIn c session (fun s => s.answerOk c (leBytes 1 1 ++ sha384 s.certChain)) s

def getCertificateEffect (c : Chan) (slot offset length : Nat) (s : State) : State :=
  let n := ofLe (flashRead s.boot.flash chainBase 2)
  if slot ≠ 0 ∨ n ≤ offset then s.answerError c errInvalidRequest
  else
    let k := min length (n - offset)
    s.answerOk c (leBytes 2 k ++ leBytes 2 (n - offset - k) ++ flashRead s.boot.flash (chainBase + offset) k)

/-- GET_CERTIFICATE. -/
def execGetCertificate (c : Chan) (session : Option (BitVec 32)) (slot : BitVec 8) (offset length : BitVec 16)
    (s : State) : Out :=
  negotiatedIn c session (getCertificateEffect c slot.toNat offset.toNat length.toNat) s

/-! ### Signed answers -/

/-- A fresh nonce of the device. -/
def State.drawNonce (s : State) : List Byte × State :=
  (leBytes 32 (Config.spdmNonce s.freeCount).toNat, { s with freeCount := s.freeCount + 1 })

/-- The signature of the identity key over what an answer is made of. -/
def signed_ (m : List Byte) : List Byte :=
  leBytes 96 (Config.identitySign (BitVec.ofNat 384 (ofLe (sha384 m)))).toNat

def challengeEffect (c : Chan) (slot : Nat) (nonce : BitVec 256) (s : State) : State :=
  if slot ≠ 0 then s.answerError c errInvalidRequest
  else
    let z := s.drawNonce
    let body := sha384 s.certChain ++ z.1 ++ leBytes 32 nonce.toNat
    z.2.answerOk c (body ++ signed_ body)

/-- CHALLENGE. -/
def execChallenge (c : Chan) (slot : BitVec 8) (nonce : BitVec 256) (s : State) : Out :=
  negotiated c (challengeEffect c slot.toNat nonce) s

/-! ### Measurements (R377) -/

/-- The digest of the tenant policy: bytes 56 to 1,855 of the slot. -/
def State.policyDigestNow (s : State) : List Byte :=
  match s.sec.tenant with
  | some t => sha384 (padTo 1800 0 (t.policy.take 1800))
  | none => List.replicate 48 0

/-- The DMTF value type of a block, with bit 7 for raw content, and its content as of now. -/
def State.measurement (s : State) (index : Nat) : Nat × List Byte :=
  match index with
  | 1 => (0x00, leBytes 48 s.boot.romDigest.toNat)
  | 2 => (0x01, leBytes 48 s.boot.fwDigest.toNat)
  | 3 => (0x86, leBytes 4 s.boot.fwVersion.toNat ++ leBytes 1 s.boot.fwSlot.toNat)
  | 4 => (0x03, leBytes 48 s.edition.digest.toNat)
  | 5 => (0x83, leBytes 4 s.edition.number.toNat ++ leBytes 4 s.boot.editionFloor.toNat)
  | 6 => (0x82, leBytes 2 0x4230 ++ leBytes 8 s.boot.uniqueId.toNat ++ leBytes 1 s.boot.plates.toNat
      ++ leBytes 1 s.boot.boardSlot.toNat)
  | 7 => (0x83, leBytes 1 (boolNat s.sec.sealed) ++ leBytes 1 (boolNat s.regs.debug) ++ leBytes 16 s.fingerprintNow
      ++ leBytes 6 s.sec.commitCount.toNat)
  | 8 => (0x03, match s.seq.cartoon with | some c => leBytes 48 c.digest.toNat | none => List.replicate 48 0)
  | _ => (0x03, s.policyDigestNow)

/-- A block in the DMTF measurement format. -/
def State.measurementBlock (s : State) (index : Nat) : List Byte :=
  let m := s.measurement index
  leBytes 1 index ++ leBytes 1 1 ++ leBytes 2 (3 + m.2.length) ++ leBytes 1 m.1 ++ leBytes 2 m.2.length ++ m.2

/-- The blocks that an index asks for: 0 only their number, 0xFF all of them. -/
def measurementIndices (index : Nat) : Option (List Nat) :=
  if index = 0 then some []
  else if index = 0xFF then some [1, 2, 3, 4, 5, 6, 7, 8, 9]
  else if index ≤ 9 then some [index] else none

def getMeasurementsEffect (c : Chan) (index : Nat) (sign : Bool) (nonce : BitVec 256) (s : State) : State :=
  match measurementIndices index with
  | none => s.answerError c errInvalidRequest
  | some l =>
    let body := leBytes 1 (if index = 0 then 9 else l.length) ++ l.flatMap s.measurementBlock
    if sign then
      let z := s.drawNonce
      let body := body ++ z.1 ++ leBytes 32 nonce.toNat
      z.2.answerOk c (body ++ signed_ body)
    else s.answerOk c body

/-- GET_MEASUREMENTS. -/
def execGetMeasurements (c : Chan) (session : Option (BitVec 32)) (index : BitVec 8) (sign : Bool) (nonce : BitVec 256)
    (s : State) : Out :=
  negotiatedIn c session (getMeasurementsEffect c index.toNat sign nonce) s

/-! ### Sessions (R375, R376, R378, R416) -/

/-- How many sessions a channel holds at most. -/
def maxSessions : Chan → Nat
  | .doe => 4
  | .mctp => 2

/-- The heartbeat period, in seconds. -/
def heartbeatPeriod : Nat := 60

/-- The session begins: the answer carries its number, the heartbeat period and a nonce, signed by the identity key. -/
def keyExchangeEffect (c : Chan) (secret : BitVec 384) (s : State) : State :=
  if maxSessions c ≤ (s.sessionsOf c).length then s.answerError c errBusy
  else
    let id := s.sec.nextSession
    let x : Session := { id := id, open_ := false, exportSecret := secret, transcript := 0, lastMessage := s.refclk,
                         keyUpdates := 0 }
    let s := s.setSessions c (s.sessionsOf c ++ [x])
    let z := { s with sec := { s.sec with nextSession := id + 1 } }.drawNonce
    let body := leBytes 4 id.toNat ++ leBytes 1 heartbeatPeriod ++ z.1
    z.2.answerOk c (body ++ signed_ body)

/-- KEY_EXCHANGE. -/
def execKeyExchange (c : Chan) (exportSecret : BitVec 384) (s : State) : Out :=
  negotiated c (keyExchangeEffect c exportSecret) s

/-- The root that management requesters are held against: that of the edition in force, or in a recovery boot that of
the latest ready entry, if there ever was one (R479). -/
def State.mgmtRoot (s : State) : Option (BitVec 384) :=
  if s.boot.recovery then
    let e := currentOf s.boot.flash
    if e.lastEdition = 0 then none else some (BitVec.ofNat 384 e.lastRoot)
  else some s.edition.mgmtRoot

def State.dropSession (s : State) (c : Chan) (id : BitVec 32) : State :=
  let s := s.setSessions c ((s.sessionsOf c).filter fun x => x.id != id)
  if c = .doe && s.isTenantSession id then s.endTenantSession else s

def openSession (l : List Session) (id : BitVec 32) (transcript : BitVec 384) (now : DWord) : List Session :=
  l.map fun x => if x.id = id then { x with open_ := true, transcript := transcript, lastMessage := now } else x

/-- The requester's credentials, which only management asks for. -/
def State.requesterOk (s : State) (c : Chan) (root : Option (BitVec 384)) : Bool :=
  match c with
  | .doe => true
  | .mctp => root.isSome && root == s.mgmtRoot

def finishEffect (c : Chan) (id : BitVec 32) (macOk : Bool) (root : Option (BitVec 384)) (transcript : BitVec 384)
    (s : State) : State :=
  if !((s.sessionsOf c).any fun x => x.id == id && !x.open_) then s.answerError c errUnexpected
  else if !macOk then (s.dropSession c id).answerError c errDecrypt
  else if !s.requesterOk c root then ((s.dropSession c id).emit srcMss 0x0511 []).answerError c errInvalidRequest
  else (s.setSessions c (openSession (s.sessionsOf c) id transcript s.refclk)).sendCpers.answerOk c []

/-- FINISH. -/
def execFinishSession (c : Chan) (session : BitVec 32) (macOk : Bool) (root : Option (BitVec 384))
    (transcript : BitVec 384) (s : State) : Out :=
  negotiated c (finishEffect c session macOk root transcript) s

/-- A request inside an open session. -/
def inSession (c : Chan) (id : BitVec 32) (f : State → State) (s : State) : Out :=
  spdmRequest c (fun s =>
    if sessionOpen (s.sessionsOf c) id then
      f (s.setSessions c (touchSession (s.sessionsOf c) id s.refclk))
    else s.answerError c errUnexpected) s

/-- HEARTBEAT. -/
def execHeartbeat (c : Chan) (session : BitVec 32) (s : State) : Out :=
  inSession c session (fun s => s.answerOk c []) s

def updatedKeys (l : List Session) (id : BitVec 32) : List Session :=
  l.map fun x => if x.id = id then { x with keyUpdates := x.keyUpdates + 1 } else x

/-- KEY_UPDATE. -/
def execKeyUpdate (c : Chan) (session : BitVec 32) (s : State) : Out :=
  inSession c session (fun s => (s.setSessions c (updatedKeys (s.sessionsOf c) session)).answerOk c []) s

/-- END_SESSION. -/
def execEndSession (c : Chan) (session : BitVec 32) (s : State) : Out :=
  inSession c session (fun s => (s.dropSession c session).answerOk c []) s

/-- REFCLK edges in 120 s. -/
def edges120s : Nat := 12000000000

/-- SESSION_TIMEOUT: 120 s after a session's last message. -/
def execSessionTimeout (c : Chan) (session : BitVec 32) (s : State) : Out :=
  match (s.sessionsOf c).find? (fun x => x.id == session) with
  | some x => .next ((s.advanceRef (x.lastMessage + BitVec.ofNat 64 edges120s)).dropSession c session)
  | none => .next s

end Sys2Proof.Machine
end

