-- ==== Sys2Proof/Machine/Firmware.lean ====
section
/-! DEFINITION. The firmware update (R429–R431, R464, R465, R480). -/

namespace Sys2Proof.Machine

/-! ### The component and the slot -/

/-- Classification "Firmware" as PLDM numbers it, PRESUMED (log entry 25), and the identifier of R429. -/
def fwClass : BitVec 16 := 0x000A
def fwIdentifier : BitVec 16 := 0x0001
def fwComponent (classification identifier : BitVec 16) : Bool := classification == fwClass && identifier == fwIdentifier

def fwSlotSize : Nat := 0x80_0000
def fwBlockSize : Nat := 1024

/-- The inactive slot. -/
def State.fwTarget (s : State) : Nat := 1 - s.boot.fwSlot.toNat

def State.fwTo (s : State) (st : FwState) : State := { s with mss := { s.mss with fw := { s.mss.fw with state := st } } }

/-- A flash write that PWR_FAIL_N stops: the update fails when the pin rises again (R489). -/
def State.fwStopped (s : State) : State := { s with mss := { s.mss with fw := { s.mss.fw with failed := true } } }

/-- A request that is accepted in some states of the update, and refused in the others. -/
def fwRequest (r : MgmtReq) (ok : State → Bool) (f : State → State) (s : State) : Out :=
  mgmtRequest r (fun s => if ok s then f s else s.mctpRefused) s

def fwIn (st : FwState) (s : State) : Bool := s.mss.fw.state == st && !s.mss.fw.failed

/-! ### Enquiries -/

def fwStateCode : FwState → Nat
  | .idle => 0 | .learn => 1 | .readyXfer => 2 | .download => 3 | .verify => 4 | .apply => 5 | .activate => 6

/-- QUERY_DEVICE_IDENTIFIERS: the PCI-SIG vendor ID, STEPPING and UNIQUE_ID. -/
def execQueryDeviceIdentifiers (r : MgmtReq) (s : State) : Out :=
  mgmtRequest r (fun s => s.mctpOk (leBytes 2 Config.pciVendor.toNat ++ leBytes 2 0x4230 ++ leBytes 8 s.boot.uniqueId.toNat)) s

/-- GET_FIRMWARE_PARAMETERS: the component, the running version, and the slot that an activation is pending for. -/
def execGetFirmwareParameters (r : MgmtReq) (s : State) : Out :=
  mgmtRequest r (fun s => s.mctpOk (leBytes 2 fwClass.toNat ++ leBytes 2 fwIdentifier.toNat
    ++ leBytes 4 s.boot.fwVersion.toNat ++ leBytes 1 s.boot.fwSlot.toNat
    ++ (match s.mss.fw.pendingSlot with | some k => leBytes 1 k.toNat | none => []))) s

/-- PLDM_GET_STATUS: the state of the update and its progress. -/
def execPldmGetStatus (r : MgmtReq) (s : State) : Out :=
  mgmtRequest r (fun s => s.mctpOk (leBytes 1 (fwStateCode s.mss.fw.state) ++ leBytes 4 s.mss.fw.received)) s

/-! ### The transfer -/

/-- REQUEST_UPDATE: only one update runs at a time, of the one component. -/
def execRequestUpdate (r : MgmtReq) (components : BitVec 16) (s : State) : Out :=
  fwRequest r (fun s => fwIn .idle s && components == 1) (fun s => (s.fwTo .learn).mctpOk []) s

/-- PASS_COMPONENT_TABLE. -/
def execPassComponentTable (r : MgmtReq) (classification identifier : BitVec 16) (s : State) : Out :=
  fwRequest r (fun s => fwIn .learn s && fwComponent classification identifier) (fun s => (s.fwTo .readyXfer).mctpOk []) s

/-- The inactive slot is erased, and the transfer begins. -/
def updateComponentEffect (size : BitVec 32) (s : State) : State :=
  if s.boot.pwrFail then s.fwStopped.mctpRefused
  else
    let a := fwSlotAddr s.fwTarget
    ({ s with
        boot := { s.boot with flash := smapDrop s.boot.flash a (a + fwSlotSize) },
        mss := { s.mss with fw := { s.mss.fw with state := .download, size := size, received := 0 } } }).sealSync.mctpOk []

/-- UPDATE_COMPONENT. -/
def execUpdateComponent (r : MgmtReq) (classification identifier : BitVec 16) (size : BitVec 32) (s : State) : Out :=
  fwRequest r (fun s => fwIn .readyXfer s && fwComponent classification identifier && size != 0
    && decide (size.toNat ≤ fwSlotSize)) (updateComponentEffect size) s

/-- A block as it is programmed: the VALID word stays erased until the image is applied. -/
def fwMasked (offset : Nat) (block : List Byte) : List Byte :=
  block.zipIdx.map fun b => if 0xFF8 ≤ offset + b.2 ∧ offset + b.2 < 0x1000 then 0xFF else b.1

/-- The checks of an image that has been received whole (R430). -/
def State.fwImageOk (s : State) (k : Nat) : Bool :=
  let h := s.fwHeader k
  fwHeaderOk h && ofLe (sha384 (s.fwBody k (recordNat h 0x10 4))) == recordNat h 0x18 48
    && decide (s.boot.fwFloor.toNat ≤ recordNat h 0xC 2)

def firmwareDataEffect (block : List Byte) (programOk : Bool) (s : State) : State :=
  if s.boot.pwrFail then s.fwStopped
  else if !programOk then s.fwFails
  else
    let n := s.mss.fw.received
    let s := { s.sealSegment .mss with
      boot := { s.boot with flash := flashProgram s.boot.flash (fwSlotAddr s.fwTarget + n) (fwMasked n block) },
      mss := { s.mss with fw := { s.mss.fw with received := n + block.length } } }
    if s.mss.fw.received = s.mss.fw.size.toNat && !s.fwImageOk s.fwTarget then s.fwFails else s

/-- The next block that the MSS fetches. -/
def State.fwNext (s : State) : Nat × Nat :=
  (s.mss.fw.received, min fwBlockSize (s.mss.fw.size.toNat - s.mss.fw.received))

/-- FIRMWARE_DATA: the block that the MSS has asked for. -/
def execFirmwareData (offset : BitVec 32) (block : List Byte) (programOk : Bool) (s : State) : Out :=
  if s.mssRuns ∧ fwIn .download s ∧ s.mss.fw.received < s.mss.fw.size.toNat ∧ (offset.toNat, block.length) = s.fwNext then
    .next (firmwareDataEffect block programOk s)
  else .next s

/-! ### Completion -/

/-- TRANSFER_COMPLETE. -/
def execTransferComplete (r : MgmtReq) (s : State) : Out :=
  fwRequest r (fun s => fwIn .download s && decide (s.mss.fw.received = s.mss.fw.size.toNat))
    (fun s => (s.fwTo .verify).mctpOk []) s

/-- VERIFY_COMPLETE. -/
def execVerifyComplete (r : MgmtReq) (s : State) : Out :=
  fwRequest r (fwIn .verify) (fun s => (s.fwTo .apply).mctpOk []) s

/-- The edition records at the end of an image's body. -/
def State.carriedRecords (s : State) (k : Nat) : List (List Byte) :=
  let h := s.fwHeader k
  let n := recordNat h 0x14 1
  let base := fwSlotAddr k + 4096 + recordNat h 0x10 4
  (List.range n).map fun i => flashRead s.boot.flash (base - 4096 * (n - i)) 4096

/-- The VALID word is programmed last; then the event, the alert and the carried editions. -/
def applyCompleteEffect (s : State) : State :=
  if s.boot.pwrFail then s.fwStopped.mctpRefused
  else
    let k := s.fwTarget
    let s := { s with boot := { s.boot with
      flash := flashProgram s.boot.flash (fwSlotAddr k + 0xFF8) (List.replicate 8 0) } }
    let s := ((s.fwTo .activate).sealSync.emit srcMss 0x0541 []).mssAlert
    ((s.carriedRecords k).foldl State.writeCarried s).mctpOk []

/-- APPLY_COMPLETE. -/
def execApplyComplete (r : MgmtReq) (s : State) : Out := fwRequest r (fwIn .apply) applyCompleteEffect s

/-- The preference entry names the new slot (R465). -/
def activateFirmwareEffect (s : State) : State :=
  if s.boot.pwrFail then s.fwStopped.mctpRefused
  else
    let k := s.fwTarget
    let s := s.appendBoot { currentOf s.boot.flash with kind := 3, fwSlot := 0xFF, fwPref := k }
    ({ s with mss := { s.mss with fw := { s.mss.fw with
        state := .idle, received := 0, pendingSlot := some (BitVec.ofNat 1 k) } } }).mctpOk []

/-- ACTIVATE_FIRMWARE: activation at the next reset. -/
def execActivateFirmware (r : MgmtReq) (s : State) : Out := fwRequest r (fwIn .activate) activateFirmwareEffect s

/-! ### Cancellation -/

/-- Whether a component is under way. -/
def fwUnderWay (s : State) : Bool :=
  s.mss.fw.state == .download || s.mss.fw.state == .verify || s.mss.fw.state == .apply

def State.fwCancelled (s : State) (st : FwState) : State :=
  (({ s with mss := { s.mss with fw := { s.mss.fw with state := st, received := 0, failed := false } } }).sealSync.emit srcMss
    0x0542 []).mctpOk []

/-- CANCEL_UPDATE_COMPONENT: the slot stays invalid. -/
def execCancelUpdateComponent (r : MgmtReq) (s : State) : Out :=
  fwRequest r fwUnderWay (fun s => s.fwCancelled .readyXfer) s

/-- An image that has been applied already becomes invalid again: its header's sector is erased. Log entry 25. -/
def cancelUpdateEffect (s : State) : State :=
  if s.mss.fw.state = .activate then
    (if s.boot.pwrFail then s.mctpRefused
     else ({ s with boot := { s.boot with flash := flashErase s.boot.flash (fwSlotAddr s.fwTarget) } }).fwCancelled .idle)
  else s.fwCancelled .idle

/-- CANCEL_UPDATE. -/
def execCancelUpdate (r : MgmtReq) (s : State) : Out :=
  fwRequest r (fun s => s.mss.fw.state != .idle) cancelUpdateEffect s

end Sys2Proof.Machine
end

