-- ==== Sys2Proof/Machine/Grain.lean ====
section
/-! DEFINITION. The grain source (R300, R301). -/

namespace Sys2Proof.Machine

/-- The repetition count over some samples: the longest run so far, with the run at the end and its sample. -/
def runsOf : List Byte → Nat × Nat × Option Byte → Nat × Nat × Option Byte
  | [], z => z
  | b :: r, z =>
    let n := if z.2.2 = some b then z.2.1 + 1 else 1
    runsOf r (max z.1 n, n, some b)

/-- Matches of a window's first sample. -/
def windowMatches (w : List Byte) : Nat := match w with | [] => 0 | b :: _ => (w.filter (· == b)).length

/-- Both health tests of R300 pass over consecutive samples, which follow on those of the seed before: a run goes on
from there, and 1,024 samples are whole windows. -/
def Grain.healthy (g : Grain) (l : List Byte) : Bool :=
  decide ((runsOf l (0, g.run, g.lastSample)).1 < 41) && (chunks 512 l).all fun w => decide (windowMatches w < 410)

/-- The source has tested some samples. -/
def Grain.tested (g : Grain) (l : List Byte) : Grain :=
  let z := runsOf l (0, g.run, g.lastSample)
  { g with run := z.2.1, lastSample := z.2.2 }

/-- The seed of 1,024 samples: the first 256 bits of their digest. -/
def seedOf (samples : List Byte) : BitVec 256 := BitVec.ofNat 256 (ofLe ((sha384 samples).take 32))

/-- A health test has failed (R301): buffer and seeds under construction are discarded, and the start-up test begins
anew. -/
def State.grainFails (s : State) : State :=
  { s with grain := { seeds := [], failed := true, startUp := false, run := 0, lastSample := none } }.emit srcGrain
    0x0450 []

/-- SEED_READY: a seed joins the buffer of four, once the start-up test has passed. Samples that fail a test are a
health failure. -/
def execSeedReady (samples : List Byte) (s : State) : Out :=
  if samples.length = 1024 ∧ s.grain.failed = false ∧ s.grain.startUp = true ∧ s.grain.seeds.length < 4 then
    if s.grain.healthy samples then
      .next { s with grain := { s.grain.tested samples with seeds := s.grain.seeds ++ [seedOf samples] } }
    else .next s.grainFails
  else .next s

/-- GRAIN_HEALTH_FAILURE. -/
def execGrainHealthFailure (s : State) : Out := .next s.grainFails

/-- GRAIN_RESTART: the start-up test, over 1,024 samples, passes; a source that had failed writes event 0x0451 and
resumes. Samples that fail a test are a health failure. -/
def execGrainRestart (samples : List Byte) (s : State) : Out :=
  if samples.length = 1024 ∧ s.grain.startUp = false then
    if s.grain.healthy samples then
      let t := { s with grain := { s.grain.tested samples with failed := false, startUp := true } }
      if s.grain.failed then .next (t.emit srcGrain 0x0451 []) else .next t
    else .next s.grainFails
  else .next s

end Sys2Proof.Machine
end

