-- ==== Sys2Proof/Machine/Jtag.lean ====
section
/-! DEFINITION. The JTAG port (R497) and the addresses of the management bus (R415). -/

namespace Sys2Proof.Machine

/-- IDCODE: version 1 for B0, part 0x8320, Tolusk's JEP106 code, and a 1. -/
def idcodeValue : Word := BitVec.ofNat 32 (0x1 <<< 28 + 0x8320 <<< 12 + Config.jep106.toNat <<< 1 + 1)

def State.jtagTo (s : State) (i : JtagInstr) (data : Word) : State :=
  { s with boot := { s.boot with jtag := i, jtagData := data } }

/-- What the instruction in the register acts as: with PERST_N high, three of them act as BYPASS. -/
def State.jtagActs (s : State) : JtagInstr :=
  if s.boot.perstLow then s.boot.jtag
  else match s.boot.jtag with
    | .extest => .bypass | .clamp => .bypass | .highz => .bypass
    | i => i

/-- Whether JTAG floats the outputs. -/
def State.outputsFloat (s : State) : Bool := s.jtagActs == .highz

/-- BYPASS: the bypass register, which captures 0. -/
def execBypass (s : State) : Out := .next (s.jtagTo .bypass 0)

/-- IDCODE. -/
def execIdcode (s : State) : Out := .next (s.jtagTo .idcode idcodeValue)

/-- SAMPLE/PRELOAD: the boundary cells. -/
def execSamplePreload (cells : List Bool) (s : State) : Out :=
  .next { s.jtagTo .sample s.boot.jtagData with boot := { (s.jtagTo .sample s.boot.jtagData).boot with boundary := cells } }

/-- EXTEST: the boundary cells drive the pins while PERST_N is low; else the bypass register is selected. -/
def execExtest (s : State) : Out := .next (s.jtagTo .extest (if s.boot.perstLow then s.boot.jtagData else 0))

/-- CLAMP: the boundary cells drive the outputs while PERST_N is low; the bypass register is selected. -/
def execClamp (s : State) : Out := .next (s.jtagTo .clamp 0)

/-- HIGHZ: the outputs float while PERST_N is low; the bypass register is selected. -/
def execHighz (s : State) : Out := .next (s.jtagTo .highz 0)

/-! ### The management bus (R415) -/

/-- ENDPOINT_ID_ASSIGNMENT. -/
def execEndpointIdAssignment (eid : BitVec 8) (s : State) : Out :=
  if s.mssRuns then .next { s with mss := { s.mss with eid := eid } } else .next s

/-- DYNAMIC_ADDRESS_ASSIGNMENT: in the I3C binding. -/
def execDynamicAddressAssignment (address : BitVec 7) (s : State) : Out :=
  if s.mssRuns ∧ s.edition.mctpBind = false then .next { s with mss := { s.mss with dynamicAddress := some address } }
  else .next s

/-- The 7-bit address of the SMBus binding. -/
def State.smbusAddress (s : State) : Nat := 0x60 + s.boot.boardSlot.toNat

end Sys2Proof.Machine
end

