-- ==== Sys2Proof/Machine/Tdisp.lean ====
section
/-! DEFINITION. IDE key management and TDISP in a secured session (R379, R380). -/

namespace Sys2Proof.Machine

/-! ### IDE_KM -/

/-- The two streams, and the three sub-streams of posted, non-posted and completion traffic. Log entry 26. -/
def ideLocOk (l : IdeKeyLoc) : Bool := decide (l.stream.toNat < 2) && decide (l.subStream.toNat < 3)

def ideIndex (l : IdeKeyLoc) (keySet : Nat) : Nat :=
  ((l.stream.toNat * 2 + keySet) * 2 + l.rxTx.toNat) * 16 + l.subStream.toNat

def State.ideKey (s : State) (k : Nat) : IdeKey := smapGet .none s.sec.ide k
def State.setIdeKey (s : State) (k : Nat) (x : IdeKey) : State :=
  { s with sec := { s.sec with ide := smapPut .none s.sec.ide k x } }

/-- A stream's registers: the BARs of its one address-association block, PCRC and the TEE-limited option. -/
def streamByte (x : IdeStream) : Nat := boolNat x.bar0 + 2 * boolNat x.bar2 + 4 * boolNat x.pcrc + 8 * boolNat x.teeLimited

/-- QUERY: two selective streams with their registers, no link streams. -/
def execQuery (session : BitVec 32) (s : State) : Out :=
  inSession .doe session (fun s => s.answerOk .doe (leBytes 1 2 ++ leBytes 1 0
    ++ [0, 1].flatMap fun k => leBytes 1 (streamByte (smapGet noStream s.sec.ideStreams k)))) s

def keyProgEffect (l : IdeKeyLoc) (key : BitVec 256) (s : State) : State :=
  if ideLocOk l then (s.setIdeKey (ideIndex l l.keySet.toNat) ⟨key, true, false⟩).answerOk .doe []
  else s.answerError .doe errInvalidRequest

/-- KEY_PROG. -/
def execKeyProg (session : BitVec 32) (loc : IdeKeyLoc) (key : BitVec 256) (s : State) : Out :=
  inSession .doe session (keyProgEffect loc key) s

def IdeKey.use (x : IdeKey) (b : Bool) : IdeKey := { x with inUse := b }

def State.setStream (s : State) (k : Nat) (x : IdeStream) : State :=
  { s with sec := { s.sec with ideStreams := smapPut noStream s.sec.ideStreams k x } }

/-- The stream, with its registers as they are set, goes over to the key set, if its key has been programmed. -/
def kSetGoEffect (l : IdeKeyLoc) (stream : IdeStream) (s : State) : State :=
  let k := ideIndex l l.keySet.toNat
  let other := ideIndex l (1 - l.keySet.toNat)
  if ideLocOk l && (s.ideKey k).programmed then
    (((s.setIdeKey k ((s.ideKey k).use true)).setIdeKey other ((s.ideKey other).use false)).setStream l.stream.toNat
      stream).answerOk .doe []
  else s.answerError .doe errInvalidRequest

/-- K_SET_GO. -/
def execKSetGo (session : BitVec 32) (loc : IdeKeyLoc) (stream : IdeStream) (s : State) : Out :=
  inSession .doe session (kSetGoEffect loc stream) s

/-- The key set stops, and its key is forgotten. -/
def kSetStopEffect (l : IdeKeyLoc) (s : State) : State :=
  if ideLocOk l then (s.setIdeKey (ideIndex l l.keySet.toNat) .none).answerOk .doe [] else s.answerError .doe errInvalidRequest

/-- K_SET_STOP. -/
def execKSetStop (session : BitVec 32) (loc : IdeKeyLoc) (s : State) : Out :=
  inSession .doe session (kSetStopEffect loc) s

/-! ### TDISP -/

def tdiCode : TdiState → Nat
  | .unlocked => 0 | .locked => 1 | .run => 2 | .error => 3

def State.tdiTo (s : State) (t : TdiState) : State := { s with sec := { s.sec with tdi := t } }

/-- GET_TDISP_VERSION: 1.0. -/
def execGetTdispVersion (session : BitVec 32) (s : State) : Out :=
  inSession .doe session (fun s => s.answerOk .doe [0x10]) s

/-- GET_TDISP_CAPABILITIES: one TDI, and the seven requests of R379. -/
def execGetTdispCapabilities (session : BitVec 32) (s : State) : Out :=
  inSession .doe session (fun s => s.answerOk .doe [1, 7]) s

/-- A request that moves the TDI out of one state only. -/
def tdiMove (from_ dest : TdiState) (s : State) : State :=
  if s.sec.tdi = from_ then (s.tdiTo dest).answerOk .doe [] else s.answerError .doe errInvalidRequest

/-- LOCK_INTERFACE_REQUEST. -/
def execLockInterfaceRequest (session : BitVec 32) (s : State) : Out :=
  inSession .doe session (tdiMove .unlocked .locked) s

/-- START_INTERFACE_REQUEST. -/
def execStartInterfaceRequest (session : BitVec 32) (s : State) : Out :=
  inSession .doe session (tdiMove .locked .run) s

/-- STOP_INTERFACE_REQUEST: from any state, ERROR too. -/
def execStopInterfaceRequest (session : BitVec 32) (s : State) : Out :=
  inSession .doe session (fun s => (s.tdiTo .unlocked).answerOk .doe []) s

/-- The interface report: BAR0, and BAR2 with whether it is mapped. -/
def reportBytes (s : State) : List Byte := [0, 1, 2, if s.sec.sealed then 0 else 1]

/-- GET_DEVICE_INTERFACE_REPORT. -/
def execGetDeviceInterfaceReport (session : BitVec 32) (s : State) : Out :=
  inSession .doe session (fun s => s.answerOk .doe (reportBytes s)) s

/-- GET_DEVICE_INTERFACE_STATE. -/
def execGetDeviceInterfaceState (session : BitVec 32) (s : State) : Out :=
  inSession .doe session (fun s => s.answerOk .doe (leBytes 1 (tdiCode s.sec.tdi))) s

end Sys2Proof.Machine
end

