-- ==== Sys2Proof/Machine/Dispatch.lean ====
section
/-! DEFINITION. The dispatch: one arm per command. -/

namespace Sys2Proof.Machine

def exec (i : Instr) (s : State) : Host.Outcome State Fault Refusal :=
  match i with
  | .loadA e iss a => Sys2Proof.Machine.execLoadA e iss a s
  | .loadW e iss a => Sys2Proof.Machine.execLoadW e iss a s
  | .loadMeta e iss a => Sys2Proof.Machine.execLoadMeta e iss a s
  | .loadS e iss a => Sys2Proof.Machine.execLoadS e iss a s
  | .loadDiag e iss a => Sys2Proof.Machine.execLoadDiag e iss a s
  | .pass e iss a => Sys2Proof.Machine.execPass e iss a s
  | .swap e iss => Sys2Proof.Machine.execSwap e iss s
  | .drain e iss a => Sys2Proof.Machine.execDrain e iss a s
  | .param e iss a => Sys2Proof.Machine.execParam e iss a s
  | .write e iss a => Sys2Proof.Machine.execWrite e iss a s
  | .markWait st iss a => Sys2Proof.Machine.execMarkWait st iss a s
  | .markSignal st iss a => Sys2Proof.Machine.execMarkSignal st iss a s
  | .markRemote st iss a => Sys2Proof.Machine.execMarkRemote st iss a s
  | .burnish c iss a => Sys2Proof.Machine.execBurnish c iss a s
  | .topb x iss a => Sys2Proof.Machine.execTopb x iss a s
  | .setwin x iss a => Sys2Proof.Machine.execSetwin x iss a s
  | .sample x iss a => Sys2Proof.Machine.execSample x iss a s
  | .fill x iss a => Sys2Proof.Machine.execFill x iss a s
  | .clear c iss a => Sys2Proof.Machine.execClear c iss a s
  | .accum c iss a => Sys2Proof.Machine.execAccum c iss a s
  | .gather c iss a => Sys2Proof.Machine.execGather c iss a s
  | .stippleInsert c => Sys2Proof.Machine.execStippleInsert c s
  | .fold c iss a => Sys2Proof.Machine.execFold c iss a s
  | .copy c iss a => Sys2Proof.Machine.execCopy c iss a s
  | .update u iss a => Sys2Proof.Machine.execUpdate u iss a s
  | .norm u iss a => Sys2Proof.Machine.execNorm u iss a s
  | .send r iss a => Sys2Proof.Machine.execSend r iss a s
  | .recv r iss a => Sys2Proof.Machine.execRecv r iss a s
  | .fxexp r iss a => Sys2Proof.Machine.execFxexp r iss a s
  | .fxset r iss a => Sys2Proof.Machine.execFxset r iss a s
  | .fxadd r iss a => Sys2Proof.Machine.execFxadd r iss a s
  | .fxout r iss a => Sys2Proof.Machine.execFxout r iss a s
  | .strokeStart => Sys2Proof.Machine.execStrokeStart s
  | .strokeTail seedReadFails => Sys2Proof.Machine.execStrokeTail seedReadFails s
  | .stepBegin => Sys2Proof.Machine.execStepBegin s
  | .gateAlarm => Sys2Proof.Machine.execGateAlarm s
  | .closingRefresh => Sys2Proof.Machine.execClosingRefresh s
  | .refreshSlot stack k => Sys2Proof.Machine.execRefreshSlot stack k s
  | .strokeCloseSend => Sys2Proof.Machine.execStrokeCloseSend s
  | .strokeClose l h m => Sys2Proof.Machine.execStrokeClose l h m s
  | .dataFlit l h payload => Sys2Proof.Machine.execDataFlit l h payload s
  | .frame l n symbols => Sys2Proof.Machine.execFrame l n symbols s
  | .replaySend l => Sys2Proof.Machine.execReplaySend l s
  | .replayTimeout l control number => Sys2Proof.Machine.execReplayTimeout l control number s
  | .gateNotice port h step ready => Sys2Proof.Machine.execGateNotice port h step ready s
  | .stopNotice port h m => Sys2Proof.Machine.execStopNotice port h m s
  | .remoteMark port h mark value => Sys2Proof.Machine.execRemoteMark port h mark value s
  | .normTotal port h m => Sys2Proof.Machine.execNormTotal port h m s
  | .exponentMaxima port h maxima => Sys2Proof.Machine.execExponentMaxima port h maxima s
  | .roleStaleReport port h m => Sys2Proof.Machine.execRoleStaleReport port h m s
  | .boardTimeCheckSend port => Sys2Proof.Machine.execBoardTimeCheckSend port s
  | .boardTimeCheck port h m landing16 => Sys2Proof.Machine.execBoardTimeCheck port h m landing16 s
  | .laneLossOfLock port lane => Sys2Proof.Machine.execLaneLossOfLock port lane s
  | .laneSwap port receive lane => Sys2Proof.Machine.execLaneSwap port receive lane s
  | .spareLaneRestore port receive => Sys2Proof.Machine.execSpareLaneRestore port receive s
  | .laneWindow port corrected prbsErrors => Sys2Proof.Machine.execLaneWindow port corrected prbsErrors s
  | .portEnable port => Sys2Proof.Machine.execPortEnable port s
  | .portDisable port => Sys2Proof.Machine.execPortDisable port s
  | .portTrained port peer => Sys2Proof.Machine.execPortTrained port peer s
  | .portTrainingTimeout port => Sys2Proof.Machine.execPortTrainingTimeout port s
  | .portDrainEnd port => Sys2Proof.Machine.execPortDrainEnd port s
  | .seamLossOfLock plate channel => Sys2Proof.Machine.execSeamLossOfLock plate channel s
  | .seamRetrained => Sys2Proof.Machine.execSeamRetrained s
  | .seamRetrainTimeout => Sys2Proof.Machine.execSeamRetrainTimeout s
  | .launchAt value => Sys2Proof.Machine.execLaunchAt value s
  | .launchCheck seedReadFails => Sys2Proof.Machine.execLaunchCheck seedReadFails s
  | .launch => Sys2Proof.Machine.execLaunch s
  | .abort => Sys2Proof.Machine.execAbort s
  | .abortComplete stops => Sys2Proof.Machine.execAbortComplete stops s
  | .faultClear => Sys2Proof.Machine.execFaultClear s
  | .counterClear => Sys2Proof.Machine.execCounterClear s
  | .roleCommit => Sys2Proof.Machine.execRoleCommit s
  | .syncFire => Sys2Proof.Machine.execSyncFire s
  | .syncIn => Sys2Proof.Machine.execSyncIn s
  | .remoteSignal mark role => Sys2Proof.Machine.execRemoteSignal mark role s
  | .remoteSignalSend => Sys2Proof.Machine.execRemoteSignalSend s
  | .loadTrigger => Sys2Proof.Machine.execLoadTrigger s
  | .loadCheck deliveryMet => Sys2Proof.Machine.execLoadCheck deliveryMet s
  | .ringContextWrite ring word value => Sys2Proof.Machine.execRingContextWrite ring word value s
  | .ringEnable ring => Sys2Proof.Machine.execRingEnable ring s
  | .ringDisable ring => Sys2Proof.Machine.execRingDisable ring s
  | .ringDrainEnd ring blocks busError => Sys2Proof.Machine.execRingDrainEnd ring blocks busError s
  | .doorbell ring value => Sys2Proof.Machine.execDoorbell ring value s
  | .inCopyDone ring at_ end_ => Sys2Proof.Machine.execInCopyDone ring at_ end_ s
  | .outDescriptor ring end_ => Sys2Proof.Machine.execOutDescriptor ring end_ s
  | .recordWrite busError => Sys2Proof.Machine.execRecordWrite busError s
  | .recordsLost ring => Sys2Proof.Machine.execRecordsLost ring s
  | .coalesceTimeout ring => Sys2Proof.Machine.execCoalesceTimeout ring s
  | .markWrite mark value => Sys2Proof.Machine.execMarkWrite mark value s
  | .markAdd mark value => Sys2Proof.Machine.execMarkAdd mark value s
  | .watchArm watch value => Sys2Proof.Machine.execWatchArm watch value s
  | .watchDisarm watch value => Sys2Proof.Machine.execWatchDisarm watch value s
  | .clusterEnable c => Sys2Proof.Machine.execClusterEnable c s
  | .clusterDisable c => Sys2Proof.Machine.execClusterDisable c s
  | .clusterDrainEnd c => Sys2Proof.Machine.execClusterDrainEnd c s
  | .clusterPowered c => Sys2Proof.Machine.execClusterPowered c s
  | .debugEn value => Sys2Proof.Machine.execDebugEn value s
  | .capArmed value => Sys2Proof.Machine.execCapArmed value s
  | .capDisarm value => Sys2Proof.Machine.execCapDisarm value s
  | .debugRefusalReport => Sys2Proof.Machine.execDebugRefusalReport s
  | .storeWindowAccess offset access => Sys2Proof.Machine.execStoreWindowAccess offset access s
  | .winBase value => Sys2Proof.Machine.execWinBase value s
  | .bar2Access offset access => Sys2Proof.Machine.execBar2Access offset access s
  | .bar2Aperture value => Sys2Proof.Machine.execBar2Aperture value s
  | .namedRings value => Sys2Proof.Machine.execNamedRings value s
  | .gearFloor value => Sys2Proof.Machine.execGearFloor value s
  | .generatorCounterWrite index value => Sys2Proof.Machine.execGeneratorCounterWrite index value s
  | .gaugeSettingWrite index value => Sys2Proof.Machine.execGaugeSettingWrite index value s
  | .refusedClear value => Sys2Proof.Machine.execRefusedClear value s
  | .registerWrite offset bytes value => Sys2Proof.Machine.execRegisterWrite offset bytes value s
  | .flr => Sys2Proof.Machine.execFlr s
  | .perstNAssert => Sys2Proof.Machine.execPerstNAssert s
  | .boot facts => Sys2Proof.Machine.execBoot facts s
  | .bootReady => Sys2Proof.Machine.execBootReady s
  | .watchdogExpiry => Sys2Proof.Machine.execWatchdogExpiry s
  | .pgoodDeassert group => Sys2Proof.Machine.execPgoodDeassert group s
  | .pwrFailNAssert => Sys2Proof.Machine.execPwrFailNAssert s
  | .pwrFailNDeassert => Sys2Proof.Machine.execPwrFailNDeassert s
  | .refclkLoss => Sys2Proof.Machine.execRefclkLoss s
  | .thermalTrip sensor => Sys2Proof.Machine.execThermalTrip sensor s
  | .scrubComplete => Sys2Proof.Machine.execScrubComplete s
  | .seedReady samples => Sys2Proof.Machine.execSeedReady samples s
  | .grainHealthFailure => Sys2Proof.Machine.execGrainHealthFailure s
  | .grainRestart samples => Sys2Proof.Machine.execGrainRestart samples s
  | .checkStroke results => Sys2Proof.Machine.execCheckStroke results s
  | .sensorSample sensor reading => Sys2Proof.Machine.execSensorSample sensor reading s
  | .gearPolicyTick => Sys2Proof.Machine.execGearPolicyTick s
  | .telemetryWindow => Sys2Proof.Machine.execTelemetryWindow s
  | .logMirror facts => Sys2Proof.Machine.execLogMirror facts s
  | .sensorRead r sensor => Sys2Proof.Machine.execSensorRead r sensor s
  | .getStatus r => Sys2Proof.Machine.execGetStatus r s
  | .logRead r seq => Sys2Proof.Machine.execLogRead r seq s
  | .setPowerCap r watts => Sys2Proof.Machine.execSetPowerCap r watts s
  | .editionRevert r => Sys2Proof.Machine.execEditionRevert r s
  | .cperAck r recordId => Sys2Proof.Machine.execCperAck r recordId s
  | .queryDeviceIdentifiers r => Sys2Proof.Machine.execQueryDeviceIdentifiers r s
  | .getFirmwareParameters r => Sys2Proof.Machine.execGetFirmwareParameters r s
  | .requestUpdate r components => Sys2Proof.Machine.execRequestUpdate r components s
  | .passComponentTable r classification identifier => Sys2Proof.Machine.execPassComponentTable r classification identifier s
  | .updateComponent r classification identifier size => Sys2Proof.Machine.execUpdateComponent r classification identifier size s
  | .firmwareData offset block programOk => Sys2Proof.Machine.execFirmwareData offset block programOk s
  | .transferComplete r => Sys2Proof.Machine.execTransferComplete r s
  | .verifyComplete r => Sys2Proof.Machine.execVerifyComplete r s
  | .applyComplete r => Sys2Proof.Machine.execApplyComplete r s
  | .activateFirmware r => Sys2Proof.Machine.execActivateFirmware r s
  | .pldmGetStatus r => Sys2Proof.Machine.execPldmGetStatus r s
  | .cancelUpdateComponent r => Sys2Proof.Machine.execCancelUpdateComponent r s
  | .cancelUpdate r => Sys2Proof.Machine.execCancelUpdate r s
  | .doeDiscovery index => Sys2Proof.Machine.execDoeDiscovery index s
  | .getVersion c => Sys2Proof.Machine.execGetVersion c s
  | .getCapabilities c => Sys2Proof.Machine.execGetCapabilities c s
  | .negotiateAlgorithms c offer => Sys2Proof.Machine.execNegotiateAlgorithms c offer s
  | .getDigests c session => Sys2Proof.Machine.execGetDigests c session s
  | .getCertificate c session slot offset length => Sys2Proof.Machine.execGetCertificate c session slot offset length s
  | .challenge c slot nonce => Sys2Proof.Machine.execChallenge c slot nonce s
  | .getMeasurements c session index sign nonce => Sys2Proof.Machine.execGetMeasurements c session index sign nonce s
  | .keyExchange c exportSecret => Sys2Proof.Machine.execKeyExchange c exportSecret s
  | .finishSession c session macOk root transcript => Sys2Proof.Machine.execFinishSession c session macOk root transcript s
  | .heartbeat c session => Sys2Proof.Machine.execHeartbeat c session s
  | .keyUpdate c session => Sys2Proof.Machine.execKeyUpdate c session s
  | .endSession c session => Sys2Proof.Machine.execEndSession c session s
  | .sessionTimeout c session => Sys2Proof.Machine.execSessionTimeout c session s
  | .tenantBegin r => Sys2Proof.Machine.execTenantBegin r s
  | .tenantEnd r => Sys2Proof.Machine.execTenantEnd r s
  | .rekey r => Sys2Proof.Machine.execRekey r s
  | .policySet r => Sys2Proof.Machine.execPolicySet r s
  | .importBegin r => Sys2Proof.Machine.execImportBegin r s
  | .importSegment busError => Sys2Proof.Machine.execImportSegment busError s
  | .status r => Sys2Proof.Machine.execStatus r s
  | .bind r => Sys2Proof.Machine.execBind r s
  | .tenantResponse => Sys2Proof.Machine.execTenantResponse s
  | .keyStoreCommit outcome => Sys2Proof.Machine.execKeyStoreCommit outcome s
  | .query session => Sys2Proof.Machine.execQuery session s
  | .keyProg session loc key => Sys2Proof.Machine.execKeyProg session loc key s
  | .kSetGo session loc stream => Sys2Proof.Machine.execKSetGo session loc stream s
  | .kSetStop session loc => Sys2Proof.Machine.execKSetStop session loc s
  | .getTdispVersion session => Sys2Proof.Machine.execGetTdispVersion session s
  | .getTdispCapabilities session => Sys2Proof.Machine.execGetTdispCapabilities session s
  | .lockInterfaceRequest session => Sys2Proof.Machine.execLockInterfaceRequest session s
  | .getDeviceInterfaceReport session => Sys2Proof.Machine.execGetDeviceInterfaceReport session s
  | .getDeviceInterfaceState session => Sys2Proof.Machine.execGetDeviceInterfaceState session s
  | .startInterfaceRequest session => Sys2Proof.Machine.execStartInterfaceRequest session s
  | .stopInterfaceRequest session => Sys2Proof.Machine.execStopInterfaceRequest session s
  | .bypass => Sys2Proof.Machine.execBypass s
  | .idcode => Sys2Proof.Machine.execIdcode s
  | .samplePreload cells => Sys2Proof.Machine.execSamplePreload cells s
  | .extest => Sys2Proof.Machine.execExtest s
  | .clamp => Sys2Proof.Machine.execClamp s
  | .highz => Sys2Proof.Machine.execHighz s
  | .pllLockTimeout plate => Sys2Proof.Machine.execPllLockTimeout plate s
  | .sequencingViolation groups => Sys2Proof.Machine.execSequencingViolation groups s
  | .endpointIdAssignment eid => Sys2Proof.Machine.execEndpointIdAssignment eid s
  | .dynamicAddressAssignment address => Sys2Proof.Machine.execDynamicAddressAssignment address s

end Sys2Proof.Machine
end

