-- ==== Sys2Proof/Machine/Idle.lean ====
section
/-! DEFINITION. What a step does when no command waits. -/

namespace Sys2Proof.Machine

/-- One REFCLK edge: ten counts of board time (R283). Nothing else happens by itself: every other event of
the block is a command of the table. Log entry 11. -/
def idle (s : State) : State := s.advanceTo (s.boardTime.toNat + 10)

end Sys2Proof.Machine
end

