-- ==== Sys2Proof/Safety.lean ====
section
/-! DEFINITION. What the statements about the block speak of: outcomes that go on, the parts that no command changes,
and the canonical form of what the state holds sparsely. -/

namespace Sys2Proof.Machine

/-- A command completes: its outcome is a next state. -/
def completes (o : Out) : Prop := ∃ t, o = .next t

/-- What no command changes: the commands that wait, and what OTP and ROM of the bed die hold. -/
def State.fixed (s : State) : List Instr × DWord × Option (BitVec 384) × BitVec 384 :=
  (s.pending, s.boot.uniqueId, s.boot.ownerKeyDigest, s.boot.romDigest)

/-- Memory in canonical form: addresses strictly rising, no entry equal to what an unlisted address reads as. -/
def Memory.wf (m : Memory) : Bool :=
  smapWf 0 m.bytes && smapWf .unwritten m.marks && smapWf false m.fresh && smapWf 0 m.host

/-- Everything else that the state holds by number, in the same form: engines, clusters, stations, marks, links, ports
and rings. -/
def State.canonical (s : State) : Bool :=
  smapWf .empty s.engines && smapWf .zero s.counts && smapWf .reset s.remaps && smapWf .reset s.nextRemaps
    && smapWf .reset s.gates && smapWf .zero s.clusterCounts && smapWf .zero s.stackCounts && smapWf 0 s.lanes
    && smapWf .zero s.picks && smapWf .empty s.windows && smapWf .empty s.stipples && smapWf 0 s.busy
    && smapWf 0 s.nextIssue && smapWf 0 s.taken && smapWf 0 s.reports && smapWf 0 s.partials && smapWf 0 s.segE
    && smapWf none s.segMax && smapWf 0 s.marks && smapWf .reset s.watches && smapWf .empty s.links
    && smapWf .reset s.ports && smapWf .up s.seam && smapWf 0 s.sourceSeq && smapWf .reset s.rings
    && smapWf .reset s.msix && smapWf .reset s.gauges

/-- A state whose fixed part is `k`, with all that it holds by address or by number in canonical form. -/
def Kept (k : List Instr × DWord × Option (BitVec 384) × BitVec 384) (s : State) : Prop :=
  s.fixed = k ∧ s.mem.wf = true ∧ s.canonical = true

/-- Nothing differs but what writing event records changes: the sources' sequence numbers, the records of the stroke or
those that have closed, EVENTS of R336, the log with its CPER records and, once the log is written to flash directly,
the flash. -/
def State.sameButEvents (s t : State) : Prop :=
  t = { s with
    sourceSeq := t.sourceSeq, opened := t.opened, closed := t.closed,
    seq := { s.seq with events := t.seq.events },
    mss := { s.mss with sram := t.mss.sram, unmirrored := t.mss.unmirrored, nextSeq := t.mss.nextSeq,
                        dropped := t.mss.dropped, backup := t.mss.backup, mirrorPos := t.mss.mirrorPos,
                        cper := t.mss.cper, cperDropped := t.mss.cperDropped, mgmtAlert := t.mss.mgmtAlert,
                        writing := t.mss.writing },
    boot := { s.boot with flash := t.boot.flash } }

/-- A record is the next one written: it joins the records of the stroke, or those that have closed; behind it come at
most the fragments of its CPER record (R428). -/
def State.wrote (s t : State) (r : Record) : Prop :=
  ∃ rest : List Record, (∀ x ∈ rest, x.code = 0x0530) ∧
    if s.seq.phase = .inStroke then t.opened = s.opened ++ r :: rest ∧ t.closed = s.closed
    else t.closed = s.closed ++ r :: rest ∧ t.opened = s.opened

/-- From `s` to `t` one event is written, with its code, its source and its fields, and nothing else happens. -/
def State.emits (s t : State) (src code : Nat) (fields : List (Nat × Nat)) : Prop :=
  s.sameButEvents t ∧ ∃ r : Record, s.wrote t r ∧ r.kind = 2 ∧ r.code = BitVec.ofNat 16 code
    ∧ r.source = BitVec.ofNat 24 src ∧ r.seq = smapGet 0 s.sourceSeq src ∧ r.time = s.boardTime
    ∧ r.payload = eventPayload fields

/-- From `s` to `t` the MSS logs a decision of its own (R422), and nothing else happens: no record but the fragments of
its CPER record; the entry is the last of the log's SRAM while the log is kept there. -/
def State.logs (s t : State) (code : Nat) : Prop :=
  s.sameButEvents t ∧
  (∃ rest : List Record, (∀ x ∈ rest, x.code = 0x0530) ∧
    if s.seq.phase = .inStroke then t.opened = s.opened ++ rest ∧ t.closed = s.closed
    else t.closed = s.closed ++ rest ∧ t.opened = s.opened) ∧
  (s.mss.degraded = false → s.mss.backupFailed = false → ∃ e : LogEntry, t.mss.sram.getLast? = some e ∧
    e.code = BitVec.ofNat 16 code ∧ e.kind = 2 ∧ e.seq = s.mss.nextSeq)

/-- From `s` to `t` nothing differs but the links: flits wait there, or have been sent. -/
def State.sends (s t : State) : Prop := t = { s with links := t.links }

/-- The station and the issue cycle of a station command (R49, R73–R93, R144–R272). -/
def stationOf : Instr → Option (StationRef × Issue)
  | .loadA e i _ | .loadS e i _ | .loadDiag e i _ => some (.fetch e, i)
  | .loadW e i _ => some (.fetch e, i)
  | .loadMeta e i _ => some (.fetch e, i)
  | .pass e i _ => some (.etch e, i)
  | .swap e i => some (.etch e, i)
  | .drain e i _ => some (.finish e, i)
  | .param e i _ => some (.finish e, i)
  | .write e i _ => some (.store e, i)
  | .markWait st i _ => some (st, i)
  | .markSignal st i _ => some (st, i)
  | .markRemote st i _ => some (st, i)
  | .burnish c i _ => some (.burnisher c, i)
  | .topb x i _ => some (.selector x, i)
  | .setwin x i _ => some (.selector x, i)
  | .sample x i _ | .fill x i _ => some (.selector x, i)
  | .clear c i _ => some (.stipple c, i)
  | .accum c i _ => some (.stipple c, i)
  | .gather c i _ => some (.stipple c, i)
  | .fold c i _ => some (.stipple c, i)
  | .copy c i _ => some (.counterproof c, i)
  | .update u i _ => some (.updateUnit u, i)
  | .norm u i _ => some (.updateUnit u, i)
  | .send r i _ => some (.relay r, i)
  | .recv r i _ => some (.relay r, i)
  | .fxexp r i _ => some (.relay r, i)
  | .fxset r i _ | .fxadd r i _ | .fxout r i _ => some (.relay r, i)
  | _ => none

/-- A station may take its command word in this state: the stroke comes to it (R49), and it is not poisoned once
everything before its cycle has happened (R197). -/
def State.mayIssue (s : State) (st : StationRef) (i : Issue) : Prop :=
  s.comesTo i = true ∧ s.issueError st i = none ∧ ((s.runTo i.cycle.toNat).wordRead st i.cycle.toNat).poison = []

/-- The state in which a station checks its command: everything before its cycle has happened, and a correction in the
word is reported (R195). -/
def State.beforeIssue (s : State) (st : StationRef) (i : Issue) : State :=
  (s.runTo i.cycle.toNat).wordCorrected st i.cycle.toNat

/-- The state in which a station command has its effect: the station has taken the word (R28, R49). -/
def State.atIssue (s : State) (st : StationRef) (i : Issue) : State := (s.beforeIssue st i).issued st i

/-- The part of a command that lies ahead stands on the agenda, by its cycle and its station (R28, R189). -/
def State.planned (s : State) (st : StationRef) (cycle due : Nat) (j : Job) : State :=
  { s with works := insertWork ⟨due, stationRank st, cycle, j⟩ s.works }

/-- Nothing of the load check's refusals applies to a command in this state (R53). -/
def State.accepts (s : State) (bad : Option Nat) : Prop := s.refuses bad = none

/-- The load check's refusals apply to every command of this stroke: none has been skipped, and the constant data is as
it was checked (R197, R512). -/
def State.checksAll (s : State) : Prop := (s.skipped || s.seq.loose) = false

/-- What every accepted host write of a register does first: it discards a half that waits (R350). -/
def State.halfGone (s : State) : State := { s with regs := { s.regs with heldWrite := none } }

end Sys2Proof.Machine
end

