-- ==== Sys2Proof/Certificates/Slice0/Obligations.lean ====
section
/-! DEFINITION. The statements about the block that the provers are asked to settle. -/

open Sys2Proof Sys2Proof.Machine

/-- A step runs the waiting command; the idle step is the model's choice, log entry 11. -/
def Obligations.StepRuns : Prop :=
  (∀ (c : Instr) (rest : List Instr) (s : State), step { s with pending := c :: rest } = exec c { s with pending := rest }) ∧
  (∀ s : State, s.pending = [] → s.boardTime.toNat + 10 < 2 ^ 64 → step s =
    .next { s with boardTime := s.boardTime + 10, refclk := s.refclk + 1 }) ∧
  (∀ (c : Instr) (s : State), stationOf c = none → ∃ t, exec c s = .next t) ∧
  (∀ (c : Instr) (s : State), (∃ t, exec c s = .next t) ∨ ∃ n, exec c s = .refused (.loadCheck n))

/-- Reset (R54, R354, R460); the edition in force is the model's choice, log entries 1 and 2. -/
def Obligations.ResetState : Prop :=
  let s := State.reset
  s.pending = [] ∧ s.boot.phase = .ready ∧ s.seq.state = .idle ∧ s.seq.phase = .none ∧ s.seq.cartoon = none ∧
  s.timeValid = false ∧ (∀ n, (smapGet Ring.reset s.rings n).state = .off) ∧ (∀ n, (smapGet Watch.reset s.watches n).armed = false) ∧
  s.boot.plates = 3 ∧ s.seq.curStep = BitVec.allOnes 64 ∧ s.seq.curStroke = BitVec.allOnes 64 ∧
  s.regs.gateAlarm = 10000000 ∧ s.regs.gearFloor = 0 ∧ s.regs.refused = false ∧ s.regs.refusedAt = 0 ∧
  s.regs.gearNow = s.edition.gearSlow ∧ s.regs.gearReq = s.edition.gearSlow ∧ s.regs.roleMap = s.edition.roleMap ∧
  s.regs.roleEpoch = s.edition.roleEpoch ∧ s.sec.tenant = none ∧ s.sec.sealed = false ∧ s.sec.scrub = none ∧
  s.regs.debug = false ∧ s.regs.loadBusy = false ∧ s.regs.remoteBusy = none ∧ s.seamRetraining = false ∧
  (∀ n, smapGet 0 s.marks n = 0) ∧ s.opened = [] ∧ s.closed = [] ∧ s.works = [] ∧ s.writes = [] ∧ s.deferred = [] ∧
  s.mem.wf = true ∧ s.canonical = true

/-- The invariant of every step. -/
def Obligations.StepKeeps : Prop := ∀ s t : State, s.mem.wf = true → s.canonical = true → step s = .next t →
  t.mem.wf = true ∧ t.canonical = true ∧ t.pending = s.pending.tail ∧ t.boot.uniqueId = s.boot.uniqueId ∧
  t.boot.ownerKeyDigest = s.boot.ownerKeyDigest ∧ t.boot.romDigest = s.boot.romDigest

/-- Reading a command word undoes writing it (R49 and the encoding tables of the stations). -/
def Obligations.CommandWordRoundTrip : Prop :=
  (∀ (c : Instr) (st : StationRef) (w : CmdWord), commandWord c = some (st, w) →
    wordClean st w = true ∧ (∃ i, stationOf c = some (st, i) ∧ wordIssue w = i) ∧
    ((∀ x i a, c ≠ .fill x i a) → readCommand st w = some c) ∧
    (∀ x i a, c = .fill x i a → readCommand st w = some (.sample x i a))) ∧
  (∀ (c : Instr) (st : StationRef) (w : CmdWord), readCommand st w = some c → wordClean st w = true →
    commandWord c = some (st, w)) ∧
  (∀ c : Instr, commandWord c = none ↔ stationOf c = none)

/-- The issue of station commands (R49, R50, R197, R199). -/
def Obligations.StationWords : Prop := ∀ (c : Instr) (st : StationRef) (i : Issue) (s : State), stationOf c = some (st, i) →
  (s.seq.phase ≠ .inStroke ∨ s.seq.cartoon = none ∨ i.stroke.toNat ≠ s.seq.strokeInStep ∨ i.cycle.toNat < s.clock →
    exec c s = .next s) ∧
  (∀ k, s.comesTo i = true → s.seq.cartoon = some k →
    (s.tailStart ≤ i.cycle.toNat → exec c s = .refused (.loadCheck 12)) ∧
    (i.cycle.toNat < s.tailStart → bitAt k.plateMask.toNat (stationPlate st).val = false →
      exec c s = .refused (.loadCheck 5)) ∧
    (i.cycle.toNat < s.tailStart → bitAt k.plateMask.toNat (stationPlate st).val = true →
      i.cycle.toNat < smapGet 0 s.nextIssue (srcStation st) → exec c s = .refused (.loadCheck 11))) ∧
  (∀ w more, s.comesTo i = true → s.issueError st i = none →
    ((s.runTo i.cycle.toNat).wordRead st i.cycle.toNat).poison = w :: more → ∃ t f,
    exec c s = .next t ∧ f.code = 0x0211 ∧ f.source = srcStation st ∧ f.cycle = i.cycle.toNat ∧ f.reported = true ∧
    let u := (s.runTo i.cycle.toNat).issued st i
    { u with
      stackCounts := t.stackCounts, reports := t.reports, seq := { u.seq with faults := u.seq.faults ++ [f] } }.emits t
      (srcStation st) 0x0211 (t.poisonFields st i.cycle.toNat (8 * w) (unitOf (8 * w))))

/-- LOAD_A, LOAD_S, LOAD_DIAG, LOAD_META and PARAM (R73, R75, R76, R88). -/
def Obligations.EngineLoads : Prop := ∀ (e : EngineLoc) (i : Issue) (s : State),
  let c := i.cycle.toNat
  let u := s.beforeIssue (.fetch e) i
  let v := s.atIssue (.fetch e) i
  (s.mayIssue (.fetch e) i → ∀ a : LoadArgs,
    let reads := a.space.toNat < 3 ∧ a.rowLen.toNat < 6 ∧ (∀ o ∈ a.offsets, u.spaceOk (.fetch e) a.space.toNat o a.len = true)
    let first := c + (if a.space = 0 ∧ a.len = 256 then 1 else 0) + latency a.space.toNat
    let stateS := a.qsel = 0 ∧ a.rowLen = 4 ∧ a.fmt = 0
    let diag := a.qsel = 0 ∧ operandLen 5 a.fmt.toNat = some a.rowLen.toNat
    (reads → exec (.loadA e i a) s = .next (v.planned (.fetch e) c first (.load e .a a 0))) ∧
    (reads → stateS → exec (.loadS e i a) s = .next (v.planned (.fetch e) c first (.load e .s a 0))) ∧
    (reads → diag → exec (.loadDiag e i a) s = .next (v.planned (.fetch e) c first (.load e .diag a 0))) ∧
    (u.checksAll → ¬ stateS → exec (.loadS e i a) s = .refused (.loadCheck 13)) ∧
    (u.checksAll → ¬ diag → exec (.loadDiag e i a) s = .refused (.loadCheck 13))) ∧
  (s.mayIssue (.fetch e) i → ∀ a : LoadMetaArgs,
    let n := metaRows a.cls.toNat (a.trans == 1) false
    a.space.toNat < 3 → a.slot.toNat < 9 → (∀ o ∈ a.offs 0 n, u.spaceOk (.fetch e) a.space.toNat o 8 = true) →
    let w := v.forBoth e fun p x => { x with
      engines := smapPut .empty x.engines p.key { x.eng p with metas := (x.eng p).metas ++ [(⟨c, a, false, []⟩ : MetaLoad)] } }
    exec (.loadMeta e i a) s =
      .next (w.planned (.fetch e) c (c + latency a.space.toNat + n * a.wordsPer - 1) (.words e a))) ∧
  (s.mayIssue (.finish e) i → ∀ a : ParamArgs, a.space.toNat < 2 →
    (s.beforeIssue (.finish e) i).spaceOk (.finish e) a.space.toNat (8 * a.addr.toNat) 512 = true →
    exec (.param e i a) s = .next ((s.atIssue (.finish e) i).planned (.finish e) c (c + latency a.space.toNat + 4) (.params e a)))

/-- LOAD_W, SWAP, PASS, DRAIN and WRITE (R59, R77, R79, R81, R84, R89). -/
def Obligations.EngineCommands : Prop := ∀ (e : EngineLoc) (i : Issue) (s : State),
  let c := i.cycle.toNat
  let put := fun (p : Who) (x : State) (y : Engine) => { x with engines := smapPut .empty x.engines p.key y }
  (s.mayIssue (.fetch e) i → ∀ a : LoadWArgs,
    let u := s.beforeIssue (.fetch e) i
    let v := s.atIssue (.fetch e) i
    let sparse := a.mode = 2 ∨ a.mode = 3
    let m := if sparse then ((v.engine e).metas.find? fun l => !l.taken).map (·.cycle) else none
    let first := c + latency a.space.toNat + (if a.srcFmt = 2 ∧ a.dstFmt.toNat < 2 then 4 else 0) + (if sparse then 4 else 0)
    let last := first + (if a.srcFmt = 3 then 32 else if a.mode = 1 then
      (if a.space = 0 ∧ a.srcFmt = 2 then 15 else 7) else 31)
    u.accepts (loadWBad u e c a) →
    let w := v.forBoth e fun p x => put p x { x.eng p with
      loads := insertLoad ⟨first, last, .empty⟩ (x.eng p).loads,
      metas := (x.eng p).metas.map fun l => if some l.cycle = m then { l with taken := true } else l }
    exec (.loadW e i a) s = .next (w.planned (.fetch e) c last (.plane e a m))) ∧
  (s.mayIssue (.etch e) i →
    let u := s.beforeIssue (.etch e) i
    let v := s.atIssue (.etch e) i
    u.accepts (swapBad (u.engine e) c) → exec (.swap e i) s = .next (v.forBoth e fun p x =>
      let y := applyLoads (x.eng p) c
      put p x { y with active := y.shadow, shadow := y.active, nextPass := max y.nextPass (c + 1) })) ∧
  (s.mayIssue (.etch e) i → ∀ a : PassArgs,
    let u := s.beforeIssue (.etch e) i
    let v := s.atIssue (.etch e) i
    let x := v.engine e
    u.accepts (passRefused e c a u) →
    ∃ t, exec (.pass e i a) s = .next t ∧ t = { v with engines := t.engines, counts := t.counts } ∧
      (∀ k, k ≠ engineIdx e → (v.shadowed e = true → k ≠ 576 + clusterIdx ⟨e.plate, e.cluster⟩) →
        smapGet Engine.empty t.engines k = smapGet Engine.empty v.engines k) ∧
      (v.canonical = true → x.passes = [] → operandEntries x a = none →
        t.engine e = { x with passes := [⟨c, a, 0, c⟩] })) ∧
  (s.mayIssue (.finish e) i → ∀ a : DrainArgs,
    let u := s.beforeIssue (.finish e) i
    let v := s.atIssue (.finish e) i
    let j : DrainJob :=
      { cycle := c, start := none, args := a, row := 0, beyond := 0, nonfinite := 0, largest := 0, hashed := [] }
    u.accepts (drainBad (u.engine e) c a) →
    exec (.drain e i a) s = .next (v.forBoth e fun p x => put p x { x.eng p with drains := (x.eng p).drains ++ [j] })) ∧
  (s.mayIssue (.store e) i → ∀ a : WriteArgs,
    let u := s.beforeIssue (.store e) i
    let v := s.atIssue (.store e) i
    u.accepts (writeBad u e c a) →
    exec (.write e i a) s =
      .next (v.forBoth e fun p x => put p x { x.eng p with writes := (x.eng p).writes ++ [⟨c, a, 0, 0⟩] }))

/-- MARK_WAIT, MARK_SIGNAL and MARK_REMOTE (R91–R93, R95). -/
def Obligations.StationMarks : Prop := ∀ (st : StationRef) (i : Issue) (s : State), s.mayIssue st i →
  let c := i.cycle.toNat
  let u := s.beforeIssue st i
  let v := s.atIssue st i
  (∀ a : MarkWaitArgs,
    let x := v.markValue a.mark.toNat (c - 1)
    let holds := (a.cmp = 0 ∧ a.value.toNat ≤ x.toNat) ∨ (a.cmp = 1 ∧ x = a.value) ∨ (a.cmp = 2 ∧ x.toNat < a.value.toNat)
    let pf : PendingFault :=
      { code := 0x0104, cycle := c, order := tieOrder st, source := srcStation st, aux := 0, reported := false,
        fields := BitVec.ofNat 256 (packFields [f16 a.mark.toNat, f8 a.cmp.toNat, f32 c, f64 a.value.toNat, f64 x.toNat]) }
    (holds → exec (.markWait st i a) s = .next v) ∧
    (a.cmp ≠ 3 → ¬ holds → exec (.markWait st i a) s =
      .next { v with seq := { v.seq with faults := v.seq.faults ++ [pf] } }) ∧
    (a.cmp = 3 → u.checksAll → exec (.markWait st i a) s = .refused (.loadCheck 13))) ∧
  (∀ a : MarkSignalArgs,
    let clash := ∃ m ∈ u.markUpdates, m.mark = a.mark ∧ m.cycle = c + 64 ∧ (m.set = true ∨ a.op = 1)
    let w := { v with
      markUpdates := insertUpdate ⟨c + 64, a.mark, a.op == 1, a.value⟩ v.markUpdates,
      works := insertWork ⟨c + 64, stationRank st, c, .watch a.mark⟩ v.works }
    (¬ clash → exec (.markSignal st i a) s = .next w) ∧
    (clash → u.checksAll → exec (.markSignal st i a) s = .refused (.loadCheck 16))) ∧
  (∀ a : MarkRemoteArgs,
    let k := 8 * (stationPlate st).val + a.port.toNat
    (u.wiredTo k a.role.toNat = true → ∃ t, exec (.markRemote st i a) s = .next t ∧ v.sends t ∧
      ∀ j : Fin 16, j.val ≠ k → t.link (.kazin j) = v.link (.kazin j)) ∧
    (u.wiredTo k a.role.toNat = false → u.checksAll →
      exec (.markRemote st i a) s = .refused (.loadCheck 13)))

/-- BURNISH and COPY (R144, R207). -/
def Obligations.BurnisherAndCounterproof : Prop := ∀ (cl : ClusterLoc) (i : Issue) (s : State),
  let c := i.cycle.toNat
  let busy := fun (w : State) (k n : Nat) => { w with busy := smapPut 0 w.busy k n }
  (s.mayIssue (.burnisher cl) i → ∀ a : BurnishArgs,
    let u := s.beforeIssue (.burnisher cl) i
    let v := s.atIssue (.burnisher cl) i
    (u.accepts (burnishBad u cl c a) → exec (.burnish cl i a) s =
      .next ((busy v (srcCluster cl 1) (burnEnd c a (v.burnNow cl c a))).planned (.burnisher cl) c
        (c + latency a.space.toNat) (.burnDesc cl a))) ∧
    (u.checksAll → a.space ≠ 1 → a.space ≠ 2 → exec (.burnish cl i a) s = .refused (.loadCheck 13))) ∧
  (∀ (a : BurnishArgs) (due : Nat),
    let r := s.descRead (.burnisher cl) c a.space.toNat (8 * a.descAddr.toNat) 64
    let d := layerDesc (ofLe r.1.bytes)
    (r.1.poison ≠ [] ∨ burnNamed r.2 cl a d ≠ none → doJob due c (.burnDesc cl a) s = r.2) ∧
    (r.1.poison = [] → burnNamed r.2 cl a d = none → 0 < d.bcols → doJob due c (.burnDesc cl a) s =
      r.2.planned (.burnisher cl) c (burnAt c a 0 + 1286) (.burn cl a (ofLe r.1.bytes) 0 ⟨[], [], 0, []⟩ ⟨0, 0, 0⟩))) ∧
  (s.mayIssue (.counterproof cl) i → ∀ a : CopyArgs,
    let u := s.beforeIssue (.counterproof cl) i
    let v := s.atIssue (.counterproof cl) i
    (u.accepts (copyBad u cl c a) → exec (.copy cl i a) s =
      .next ((busy v (srcCluster cl 0) (copyEnd c a (v.copyNow cl c a))).planned (.counterproof cl) c
        (c + latency a.space.toNat) (.copyDesc cl a))) ∧
    (u.checksAll → a.space ≠ 1 → a.space ≠ 2 → exec (.copy cl i a) s = .refused (.loadCheck 13))) ∧
  (∀ (a : CopyArgs) (due : Nat),
    let r := s.descRead (.counterproof cl) c a.space.toNat (8 * a.descAddr.toNat) 64
    let d := copyDesc (ofLe r.1.bytes)
    (r.1.poison ≠ [] ∨ copyDescBad r.2 cl a d ≠ none → doJob due c (.copyDesc cl a) s = r.2) ∧
    (r.1.poison = [] → copyDescBad r.2 cl a d = none → doJob due c (.copyDesc cl a) s =
      r.2.planned (.counterproof cl) c (c + latency a.space.toNat + latency d.srcSpace + 34 + d.extra)
        (.copy cl a (ofLe r.1.bytes) 0 [])))

/-- TOPB, SETWIN, SAMPLE and fills (R164, R166, R168). -/
def Obligations.SelectorCommands : Prop := ∀ (x : SelectorLoc) (i : Issue) (s : State),
  let st := StationRef.selector x
  let c := i.cycle.toNat
  let u := s.beforeIssue st i
  let v := s.atIssue st i
  let busy := fun (w : State) (n : Nat) => { w with busy := smapPut 0 w.busy (srcSelector x) n }
  let window := fun (w : State) (n : BitVec 4) (d : Option WinDesc) => { w with
    windows := smapMod .empty w.windows (16 * x.plate.val + n.toNat)
      (fun y => { y with next := y.next ++ [(((c + 1344 : Nat) : Int), d)] }) }
  (s.mayIssue st i →
    (∀ a : TopbArgs, u.accepts (topbBad u x c a) → exec (.topb x i a) s =
      .next ((busy v (topbEnd c a (topbDesc (v.topbNow x c a)))).planned st c (c + 1280) (.topbDesc x a))) ∧
    (∀ a : SetwinArgs,
      (a.arm = 0 → a.descAddr = 0 → exec (.setwin x i a) s = .next (window v a.win none)) ∧
      (a.arm = 1 → u.accepts (setwinBad u x c a) →
        exec (.setwin x i a) s = .next (v.planned st c (c + 1280) (.setwinDesc x a)))) ∧
    (∀ a : SampleArgs, u.accepts (samplingBad u x c a) → exec (.fill x i a) s = exec (.sample x i a) s ∧
      exec (.sample x i a) s =
        .next ((busy v (samplingEnd c a (v.samplingNow x c a))).planned st c (c + 1280) (.sampleDesc x a)))) ∧
  (∀ (a : TopbArgs) (due : Nat),
    let r := s.descRead st c 2 (8 * a.descAddr.toNat) 64
    let raw := ofLe r.1.bytes
    (r.1.poison ≠ [] ∨ topbDescBad r.2 x a raw ≠ none → doJob due c (.topbDesc x a) s = r.2) ∧
    (r.1.poison = [] → topbDescBad r.2 x a raw = none → doJob due c (.topbDesc x a) s =
      r.2.planned st c (topbWrite c (topbDesc raw) 0) (.topb x a raw 0 0))) ∧
  (∀ (a : SetwinArgs) (due : Nat),
    let r := s.descRead st c 2 (8 * a.descAddr.toNat) 32
    let raw := ofLe r.1.bytes
    (r.1.poison ≠ [] ∨ winBad x.plate.val raw ≠ none → doJob due c (.setwinDesc x a) s = r.2) ∧
    (r.1.poison = [] → winBad x.plate.val raw = none → doJob due c (.setwinDesc x a) s =
      window r.2 a.win (some (winDesc raw)))) ∧
  (∀ (a : SampleArgs) (due : Nat),
    let r := s.descRead st c 2 (8 * a.descAddr.toNat) 64
    let raw := ofLe r.1.bytes
    (r.1.poison ≠ [] ∨ samplingDescBad r.2 x a raw ≠ none → doJob due c (.sampleDesc x a) s = r.2) ∧
    (r.1.poison = [] → samplingDescBad r.2 x a raw = none → doJob due c (.sampleDesc x a) s =
      if raw % 4 = 0 then r.2.planned st c (sampleWrite c (sampleDesc raw) 0) (.sample x a raw 0 0)
      else r.2.planned st c (c + 1290) (.fill x a raw 0)))

/-- CLEAR, ACCUM, GATHER, FOLD and insertions (R172, R174–R180). -/
def Obligations.StippleCommands : Prop := ∀ (cl : ClusterLoc) (i : Issue) (s : State),
  let st := StationRef.stipple cl
  let c := i.cycle.toNat
  let u := s.beforeIssue st i
  let v := s.atIssue st i
  let put := fun (w : State) (x : Stipple) (n : Nat) =>
    { w with stipples := smapPut .empty w.stipples (clusterIdx cl) x, busy := smapPut 0 w.busy (srcCluster cl 2) n }
  let only := fun (w : State) (x : Stipple) => { w with stipples := smapPut .empty w.stipples (clusterIdx cl) x }
  (s.mayIssue st i →
    (∀ a : ClearArgs, u.accepts (clearBad u cl c a) →
      let x := (v.purge cl (c + 512)).stipple cl
      let w := put v { x with open_ := true, op := none, spilled := 0, claims := [], clearing := some (c, 0) }
        (max (c + 513) (c + latency a.space.toNat + 1) + 1)
      exec (.clear cl i a) s = .next ((w.planned st c (c + latency a.space.toNat) (.clearDesc cl a)).planned st c
        (c + 512) (.cleared cl))) ∧
    (∀ a : AccumArgs, u.accepts (accumBad u cl c a) → exec (.accum cl i a) s =
      .next ((put v { v.stipple cl with claims := [] } (accumEnd c a + 1)).planned st c
        (c + latency a.space.toNat) (.accum cl a 0 none))) ∧
    (∀ a : FoldArgs, u.accepts (foldBad u cl c a) →
      let w := put v { v.stipple cl with open_ := false, claims := [] } (c + a.reserve.toNat)
      (∀ o, (v.stipple cl).op = some o → exec (.fold cl i a) s =
        .next (w.planned st c (c + 1) (.flush cl a ⟨o, 0, 0, 0, false, c + 1, 0, [], 0, none⟩))) ∧
      ((v.stipple cl).op = none → exec (.fold cl i a) s = .next w)) ∧
    (∀ a : GatherArgs, u.accepts (gatherBad u cl c a) →
      let w := put v { v.stipple cl with claims := [] } (c + a.reserve.toNat)
      let pf : PendingFault :=
        { code := 0x0102, cycle := c, order := tieOrder st, source := srcCluster cl 2, aux := 0, reported := false,
          fields := BitVec.ofNat 256 (packFields [f16 (clusterIdx cl), f32 c]) }
      match w.stServe cl false (c + a.reserve.toNat) c (listBase a) 8 with
      | some r => exec (.gather cl i a) s = .next (r.2.planned st c (c + 1280) (.count cl a r.1))
      | none => exec (.gather cl i a) s = .next { w with seq := { w.seq with faults := w.seq.faults ++ [pf] } }) ∧
    (u.checksAll → (u.stipple cl).open_ = false →
      (∀ a : FoldArgs, exec (.fold cl i a) s = .refused (.loadCheck 13)) ∧
      (∀ a : GatherArgs, exec (.gather cl i a) s = .refused (.loadCheck 13)) ∧
      (∀ a : AccumArgs, exec (.accum cl i a) s = .refused (.loadCheck 13))) ∧
    (u.checksAll → (u.stipple cl).open_ = true → ∀ a : ClearArgs, exec (.clear cl i a) s = .refused (.loadCheck 13))) ∧
  (∀ (a : ClearArgs) (due : Nat),
    let r := s.descRead st c a.space.toNat (8 * a.descAddr.toNat) 64
    let raw := ofLe r.1.bytes
    (r.1.poison ≠ [] ∨ stOpBad r.2 cl.plate.val raw ≠ none → doJob due c (.clearDesc cl a) s = r.2) ∧
    (r.1.poison = [] → stOpBad r.2 cl.plate.val raw = none → doJob due c (.clearDesc cl a) s =
      only r.2 { r.2.stipple cl with op := some (stOp raw) })) ∧
  (∀ r rest, (s.stipple cl).runs = r :: rest → s.canonical = true → ∃ t, exec (.stippleInsert cl) s = .next t ∧
    (∀ k, k ≠ clusterIdx cl → smapGet Stipple.empty t.stipples k = smapGet Stipple.empty s.stipples k) ∧
    let x := ((only s { s.stipple cl with runs := rest }).purge cl (r.closed + 4)).stipple cl
    (∀ n old, stPlace x.slots r.key = some (n, old) →
      t.stipple cl = { x with slots := smapPut none x.slots n (some (stSlotFor old r)) }) ∧
    (∀ o, stPlace x.slots r.key = none → x.op = some o →
      (o.spillCap ≤ x.spilled → (t.stipple cl).runs = rest.filter (fun y => y.cycle != r.cycle) ∧
        ∃ f, t.seq.faults.getLast? = some f ∧ f.code = 0x0120 ∧ f.source = srcCluster cl 2 ∧ f.cycle = r.closed + 5) ∧
      (x.spilled < o.spillCap → r.limit = none → t.stipple cl = { x with spilled := x.spilled + 1 }))) ∧
  ((s.stipple cl).runs = [] → exec (.stippleInsert cl) s = .next s)

/-- UPDATE and NORM (R221, R228–R231). -/
def Obligations.UpdateUnits : Prop := ∀ (n : UnitLoc) (i : Issue) (s : State),
  let st := StationRef.updateUnit n
  let c := i.cycle.toNat
  let u := s.beforeIssue st i
  let v := s.atIssue st i
  (s.mayIssue st i → ∀ a : UpdateArgs, u.accepts (updateBad u n c a) → exec (.update n i a) s =
    .next (({ v with busy := smapPut 0 v.busy (srcUnit n) (chunkRead c a (updateChunks a - 1) + 1) }).planned st c
      (c + 1280) (.updateDesc n a (some v.clip.factor) (v.updatesSkipped c)))) ∧
  (∀ (a : UpdateArgs) (clip : Option Word) (skip : Bool) (due : Nat),
    let r := s.descRead st c 2 (8 * a.descAddr.toNat) 64
    let raw := ofLe r.1.bytes
    (r.1.poison ≠ [] ∨ updateDescBad r.2 n (updateDesc raw) ≠ none → doJob due c (.updateDesc n a clip skip) s = r.2) ∧
    (r.1.poison = [] → updateDescBad r.2 n (updateDesc raw) = none → doJob due c (.updateDesc n a clip skip) s =
      r.2.planned st c (c + 2561) (.schedule n a raw (if (updateDesc raw).clip then clip else none) skip))) ∧
  (s.mayIssue st i → ∀ a : NormArgs, u.accepts (normBad u n c a) →
    let due := v.charges.filter fun x => decide (x.cycle < c)
    let w := { v with
      charges := v.charges.filter (fun x => !decide (x.cycle < c)),
      partials := due.foldl (fun m (x : Charge) => smapMod 0 m x.unit (fun p => addSquares p x.vals)) v.partials }
    let mine := (unitIdx n, smapGet 0 w.partials (unitIdx n))
    (v.norm = none → 1 < v.normUnits →
      let j : NormJob := { mode := a.mode, scope := a.scope, cycle := c, partials := [mine], stage := 0, expMax := none }
      exec (.norm n i a) s = .next { w with norm := some j }) ∧
    (∀ j, v.norm = some j → j.partials.length + 1 < v.normUnits → exec (.norm n i a) s =
      .next { w with norm := some { j with partials := j.partials ++ [mine] } }) ∧
    (∀ j, v.norm = some j → v.normUnits ≤ j.partials.length + 1 → ∃ t, exec (.norm n i a) s = .next t ∧
      t.mem = v.mem ∧ t.engines = v.engines ∧ t.partials = w.partials ∧ t.charges = w.charges ∧ t.marks = v.marks ∧
      (∃ k, t.norm = some k ∧ k.partials = j.partials ++ [mine] ∧ k.stage = if j.scope = 0 then 3 else 1) ∧
      (j.scope = 0 → t.works = v.works) ∧
      (j.scope ≠ 0 → t.clip = v.clip ∧ ∃ payload, t.works =
        insertWork ⟨j.cycle + 64, stationRank (.updateUnit ⟨0, 0⟩), j.cycle, .sendAll 5 payload⟩ v.works))) ∧
  (s.mayIssue st i → ∀ a : NormArgs, u.checksAll → u.paramBlock = [] → exec (.norm n i a) s = .refused (.loadCheck 13))

/-- SEND, RECV, FXEXP, FXSET, FXADD and FXOUT (R268–R273). -/
def Obligations.RelayCommands : Prop := ∀ (r : RelayLoc) (i : Issue) (s : State), s.mayIssue (.relay r) i →
  let c := i.cycle.toNat
  let u := s.beforeIssue (.relay r) i
  let v := s.atIssue (.relay r) i
  let busy := fun (w : State) (k n : Nat) => { w with busy := smapPut 0 w.busy k n }
  (∀ a : SendArgs, u.accepts (sendBad u r c a) → exec (.send r i a) s =
    .next ((busy v (sendKey r) (sendEnd c a)).planned (.relay r) c
      (sendRead c a (sendNeeds a 0 - 1) + 1280) (.send r a 0 0 [] false))) ∧
  (∀ (k : Fin 16) (a : SendArgs), r = .kazin k → u.checksAll →
    ¬ (a.firstCh = 0 ∧ a.widthM1 = 0 ∧ u.wiredTo k.val a.destRole.toNat = true) →
    exec (.send r i a) s = .refused (.loadCheck 13)) ∧
  (∀ a : RecvArgs, u.accepts (recvBad u r c a) →
    let w := busy { v with recvs := v.recvs ++ [⟨r, c, a, [], [], none⟩] } (recvKey r) (c + 64 * a.reserve.toNat)
    (∃ t, exec (.recv r i a) s = .next t ∧ t.recvs.length = w.recvs.length ∧ t.busy = w.busy ∧ t.engines = v.engines) ∧
    ((∀ l ∈ recvLinks r a, (v.link l).rxBuffer = []) → ∃ t, exec (.recv r i a) s = .next t ∧
      w.sends t ∧ (v.canonical = true → ∀ l, t.link l = v.link l))) ∧
  (∀ (k : Fin 16) (a : RecvArgs), r = .kazin k → u.checksAll → ¬ (a.firstCh = 0 ∧ a.widthM1 = 0) →
    exec (.recv r i a) s = .refused (.loadCheck 13)) ∧
  (∀ a : FxexpArgs,
    let w := { v with segMax := smapMod none v.segMax a.seg.toNat (fun o => some (maxExp (o.getD none) none)) }
    (u.accepts (fxexpBad u r c a) → exec (.fxexp r i a) s =
      .next ((busy w (srcRelay r) (c + 1284 + fxElems a.lenM1 / 32)).planned (.relay r) c (c + 1280) (.fxexp r a 0))) ∧
    (u.checksAll → 256 ≤ a.contribM1.toNat → exec (.fxexp r i a) s = .refused (.loadCheck 13))) ∧
  (∀ a : FxArgs,
    let w := (busy v (srcRelay r) (c + 2563 + fxElems a.lenM1 / 8))
    (u.accepts (fxBad u r c true a) →
      exec (.fxset r i a) s = .next (w.planned (.relay r) c (c + 1284) (.fx .set r a 0)) ∧
      exec (.fxadd r i a) s = .next (w.planned (.relay r) c (c + 1284) (.fx .add r a 0))) ∧
    (u.accepts (fxBad u r c false a) →
      exec (.fxout r i a) s = .next (w.planned (.relay r) c (c + 1284) (.fx .out r a 0))))

/-- STROKE_START (R27, R29, R231). -/
def Obligations.StrokeStarts : Prop := ∀ s : State,
  (s.seq.phase = .strokeDue → s.canonical = true → ∃ t, exec .strokeStart s = .next t ∧
    t.engines = [] ∧ t.writes = [] ∧ t.busy = [] ∧ t.nextIssue = [] ∧ t.clock = 0 ∧ t.mem.fresh = [] ∧
    ((∀ j, s.norm = some j → j.stage ≠ 2) → t.works = []) ∧
    (∀ j, s.norm = some j → j.stage = 2 → ∃ p, t.works =
      [⟨64, stationRank (.updateUnit ⟨0, 0⟩), 0, .sendAll 5 p⟩]) ∧
    t.boardTime = (s.advanceTo s.seq.strokeStart.toNat).boardTime ∧
    t.seq = { s.seq with
      phase := .inStroke, curStroke := BitVec.ofNat 64 s.seq.strokesRun, strokesRun := s.seq.strokesRun + 1,
      refreshDone := [], closeSent := false, shadowItems := [], spareItems := [], spareEcc := [] } ∧
    t.mem.bytes = s.mem.bytes ∧ t.mem.marks = s.mem.marks ∧ t.mem.host = s.mem.host ∧ t.marks = s.marks ∧
    t.lanes = s.lanes ∧ t.links = s.links ∧ t.rings = s.rings ∧ t.closed = s.closed ∧
    (∀ c : ClusterLoc, (t.stipple c).slots = (s.stipple c).slots ∧ (t.stipple c).spilled = (s.stipple c).spilled ∧
      (t.stipple c).op = (if s.seq.strokeInStep = 0 then none else (s.stipple c).op) ∧
      (t.stipple c).open_ = (if s.seq.strokeInStep = 0 then false else (s.stipple c).open_))) ∧
  (s.seq.phase ≠ .strokeDue → exec .strokeStart s = .next s)

/-- STROKE_TAIL (R28, R43). -/
def Obligations.StrokeTails : Prop := ∀ (seedReadFails : Bool) (s : State),
  let u := s.tailCollect.applyRemaps.flipLinks.tailMarks
  let stamped := fun (l : List Record) => l.map fun r => { r with time := BitVec.ofNat 64 u.strokeEnd }
  (s.seq.phase = .inStroke → u.strokeEnds = .goesOn → ∃ t, exec (.strokeTail seedReadFails) s = .next t ∧
    t = { u.advanceTo u.strokeEnd with closed := u.closed ++ stamped u.opened, opened := [], seq := t.seq } ∧
    t.seq = { u.seq with phase := .strokeDue, strokeInStep := u.seq.strokeInStep + 1, strokeStart := t.boardTime }) ∧
  (s.seq.phase = .inStroke → u.strokeEnds = .complete → ∃ t r, exec (.strokeTail seedReadFails) s = .next t ∧
    t.closed.filter (fun x => x.kind == 0 && x.code == 0x0100) =
      (u.closed ++ stamped u.opened).filter (fun x => x.kind == 0 && x.code == 0x0100) ++ [r] ∧
    r.step = u.seq.curStep ∧ r.source = BitVec.ofNat 24 srcSeq ∧ r.time = BitVec.ofNat 64 u.strokeEnd ∧
    t.seq.nextStep = u.seq.curStep + 1 ∧ t.seq.stepsDone = u.seq.stepsDone + 1 ∧ t.opened = [] ∧ t.marks = u.marks ∧
    (u.edition.xcheck = true → (u.variantOf u.seq.curStep.toNat).probe = true → t.seq.phase = .checkDue)) ∧
  (∀ code aux fields notice, s.seq.phase = .inStroke → u.strokeEnds = .faulted code aux fields notice →
    ∃ t r, exec (.strokeTail seedReadFails) s = .next t ∧ r ∈ t.closed ∧ r.kind = 1 ∧ r.code = BitVec.ofNat 16 code ∧
    r.step = u.seq.curStep ∧ r.source = BitVec.ofNat 24 srcSeq ∧ t.opened = [] ∧ t.marks = u.marks ∧
    t.seq.faultStep = some u.seq.curStep ∧ t.seq.stepsDone = u.seq.stepsDone ∧ t.seq.faults = [] ∧
    (u.seq.abortAt = none → t.seq.state = .faulted ∧ t.seq.abortPending = false) ∧
    (u.seq.abortAt.isSome = true → t.seq.state = u.seq.state ∧ t.seq.abortPending = true)) ∧
  (s.seq.phase ≠ .inStroke → exec (.strokeTail seedReadFails) s = .next s)

/-- STEP_BEGIN and the start count (R38–R40). -/
def Obligations.StepBegins : Prop := ∀ s : State,
  let n := s.seq.nextStep.toNat
  let gate := (s.variantOf n).gate
  (gate = false → s.startCount n = some s.seq.prevEnd.toNat) ∧
  (∀ (f : Nat → Nat) (top : Nat), gate = true → top < s.groupSize → (∀ r < s.groupSize, s.readyOf n r = some (f r)) →
    (∀ r < s.groupSize, f r ≤ f top) → ∃ g, s.startCount n = some (max s.seq.prevEnd.toNat g) ∧
      g % 1000 = 0 ∧ f top + 4000 ≤ g ∧ g < f top + 5000) ∧
  (∀ r, gate = true → r < s.groupSize → s.readyOf n r = none → exec .stepBegin s = .next s) ∧
  (s.seq.phase ≠ .stepDue → exec .stepBegin s = .next s) ∧
  (∀ start, s.seq.phase = .stepDue → s.startCount n = some start →
    let u := s.advanceTo start
    (u.beginFault = none → ∃ t v : State, exec .stepBegin s = .next t ∧
      v = { u with partials := [], charges := [], norm := none, clip := v.clip, seq := v.seq } ∧
      v.clip.factor = 0x3F80_0000#32 ∧ v.clip.nonfinite = false ∧ v.clip.validFrom = none ∧
      v.seq.state = .running ∧ v.seq.phase = .strokeDue ∧ v.seq.curStep = s.seq.nextStep ∧ v.seq.strokeInStep = 0 ∧
      v.seq.strokeStart = BitVec.ofNat 64 start ∧ v.seq.nextSeed = none ∧ v.seq.proof = [] ∧
      v.seq.cartoon = s.seq.cartoon ∧ v.seq.strokesRun = s.seq.strokesRun ∧
      (start ≤ s.seq.prevEnd.toNat → t = v) ∧
      (s.seq.prevEnd.toNat < start → ∃ w role, v.emits w srcSeq 0x0106 [f64 s.seq.prevEnd.toNat, f64 start, f16 role] ∧
        (start - s.seq.prevEnd.toNat ≤ s.regs.gateAlarm.toNat ∨ s.seq.alarmed = true → t = w) ∧
        (s.regs.gateAlarm.toNat < start - s.seq.prevEnd.toNat → s.seq.alarmed = false →
          w.emits t srcSeq 0x0107 []))) ∧
    (∀ code fields, u.beginFault = some (code, fields) → s.seq.abortAt = none → ∃ t r, exec .stepBegin s = .next t ∧
      r ∈ t.closed ∧ r.kind = 1 ∧ r.code = BitVec.ofNat 16 code ∧ r.step = s.seq.nextStep ∧
      t.seq.state = .faulted ∧ t.seq.curStep = s.seq.curStep ∧ t.seq.curStroke = s.seq.curStroke ∧
      (s.remoteMarks = [] → t.marks = s.marks)))

/-- GATE_ALARM, CLOSING_REFRESH and REFRESH_SLOT (R30, R31, R40, R41). -/
def Obligations.WaitsAndRefreshes : Prop := ∀ s : State,
  let n := s.seq.nextStep.toNat
  let alarm := s.seq.prevEnd.toNat + s.regs.gateAlarm.toNat + 1
  let beyond := ∀ start, s.startCount n = some start → alarm ≤ start
  let refresh := fun (closing : Bool) (x : State) (stack : Nat) =>
    let double := (smapGet RefreshBand.reset x.mss.bands stack).double
    { x with mss := { x.mss with
        bandInForce := smapPut false x.mss.bandInForce stack double,
        refreshes := smapMod 0 x.mss.refreshes stack (· + Config.refreshCommands closing x.regs.gearNow double) } }
  (s.seq.phase = .stepDue → s.seq.state = .waiting → s.seq.alarmed = false → beyond → ∃ t r, exec .gateAlarm s = .next t ∧
    { s.advanceTo alarm with seq := { s.seq with alarmed := true } }.sameButEvents t ∧
    (∃ rest, t.closed = s.closed ++ r :: rest) ∧ t.opened = s.opened ∧
    r.kind = 2 ∧ r.code = 0x0107 ∧ r.source = BitVec.ofNat 24 srcSeq ∧ r.step = s.seq.nextStep) ∧
  (s.seq.phase ≠ .stepDue ∨ s.seq.state ≠ .waiting ∨ s.seq.alarmed = true ∨ ¬ beyond →
    exec .gateAlarm s = .next s) ∧
  (∀ start, s.seq.phase = .stepDue → s.startCount n = some start → s.seq.closing = false →
    s.boardTime.toNat + 2000 ≤ start → exec .closingRefresh s =
      .next ((List.range 10).foldl (fun x k => if bitAt s.boot.plates.toNat (k / 5) then refresh true x k else x)
        ({ s with seq := { s.seq with closing := true } }.advanceTo (start - 2000)))) ∧
  (s.seq.phase ≠ .stepDue ∨ s.seq.closing = true ∨ (∀ start, s.startCount n = some start → start < s.boardTime.toNat + 2000) →
    exec .closingRefresh s = .next s) ∧
  (∀ (stack : Fin 10) (k : BitVec 12),
    let fits := s.seq.phase = .inStroke ∧ 2520 * k.toNat + 252 * stack.val + 251 < 5040 * s.quanta
      ∧ (stack.val, k.toNat) ∉ s.seq.refreshDone
    (fits → exec (.refreshSlot stack k) s = .next (refresh false
      { s with seq := { s.seq with refreshDone := s.seq.refreshDone ++ [(stack.val, k.toNat)] } } stack.val)) ∧
    (¬ fits → exec (.refreshSlot stack k) s = .next s))

/-- CHECK_STROKE (R441–R445). -/
def Obligations.CheckStrokes : Prop := ∀ (results : List EngineResult) (s : State),
  let tested := s.seq.checkClusters
  let set := tested.foldl (fun a i => a + 2 ^ i) 0
  let x := (s.takeCheckSeed (s.checkEnd - s.checkCounts)).advanceTo s.checkEnd
  let clean := s.seq.phase = .checkDue ∧ s.seq.faults = [] ∧ s.seq.stopBy = none ∧ s.seq.abortAt = none ∧
    ∀ p ∈ s.seq.staleReports, p.2.2 = true
  let after := fun (t : State) => t.seq.checkClusters = [] ∧ t.seq.checkFault = false ∧
    (s.seq.checkFault = true → t.seq.phase = Phase.none) ∧
    (s.seq.checkFault = false → s.limitDone = false → t.seq.phase = .stepDue) ∧
    (s.seq.checkFault = false → s.limitDone = true → t.seq.phase = .none ∧ t.seq.state = .loaded) ∧
    t.nextRemaps = [] ∧ t.remoteMarks = [] ∧
    t.mss.plateFailed = s.mss.plateFailed ∧ t.mem.bytes = s.mem.bytes ∧ t.mem.marks = s.mem.marks
  (clean →
    (∀ i ∈ tested, liveEngines (s.remap (clusterAt i)) ≠ [] ∧
      ∀ f ∈ liveEngines (s.remap (clusterAt i)), ∀ g ∈ liveEngines (s.remap (clusterAt i)),
        resultOf results (clusterAt i) f = resultOf results (clusterAt i) g) →
    ∃ t y w : State, exec (.checkStroke results) s = .next t ∧ after t ∧ t.remaps = s.applyRemaps.remaps ∧
      x.sameButEvents y ∧ y.emits w srcMss 0x0171 [f128 set, f128 0, f128 0] ∧ ∃ rest, t.closed = w.closed ++ rest) ∧
  (∀ (c : ClusterLoc) (f sp : Fin 9) (v : QWord), clean → s.canonical = true →
    tested = [clusterIdx c] → s.nextRemaps = [] → s.edition.spareAuto = true →
    let r := s.remap c
    let live := liveEngines r
    r.spare = some sp → f ≠ sp → f ∈ r.lmap → f ∈ live → sp ∈ live → 3 ≤ live.length →
    (∀ g ∈ live, resultOf results c g = v ↔ g ≠ f) →
    ∃ t, exec (.checkStroke results) s = .next t ∧ after t ∧
      t.remap c = { lmap := r.lmap.map fun g => if g = f then sp else g, spare := none,
                    retired := r.retired ||| BitVec.ofNat 9 (2 ^ f.val) }) ∧
  (∀ (c : ClusterLoc) (off : List (Fin 9)), clean → tested = [clusterIdx c] → s.edition.spareAuto = true →
    s.seq.checkFault = false → s.busyRun = true → bitAt s.mss.plateFailed.toNat c.plate.val = false →
    findCluster results c (s.remap c) = some off →
    (match (s.remap c).spare with | some sp => if sp ∈ off then 0 else 1 | none => 0) <
      (off.filter fun f => (s.remap c).lmap.contains f).length →
    ∃ t r, exec (.checkStroke results) s = .next t ∧ t.seq.state = .faulted ∧ t.seq.phase = .none ∧ r ∈ t.closed ∧
      r.kind = 1 ∧ r.code = 0x050A ∧ r.step = s.seq.curStep ∧
      r.stroke = if s.seq.strokesRun = 0 then 0 else s.seq.curStroke) ∧
  (s.seq.phase ≠ .checkDue → exec (.checkStroke results) s = .next s)

/-- CLUSTER_ENABLE and CLUSTER_DISABLE, for every state of the gate (R344). -/
def Obligations.ClusterGateWrites : Prop := ∀ (c : ClusterLoc) (s : State), s.hostAnswers →
  let g := s.gate c
  let put := fun (x : Gate) => { s.halfGone with gates := smapPut .reset s.gates (clusterIdx c) x }
  let off := BitVec.ofNat 26 (0x4100 + 8 * clusterIdx c)
  let refused := { s.halfGone with regs := { s.halfGone.regs with refused := true, refusedAt := off } }
  (g.state = .on ∨ g.state = .powering → exec (.clusterEnable c) s = .next s.halfGone) ∧
  (g.state = .draining → exec (.clusterEnable c) s = .next (put ⟨.draining, true⟩)) ∧
  (g.state = .off → ∃ t, exec (.clusterEnable c) s = .next t ∧
    (put ⟨.powering, g.pending⟩).emits t (srcCluster c 3) 0x010A []) ∧
  (s.seq.state ≠ .idle ∨ g.state = .powering → exec (.clusterDisable c) s = .next refused) ∧
  (s.seq.state = .idle → g.state = .on → ∃ t, exec (.clusterDisable c) s = .next t ∧
    (put ⟨.draining, g.pending⟩).emits t (srcCluster c 3) 0x010A []) ∧
  (s.seq.state = .idle → g.state = .draining → exec (.clusterDisable c) s = .next (put ⟨.draining, false⟩)) ∧
  (s.seq.state = .idle → g.state = .off → exec (.clusterDisable c) s = .next s.halfGone)

/-- CLUSTER_DRAIN_END and CLUSTER_POWERED (R344). -/
def Obligations.ClusterGateEvents : Prop := ∀ (c : ClusterLoc) (s : State),
  let g := s.gate c
  let gates := fun (x : GateState) => smapPut .reset s.gates (clusterIdx c) ⟨x, false⟩
  (g.state = .draining → ∃ t, exec (.clusterDrainEnd c) s = .next t ∧
    { s with gates := gates (if g.pending then .powering else .off) }.emits t (srcCluster c 3) 0x010A []) ∧
  (g.state ≠ .draining → exec (.clusterDrainEnd c) s = .next s) ∧
  (g.state = .powering → ∃ t m, exec (.clusterPowered c) s = .next t ∧
    { s with mem := m, stipples := smapPut .empty s.stipples (clusterIdx c) .empty,
             lanes := smapDrop s.lanes (32 * clusterIdx c) (32 * clusterIdx c + 32),
             gates := smapPut .reset s.gates (clusterIdx c) ⟨.on, g.pending⟩ }.emits t (srcCluster c 3) 0x010A [] ∧
    m.host = s.mem.host ∧ m.early = s.mem.early ∧
    ∀ a, (clusterStoreAddr c ≤ a ∧ a < clusterStoreAddr c + 0x100_0000 →
        byteAt m a = 0 ∧ markAt m (a / 8) = .unwritten) ∧
      (a < clusterStoreAddr c ∨ clusterStoreAddr c + 0x100_0000 ≤ a →
        byteAt m a = byteAt s.mem a ∧ markAt m (a / 8) = markAt s.mem (a / 8))) ∧
  (g.state ≠ .powering → exec (.clusterPowered c) s = .next s)

/-- PORT_ENABLE and PORT_DISABLE (R275, R276, R351). -/
def Obligations.PortWrites : Prop := ∀ (k : Fin 16) (s : State), s.hostAnswers →
  let p := s.port k.val
  let put := fun (x : Port) => { s.halfGone with ports := smapPut .reset s.ports k.val x }
  let running := s.seq.state == .running || s.seq.state == .waiting
  let moves := fun (t : State) (st : PortState) =>
    (put { p with state := st, pending := false, left := p.left || (p.state == .up && running) }).emits t (srcPort k.val) 0x0305 [f16 k.val, f8 Config.portDirection.toNat]
  let used := (s.lane k.val).use = 1 ∨ (s.lane k.val).use = 2
  let offered := s.plateOffered (k.val / 8) = true
  let ofGroup := used ∧ (mapRole s.regs.roleMap (s.lane k.val).peerSlot.toNat).isSome = true
  let refused := { s.halfGone with regs := { s.halfGone.regs with
    refused := true, refusedAt := BitVec.ofNat 26 (0x4000 + 8 * k.val) } }
  (p.state = .off ∨ p.state = .failed → used → offered → ∃ t, exec (.portEnable k) s = .next t ∧ moves t .training) ∧
  (p.state = .off ∨ p.state = .failed → ¬ (used ∧ offered) → exec (.portEnable k) s = .next s.halfGone) ∧
  (p.state = .training ∨ p.state = .up → exec (.portEnable k) s = .next s.halfGone) ∧
  (p.state = .draining → exec (.portEnable k) s = .next (put { p with pending := true })) ∧
  (s.busyRun = true → ofGroup → exec (.portDisable k) s = .next refused) ∧
  (¬ (s.busyRun = true ∧ ofGroup) →
    (p.state = .off → exec (.portDisable k) s = .next s.halfGone) ∧
    (p.state = .training ∨ p.state = .failed → ∃ t, exec (.portDisable k) s = .next t ∧ moves t .off) ∧
    (p.state = .up → ∃ t, exec (.portDisable k) s = .next t ∧ moves t .draining) ∧
    (p.state = .draining → exec (.portDisable k) s = .next (put { p with pending := false })))

/-- PORT_TRAINED, PORT_TRAINING_TIMEOUT and PORT_DRAIN_END (R275, R277). -/
def Obligations.PortEvents : Prop := ∀ (k : Fin 16) (q : PeerId) (s : State),
  let p := s.port k.val
  let x := s.link (.kazin k)
  let dir := f8 Config.portDirection.toNat
  let slot := if (s.lane k.val).use = 2 then s.boot.boardSlot else (s.lane k.val).peerSlot
  let peerOk := q.slot = slot ∧ q.port = (s.lane k.val).peerPort
    ∧ q.role.map (·.toNat) = mapRole s.regs.roleMap slot.toNat
  let fails := fun (u t : State) => ∃ v,
    { u with ports := smapPut .reset u.ports k.val { p with state := .failed, pending := false } }.emits v (srcPort k.val) 0x0305
      [f16 k.val, dir] ∧ v.emits t (srcPort k.val) 0x0306 [f16 k.val, dir]
  (p.state = .training → peerOk → ∃ t, exec (.portTrained k q) s = .next t ∧
    { s with links := smapPut .empty s.links (linkKey (.kazin k)) .empty,
             ports := smapPut .reset s.ports k.val { p with state := .up, pending := false } }.emits t (srcPort k.val) 0x0305
      [f16 k.val, dir]) ∧
  (p.state = .training → ¬ peerOk → ∃ u t, exec (.portTrained k q) s = .next t ∧
    s.emits u (srcPort k.val) 0x0307 [f16 k.val, f8 1] ∧ fails u t) ∧
  (p.state = .training → ∃ t, exec (.portTrainingTimeout k) s = .next t ∧ fails s t) ∧
  (p.state = .draining → ∃ t, exec (.portDrainEnd k) s = .next t ∧
    { s with
      links := smapPut .empty s.links (linkKey (.kazin k)) { x with
        txUnacked := [], txCtrlUnacked := [], sendQueue := [], ctrlQueue := [], replayQueue := [] },
      ports := smapPut .reset s.ports k.val { p with
        pending := false, state := if p.pending then .training else .off,
        drainDiscards := satAdd p.drainDiscards (x.txUnacked.length + x.txCtrlUnacked.length) } }.emits t
      (srcPort k.val) 0x0305 [f16 k.val, dir]) ∧
  (p.state ≠ .training → exec (.portTrained k q) s = .next s
    ∧ exec (.portTrainingTimeout k) s = .next s) ∧
  (p.state ≠ .draining → exec (.portDrainEnd k) s = .next s)

/-- LANE_LOSS_OF_LOCK, LANE_SWAP, SPARE_LANE_RESTORE and LANE_WINDOW (R274, R413). -/
def Obligations.LaneEvents : Prop := ∀ (k : Fin 16) (s : State),
  let p := s.port k.val
  let live := p.state = .up ∨ p.state = .draining
  let put := fun (x : Port) => { s with ports := smapPut .reset s.ports k.val x }
  let swapped := fun (d : LaneDir) (lane : Fin 8) (sp : Fin 9) =>
    { d with active := setNth d.active lane.val sp, spare := none, probation := d.active[lane.val]?, request := none,
             acked := none, prbsErrors := 0 }
  let number := fun (d : LaneDir) (lane : Fin 8) => match d.active[lane.val]? with | some f => f.val | none => lane.val
  let answered := fun (d : LaneDir) (lane : Fin 8) => ∃ n, d.acked = some n ∧
    ((d.request = some (lane, true) ∧ 5 * (n + 1) ≤ s.boardTime.toNat) ∨
     (d.request = some (lane, false) ∧ (s.seq.phase ≠ .inStroke ∨
       roundUp (s.countAt s.tailStart + 50) 100 ≤ s.boardTime.toNat)))
  let ready := fun (d : LaneDir) (lane : Fin 8) => answered d lane ∧ d.spare.isSome = true
  (∀ lane : Fin 8, live → p.rx.spare.isSome = true → exec (.laneLossOfLock k lane) s =
    .next (put { p with rx := { p.rx with request := some (lane, true), acked := none } })) ∧
  (∀ lane : Fin 8, live → p.rx.spare = none → ∃ u t, exec (.laneLossOfLock k lane) s = .next t ∧
    (put { p with state := .failed, pending := false, left := p.left || (p.state == .up &&
      (s.seq.state == .running || s.seq.state == .waiting)) }).emits u (srcPort k.val) 0x0305
      [f16 k.val, f8 Config.portDirection.toNat] ∧
    u.emits t (srcPort k.val) 0x0306 [f16 k.val, f8 Config.portDirection.toNat]) ∧
  (∀ lane : Fin 8, ¬ live → exec (.laneLossOfLock k lane) s = .next s) ∧
  (∀ (lane : Fin 8) (sp : Fin 9), answered p.rx lane → p.rx.spare = some sp → ∃ t, exec (.laneSwap k true lane) s = .next t ∧
    (put { p with laneSwaps := satInc p.laneSwaps, rx := swapped p.rx lane sp }).emits t
      (srcPort k.val) 0x0304 [f16 k.val, f8 1, f32 (number p.rx lane)]) ∧
  (∀ (lane : Fin 8) (sp : Fin 9), answered p.tx lane → p.tx.spare = some sp → ∃ t, exec (.laneSwap k false lane) s = .next t ∧
    (put { p with laneSwaps := satInc p.laneSwaps, tx := swapped p.tx lane sp }).emits t
      (srcPort k.val) 0x0304 [f16 k.val, f8 0, f32 (number p.tx lane)]) ∧
  (∀ lane : Fin 8, (¬ ready p.rx lane → exec (.laneSwap k true lane) s = .next s) ∧
    (¬ ready p.tx lane → exec (.laneSwap k false lane) s = .next s)) ∧
  (∀ l, p.rx.probation = some l → exec (.spareLaneRestore k true) s =
    .next (put { p with rx := if p.rx.prbsErrors < s.edition.laneThresh.toNat
      then { p.rx with spare := some l, probation := none, prbsErrors := 0 } else { p.rx with prbsErrors := 0 } })) ∧
  (∀ l, p.tx.probation = some l → exec (.spareLaneRestore k false) s =
    .next (put { p with tx := if p.tx.prbsErrors < s.edition.laneThresh.toNat
      then { p.tx with spare := some l, probation := none, prbsErrors := 0 } else { p.tx with prbsErrors := 0 } })) ∧
  (∀ (w : List Nat) (prbs : Nat),
    let shut := { p.rx with corrected := [], prbsErrors := p.rx.prbsErrors + prbs }
    let count := fun (l : Fin 8) => nth 0 p.rx.corrected l.val + nth 0 w l.val
    (∀ l : Fin 8, live → p.rx.spare.isSome = true → p.rx.request = none →
      s.edition.laneThresh.toNat < count l → (∀ j : Fin 8, j < l → count j ≤ s.edition.laneThresh.toNat) →
      ∃ t, exec (.laneWindow k w prbs) s = .next t ∧
        (put { p with rx := { shut with request := some (l, false), acked := none } }).logs t 0x0508) ∧
    (¬ live ∨ p.rx.spare = none ∨ p.rx.request.isSome = true ∨ (∀ l : Fin 8, count l ≤ s.edition.laneThresh.toNat) →
      exec (.laneWindow k w prbs) s = .next (put { p with rx := shut })))

/-- SEAM_LOSS_OF_LOCK, SEAM_RETRAINED and SEAM_RETRAIN_TIMEOUT (R278, R297, R298). -/
def Obligations.SeamEvents : Prop := ∀ (pl : Fin 2) (ch : Fin 48) (s : State),
  let u := { s with seam := smapPut .up s.seam ch.val { smapGet .up s.seam ch.val with locked := false } }
  let lost := [f16 ch.val, f8 1]
  (s.boot.plates = 3 → s.seamRetraining = true → exec (.seamLossOfLock pl ch) s = .next u) ∧
  (s.boot.plates = 3 → s.seamRetraining = false → s.seq.phase = .none ∨ (s.seq.phase = .checkDue ∧ s.seq.checkFault = true) →
    ∃ t v, exec (.seamLossOfLock pl ch) s = .next t ∧ u.emits v (srcSeam ch.val) 0x0310 lost ∧
      t = { v with seamRetraining := s.mss.plateFailed == 0 }) ∧
  (s.boot.plates = 3 → s.seamRetraining = false →
    s.seq.phase = .inStroke ∨ s.seq.phase = .strokeDue ∨ (s.seq.phase = .checkDue ∧ s.seq.checkFault = false) → ∃ f,
    exec (.seamLossOfLock pl ch) s =
      .next { u with seq := { u.seq with faults := u.seq.faults ++ [f], seamFailed := true } } ∧
    f.code = 0x0310 ∧ f.source = srcSeam ch.val ∧ f.reported = false) ∧
  (s.boot.plates = 3 → s.seamRetraining = false → s.seq.phase = .stepDue → ∃ t r,
    exec (.seamLossOfLock pl ch) s = .next t ∧ t.seamRetraining = (s.mss.plateFailed == 0) ∧ t.seq.phase = .none ∧
    r ∈ t.closed ∧ r.kind = 1 ∧ r.code = 0x0310 ∧ r.step = s.seq.nextStep) ∧
  (s.boot.plates ≠ 3 → exec (.seamLossOfLock pl ch) s = .next s) ∧
  (s.seamRetraining = true → ∃ t v : State, exec .seamRetrained s = .next t ∧
    { s with seamRetraining := false, seam := v.seam, links := v.links }.emits t srcMss 0x0311
      [f16 s.boot.boardSlot.toNat] ∧
    (∀ n, (smapGet SeamChan.up v.seam n).locked = true) ∧
    (∀ k : Fin 16, v.link (.kazin k) = s.link (.kazin k))) ∧
  (s.seamRetraining = true → s.boot.plates = 3 → ∃ t,
    exec .seamRetrainTimeout s = .next t ∧ t.seamRetraining = false ∧
    t.plateOffered s.edition.fallbackPlate.toNat = true ∧ t.plateOffered (1 - s.edition.fallbackPlate.toNat) = false ∧
    (∀ a, hbmPlate a = some (1 - s.edition.fallbackPlate.toNat) → byteAt t.mem a = 0 ∧ markAt t.mem (a / 8) = .unwritten) ∧
    (∀ a, hbmPlate a = some s.edition.fallbackPlate.toNat → byteAt t.mem a = byteAt s.mem a ∧
      markAt t.mem (a / 8) = markAt s.mem (a / 8))) ∧
  (s.seamRetraining = true → s.boot.plates ≠ 3 → ∃ t, exec .seamRetrainTimeout s = .next t ∧
    { s with seamRetraining := false }.emits t srcMss 0x0312 [f16 s.boot.boardSlot.toNat]) ∧
  (s.seamRetraining = false → exec .seamRetrained s = .next s ∧ exec .seamRetrainTimeout s = .next s)

/-- MARK_WRITE and MARK_ADD with the watches they fire (R95, R337, R338). -/
def Obligations.HostMarkUpdates : Prop := ∀ (m : BitVec 12) (v : DWord) (s : State), s.hostAnswers →
  let now := if s.seq.phase = .inStroke then s.markValue m.toNat s.nowCycle else s.mark m.toNat
  let later := if s.seq.phase = .inStroke then
      s.markUpdates.filter (fun u => !(u.mark.toNat == m.toNat && decide (u.cycle ≤ s.nowCycle)))
    else s.markUpdates
  let base := fun (x : DWord) => { s.halfGone with marks := smapPut 0 s.marks m.toNat x, markUpdates := later }
  let does := fun (o : Out) (x : DWord) =>
    (∃ t, o = .next t ∧ t.marks = smapPut 0 s.marks m.toNat x ∧ ∀ k, k ≠ m.toNat → t.mark k = s.mark k) ∧
    ((∀ p ∈ s.watches, watchHolds p.2 m.toNat x = false) → o = .next (base x)) ∧
    (∀ w y, s.watches.filter (fun p => watchHolds p.2 m.toNat x) = [(w, y)] →
      let z := smapGet .reset s.watches w
      let e := smapGet .reset s.msix z.vector.toNat
      let u := { base x with watches := smapPut .reset s.watches w { z with armed := false, hit := true } }
      (bitAt e.control.toNat 0 = false → o = .next { u with mem := { u.mem with
        host := smapPutList 0 u.mem.host e.address.toNat (leBytes 4 e.data.toNat) } }) ∧
      (bitAt e.control.toNat 0 = true → s.msixPending.contains z.vector.toNat = false →
        o = .next { u with msixPending := s.msixPending ++ [z.vector.toNat] }) ∧
      (bitAt e.control.toNat 0 = true → s.msixPending.contains z.vector.toNat = true → o = .next u))
  does (exec (.markWrite m v) s) v ∧ does (exec (.markAdd m v) s) (now + v)

/-- WATCH_ARM and WATCH_DISARM (R338, R362, R363). -/
def Obligations.WatchWrites : Prop := ∀ (w : BitVec 8) (v : DWord) (s : State), s.hostAnswers →
  let x := smapGet .reset s.watches w.toNat
  let y : Watch := { x with mark := BitVec.ofNat 12 v.toNat, cmp := BitVec.ofNat 2 (v.toNat >>> 12),
                            vector := BitVec.ofNat 11 (v.toNat >>> 14), hit := x.hit && !bitAt v.toNat 34 }
  let put := fun (z : Watch) => { s.halfGone with watches := smapPut .reset s.watches w.toNat z }
  let fits := y.cmp ≠ 3 ∧ (x.armed = true → x.mark = y.mark ∧ x.cmp = y.cmp ∧ x.vector = y.vector)
  let refused := { s.halfGone with regs := { s.halfGone.regs with
    refused := true, refusedAt := BitVec.ofNat 26 (0x19_0000 + 32 * w.toNat) } }
  let holds := watchHolds { y with armed := true } y.mark.toNat (s.markNow y.mark.toNat)
  let e := smapGet .reset s.msix y.vector.toNat
  let fired := put { y with armed := false, hit := true }
  (fits → bitAt v.toNat 33 = false → holds = false → exec (.watchArm w v) s = .next (put { y with armed := true })) ∧
  (fits → bitAt v.toNat 33 = false → holds = true →
    (bitAt e.control.toNat 0 = false → exec (.watchArm w v) s = .next { fired with mem := { s.mem with
      host := smapPutList 0 s.mem.host e.address.toNat (leBytes 4 e.data.toNat) } }) ∧
    (bitAt e.control.toNat 0 = true → s.msixPending.contains y.vector.toNat = false →
      exec (.watchArm w v) s = .next { fired with msixPending := s.msixPending ++ [y.vector.toNat] }) ∧
    (bitAt e.control.toNat 0 = true → s.msixPending.contains y.vector.toNat = true →
      exec (.watchArm w v) s = .next fired)) ∧
  (¬ fits ∨ bitAt v.toNat 33 = true → exec (.watchArm w v) s = .next refused) ∧
  (fits → bitAt v.toNat 32 = false → exec (.watchDisarm w v) s = .next (put { y with armed := false })) ∧
  (¬ fits ∨ bitAt v.toNat 32 = true → exec (.watchDisarm w v) s = .next refused)

/-- NAMED_RINGS, BAR2_APERTURE, REFUSED_CLEAR, GENERATOR_COUNTER_WRITE, GAUGE_SETTING_WRITE and GEAR_FLOOR. -/
def Obligations.SettingWrites : Prop := ∀ (v : DWord) (s : State), s.hostAnswers →
  let u := s.halfGone
  let refused := fun (off : Nat) => { u with regs := { u.regs with refused := true, refusedAt := BitVec.ofNat 26 off } }
  let quiet := s.seq.state = .idle ∨ s.seq.state = .loaded ∨ s.seq.state = .faulted
  (quiet → exec (.namedRings v) s = .next { u with regs := { u.regs with
      completionRing := v.extractLsb' 0 12, eventRing := v.extractLsb' 16 12, proofRing := v.extractLsb' 32 12,
      seedRing := v.extractLsb' 48 12, seedReplay := v.getLsbD 63 } }) ∧
  (¬ quiet → exec (.namedRings v) s = .next (refused 0x3030)) ∧
  (v.toNat % 8 ≤ 4 → exec (.bar2Aperture v) s =
    .next { u with regs := { u.regs with bar2Aperture := v.extractLsb' 0 3 } }) ∧
  (4 < v.toNat % 8 → exec (.bar2Aperture v) s = .next (refused 0x3038)) ∧
  (v.getLsbD 0 = true → exec (.refusedClear v) s = .next { u with regs := { u.regs with refused := false } }) ∧
  (v.getLsbD 0 = false → exec (.refusedClear v) s = .next u) ∧
  (∀ i : Fin 2320, quiet → (i.val < 2304 → (smapGet Gate.reset s.gates (i.val / 32)).state = .on) →
    exec (.generatorCounterWrite i v) s = .next { u with lanes := smapPut 0 s.lanes i.val v }) ∧
  (∀ i : Fin 2320, ¬ quiet ∨ (i.val < 2304 ∧ (smapGet Gate.reset s.gates (i.val / 32)).state ≠ .on) →
    exec (.generatorCounterWrite i v) s = .next (refused (0x1B_0000 + 8 * i.val))) ∧
  (∀ g : BitVec 8, quiet → v.getLsbD 31 = false → isNan (v.extractLsb' 0 32) = false →
    exec (.gaugeSettingWrite g v) s =
      .next { u with gauges := smapPut .reset s.gauges g.toNat ⟨v.extractLsb' 0 32, v.extractLsb' 32 16⟩ }) ∧
  (∀ g : BitVec 8, ¬ quiet ∨ v.getLsbD 31 = true ∨ isNan (v.extractLsb' 0 32) = true →
    exec (.gaugeSettingWrite g v) s = .next (refused (0x1_0000 + 16 * g.toNat))) ∧
  (let w := { u with regs := { u.regs with gearFloor := v.extractLsb' 0 2 } }
    let g := BitVec.ofNat 2 w.gearWanted
    (s.edition.gearSlow.toNat < v.toNat % 4 → exec (.gearFloor v) s = .next (refused 0x1030)) ∧
    (v.toNat % 4 ≤ s.edition.gearSlow.toNat → g = s.regs.gearReq → exec (.gearFloor v) s = .next w) ∧
    (v.toNat % 4 ≤ s.edition.gearSlow.toNat → g ≠ s.regs.gearReq → ∃ t, exec (.gearFloor v) s = .next t ∧
      { w with regs := { w.regs with gearReq := g },
               mss := { w.mss with gearReqs := ((s.boardTime, g) :: s.mss.gearReqs).take 64 } }.logs t 0x0501))

/-- REGISTER_WRITE (R348–R351, R321). -/
def Obligations.RegisterWrites : Prop := ∀ (v : DWord) (s : State),
  (¬ s.hostAnswers → ∀ (off : BitVec 26) (n : Nat), exec (.registerWrite off n v) s = .next s) ∧ (s.hostAnswers →
  let u := s.halfGone
  let write := fun (off : Nat) => exec (.registerWrite (BitVec.ofNat 26 off) 8 v) s
  let refused := fun (off : Nat) =>
    (Host.Outcome.next { u with regs := { u.regs with refused := true, refusedAt := BitVec.ofNat 26 off } } : Out)
  write 0x1028 = .next { u with regs := { u.regs with gateAlarm := v } } ∧
  write 0x2008 = .next { u with regs := { u.regs with syncLoad := v } } ∧
  write 0x2030 = .next { u with regs := { u.regs with nextMap := v.extractLsb' 0 32, nextEpoch := v.extractLsb' 32 16 } } ∧
  write 0x2040 = .next { u with regs := { u.regs with remoteValue := v } } ∧
  (v.toNat % 64 = 0 → write 0x3000 = .next { u with regs := { u.regs with loadAddr := v } }) ∧
  (v.toNat % 64 ≠ 0 → write 0x3000 = refused 0x3000) ∧
  write 0x3008 = .next { u with regs := { u.regs with loadSize := v } } ∧
  write 0x3028 = .next { u with regs := { u.regs with
    abortDone := s.regs.abortDone && !v.getLsbD 0, abortVector := v.extractLsb' 8 11, abortIrqEn := v.getLsbD 19 } } ∧
  (s.regs.capArmed = false → write 0x5008 = .next { u with regs := { u.regs with capStep := v } }) ∧
  (s.regs.capArmed = true → write 0x5008 = refused 0x5008) ∧
  (s.seq.state = .idle ∨ s.seq.state = .loaded → write 0x2020 = .next { u with regs := { u.regs with baseStep := v } }) ∧
  (¬ (s.seq.state = .idle ∨ s.seq.state = .loaded) → write 0x2020 = refused 0x2020) ∧
  write 0x1000 = .next u ∧
  (∀ off, 0x28_0000 ≤ off → off < 0x400_0000 → off % 8 = 0 → write off = .next u) ∧
  (∀ m : BitVec 12, write (0x18_0000 + 8 * m.toNat) = exec (.markWrite m v) s ∧
    write (0x18_8000 + 8 * m.toNat) = exec (.markAdd m v) s) ∧
  (∀ (off : BitVec 26) (n : Nat), ¬ ((n = 4 ∨ n = 8) ∧ off.toNat % n = 0) → exec (.registerWrite off n v) s =
    .next { s with regs := { s.regs with readData := [], readPoisoned := false, unsupported := true } }) ∧
  exec (.registerWrite 0x2008 4 v) s =
    .next { u with regs := { u.regs with heldWrite := some ⟨0x2008, v.extractLsb' 0 32⟩ } } ∧
  (∀ low : Word, s.regs.heldWrite = some ⟨0x2008, low⟩ → exec (.registerWrite 0x200C 4 v) s =
    .next { u with regs := { u.regs with syncLoad := v.extractLsb' 0 32 ++ low } }) ∧
  (s.regs.heldWrite = none → exec (.registerWrite 0x200C 4 v) s = .next u))

/-- DEBUG_EN, CAP_ARMED, CAP_DISARM and DEBUG_REFUSAL_REPORT (R369–R371, R401). -/
def Obligations.DebugWrites : Prop := ∀ (v : DWord) (s : State), s.hostAnswers →
  let u := s.halfGone
  let late := fun (off : Nat) => (Host.Outcome.next { u with sec := { u.sec with
    refusals := u.sec.refusals ++ [⟨s.refclk + 40000#64, BitVec.ofNat 26 off⟩] } } : Out)
  let held := s.seq.state = .idle ∨ s.seq.state = .loaded
  let enters := held ∧ s.sec.sealed = false ∧ s.edition.debugAllowed = true
  let quiet := held ∨ s.seq.state = .faulted
  let placed := { u.regs with capStroke := v.extractLsb' 0 10, capCluster := v.extractLsb' 10 6,
                              capPlate := v.extractLsb' 16 1, capLengine := v.extractLsb' 17 3 }
  let exists_ := (v.extractLsb' 10 6).toNat < 36
  let arms := v.getLsbD 33 = false ∧ s.regs.debug = true ∧ s.sec.sealed = false ∧ s.regs.capArmed = false ∧ exists_
  (v.getLsbD 0 = true → enters → exec (.debugEn v) s = .next { u with regs := { u.regs with debug := true } }) ∧
  (v.getLsbD 0 = true → ¬ enters → exec (.debugEn v) s = late 0x5000) ∧
  (v.getLsbD 0 = false → quiet → exec (.debugEn v) s = .next { u with regs := { u.regs with
    debug := false, capArmed := false, capDone := false, capture := [] } }) ∧
  (v.getLsbD 0 = false → ¬ quiet → exec (.debugEn v) s = late 0x5000) ∧
  (arms → exec (.capArmed v) s = .next { u with regs := { placed with capArmed := true, capDone := false } }) ∧
  (¬ arms → exec (.capArmed v) s = late 0x5010) ∧
  (v.getLsbD 32 = false → s.regs.capArmed = true →
    exec (.capDisarm v) s = .next { u with regs := { u.regs with capArmed := false } }) ∧
  (v.getLsbD 32 = false → s.regs.capArmed = false → exists_ →
    exec (.capDisarm v) s = .next { u with regs := placed }) ∧
  (v.getLsbD 32 = false → s.regs.capArmed = false → ¬ exists_ → exec (.capDisarm v) s =
    .next { u with regs := { u.regs with refused := true, refusedAt := 0x5010 } }) ∧
  (v.getLsbD 32 = true → exec (.capDisarm v) s = late 0x5010) ∧
  (∀ r rest, s.sec.refusals = r :: rest →
    let edges := r.due.toNat - s.refclk.toNat
    let w := { s with
      boardTime := BitVec.ofNat 64 (s.boardTime.toNat + 10 * edges), refclk := s.refclk + BitVec.ofNat 64 edges,
      sec := { s.sec with refusals := rest }, regs := { s.regs with refused := true, refusedAt := r.offset } }
    ∃ t, exec .debugRefusalReport s = .next t ∧ w.emits t srcMss 0x0420 [f64 r.offset.toNat]) ∧
  (s.sec.refusals = [] → exec .debugRefusalReport s = .next s)

/-- WIN_BASE and STORE_WINDOW_ACCESS (R186, R372). -/
def Obligations.StoreWindow : Prop := ∀ (off : BitVec 16) (s : State),
  let u := s.halfGone
  let open_ := s.regs.debug = true ∧ (s.seq.state = .idle ∨ s.seq.state = .loaded ∨ s.seq.state = .faulted)
  let a := s.regs.winBase.toNat + off.toNat
  let reaches := mapped a = true ∧ ∃ p c o, storePlace a = some (p, c, o) ∧ s.plateOffered p = true
  let shape := fun (n : Nat) => (n = 4 ∨ n = 8) ∧ off.toNat % n = 0
  let got := fun (x : State) (l : List Byte) => { x.regs with
    readLatch := none, readData := l, readPoisoned := false, unsupported := false }
  (¬ s.hostAnswers → (∀ x, exec (.storeWindowAccess off x) s = .next s) ∧ ∀ v, exec (.winBase v) s = .next s) ∧
  (s.hostAnswers →
  (∀ v : DWord,
    let b := v.toNat % 2 ^ 48
    (b % 0x1_0000 = 0 ∧ (∃ p < 2, s.plateOffered p = true ∧ storeBase p ≤ b ∧ b + 0x1_0000 ≤ storeBase p + storeSize) →
      exec (.winBase v) s = .next { u with regs := { u.regs with winBase := v.extractLsb' 0 48 } }) ∧
    (¬ (b % 0x1_0000 = 0 ∧ (∃ p < 2, s.plateOffered p = true ∧ storeBase p ≤ b ∧ b + 0x1_0000 ≤ storeBase p + storeSize)) →
      exec (.winBase v) s = .next { u with regs := { u.regs with refused := true, refusedAt := 0x5018 } })) ∧
  (∀ n, shape n → open_ → reaches → a % 8 + n ≤ 8 → s.mem.early = [] →
    let mark := smapGet EccMark.unwritten s.mem.marks (a / 8)
    (mark = .good ∨ mark = .unwritten → exec (.storeWindowAccess off (.read n)) s =
      .next { s with regs := got s ((List.range n).map fun i => smapGet 0 s.mem.bytes (a + i)) }) ∧
    (mark = .poison → ∃ t v, exec (.storeWindowAccess off (.read n)) s = .next t ∧
      { s with regs := { s.regs with readLatch := none } }.emits v srcMss 0x0212 [f64 (8 * (a / 8))] ∧
      t = { v with regs := got v (List.replicate n 0) })) ∧
  (∀ n, shape n → ¬ (open_ ∧ reaches) → exec (.storeWindowAccess off (.read n)) s =
    .next { s with regs := got s (List.replicate n 0) }) ∧
  (∀ d : List Byte, shape d.length → open_ → reaches → ∃ t, exec (.storeWindowAccess off (.write d)) s = .next t ∧
    (s.seq.phase ≠ .inStroke → a % 8 = 0 → d.length = 8 → s.mem.wf = true →
      t = { u with mem := t.mem, seq := t.seq } ∧ t.mem.host = s.mem.host ∧
      (∀ i < 8, byteAt t.mem (a + i) = nth 0 d i) ∧ markAt t.mem (a / 8) = .good ∧
      (∀ b, b / 8 ≠ a / 8 → smapGet 0 t.mem.bytes b = smapGet 0 s.mem.bytes b) ∧
      (∀ w, w ≠ a / 8 → smapGet EccMark.unwritten t.mem.marks w = smapGet EccMark.unwritten s.mem.marks w))) ∧
  (∀ d : List Byte, shape d.length → open_ → ¬ reaches → exec (.storeWindowAccess off (.write d)) s = .next u) ∧
  (∀ d : List Byte, shape d.length → ¬ open_ → exec (.storeWindowAccess off (.write d)) s =
    .next { u with regs := { u.regs with refused := true, refusedAt := BitVec.ofNat 26 (0x4_0000 + off.toNat) } }) ∧
  (∀ n, ¬ shape n → exec (.storeWindowAccess off (.read n)) s =
    .next { s with regs := { s.regs with readData := [], readPoisoned := false, unsupported := true } }) ∧
  (∀ d : List Byte, ¬ shape d.length → exec (.storeWindowAccess off (.write d)) s =
    .next { s with regs := { s.regs with readData := [], readPoisoned := false, unsupported := true } }))

/-- Writes of whole words and of parts of a word (R198). -/
def Obligations.MemoryWrites : Prop := ∀ (m : Memory) (w : Nat), m.wf = true →
  (∀ d : List Byte, d.length = 8 →
    let n := m.put (8 * w) d
    (∀ i < 8, byteAt n (8 * w + i) = nth 0 d i) ∧ markAt n w = .good ∧ n.host = m.host ∧
    (∀ a, a / 8 ≠ w → byteAt n a = byteAt m a) ∧ (∀ x, x ≠ w → markAt n x = markAt m x)) ∧
  (∀ (o : Nat) (d : List Byte), 0 < d.length → d.length < 8 → o + d.length ≤ 8 →
    let n := m.put (8 * w + o) d
    (markAt m w = .poison → n = m) ∧
    (markAt m w ≠ .poison → markAt n w = .good ∧ n.host = m.host ∧
      (∀ i < 8, byteAt n (8 * w + i) = if o ≤ i ∧ i < o + d.length then nth 0 d (i - o) else byteAt m (8 * w + i)) ∧
      (∀ a, a / 8 ≠ w → byteAt n a = byteAt m a) ∧ (∀ x, x ≠ w → markAt n x = markAt m x)))

/-- BAR2_ACCESS (R186, R187, R198, R200, R393). -/
def Obligations.Bar2Access : Prop := ∀ (off : BitVec 36) (s : State),
  let a := s.regs.bar2Aperture.toNat * 2 ^ 36 + off.toNat
  let opens := s.sec.sealed = false ∧ s.sec.bar2Closed = false ∧ ∃ p, hbmPlate a = some p ∧ s.plateOffered p = true
  let got := fun (x : State) (l : List Byte) (p : Bool) => { x.regs with readData := l, readPoisoned := p, unsupported := false }
  let counted := smapMod .zero s.stackCounts (stackOf a) (fun c => { c with poisonReads := satInc c.poisonReads })
  let unsupported := { s with regs := { s.regs with readData := [], readPoisoned := false, unsupported := true } }
  (¬ s.hostAnswers → ∀ x, exec (.bar2Access off x) s = .next s) ∧
  (s.hostAnswers →
  (∀ n, s.bar2Open a n = true → s.sec.scrub = none →
    let r := s.hostView a n
    let v := s.hostReported r
    exec (.bar2Access off (.read n)) s = .next { v with regs := got v r.bytes (!r.poison.isEmpty) }) ∧
  (opens → s.sec.scrub = none → a % 8 = 0 → s.mem.early = [] → s.sec.tenant = none →
    (markAt s.mem (a / 8) = .good ∨ markAt s.mem (a / 8) = .unwritten →
      exec (.bar2Access off (.read 8)) s = .next { s with regs := got s (bytesAt s.mem a 8) false }) ∧
    (markAt s.mem (a / 8) = .poison → ∃ v t, exec (.bar2Access off (.read 8)) s = .next t ∧
      { s with stackCounts := counted }.emits v srcMss 0x0212 [f64 a] ∧
      t = { v with regs := got v (List.replicate 8 0) true })) ∧
  (∀ d : List Byte, d.length = 8 → opens → s.sec.scrub = none → a % 8 = 0 →
    let w := { s with regs := got s [] false }
    (s.seq.cartoon.isSome = true → s.inCartoonRegion a 8 = true →
      exec (.bar2Access off (.write d)) s = .next w) ∧
    (s.seq.cartoon = none ∨ s.inCartoonRegion a 8 = false →
      exec (.bar2Access off (.write d)) s = .next (w.outsideWrite noReader a d) ∧
      (s.seq.phase ≠ .inStroke → s.seq.cartoon = none → s.sec.tenant = none →
        w.outsideWrite noReader a d = { w with mem := s.mem.put a d }))) ∧
  (∀ n (d : List Byte), s.bar2Open a n = true → s.bar2Open a d.length = true → s.sec.scrub.isSome = true →
    exec (.bar2Access off (.read n)) s = .next { s with regs := got s (List.replicate n 0) false } ∧
    exec (.bar2Access off (.write d)) s = .next { s with regs := got s [] false }) ∧
  (s.sec.sealed = true ∨ (s.sec.bar2Closed = true ∧ s.sec.scrub = none) ∨ hbmPlate a = none ∨
      (∃ p, hbmPlate a = some p ∧ s.plateOffered p = false) →
    ∀ x, exec (.bar2Access off x) s = .next unsupported))

/-- A sealed device's memory does not show (R393). -/
def Obligations.SealedMemoryHidden : Prop := ∀ (s t : State) (m : Memory),
  (∀ (off : BitVec 36) (x : HostAccess), s.sec.sealed = true → exec (.bar2Access off x) s = .next t →
    exec (.bar2Access off x) { s with mem := m } = .next { t with mem := m } ∧ t.mem = s.mem) ∧
  (∀ (off : BitVec 16) (x : HostAccess), s.regs.debug = false → exec (.storeWindowAccess off x) s = .next t →
    exec (.storeWindowAccess off x) { s with mem := m } = .next { t with mem := m } ∧ t.mem = s.mem)

/-- LAUNCH_AT (R288). -/
def Obligations.LaunchAtArms : Prop := ∀ (v : DWord) (s : State), s.hostAnswers →
  let u := s.halfGone
  let may := s.seq.state = RunState.loaded ∧ s.timeValid = true ∧ v.toNat % 1000 = 0 ∧ s.boardTime.toNat + 1000000 ≤ v.toNat
    ∧ (∃ c r, s.seq.cartoon = some c ∧ mapRole s.regs.roleMap s.boot.boardSlot.toNat = some r ∧ c.role.toNat = r
        ∧ c.groupSize.toNat = mapSize s.regs.roleMap)
    ∧ s.tenantChanging = false ∧ s.sec.importState ≠ ImportState.running
  (may → ∃ t, exec (.launchAt v) s = .next t ∧
    { u with counts := [], seq := { u.seq with state := .armed, launchAt := v, launchOk := false } }.sends t) ∧
  (¬ may → exec (.launchAt v) s = .next { u with regs := { u.regs with refused := true, refusedAt := 0x2018 } })

/-- LAUNCH_CHECK and LAUNCH (R289). -/
def Obligations.LaunchStartsRun : Prop := ∀ (seedReadFails : Bool) (s : State),
  let due := s.seq.state = .armed ∧ s.seq.abortPending = false
  let u := s.advanceTo (s.seq.launchAt.toNat - 100000)
  (due → s.seq.launchOk = false → ∀ r, u.otherRoles.find? (fun r => (u.agreedCheck r).isNone) = some r → ∃ t v,
    exec (.launchCheck seedReadFails) s = .next t ∧ u.emits v srcSeq 0x0326 [f16 r, f16 s.boot.boardSlot.toNat] ∧
    t.seq.state = .loaded ∧ t.seq.phase = .none ∧ t.seq.launchOk = false ∧ t.seq.cartoon = s.seq.cartoon ∧
    t.mem.bytes = s.mem.bytes ∧ t.mem.marks = s.mem.marks ∧ (∃ rest, t.closed = v.closed ++ rest) ∧ t.rings = s.rings) ∧
  (due → s.seq.launchOk = false → (∀ r ∈ u.otherRoles, (u.agreedCheck r).isSome = true) → ∃ t,
    exec (.launchCheck seedReadFails) s = .next t ∧ t.seq.launchOk = true ∧ t.seq.state = .armed ∧
    t.seq.phase = s.seq.phase ∧ t.regs.gearNow = BitVec.ofNat 2 u.firstGear ∧ t.links = s.links) ∧
  (due → s.seq.launchOk = true → ∃ t, exec .launch s = .next t ∧
    t = { s.advanceTo s.seq.launchAt.toNat with
      links := smapMap .empty (fun x => { x.nextStroke with ctrlAtClose := x.nextCtrl }) s.links,
      ports := smapMap .reset (fun p => { p with left := false }) s.ports,
      recvs := [], seq := t.seq } ∧
    t.seq.phase = .stepDue ∧ t.seq.nextStep = s.regs.baseStep ∧ t.seq.strokesRun = 0 ∧ t.seq.faults = [] ∧
    t.seq.prevEnd = s.seq.launchAt ∧ t.seq.cartoon = s.seq.cartoon ∧
    (t.seq.state = .running ∨ t.seq.state = .waiting)) ∧
  (¬ due ∨ s.seq.launchOk = true → exec (.launchCheck seedReadFails) s = .next s) ∧
  (¬ due ∨ s.seq.launchOk = false → exec .launch s = .next s)

/-- ABORT and ABORT_COMPLETE (R340, R341). -/
def Obligations.AbortStops : Prop := ∀ s : State,
  let u := s.halfGone
  let quiet := s.seq.state = .idle ∨ s.seq.state = .loaded ∨ s.seq.state = .faulted
  let after := fun (n : Nat) => { u with seq := { u.seq with abortAt := match s.seq.abortAt with | some k => some k | none => some n } }
  let left := fun (t : State) => ∃ v, u.sends v ∧
    t = { v.leaveRun with seq := { v.leaveRun.seq with abortPending := true } }
  (s.hostAnswers → quiet ∨ s.seq.abortPending = true → exec .abort s = .next u) ∧
  (s.hostAnswers → ¬ quiet → s.seq.abortPending = false → s.seq.phase = .inStroke →
    exec .abort s = .next (after (s.seq.curStroke.toNat + (if s.countAt s.tailStart ≤ s.boardTime.toNat then 1 else 0)))) ∧
  (s.hostAnswers → ¬ quiet → s.seq.abortPending = false → s.seq.phase = .strokeDue ∨ s.seq.phase = .checkDue →
    exec .abort s = .next (after s.seq.strokesRun)) ∧
  (s.hostAnswers → ¬ quiet → s.seq.abortPending = false → s.seq.phase = .none →
    ∃ t, exec .abort s = .next t ∧ left t) ∧
  (s.hostAnswers → ¬ quiet → s.seq.abortPending = false → s.seq.phase = .stepDue →
    (∀ n, s.startCount s.seq.nextStep.toNat = some n → n ≤ s.boardTime.toNat →
      exec .abort s = .next (after s.seq.strokesRun)) ∧
    ((∀ n, s.startCount s.seq.nextStep.toNat = some n → s.boardTime.toNat < n) →
      ∃ t, exec .abort s = .next t ∧ left t)) ∧
  (s.seq.abortPending = true → ∀ stops, ∃ t, exec (.abortComplete stops) s = .next t ∧ t.regs.abortDone = true ∧
    t.seq.abortPending = false ∧ t.engines = [] ∧ t.seq.cartoon = s.seq.cartoon ∧
    t.seq.state = (if s.seq.cartoon.isSome then RunState.loaded else RunState.idle)) ∧
  (s.seq.abortPending = false → ∀ stops, exec (.abortComplete stops) s = .next s)

/-- FAULT_CLEAR and COUNTER_CLEAR (R356, R366). -/
def Obligations.FaultAndCounterClear : Prop := ∀ s : State, s.hostAnswers →
  let u := s.halfGone
  (s.seq.state ≠ .faulted ∨ s.seamRetraining = true → exec .faultClear s =
    .next { u with regs := { u.regs with refused := true, refusedAt := 0x1038 } }) ∧
  (s.seq.state = .faulted → s.seamRetraining = false → ∃ t, exec .faultClear s = .next t ∧
    t.seq.state = (if s.seq.cartoon.isSome then RunState.loaded else RunState.idle) ∧ t.seq.cartoon = s.seq.cartoon) ∧
  (s.seq.state = .faulted → s.seamRetraining = false →
    (∀ p ∈ s.rings, p.2.kind = 1 → p.2.state ≠ .active) → exec .faultClear s =
    .next { u with seq := { u.seq with state := if s.seq.cartoon.isSome then .loaded else .idle } }) ∧
  exec .counterClear s = .next { u with
    clusterCounts := [], stackCounts := [],
    ports := smapMap .reset (fun p => { p with
      stale := 0, replaySlots := 0, correctedSymbols := 0, uncorrectable := 0, drainDiscards := 0, laneSwaps := 0 }) s.ports,
    seam := smapMap .up (fun c => { c with replaySlots := 0, correctedSymbols := 0, uncorrectable := 0 }) s.seam }

/-- ROLE_COMMIT (R290). -/
def Obligations.RoleCommit : Prop := ∀ s : State, s.hostAnswers →
  let u := s.halfGone
  let once := ∀ r < mapSize s.regs.nextMap,
    ((List.range 8).filter fun k => mapRole s.regs.nextMap k == some r).length = 1
  let may := ¬ (s.seq.state = .armed ∨ s.seq.state = .running ∨ s.seq.state = .waiting)
    ∧ s.regs.roleEpoch.toNat < s.regs.nextEpoch.toNat ∧ once
  let slot := s.boot.boardSlot.toNat
  let same := mapRole s.regs.nextMap slot = mapRole s.regs.roleMap slot
    ∧ mapSize s.regs.nextMap = mapSize s.regs.roleMap
  let w := { u with regs := { u.regs with roleMap := s.regs.nextMap, roleEpoch := s.regs.nextEpoch } }
  let fields := [f16 s.regs.roleEpoch.toNat, f16 s.regs.nextEpoch.toNat, f16 slot]
  (may → same → ∃ t, exec .roleCommit s = .next t ∧ w.emits t srcSeq 0x0322 fields) ∧
  (may → ¬ same → ∃ t, exec .roleCommit s = .next t ∧
    { w with seq := { w.seq with
      cartoon := none, state := if s.seq.state = RunState.loaded then RunState.idle else s.seq.state } }.emits t srcSeq 0x0322 fields) ∧
  (¬ may → exec .roleCommit s = .next { u with regs := { u.regs with refused := true, refusedAt := 0x2038 } })

/-- SYNC_FIRE, SYNC_IN, REMOTE_SIGNAL and REMOTE_SIGNAL_SEND (R285, R339, R493). -/
def Obligations.SyncAndRemoteSignal : Prop := ∀ s : State,
  let u := s.halfGone
  let quiet := s.seq.state = .idle ∨ s.seq.state = .loaded ∨ s.seq.state = .faulted
  let hasRole := (mapRole s.regs.roleMap s.boot.boardSlot.toNat).isSome = true
  (s.hostAnswers → exec .syncFire s = .next { u with syncEnds := s.refclk + 2 }) ∧
  (quiet → exec .syncIn s =
    .next { s with
      boardTime := s.regs.syncLoad, timeValid := true, refclk := s.refclk + 1,
      links := smapMap .empty (fun x => { x with dataFrom := 0, ctrlFrom := 0, replayFrom := 0, sent := [] }) s.links,
      ports := smapMap .reset (fun p => { p with checkTick := 0 }) s.ports }) ∧
  (¬ quiet → ∃ t, exec .syncIn s = .next t ∧ s.emits t srcSeq 0x0323 [f16 s.boot.boardSlot.toNat]) ∧
  (∀ (m : BitVec 12) (r : BitVec 3), s.hostAnswers → s.regs.remoteBusy = none → hasRole →
    exec (.remoteSignal m r) s =
      .next { u with regs := { u.regs with remoteBusy := some (m, r, s.regs.remoteValue) } }) ∧
  (∀ (m : BitVec 12) (r : BitVec 3), s.hostAnswers → s.regs.remoteBusy ≠ none ∨ ¬ hasRole →
    exec (.remoteSignal m r) s = .next { u with regs := { u.regs with refused := true, refusedAt := 0x2048 } }) ∧
  (∀ m r v k, s.regs.remoteBusy = some (m, r, v) → s.ctrlPortFin r.toNat = some k → ∃ t,
    exec .remoteSignalSend s = .next t ∧ { s with regs := { s.regs with remoteBusy := none } }.sends t) ∧
  (∀ m r v, s.regs.remoteBusy = some (m, r, v) → s.ctrlPortFin r.toNat = none → exec .remoteSignalSend s = .next s) ∧
  (s.regs.remoteBusy = none → exec .remoteSignalSend s = .next s)

/-- LOAD_TRIGGER and LOAD_CHECK (R53, R322, R323). -/
def Obligations.LoadAndCheck : Prop := ∀ s : State,
  let u := s.halfGone
  let may := (s.seq.state = .idle ∨ s.seq.state = .loaded) ∧ s.regs.loadBusy = false
    ∧ (∀ p ∈ [0, 1], s.plateOffered p = true → 2 * s.regs.loadSize.toNat ≤ s.cartSize p)
    ∧ (∀ i < 72, s.plateOffered (i / 36) = true → (smapGet Gate.reset s.gates i).state = .on)
    ∧ s.tenantChanging = false ∧ s.sec.importState ≠ ImportState.running
  let img := smapGetList 0 s.mem.host s.regs.loadFrom.toNat s.regs.loadBytes.toNat
  let y := s.copyImage img s.freeHalf
  let refused := fun (t : State) (reason : Nat) => { y with regs := { y.regs with
      loadBusy := false, loadStatus := 3, loadReason := BitVec.ofNat 5 reason } }.emits t srcSeq 0x0101 [f8 reason]
  (s.hostAnswers → may → exec .loadTrigger s =
    .next { u with regs := { u.regs with
      loadBusy := true, loadStatus := 1, loadFrom := s.regs.loadAddr, loadBytes := s.regs.loadSize } }) ∧
  (s.hostAnswers → ¬ may → exec .loadTrigger s =
    .next { u with regs := { u.regs with refused := true, refusedAt := 0x3010 } }) ∧
  (y.seq.cartoon = s.seq.cartoon ∧ y.seq.state = s.seq.state ∧ y.regs = s.regs ∧ y.mem.host = s.mem.host) ∧
  (s.regs.loadBusy = true → ∀ d, lowest ((readImage img).check y d).bad = none → ∃ t c,
    exec (.loadCheck d) s = .next t ∧ t.seq.state = .loaded ∧ t.regs.loadStatus = 2 ∧ t.regs.loadBusy = false ∧
    t.seq.cartoon = some c ∧ c.half = s.freeHalf) ∧
  (s.regs.loadBusy = true → ∀ d n, lowest ((readImage img).check y d).bad = some n →
    ∃ t, exec (.loadCheck d) s = .next t ∧ refused t n) ∧
  (s.regs.loadBusy = true → ofLe (img.take 4) ≠ 0x43415254 → ∀ d, ∃ t, exec (.loadCheck d) s = .next t ∧ refused t 1) ∧
  (s.regs.loadBusy = false → ∀ d, exec (.loadCheck d) s = .next s)

/-- The landing of flits, DATA_FLIT among them (R259–R263, R291). -/
def Obligations.FlitLandings : Prop := ∀ (l : LinkRef) (h : FlitHeader) (s : State),
  let x := s.link l
  let put := fun (y : Link) => { s with links := smapPut .empty s.links (linkKey l) y }
  let stale := s.role ≠ some h.destRole.toNat ∨ h.epoch ≠ s.regs.roleEpoch
  let seam := ∃ p ch, l = .seam p ch
  (let n := rebuild x.rxCtrlNext h.seq.toNat
    let m := markLanded x.rxCtrlNext x.rxCtrlAhead n
    let named := x.nacks.erase (true, n)
    let w := if s.tailPassed = true then put { x with nacks := named, rxLate := x.rxLate ++ [n] }
      else put { x with nacks := named, rxCtrlNext := m.1, rxCtrlAhead := m.2 }
    let fresh := n < x.rxCtrlNext + 2048 ∧ n ∉ x.rxCtrlAhead ∧ n ∉ x.rxLate
    (¬ fresh → s.acceptCtrl l h = (false, s)) ∧
    (fresh → seam ∨ h.ctype = 7 ∨ h.ctype = 8 ∨ ¬ stale → s.acceptCtrl l h = (true, w)) ∧
    (∀ k : Fin 16, l = .kazin k → fresh → h.ctype ≠ 7 → h.ctype ≠ 8 → stale →
      (s.acceptCtrl l h).1 = false ∧
      (s.role = none → (s.acceptCtrl l h).2 = w) ∧
      (s.role.isSome = true → s.canonical = true →
        ((s.acceptCtrl l h).2.port k.val).stale = satInc (s.port k.val).stale ∧
        (s.acceptCtrl l h).2.mem = s.mem ∧ (s.acceptCtrl l h).2.seq.faults = s.seq.faults))) ∧
  (∀ payload : List Byte,
    let n := rebuild x.rxNext h.seq.toNat
    let m := markLanded x.rxNext x.rxAhead n
    let fresh := s.tailPassed = false ∧ n < x.rxNext + 2048 ∧ n ∉ x.rxAhead
    let live := s.linkLive l = true
    let taken := { x with rxNext := m.1, rxAhead := m.2, nacks := x.nacks.erase (false, n) }
    let g : FlitHeader := { h with kind := 1 }
    let f : Flit := ⟨g, n, s.openPayload l g payload n, 0⟩
    (¬ (live ∧ fresh) → exec (.dataFlit l h payload) s = .next s) ∧
    (∀ k : Fin 16, l = .kazin k → live → fresh → stale → ∃ t, exec (.dataFlit l h payload) s = .next t ∧
      (s.role = none → t = put taken) ∧
      (s.role.isSome = true → s.canonical = true → (t.port k.val).stale = satInc (s.port k.val).stale ∧
        (t.link l).rxNext = m.1 ∧ t.mem = s.mem ∧ t.recvs = s.recvs ∧ t.seq.faults = s.seq.faults)) ∧
    (live → fresh → seam ∨ ¬ stale → findRecv s.recvs 0 l n = none → 1024 ≤ x.rxBuffer.length →
      exec (.dataFlit l h payload) s = .next (put { x with nacks := addNack x.nacks (false, n) })) ∧
    (live → fresh → seam ∨ ¬ stale → findRecv s.recvs 0 l n = none → x.rxBuffer.length < 1024 → s.canonical = true →
      ∃ t, exec (.dataFlit l h payload) s = .next t ∧ s.sends t ∧
        t.link l = { taken with rxBuffer := x.rxBuffer ++ [f] } ∧ (seam → f.payload = payload)) ∧
    (∀ i j r, live → fresh → seam ∨ ¬ stale → findRecv s.recvs 0 l n = some (i, j) → s.recvs[i]? = some r →
      ∃ t r', exec (.dataFlit l h payload) s = .next t ∧ t.recvs[i]? = some r' ∧ r'.args = r.args ∧ r'.cycle = r.cycle ∧
        r'.landed = smapPut none r.landed j (some f) ∧ t.recvs.length = s.recvs.length ∧
        t.marks = s.marks ∧ t.engines = s.engines))

/-- STROKE_CLOSE, GATE_NOTICE, STOP_NOTICE, REMOTE_MARK, NORM_TOTAL, EXPONENT_MAXIMA and ROLE_STALE_REPORT. -/
def Obligations.ControlMessages : Prop := ∀ (k : Fin 16) (h : FlitHeader) (s : State),
  let l := LinkRef.kazin k
  let live := ((s.port k.val).state = .up ∨ (s.port k.val).state = .draining) ∧ (s.port k.val).left = false
  let msgs := fun (o : Nat → Instr → Prop) => (∀ m, o 1 (.strokeClose l h m)) ∧ (∀ m v, o 2 (.remoteMark k h m v)) ∧
    (∀ n r, o 3 (.gateNotice k h n r)) ∧ (∀ m, o 4 (.stopNotice k h m)) ∧ (∀ m, o 5 (.normTotal k h m)) ∧
    (∀ m, o 6 (.exponentMaxima k h m)) ∧ (∀ m, o 8 (.roleStaleReport k h m))
  let acc := fun (ty : Nat) (u : State) => live ∧ s.acceptCtrl l (ctrlHeader h ty) = (true, u)
  let early := s.seq.phase ≠ .none ∧ s.tailPassed = false
  let stopped := fun (t : State) (code : Nat) => s.seq.abortAt = none →
    t.seq.state = .faulted ∧ ∃ r ∈ t.closed, r.kind = 1 ∧ r.code = BitVec.ofNat 16 code ∧ r.step = s.seq.nextStep
  (¬ live → msgs fun _ c => exec c s = .next s) ∧
  (∀ u, live → msgs fun ty c => s.acceptCtrl l (ctrlHeader h ty) = (false, u) → exec c s = .next u) ∧
  (∀ u m, acc 1 u →
    let y := { u.link l with rxClose := some m, rxCloseNumber := rebuild (s.link l).rxCtrlNext h.seq.toNat }
    (s.tailPassed = true → exec (.strokeClose l h m) s = .next u) ∧
    (s.tailPassed = false →
      exec (.strokeClose l h m) s = .next { u with links := smapPut .empty u.links (linkKey l) y })) ∧
  (∀ u n r, acc 3 u →
    let v := { u with seq := { u.seq with
      notices := smapPut none u.seq.notices (noticeKey n.toNat h.srcRole.toNat) (some r) } }
    let late := s.seq.phase = .stepDue ∧ s.seq.nextStep = n ∧ ∃ t, v.startCount n.toNat = some t ∧ t < s.boardTime.toNat
    (¬ late → exec (.gateNotice k h n r) s = .next v) ∧
    (late → ∃ t, exec (.gateNotice k h n r) s = .next t ∧ stopped t 0x0301)) ∧
  (∀ u m, acc 4 u →
    let keep := { u with seq := { u.seq with stopBy := match u.seq.stopBy with
      | some y => some y | none => some (m.code, m.role) } }
    let begins := ∃ t, u.startCount s.seq.nextStep.toNat = some t ∧ t ≤ s.boardTime.toNat
    (s.seq.phase = .inStroke ∨ s.seq.phase = .strokeDue ∨ (s.seq.phase = .checkDue ∧ s.seq.checkFault = false) ∨
      (s.seq.phase = .stepDue ∧ begins) → exec (.stopNotice k h m) s = .next keep) ∧
    (s.seq.phase = .stepDue → ¬ begins → ∃ t, exec (.stopNotice k h m) s = .next t ∧ stopped t m.code.toNat) ∧
    (s.seq.phase = .none → s.seq.state = .armed → s.seq.abortPending = false → ∃ t v,
      exec (.stopNotice k h m) s = .next t ∧ u.emits v srcSeq 0x0326 [f16 h.srcRole.toNat, f16 s.boot.boardSlot.toNat] ∧
      t.seq.state = .loaded ∧ t.seq.launchOk = false ∧ (s.remoteMarks = [] → t.mem = s.mem) ∧ ∃ rest, t.closed = v.closed ++ rest) ∧
    (s.seq.phase = .none → s.seq.state ≠ .armed ∨ s.seq.abortPending = true →
      exec (.stopNotice k h m) s = .next u) ∧
    (s.seq.phase = .checkDue → s.seq.checkFault = true → exec (.stopNotice k h m) s = .next u)) ∧
  (∀ u (m : BitVec 16) v, acc 2 u →
    (s.goesOn = true → exec (.remoteMark k h m v) s =
      .next { u with remoteMarks := u.remoteMarks ++ [⟨m.setWidth 12, v⟩] }) ∧
    (s.goesOn = false → ∃ t, exec (.remoteMark k h m v) s = .next t ∧
      t.marks = smapPut 0 u.marks (m.toNat % 4096) (u.mark (m.toNat % 4096) + v))) ∧
  (∀ u m, acc 5 u →
    let other := ∃ j, u.norm = some j ∧ j.mode ≠ m.mode
    (¬ early → exec (.normTotal k h m) s = .next u) ∧
    (early → ¬ other → exec (.normTotal k h m) s =
      .next { u with seq := { u.seq with normMsgs := u.seq.normMsgs ++ [(h.srcRole, m)] } }) ∧
    (s.seq.phase = .inStroke ∨ s.seq.phase = .strokeDue → s.tailPassed = false → other → ∃ f, f.code = 0x0302 ∧ f.source = srcPort k.val ∧
      exec (.normTotal k h m) s = .next { u with seq := { u.seq with faults := u.seq.faults ++ [f] } })) ∧
  (∀ u m, acc 6 u →
    (¬ early → exec (.exponentMaxima k h m) s = .next u) ∧
    (early → exec (.exponentMaxima k h m) s =
      .next { u with seq := { u.seq with maxima := u.seq.maxima ++ [(h.srcRole, m)] } })) ∧
  (∀ u m, acc 8 u →
    (s.goesOn = false → ∃ t, exec (.roleStaleReport k h m) s = .next t ∧ u.emits t (srcPort k.val) 0x0320
      [f16 k.val, f8 m.staleKind.toNat, f64 m.staleSeq.toNat, f16 m.rxSlot.toNat, f16 m.rxRole.toNat, f16 m.rxEpoch.toNat,
        f16 s.boot.boardSlot.toNat]) ∧
    (s.goesOn = true → exec (.roleStaleReport k h m) s =
      .next { u with seq := { u.seq with staleReports := u.seq.staleReports ++ [(k.val, m, s.tailPassed)] } }))

/-- BOARD_TIME_CHECK_SEND and BOARD_TIME_CHECK (R286, R287). -/
def Obligations.BoardTimeChecks : Prop := ∀ (k : Fin 16) (h : FlitHeader) (m : CheckMsg) (at16 : Nat) (s : State),
  let live := ((s.port k.val).state = .up ∨ (s.port k.val).state = .draining) ∧ (s.port k.val).left = false
  let off : Option Int := if m.echoTx = 0 ∧ m.echoRx = 0 then none else
    some ((((m.echoRx.toNat : Int) - 16 * m.echoTx.toNat) - ((at16 : Int) - 16 * m.txTime.toNat)).tdiv 2)
  let beyond := fun (n : Nat) => ∃ a b, (s.port k.val).offset = some a ∧ off = some b ∧ n < a.natAbs ∧ n < b.natAbs
  let now := s.boardTime.toNat
  ((s.port k.val).state = .up →
    let tick := if now % 65536 = 0 ∧ (s.port k.val).checkTick ≠ now + 1 then now else (now / 65536 + 1) * 65536
    let u := s.advanceTo tick
    ∃ t, exec (.boardTimeCheckSend k) s = .next t ∧
      ({ u with ports := smapPut .reset u.ports k.val { s.port k.val with checkTick := tick + 1 } }).sends t ∧
      ∀ j : Fin 16, j ≠ k → t.link (.kazin j) = s.link (.kazin j)) ∧
  ((s.port k.val).state ≠ .up → exec (.boardTimeCheckSend k) s = .next s) ∧
  (¬ live → exec (.boardTimeCheck k h m at16) s = .next s) ∧
  (∀ u, live → s.acceptCtrl (.kazin k) (ctrlHeader h 7) = (false, u) → exec (.boardTimeCheck k h m at16) s = .next u) ∧
  (∀ u, live → s.acceptCtrl (.kazin k) (ctrlHeader h 7) = (true, u) →
    let tick := m.txTime.toNat / 65536 * 65536
    let first := (if s.busyRun = true then s.seq.strokeStart.toNat else now) / 65536 * 65536
    let gears := (tick, m.role.toNat, m.gearReq) ::
      u.seq.gearChecks.filter fun x => decide (first ≤ x.1 ∧ ¬ (x.1 = tick ∧ x.2.1 = m.role.toNat))
    let v := { u with
      ports := smapPut .reset u.ports k.val { u.port k.val with check := some ⟨m, at16⟩, offset := off },
      seq := { u.seq with gearChecks := if m.hasRole = 1 then gears else u.seq.gearChecks } }
    let skew := [f16 k.val, f64 (unsigned 64 ((s.port k.val).offset.getD 0)), f64 (unsigned 64 (off.getD 0)),
      f16 s.boot.boardSlot.toNat]
    let armed := s.seq.state = .armed ∧ s.seq.abortPending = false
    (¬ beyond 32 → exec (.boardTimeCheck k h m at16) s = .next v) ∧
    (beyond 32 → ¬ beyond 320 → ∃ t, exec (.boardTimeCheck k h m at16) s = .next t ∧ v.emits t (srcPort k.val) 0x0324 skew) ∧
    (beyond 320 → ∃ t w, exec (.boardTimeCheck k h m at16) s = .next t ∧ v.emits w (srcPort k.val) 0x0324 skew ∧
      (armed → ∃ x y rest, w.emits x (srcPort k.val) 0x0325 [f16 s.boot.boardSlot.toNat] ∧
        x.emits y srcSeq 0x0326 [f16 ((mapRole s.regs.roleMap (s.lane k.val).peerSlot.toNat).getD 0),
          f16 s.boot.boardSlot.toNat] ∧ t.closed = y.closed ++ rest ∧ t.seq.state = .loaded ∧
        (s.remoteMarks = [] → t.mem = s.mem)) ∧
      (¬ armed → s.seq.phase = .none → t = w) ∧
      (¬ armed → s.seq.phase = .inStroke ∨ s.seq.phase = .strokeDue → ∃ f, f.code = 0x0325 ∧ f.source = srcPort k.val ∧
        t = { w with seq := { w.seq with faults := w.seq.faults ++ [f] } }) ∧
      (¬ armed → s.seq.phase = .stepDue → s.seq.abortAt = none → t.seq.state = .faulted ∧
        ∃ r ∈ t.closed, r.kind = 1 ∧ r.code = 0x0325 ∧ r.step = s.seq.nextStep)))

/-- FRAME, REPLAY_SEND, REPLAY_TIMEOUT and STROKE_CLOSE_SEND (R254–R260, R263). -/
def Obligations.FramesAndReplay : Prop := ∀ (l : LinkRef) (s : State),
  let x := s.link l
  let put := fun (u : State) (y : Link) => { u with links := smapPut .empty u.links (linkKey l) y }
  let live := s.linkLive l = true
  (∀ (n : DWord) (symbols : List (BitVec 10)),
    let f := rxFrame (symbols.map (·.toNat))
    let u := s.advanceTo (5 * n.toNat + 5)
    let lost := fun (c : SlotClass) => ((List.range 5).filter fun i => u.slotClass (5 * n.toNat + i) = c).length
    (¬ live → exec (.frame l n symbols) s = .next s) ∧
    (∀ k : Fin 16, l = .kazin k → live → s.canonical = true → f.kept = [false, false, false, false] →
      let p := s.port k.val
      let z := x.nameLost (lost .data) (lost .control)
      let named := nackNamed z.nacks
      ∃ t ctrl flits, exec (.frame l n symbols) s = .next t ∧ t = { u with ports := t.ports, links := t.links } ∧
        (t.port k.val).uncorrectable = satAdd p.uncorrectable 4 ∧ (t.port k.val).correctedSymbols = p.correctedSymbols ∧
        (t.port k.val).state = p.state ∧
        t.link l = { z with nacks := z.nacks.filter fun y => decide (y ∉ named), frameOut := symbolsOf ctrl flits } ∧
        flits.length = 5 ∧ field ctrl 0 12 = (x.rxNext + 4095) % 4096 ∧ field ctrl 12 12 = (x.rxCtrlNext + 4095) % 4096 ∧
        (∀ kind m rest, named = (kind, m) :: rest →
          field ctrl 24 2 = 1 + 2 * boolNat kind ∧ field ctrl 26 12 = m % 4096 ∧ field ctrl 38 3 = rest.length)) ∧
    (∀ c, live → f.control = some c →
      let w := (u.countCodewords l f).frameControl l n.toNat c
      ((∀ i < 5, ∃ fl, f.flit i = some fl ∧ (parseHeader fl).kind = 0) →
        exec (.frame l n symbols) s = .next (w.sendFrame l) ∧ w.mem = s.mem ∧ w.seq = s.seq) ∧
      (∀ i fl v, s.canonical = true → i < 5 → f.flit i = some fl → (parseHeader fl).kind = 1 →
        (∀ j < 5, ∃ g, f.flit j = some g ∧ (j ≠ i → (parseHeader g).kind = 0)) →
        exec (.dataFlit l (parseHeader fl) (fl.take 250)) w = .next v →
        exec (.frame l n symbols) s = .next (v.sendFrame l)))) ∧
  (∀ ctrl n rest, x.replayQueue = (ctrl, n) :: rest → live →
    let un := if ctrl = true then x.txCtrlUnacked else x.txUnacked
    ((∀ g ∈ un, g.number ≠ n) → exec (.replaySend l) s = .next (put s { x with replayQueue := rest })) ∧
    (∀ g, un.find? (fun g => g.number == n) = some g → s.resendSlot x ctrl = none →
      ctrl = false ∧ exec (.replaySend l) s = .next s) ∧
    (∀ g slot, un.find? (fun g => g.number == n) = some g → s.resendSlot x ctrl = some slot →
      let replay := decide (s.slotClass slot = .replay)
      s.nowCount < slot ∧ (replay = true ∨ (ctrl = true ∧ s.slotClass slot = .control)) ∧
      ∃ y : Link, y.replayQueue = rest ∧ y.replayed = x.replayed + boolNat replay ∧ { g with slot := slot } ∈ y.sent ∧
        ((∃ k, l = .kazin k) ∨ ctrl = true → exec (.replaySend l) s = .next (put s y)) ∧
        (∀ p ch, l = .seam p ch → ctrl = false →
          exec (.replaySend l) s = .next ((put s y).seamCross p ch { g with slot := slot })))) ∧
  (x.replayQueue = [] ∨ ¬ live → exec (.replaySend l) s = .next s) ∧
  (∀ ctrl n,
    let un := if ctrl = true then x.txCtrlUnacked else x.txUnacked
    (∀ g, un.find? (fun g => g.number == n) = some g →
      exec (.replayTimeout l ctrl n) s = .next ((put s { x with
        replayQueue := if (ctrl, n) ∈ x.replayQueue then x.replayQueue else x.replayQueue ++ [(ctrl, n)] }).advanceTo
          (g.slot + 400))) ∧
    ((∀ g ∈ un, g.number ≠ n) → exec (.replayTimeout l ctrl n) s = .next s)) ∧
  (s.seq.phase = .inStroke → s.seq.closeSent = false →
    let u := s.runTo (s.cycles - 4000)
    ∃ t, exec .strokeCloseSend s = .next t ∧
      t = { u with links := t.links, seq := { u.seq with closeSent := true } } ∧
      ∀ (p : Fin 2) (ch : Fin 48), u.canonical = true → u.tailPassed = false →
        let y := u.link (.seam p ch)
        let z := u.link (.seam (1 - p) ch)
        u.linkUp (.seam p ch) = true → z.rxCtrlNext = y.txCtrl → z.rxCtrlAhead = [] → z.rxLate = [] →
        (t.link (.seam (1 - p) ch)).rxClose =
          some ⟨BitVec.ofNat 32 y.txData, BitVec.ofNat 32 (y.txCtrl - y.ctrlAtClose), u.seq.curStroke⟩) ∧
  (s.seq.phase ≠ .inStroke ∨ s.seq.closeSent = true → exec .strokeCloseSend s = .next s)

/-- RING_CONTEXT_WRITE, RING_ENABLE, RING_DRAIN_END and DOORBELL (R324–R327, R342). -/
def Obligations.RingRegisters : Prop := ∀ (n : BitVec 12) (s : State), s.canonical = true →
  let u := s.halfGone
  let r := s.ring n.toNat
  let put := fun (w : State) (x : Ring) => { w with rings := smapPut .reset w.rings n.toNat x }
  let forgets := fun (w : State) => { w with seq := { w.seq with
    ready := w.seq.ready.filter fun p => decide (p.1 / 2 ^ 64 ≠ n.toNat) } }
  let refused := fun (off : Nat) => { u with regs := { u.regs with refused := true, refusedAt := BitVec.ofNat 26 off } }
  let quiet := ∀ p ∈ s.rings, p.2.held = []
  let goodContext := r.kind.toNat < 4 ∧ 4 ≤ r.log2Size.toNat ∧ r.log2Size.toNat ≤ 20 ∧ ¬ (r.kind = 0 ∧ r.depth = 0)
  let clean := { r with hostPtr := 0, devPtr := 0, pending := false, started := false }
  (∀ (w : Fin 8) (v : DWord), s.hostAnswers →
    (3 ≤ w.val → exec (.ringContextWrite n w v) s = .next u) ∧
    (w.val < 3 → r.state ≠ .off → exec (.ringContextWrite n w v) s = .next (refused (0x10_0000 + 64 * n.toNat + 8 * w.val))) ∧
    (w = 0 → r.state = .off → (v.extractLsb' 32 16).toNat ≤ 1000 → exec (.ringContextWrite n w v) s = .next (put u { r with
      kind := v.extractLsb' 0 3, log2Size := v.extractLsb' 3 5, vector := v.extractLsb' 8 11, irqEn := v.getLsbD 19,
      coalCount := v.extractLsb' 20 12, coalTime := v.extractLsb' 32 16, depth := v.extractLsb' 48 16 })) ∧
    (w = 1 → r.state = .off → v.toNat % 4096 = 0 → exec (.ringContextWrite n w v) s = .next (put u { r with base := v })) ∧
    (w = 2 → r.state = .off → v.toNat % 64 = 0 → exec (.ringContextWrite n w v) s = .next (put u { r with shadow := v })) ∧
    (r.state = .off → (w = 0 ∧ 1000 < (v.extractLsb' 32 16).toNat) ∨ (w = 1 ∧ v.toNat % 4096 ≠ 0) ∨ (w = 2 ∧ v.toNat % 64 ≠ 0) →
      exec (.ringContextWrite n w v) s = .next (refused (0x10_0000 + 64 * n.toNat + 8 * w.val)))) ∧
  (s.hostAnswers →
    (r.state = .off → goodContext → quiet → ∃ t, exec (.ringEnable n) s = .next t ∧
      (put (forgets (put u clean)) { clean with state := .active }).emits t (srcRing n.toNat) 0x0245 []) ∧
    (r.state = .off → ¬ goodContext → ∃ t v : State, exec (.ringEnable n) s = .next t ∧ t.rings = v.rings ∧
      (t.ring n.toNat).state = .error ∧ v.emits t (srcRing n.toNat) 0x0244 [] ∧ t.mem = s.mem) ∧
    (r.state = .active → exec (.ringEnable n) s = .next u) ∧
    (r.state = .draining → exec (.ringEnable n) s = .next (put u { r with pending := true })) ∧
    (r.state = .error → exec (.ringEnable n) s = .next (refused (0x14_8000 + 8 * n.toNat)))) ∧
  (∀ (b : BitVec 20) (e : Option DWord), r.state = .draining → r.started = true →
    exec (.ringDrainEnd n b e) s = exec (.ringDrainEnd n b e) (s.stopCopy n.toNat b.toNat)) ∧
  (∀ b : BitVec 20, r.state = .draining → r.started = false → r.pending = false → ∃ t,
    exec (.ringDrainEnd n b none) s = .next t ∧
    (t.ring n.toNat).state = .off ∧ (t.ring n.toNat).hostPtr = 0 ∧ (t.ring n.toNat).devPtr = 0 ∧
    (t.ring n.toNat).held = r.held.filter (fun x => x.kind != 2) ∧
    (t.ring n.toNat).dropped = r.dropped + (r.held.filter fun x => x.kind == 2).length ∧
    ((∀ p ∈ s.rings, p.1 ≠ n.toNat → p.2.held = []) →
      t.mem = { s.mem with host := smapPutList 0 s.mem.host r.shadow.toNat (List.replicate 64 0) } ∧
      ∀ k, k ≠ n.toNat → t.ring k = s.ring k)) ∧
  (∀ b : BitVec 20, r.state = .draining → r.started = false → r.pending = true → goodContext → ∃ t,
    exec (.ringDrainEnd n b none) s = .next t ∧ (t.ring n.toNat).state = .active ∧ (t.ring n.toNat).pending = false) ∧
  (∀ (b : BitVec 20) (a : DWord), r.state = .draining → r.started = false → ∃ t w,
    exec (.ringDrainEnd n b (some a)) s = .next t ∧
    (put s { r with state := .error }).emits w (srcRing n.toNat) 0x0245 [] ∧
    w.emits t (srcRing n.toNat) 0x0246 [f16 n.toNat, f64 a.toNat]) ∧
  (∀ b e, r.state ≠ .draining → exec (.ringDrainEnd n b e) s = .next s) ∧
  (∀ v : DWord, s.hostAnswers →
    let N : Word := v.extractLsb' 0 32
    let H := r.hostPtr
    let D := r.devPtr
    let ok := if r.kind = 2 then (N - H).toNat ≤ (D - H).toNat
      else (N - H).toNat ≤ (N - D).toNat ∧ (N - D).toNat ≤ 2 ^ r.log2Size.toNat
    (r.state = .active → ok → quiet → exec (.doorbell n v) s = .next (put u { r with hostPtr := N })) ∧
    (r.state = .active → ¬ ok → ∃ t w, exec (.doorbell n v) s = .next t ∧
      (put u { r with state := .error }).emits w (srcRing n.toNat) 0x0245 [] ∧
      w.emits t (srcRing n.toNat) 0x0240 [f16 n.toNat, f32 H.toNat, f32 D.toNat, f32 N.toNat]) ∧
    (r.state ≠ .active → exec (.doorbell n v) s = .next (refused (0x14_0000 + 8 * n.toNat))))

/-- RING_DISABLE (R342, R343). -/
def Obligations.RunKeepsRings : Prop := ∀ (n : BitVec 12) (s : State), s.hostAnswers → s.canonical = true →
  let u := s.halfGone
  let r := s.ring n.toNat
  let inRun := s.seq.state = .armed ∨ s.seq.state = .running ∨ s.seq.state = .waiting
  let gates := r.kind = 0 ∧ ∃ c, s.seq.cartoon = some c ∧ ∃ v ∈ c.variants, v.gate = true ∧ v.gateRing = n
  let named := n = s.regs.completionRing ∨ n = s.regs.eventRing ∨ n = s.regs.proofRing ∨ n = s.regs.seedRing
  let put := fun (x : Ring) => { u with rings := smapPut .reset u.rings n.toNat x }
  (inRun → named ∨ gates → exec (.ringDisable n) s = .next { u with regs := { u.regs with
    refused := true, refusedAt := BitVec.ofNat 26 (0x14_8000 + 8 * n.toNat) } }) ∧
  (¬ (inRun ∧ (named ∨ gates)) →
    (r.state = .off → exec (.ringDisable n) s = .next u) ∧
    (r.state = .active ∨ r.state = .error → ∃ t, exec (.ringDisable n) s = .next t ∧
      (put { r with state := .draining, started := if r.state = .active then u.copyRuns n.toNat else r.started }).emits t
        (srcRing n.toNat) 0x0245 []) ∧
    (r.state = .draining → exec (.ringDisable n) s = .next (put { r with pending := false })))

/-- IN_COPY_DONE, OUT_DESCRIPTOR, RECORD_WRITE, RECORDS_LOST and COALESCE_TIMEOUT (R328–R335). -/
def Obligations.RingWork : Prop := ∀ (n : BitVec 12) (s : State), s.canonical = true → s.mem.wf = true →
  let k := n.toNat
  let r := s.ring k
  let d := s.headCopy k
  let work := fun (kind : BitVec 3) => (r.state = .active ∨ (r.state = .draining ∧ r.started = true)) ∧ r.kind = kind ∧
    r.hostPtr ≠ r.devPtr
  let errors := fun (t : State) (code : Nat) (fields : List (Nat × Nat)) => ∃ v : State,
    (v.ring k).state = .error ∧ v.emits t (srcRing k) code fields
  let index := [f32 (r.devPtr.toNat % 2 ^ r.log2Size.toNat)]
  let frame := fun (t : State) => t.mem.bytes = s.mem.bytes ∧ t.mem.marks = s.mem.marks ∧ t.marks = s.marks
  let only := fun (t : State) (len : Nat) => t.marks = s.marks ∧
    ∀ a, a / 8 < d.dev / 8 ∨ (d.dev + len) / 8 ≤ a / 8 → byteAt t.mem a = byteAt s.mem a ∧
      markAt t.mem (a / 8) = markAt s.mem (a / 8)
  (∀ at_ : DWord,
    let F := (s.seq.firstOpen.getD s.regs.baseStep).toNat
    let run := fun (e : CopyEnd) => exec (.inCopyDone n at_ e) s
    let good := s.copyOk true d = true
    let held := good ∧ F + r.depth.toNat ≤ d.step
    (∀ e, ¬ work 0 ∨ held → run e = .next s) ∧
    (work 0 → ¬ good → ∃ t, run .served = .next t ∧ errors t 0x0244 index ∧ frame t) ∧
    (work 0 → good → ¬ held → d.step < F → r.state = .active → ∃ t v : State, run .served = .next t ∧ frame t ∧
      (t.ring k).devPtr = r.devPtr + 1 ∧ v.emits t (srcRing k) 0x0243 index) ∧
    (work 0 → good → ¬ held → F ≤ d.step ∨ r.state = .draining → ∃ t, run .served = .next t ∧
      (t.ring k).devPtr = r.devPtr + 1 ∧ only t d.len ∧
      (s.inWeights d.dev d.len = false → ∀ i < d.len, byteAt t.mem (d.dev + i) = smapGet 0 s.mem.host (d.host + i))) ∧
    (∀ a moved, work 0 → ¬ held → ∃ t, run (.busError a moved) = .next t ∧ errors t 0x0246 [f16 k, f64 a.toNat] ∧
      (t.ring k).devPtr = r.devPtr ∧ only t (min (64 * moved.toNat) d.len))) ∧
  (∀ blocks : Nat, r.kind = 0 → s.copyRuns k = true → 4096 * blocks < d.len →
    ((s.stopCopy k blocks).ring k) = { r with started := false } ∧ only (s.stopCopy k blocks) (4096 * blocks)) ∧
  ((work 1 → s.copyOk false d = false → ∃ t, exec (.outDescriptor n .served) s = .next t ∧ errors t 0x0244 index ∧ frame t) ∧
    (work 1 → s.outAction k = .skip → ∃ t v : State, exec (.outDescriptor n .served) s = .next t ∧ frame t ∧ (t.ring k).devPtr = r.devPtr + 1 ∧
      v.emits t (srcRing k) 0x0243 index) ∧
    (work 1 → s.outAction k = .copy → ∃ t, exec (.outDescriptor n .served) s = .next t ∧ frame t ∧ (t.ring k).devPtr = r.devPtr + 1) ∧
    (∀ a moved, work 1 → ∃ t, exec (.outDescriptor n (.busError a moved)) s = .next t ∧ errors t 0x0246 [f16 k, f64 a.toNat] ∧ frame t ∧
      (t.ring k).devPtr = r.devPtr) ∧
    (¬ work 1 → ∀ e, exec (.outDescriptor n e) s = .next s) ∧
    (work 1 → s.copyOk false d = true → (s.stepEnded d.step = none ∧ s.outSkips k = false) ∨
      ((s.stepEnded d.step).isSome = true ∧ s.endUnwritten d.step = true) → exec (.outDescriptor n .served) s = .next s)) ∧
  (∀ rec rest e, s.closed = rec :: rest → s.recordRing rec = k →
    let open_ := r.state = .active ∧ r.kind = 2
    let takes := open_ ∧ r.held = [] ∧ (r.devPtr - r.hostPtr).toNat < 2 ^ r.log2Size.toNat
      ∧ s.sourceHeld rec.source rec.seq = false
    let at_ := r.base.toNat + 128 * (r.devPtr.toNat % 2 ^ r.log2Size.toNat)
    let put := fun (x : Ring) => { s with closed := rest, rings := smapPut .reset s.rings k x }
    let unharmed := e = none ∨ ¬ open_
    let limit := if rec.kind = 1 then 256 else 252
    (unharmed → takes → ∃ t, exec (.recordWrite e) s = .next t ∧ t.closed = rest ∧ t.written = s.written + 1 ∧ frame t ∧
      (t.ring k).devPtr = r.devPtr + 1 ∧ (t.ring k).held = [] ∧
      (r.irqEn = false → t.mem.host = smapPutList 0 (smapPutList 0 s.mem.host at_ (recordBytes rec))
        r.shadow.toNat (leBytes 64 (r.devPtr + 1).toNat))) ∧
    (unharmed → ¬ takes → r.held.length < limit →
      exec (.recordWrite e) s = .next (put { r with held := r.held ++ [rec] })) ∧
    (unharmed → ¬ takes → rec.kind = 2 → 252 ≤ r.held.length → ∃ x, exec (.recordWrite e) s = .next (put x) ∧
      x.dropped = r.dropped + 1 ∧ x.held = r.held) ∧
    (unharmed → ¬ takes → rec.kind = 0 ∨ rec.kind = 3 → 252 ≤ r.held.length → s.seq.phase = .inStroke → ∃ f,
      f.code = 0x0241 ∧ f.source = srcRing k ∧ exec (.recordWrite e) s = .next { s with
        closed := rest, seq := { s.seq with faults := s.seq.faults ++ [f] } }) ∧
    (∀ a, e = some a → open_ → r.held.length < limit → ∃ v w : State, v.emits w (srcRing k) 0x0246 [f16 k, f64 a.toNat] ∧
      (w.ring k) = { r with state := .error } ∧ exec (.recordWrite e) s = .next { w with
        closed := w.closed.tail, rings := smapPut .reset w.rings k { w.ring k with held := r.held ++ [rec] } })) ∧
  (s.closed = [] → ∀ e, exec (.recordWrite e) s = .next s) ∧
  (let due := r.dropped ≠ 0 ∧ r.state = .active ∧ r.kind = 2 ∧ r.held = [] ∧
      (r.devPtr - r.hostPtr).toNat < 2 ^ r.log2Size.toNat
    let anew := smapPut .reset s.rings k { r with dropped := 0, dropLow := 0, dropHigh := 0 }
    (due → ∃ t, exec (.recordsLost n) s = .next t ∧ { s with rings := anew }.emits t (srcRing k) 0x0242
       [f32 r.dropped, f64 r.dropLow.toNat, f64 r.dropHigh.toNat]) ∧
    (¬ due → exec (.recordsLost n) s = .next s)) ∧
  (let u := s.advanceTo (r.firstUnsignalled.toNat + 1000 * r.coalTime.toNat)
    let done := smapPut .reset u.rings k { r with unsignalled := 0, lastSignal := some u.boardTime }
    (r.irqEn = true → r.unsignalled ≠ 0 → exec (.coalesceTimeout n) s =
      .next ({ u with rings := done }.signal r.vector.toNat)) ∧
    (r.irqEn = false ∨ r.unsignalled = 0 → exec (.coalesceTimeout n) s = .next s))

/-- PERST_N_ASSERT, PGOOD_DEASSERT, REFCLK_LOSS, THERMAL_TRIP, SEQUENCING_VIOLATION, PWR_FAIL_N, WATCHDOG_EXPIRY, FLR and PLL_LOCK_TIMEOUT. -/
def Obligations.ResetsAndPower : Prop := ∀ s : State,
  let lost := fun (t : State) => t.seq = Seq.reset ∧ t.regs = Regs.reset ∧ t.engines = [] ∧ t.marks = [] ∧ t.links = [] ∧
    t.rings = [] ∧ t.mem = { State.reset.mem with host := s.mem.host } ∧ t.opened = [] ∧ t.closed = [] ∧
    t.sec.tenant = none ∧ t.sec.slots = s.sec.slots ∧ t.sec.cell0 = s.sec.cell0 ∧ t.sec.cell1 = s.sec.cell1 ∧
    t.boot.flash = s.boot.flash ∧ t.boot.uniqueId = s.boot.uniqueId ∧ t.pending = s.pending
  let low := { s with boot := { s.boot with pwrFail := true } }
  let high := { s with boot := { s.boot with pwrFail := false } }
  let runs := s.boot.phase = .booting ∨ s.boot.phase = .ready
  let ends := s.boot.pwrFail = true ∧ runs ∧ s.boot.pgood = 0x3F
  (∃ t, exec .perstNAssert s = .next t ∧ lost t ∧ t.boot.phase = .inReset ∧ t.boot.perstLow = true ∧
    t.boot.latches = s.boot.latches) ∧
  (∃ t, exec .refclkLoss s = .next t ∧ lost t ∧ t.boot.phase = .inReset ∧
    t.boot.latches = { s.boot.latches with refclkLost := true }) ∧
  (∀ x, ∃ t, exec (.thermalTrip x) s = .next t ∧ lost t ∧ t.boot.phase = .stopped ∧ t.boot.thermTrip = true ∧
    t.boot.latches = { s.boot.latches with trip := some x }) ∧
  (∀ g : Fin 6, ∃ t, exec (.pgoodDeassert g) s = .next t ∧
    t.boot.pgood = s.boot.pgood &&& ~~~(BitVec.ofNat 6 (2 ^ g.val)) ∧ (s.boot.perstLow = false → lost t) ∧
    (s.boot.perstLow = true → t.mem = s.mem ∧ t.boot.phase = s.boot.phase) ∧
    t.boot.latches = if g = 0 then ⟨none, none, false⟩ else s.boot.latches) ∧
  (∀ g : BitVec 6,
    let l := { s.boot.latches with sequencing := some (s.boot.latches.sequencing.getD 0 ||| g) }
    exec (.sequencingViolation g) s = .next { s with boot := { s.boot with latches := l } }) ∧
  ((runs → s.boot.pwrFail = false → ∃ t, exec .pwrFailNAssert s = .next t ∧ low.emits t srcMss 0x0560 []) ∧
    (¬ (runs ∧ s.boot.pwrFail = false) → exec .pwrFailNAssert s = .next low)) ∧
  ((ends → s.sec.job = none → s.mss.fw.failed = false → ∃ t, exec .pwrFailNDeassert s = .next t ∧
      high.emits t srcMss 0x0561 []) ∧
    (ends → s.sec.job.isSome = true → ∃ t, exec .pwrFailNDeassert s = .next t ∧ t.sec.tenant = s.sec.tenant ∧
      (s.sec.waiting = [] → t.sec.job = none ∧ t.sec.bar2Closed = s.sec.sealed)) ∧
    (ends → s.sec.job = none → s.mss.fw.failed = true → ∃ t v : State, exec .pwrFailNDeassert s = .next t ∧
      v.emits t srcMss 0x0542 [] ∧ t.mss.fw.state = .idle ∧ t.mss.fw.failed = false) ∧
    (¬ ends → exec .pwrFailNDeassert s = .next high)) ∧
  (s.boot.phase = .ready → ∃ t, exec .watchdogExpiry s = .next t ∧
    { s with mss := { s.mss with restarts := s.mss.restarts + 1 } }.emits t srcMss 0x050C [f32 (s.mss.restarts + 1)]) ∧
  (s.boot.phase = .booting → ∃ t, exec .watchdogExpiry s = .next t ∧ lost t ∧ t.boot.phase = .inReset ∧
    t.refclk = s.refclk ∧ t.boardTime = s.boardTime ∧ t.boot.boardSlot = s.boot.boardSlot ∧
    t.boot.slotHeld = s.boot.slotHeld) ∧
  (s.boot.phase = .inReset ∨ s.boot.phase = .stopped → exec .watchdogExpiry s = .next s) ∧
  (s.boot.phase = .ready → s.canonical = true → ∃ t, exec .flr s = .next t ∧ (∀ n, (t.ring n).state = .off) ∧
    (∀ w, (smapGet Watch.reset t.watches w).armed = false) ∧ t.regs.loadBusy = false ∧ t.regs.loadStatus = 0 ∧
    t.regs.heldWrite = none ∧ (s.sec.tdi = .run ∨ s.sec.tdi = .locked → t.sec.tdi = .error)) ∧
  (s.boot.phase ≠ .ready → exec .flr s = .next s) ∧
  (∀ p : Fin 2, s.plateOffered p.val = true → ∃ t, exec (.pllLockTimeout p) s = .next t ∧
    bitAt t.mss.plateFailed.toNat p.val = true) ∧
  (∀ p : Fin 2, s.plateOffered p.val = false → exec (.pllLockTimeout p) s = .next s)

/-- BOOT, SCRUB_COMPLETE and BOOT_READY (R200, R459, R464, R475). -/
def Obligations.BootAndReady : Prop := ∀ s : State,
  let released := { s with boot := { s.boot with perstLow := false, pgood := 0x3F, thermTrip := false } }
  let due := s.boot.phase = .booting ∧ s.sec.scrub = none ∧ ∀ k < 16, (s.port k).state ≠ .training
  (∀ facts : BootFacts, s.boot.phase = .inReset →
    let slot := if s.boot.slotHeld then s.boot.boardSlot else facts.boardSlot
    let slotted := { released with boot := { released.boot with boardSlot := slot, slotHeld := true } }
    let u := slotted.loadFloors.romRevert
    (u.romSlot = none → ∃ t, exec (.boot facts) s = .next t ∧ t.boot.phase = .stopped ∧ t.mss.mgmtAlert = true ∧
      t.mem = s.mem) ∧
    (∀ k, u.romSlot = some k → s.seq.phase = .none → s.boot.recovery = false → ∃ t, exec (.boot facts) s = .next t ∧ t.boot.phase = .booting ∧
      t.boot.perstLow = false ∧ t.boot.boardSlot = slot ∧ t.boot.fwSlot = BitVec.ofNat 1 k ∧
      t.mss.choice = t.edition.gearSlow ∧ (t.boot.recovery = true → t.edition.number = 0) ∧
      (t.boot.recovery = false → t.sec.scrub.isSome = true))) ∧
  (∀ facts, s.boot.phase ≠ .inReset → exec (.boot facts) s = .next s) ∧
  (∀ j, s.sec.scrub = some j →
    let u := { s with
      mem := { s.mem with bytes := [], marks := [], fresh := [], early := [] },
      stipples := [], picks := [], marks := [], markUpdates := [], engines := [], lanes := [],
      regs := { s.regs with capture := [] } }
    ∃ t v, exec .scrubComplete s = .next t ∧
      u.emits v srcMss 0x0230 [f64 (s.boardTime.toNat - j.started.toNat)] ∧
      (∀ a, byteAt t.mem a = 0 ∧ markAt t.mem (a / 8) = .unwritten) ∧ t.mem.host = s.mem.host ∧
      let w := { v with sec := { v.sec with
        scrub := none, bar2Closed := s.sec.sealed || s.sec.waiting.any fun x => x.purpose != CommitFor.policy } }
      (j.after = none → s.canonical = true → t.sec = w.sec ∧ ∀ k < 16,
        ((s.lane k).use ≠ 0 → s.plateOffered (k / 8) = true → (t.port k).state = .training) ∧
        ((s.lane k).use = 0 ∨ s.plateOffered (k / 8) = false → t.port k = s.port k)) ∧
      (∀ code : BitVec 16, j.after = some code → ∃ x : State, t = x.nextJob ∧
        w.emits x srcMss code.toNat (if code = 0x0400 then [f128 w.fingerprintNow] else []))) ∧
  (s.sec.scrub = none → exec .scrubComplete s = .next s) ∧
  ((due → ∃ t v : State, exec .bootReady s = .next t ∧ v.emits t srcMss 0x0500
      [f32 s.boot.fwVersion.toNat, f32 s.boot.bootCount.toNat] ∧ t.boot.phase = .ready ∧ t.mem = s.mem ∧ t.edition = s.edition ∧
      t.regs = { s.regs with
        gearNow := s.edition.gearSlow, gearReq := s.edition.gearSlow, roleMap := s.edition.roleMap,
        nextMap := s.edition.roleMap, roleEpoch := s.edition.roleEpoch, nextEpoch := s.edition.roleEpoch }) ∧
    (¬ due → exec .bootReady s = .next s))

/-- SEED_READY, GRAIN_HEALTH_FAILURE and GRAIN_RESTART (R300, R301). -/
def Obligations.GrainSource : Prop := ∀ s : State,
  let failure := fun (c : Instr) => ∃ t, exec c s = .next t ∧
    { s with grain := { seeds := [], failed := true, startUp := false, run := 0, lastSample := none } }.emits t srcGrain
      0x0450 []
  (∀ samples : List Byte, samples.length = 1024 →
    ((∃ i, i + 41 ≤ 1024 ∧ ∀ j < 41, samples[i + j]? = samples[i]?) → s.grain.healthy samples = false) ∧
    (∀ w < 2, 410 ≤ (((samples.drop (512 * w)).take 512).filter fun b => samples[512 * w]? == some b).length →
      s.grain.healthy samples = false)) ∧
  (∀ samples : List Byte,
    let may := samples.length = 1024 ∧ s.grain.failed = false ∧ s.grain.startUp = true ∧ s.grain.seeds.length < 4
    let seed := BitVec.ofNat 256 (ofLe ((sha384 samples).take 32))
    (may → s.grain.healthy samples = true → ∃ run, exec (.seedReady samples) s = .next { s with
      grain := { s.grain with seeds := s.grain.seeds ++ [seed], run := run, lastSample := samples.getLast? } }) ∧
    (may → s.grain.healthy samples = false → failure (.seedReady samples)) ∧
    (¬ may → exec (.seedReady samples) s = .next s)) ∧
  failure .grainHealthFailure ∧
  (∀ samples : List Byte,
    let due := samples.length = 1024 ∧ s.grain.startUp = false
    (due → s.grain.healthy samples = true → ∃ v t run, exec (.grainRestart samples) s = .next t ∧
      v = { s with grain := { s.grain with failed := false, startUp := true, run := run, lastSample := samples.getLast? } } ∧
      (s.grain.failed = true → v.emits t srcGrain 0x0451 []) ∧ (s.grain.failed = false → t = v)) ∧
    (due → s.grain.healthy samples = false → failure (.grainRestart samples)) ∧
    (¬ due → exec (.grainRestart samples) s = .next s))

/-- SENSOR_SAMPLE, GEAR_POLICY_TICK and TELEMETRY_WINDOW (R408, R410–R412). -/
def Obligations.SensorsAndGears : Prop := ∀ s : State,
  let runs := s.boot.phase = .booting ∨ s.boot.phase = .ready
  let u := (s.advanceTo ((s.boardTime.toNat / 65536 + 1) * 65536)).trackCalm
  let w := s.advanceTo ((s.boardTime.toNat / 4000000 + 1) * 4000000)
  (¬ runs → (∀ x r, exec (.sensorSample x r) s = .next s) ∧ exec .gearPolicyTick s = .next s ∧
    exec .telemetryWindow s = .next s) ∧
  (∀ (x : SensorId) (r : SensorReading), runs →
    let k := sensorKey x
    let old := s.sensor k
    let new := { old with
      value := r.value, current := r.current, failed := old.failed || readingFails x r,
      time := if s.timeValid = true then s.boardTime else s.refclk, onBoardTime := s.timeValid,
      sum := old.sum + r.value, currentSum := old.currentSum + r.current, count := old.count + 1 }
    let u : State := { s with mss := { s.mss with sensors := smapPut .reset s.mss.sensors k new } }
    (∃ t, exec (.sensorSample x r) s = .next t ∧
      (x ≠ .rail 5 → x ≠ .rail 6 → t.mss.sensors = u.mss.sensors)) ∧
    (old.failed = true → exec (.sensorSample x r) s = .next u.trackPolicy) ∧
    (old.failed = false → readingFails x r = true → ∃ t : State, exec (.sensorSample x r) s = .next t.trackPolicy ∧
      u.emits t srcMss 0x0507 []) ∧
    (∀ n, x = .bed n → old.failed = false → readingFails x r = false → exec (.sensorSample x r) s = .next u.trackPolicy) ∧
    (∀ p n, x = .junction p n → old.failed = false → readingFails x r = false →
      (r.value < 4 * s.edition.tCrit.toNat → exec (.sensorSample x r) s = .next u.trackPolicy) ∧
      (4 * s.edition.tCrit.toNat ≤ r.value → s.seq.phase = .inStroke → (∀ f ∈ s.seq.faults, f.code ≠ 0x0506) →
        ∃ t f, exec (.sensorSample x r) s = .next t ∧ t.seq.faults = s.seq.faults ++ [f] ∧ f.code = 0x0506 ∧
          f.source = srcMss)) ∧
    (∀ n, x = .droop n → old.failed = false → readingFails x r = false → exec (.sensorSample x r) s =
      .next ({ u with mss := { u.mss with
        droops := setNth s.mss.droops (n.val / 32) (nth 0 s.mss.droops (n.val / 32) + r.value.toNat) } } : State).trackPolicy) ∧
    (∀ n, x = .rail n → n.val ≠ 5 → n.val ≠ 6 → old.failed = false → readingFails x r = false → ∃ t : State,
      exec (.sensorSample x r) s = .next t.trackPolicy ∧ t = { u with
      mss := { u.mss with powers := t.mss.powers, packagePower := t.mss.packagePower } }) ∧
    (∀ (n : Fin 9) (p : Fin 2), x = .rail n → n.val = 5 + p.val → old.failed = false → readingFails x r = false →
      let other := s.sensor (96 + 5 + (1 - p.val))
      let limit := (s.mss.vSet : Int) - 100
      (∃ y ∈ s.mss.sensors, y.1 = k) → old.value < limit → r.value < limit → other.failed = false → limit ≤ other.value →
      s.plateOffered p.val = true → s.canonical = true →
      ∃ t, exec (.sensorSample x r) s = .next t ∧ bitAt t.mss.plateFailed.toNat p.val = true) ∧
    (∀ n, x = .stack n → old.failed = false → readingFails x r = false →
      4 * s.edition.tHbmHot.toNat ≤ r.value → r.value < 4 * s.edition.tHbmCrit.toNat →
      let v : State := { u with mss := { u.mss with bands := smapPut .reset s.mss.bands n.val ⟨true, none⟩ } }
      ((s.band n.val).double = true → exec (.sensorSample x r) s = .next v.trackPolicy) ∧
      ((s.band n.val).double = false → ∃ t : State, exec (.sensorSample x r) s = .next t.trackPolicy ∧
        v.emits t srcMss 0x0504 []))) ∧
  (runs → u.hot = false → u.calm = false → exec .gearPolicyTick s =
    .next { u with mss := { u.mss with droops := [0, 0], hotSeen := false } }) ∧
  (runs → ∃ t, exec .gearPolicyTick s = .next t ∧ t.mss.droops = [0, 0] ∧ t.mss.hotSeen = false ∧ t.regs.gearNow = s.regs.gearNow ∧
    t.boardTime = u.boardTime ∧ t.mem = s.mem ∧
    (u.hot = true → s.mss.choice.toNat ≤ s.regs.gearNow.toNat →
      t.mss.choice = BitVec.ofNat 2 (min (s.regs.gearNow.toNat + 1) s.edition.gearSlow.toNat)) ∧
    (u.hot = false → u.calm = true →
      t.mss.choice = BitVec.ofNat 2 (max (s.regs.gearNow.toNat - 1) s.edition.gearFast.toNat))) ∧
  (runs → exec .telemetryWindow s = .next { w with mss := { s.mss with
    sensors := smapMap .reset Sensor.closeWindow s.mss.sensors } })

/-- SENSOR_READ, GET_STATUS, LOG_READ, SET_POWER_CAP, EDITION_REVERT, CPER_ACK and LOG_MIRROR (R416–R428, R478). -/
def Obligations.ManagementRequests : Prop := ∀ s : State,
  let runs := s.boot.phase = .booting ∨ s.boot.phase = .ready
  let answered := fun (u t : State) => t = { u with sec := { u.sec with mctpAnswer := t.sec.mctpAnswer } }
  let refused := fun (u : State) => { u with sec := { u.sec with mctpAnswer := [1] } }
  (∀ (r : TelemetryReq) (c : Instr), c = .getStatus r ∨ (∃ x, c = .sensorRead r x) →
    (runs → ∃ t, exec c s = .next t ∧ answered s t ∧
      (8 ≤ r.outstanding.toNat → t.sec.mctpAnswer = [2]) ∧
      (r.outstanding.toNat < 8 → ∃ b, t.sec.mctpAnswer = 0 :: b)) ∧
    (¬ runs → exec c s = .next s)) ∧
  (∀ (r : MgmtReq) (c : Instr), (∃ n, c = .logRead r n) ∨ (∃ w, c = .setPowerCap r w) ∨ c = .editionRevert r ∨
      (∃ n, c = .cperAck r n) →
    (runs → r.pcie = true ∨ (∀ id, r.session = some id → ∀ x ∈ s.mss.sessions, ¬ (x.id = id ∧ x.open_ = true)) →
      exec c s = .next (refused s)) ∧
    (¬ runs → exec c s = .next s)) ∧
  (∀ (r : MgmtReq) (id : BitVec 32), runs → r.pcie = false → r.session = some id →
    (∃ x ∈ s.mss.sessions, x.id = id ∧ x.open_ = true) →
    let l := s.mss.sessions.map fun x => if x.id = id then { x with lastMessage := s.refclk } else x
    let u := { s with mss := { s.mss with sessions := l } }
    let done := fun (v : State) => { v with sec := { v.sec with mctpAnswer := [0] } }
    (∀ n, ∃ t, exec (.logRead r n) s = .next t ∧ answered u t ∧ ∃ b, t.sec.mctpAnswer = 0 :: b ∧ b.length ≤ 1024) ∧
    (∀ w : BitVec 16,
      let ok := w = 0 ∨ (300 ≤ w.toNat ∧ w.toNat ≤ s.edition.pLimit.toNat)
      (ok → ∃ v, { u with mss := { u.mss with powerCap := w } }.logs v 0x050B ∧
        exec (.setPowerCap r w) s = .next (done v)) ∧
      (¬ ok → exec (.setPowerCap r w) s = .next (refused u))) ∧
    (∀ n : DWord, exec (.cperAck r n) s = .next (done { u with
      mss := { u.mss with cper := s.mss.cper.filter fun c => decide (n.toNat < c.recordId.toNat) } })) ∧
    (s.busyRun = true ∨ s.mss.fw.state ≠ .idle → exec (.editionRevert r) s = .next (refused u)) ∧
    (s.busyRun = false → s.mss.fw.state = .idle → s.boot.pwrFail = false → u.canRevert = true → ∃ t : State,
      exec (.editionRevert r) s = .next (done t) ∧
      (u.revokePlace s.edition.place).emits t srcMss 0x0551 [f8 (Config.revokeCause true).toNat])) ∧
  (∀ f : MirrorFacts, runs → s.boot.pwrFail = false → ∃ t, exec (.logMirror f) s = .next t ∧ t.mem.bytes = s.mem.bytes ∧
    t.seq.phase = s.seq.phase ∧ t.regs = s.regs ∧ t.mss.lastMirror = t.refclk ∧ t.rings = s.rings) ∧
  (∀ f : MirrorFacts, ¬ runs ∨ s.boot.pwrFail = true → exec (.logMirror f) s = .next s)

/-- The thirteen commands of the firmware update (R429–R431). -/
def Obligations.FirmwareUpdates : Prop := ∀ (r : MgmtReq) (id : BitVec 32) (s : State),
  s.boot.phase = .booting ∨ s.boot.phase = .ready → r.pcie = false → r.session = some id →
  (∃ x ∈ s.mss.sessions, x.id = id ∧ x.open_ = true) →
  let l := s.mss.sessions.map fun x => if x.id = id then { x with lastMessage := s.refclk } else x
  let u := { s with mss := { s.mss with sessions := l } }
  let fw := s.mss.fw
  let answer := fun (v : State) (b : List Byte) => { v with sec := { v.sec with mctpAnswer := b } }
  let into := fun (x : FwState) => { u with mss := { u.mss with fw := { fw with state := x } } }
  let step := fun (c : Instr) (ok : Prop) (x : FwState) =>
    (fw.failed = false → ok → exec c s = .next (answer (into x) [0])) ∧
    (fw.failed = true ∨ ¬ ok → exec c s = .next (answer u [1]))
  let slot := 1 - s.boot.fwSlot.toNat
  let base := fwSlotAddr slot
  let under := fw.state = .download ∨ fw.state = .verify ∨ fw.state = .apply
  let ends := fun (x : FwState) => State.sealSync { u with mss := { u.mss with fw := { fw with
    state := x, received := 0, failed := false } } }
  let stopped : State := { u with mss := { u.mss with fw := { fw with failed := true } } }
  (∀ n : BitVec 16, step (.requestUpdate r n) (fw.state = .idle ∧ n = 1) .learn) ∧
  (∀ c i : BitVec 16, step (.passComponentTable r c i) (fw.state = .learn ∧ c = fwClass ∧ i = 1) .readyXfer) ∧
  step (.transferComplete r) (fw.state = .download ∧ fw.received = fw.size.toNat) .verify ∧
  step (.verifyComplete r) (fw.state = .verify) .apply ∧
  (∀ (c i : BitVec 16) (n : BitVec 32),
    let ok := fw.state = .readyXfer ∧ fw.failed = false ∧ c = fwClass ∧ i = 1 ∧ n ≠ 0 ∧ n.toNat ≤ 0x80_0000
    (ok → s.boot.pwrFail = false → exec (.updateComponent r c i n) s = .next (answer (State.sealSync { u with
        boot := { u.boot with flash := smapDrop s.boot.flash base (base + 0x80_0000) },
        mss := { u.mss with fw := { fw with state := .download, size := n, received := 0 } } }) [0])) ∧
    (ok → s.boot.pwrFail = true → exec (.updateComponent r c i n) s = .next (answer { u with
        mss := { u.mss with fw := { fw with failed := true } } } [1])) ∧
    (¬ ok → exec (.updateComponent r c i n) s = .next (answer u [1]))) ∧
  (∀ (off : BitVec 32) (block : List Byte) (ok : Bool),
    let due := fw.state = .download ∧ fw.failed = false ∧ fw.received < fw.size.toNat ∧ off.toNat = fw.received ∧
      block.length = min 1024 (fw.size.toNat - fw.received)
    let idled := fun (v : State) => State.sealSync { v with
      mss := { v.mss with fw := { v.mss.fw with state := .idle, received := 0, failed := false } } }
    let prog : State := { s.sealSegment .mss with
      boot := { s.boot with flash := flashProgram s.boot.flash (base + fw.received) (fwMasked fw.received block) },
      mss := { s.mss with fw := { fw with received := fw.received + block.length } } }
    (due → s.boot.pwrFail = false → ok = false → ∃ t, exec (.firmwareData off block ok) s = .next t ∧
      (idled s).emits t srcMss 0x0542 []) ∧
    (due → s.boot.pwrFail = false → ok = true →
      (fw.received + block.length < fw.size.toNat ∨ prog.fwImageOk slot = true →
        exec (.firmwareData off block ok) s = .next prog) ∧
      (fw.received + block.length = fw.size.toNat → prog.fwImageOk slot = false → ∃ t,
        exec (.firmwareData off block ok) s = .next t ∧ (idled prog).emits t srcMss 0x0542 [])) ∧
    (due → s.boot.pwrFail = true → exec (.firmwareData off block ok) s = .next { s with
      mss := { s.mss with fw := { fw with failed := true } } }) ∧
    (¬ due → exec (.firmwareData off block ok) s = .next s)) ∧
  (fw.state = .apply → fw.failed = false → s.boot.pwrFail = false → ∃ t, exec (.applyComplete r) s = .next t ∧
    t.mss.fw.state = .activate ∧ t.sec.mctpAnswer = [0] ∧ t.mss.alert = true) ∧
  (fw.state = .apply → fw.failed = false → s.boot.pwrFail = true →
    exec (.applyComplete r) s = .next (answer stopped [1])) ∧
  (fw.state ≠ .apply ∨ fw.failed = true → exec (.applyComplete r) s = .next (answer u [1])) ∧
  (fw.state = .activate → fw.failed = false → s.boot.pwrFail = false → ∃ t, exec (.activateFirmware r) s = .next t ∧
    t.mss.fw = { fw with state := .idle, received := 0, pendingSlot := some (BitVec.ofNat 1 slot) } ∧
    t = { answer u [0] with mss := t.mss, boot := { u.boot with flash := t.boot.flash } }) ∧
  (fw.state = .activate → fw.failed = false → s.boot.pwrFail = true →
    exec (.activateFirmware r) s = .next (answer stopped [1])) ∧
  (fw.state ≠ .activate ∨ fw.failed = true → exec (.activateFirmware r) s = .next (answer u [1])) ∧
  (∀ c : Instr, c = .queryDeviceIdentifiers r ∨ c = .getFirmwareParameters r ∨ c = .pldmGetStatus r →
    ∃ b, exec c s = .next (answer u (0 :: b))) ∧
  (under → ∃ v, exec (.cancelUpdateComponent r) s = .next (answer v [0]) ∧ (ends .readyXfer).emits v srcMss 0x0542 []) ∧
  (¬ under → exec (.cancelUpdateComponent r) s = .next (answer u [1])) ∧
  (fw.state ≠ .idle → fw.state ≠ .activate → ∃ v, exec (.cancelUpdate r) s = .next (answer v [0]) ∧
    (ends .idle).emits v srcMss 0x0542 []) ∧
  (fw.state = .activate → s.boot.pwrFail = false → ∃ v, exec (.cancelUpdate r) s = .next (answer v [0]) ∧
    ({ ends .idle with boot := { u.boot with flash := flashErase s.boot.flash base } } : State).emits v srcMss 0x0542 []) ∧
  (fw.state = .idle ∨ (fw.state = .activate ∧ s.boot.pwrFail = true) →
    exec (.cancelUpdate r) s = .next (answer u [1]))

/-- GET_VERSION, GET_CAPABILITIES, NEGOTIATE_ALGORITHMS, GET_DIGESTS, GET_CERTIFICATE, CHALLENGE, GET_MEASUREMENTS and
DOE_DISCOVERY (R374–R377). -/
def Obligations.SpdmRequests : Prop := ∀ (c : Chan) (s : State),
  let up := match c with | .doe => s.boot.phase = .ready | .mctp => s.boot.phase = .booting ∨ s.boot.phase = .ready
  let told := fun (u : State) (b : List Byte) => match c with
    | .doe => { u with sec := { u.sec with doeAnswer := b } }
    | .mctp => { u with sec := { u.sec with mctpAnswer := b } }
  let x := match c with | .doe => s.sec.spdm | .mctp => s.mss.spdm
  let withSpdm := fun (y : Spdm) => match c with
    | .doe => { s with sec := { s.sec with spdm := y } }
    | .mctp => { s with mss := { s.mss with spdm := y } }
  let bits := match c with | .doe => 0x62F6 | .mctp => 0x63F6
  let length := ofLe (flashRead s.boot.flash 0x2_0000 2)
  let chain := flashRead s.boot.flash 0x2_0000 length
  let drawn := { s with freeCount := s.freeCount + 1 }
  let ownNonce := leBytes 32 (Config.spdmNonce s.freeCount).toNat
  let withSign := fun (b : List Byte) =>
    b ++ leBytes 96 (Config.identitySign (BitVec.ofNat 384 (ofLe (sha384 b)))).toNat
  let content : Nat → List Byte := fun k => match k with
    | 1 => leBytes 48 s.boot.romDigest.toNat
    | 2 => leBytes 48 s.boot.fwDigest.toNat
    | 3 => leBytes 4 s.boot.fwVersion.toNat ++ leBytes 1 s.boot.fwSlot.toNat
    | 4 => leBytes 48 s.edition.digest.toNat
    | 5 => leBytes 4 s.edition.number.toNat ++ leBytes 4 s.boot.editionFloor.toNat
    | 6 => leBytes 2 0x4230 ++ leBytes 8 s.boot.uniqueId.toNat ++ leBytes 1 s.boot.plates.toNat
        ++ leBytes 1 s.boot.boardSlot.toNat
    | 7 => leBytes 1 (if s.sec.sealed then 1 else 0) ++ leBytes 1 (if s.regs.debug then 1 else 0)
        ++ leBytes 16 s.fingerprintNow ++ leBytes 6 s.sec.commitCount.toNat
    | 8 => leBytes 48 (match s.seq.cartoon with | some k => k.digest.toNat | none => 0)
    | _ => match s.sec.tenant with
      | some t => sha384 (padTo 1800 0 (t.policy.take 1800))
      | none => leBytes 48 0
  let inside : (Option (BitVec 32) → Instr) → Prop := fun f => f = (fun q => .getDigests c q) ∨
    (∃ k o n, f = fun q => .getCertificate c q k o n) ∨ (∃ k b n, f = fun q => .getMeasurements c q k b n)
  let late : Instr → Prop := fun i => (∃ f q, inside f ∧ i = f q) ∨ (∃ k n, i = .challenge c k n)
  let all := match c with | .doe => s.sec.sessions | .mctp => s.mss.sessions
  let touched := fun (id : BitVec 32) =>
    let l := all.map fun y => if y.id = id then { y with lastMessage := s.refclk } else y
    match c with
    | .doe => { s with sec := { s.sec with sessions := l } }
    | .mctp => { s with mss := { s.mss with sessions := l } }
  let early : Instr → Prop := fun i => i = .getVersion c ∨ i = .getCapabilities c ∨ (∃ o, i = .negotiateAlgorithms c o)
  (∀ i, early i ∨ late i → ¬ up → exec i s = .next s) ∧
  (up → exec (.getVersion c) s = .next (told (withSpdm ⟨true, false, false⟩) [0, 0x12])) ∧
  (up → x.version = true → exec (.getCapabilities c) s =
    .next (told (withSpdm { x with capabilities := true }) (0 :: leBytes 4 bits))) ∧
  (up → x.version = false → exec (.getCapabilities c) s = .next (told s [3, 4])) ∧
  (∀ o : AlgOffer, up →
    let all := o.ecdsaP384 && o.baseSha384 && o.measSha384 && o.secp384r1 && o.aes256gcm && o.spdmSchedule && o.dmtf
    exec (.negotiateAlgorithms c o) s = .next (
      if x.capabilities = false then told s [3, 4]
      else if all then told (withSpdm { x with algorithms := true }) [0]
      else told (withSpdm { x with algorithms := false }) [3, 1])) ∧
  (∀ i, late i → up → x.algorithms = false → exec i s = .next (told s [3, 4])) ∧
  (∀ f id, inside f → up → x.algorithms = true →
    ((∃ y ∈ all, y.id = id ∧ y.open_ = true) → exec (f (some id)) s = exec (f none) (touched id)) ∧
    ((∀ y ∈ all, ¬ (y.id = id ∧ y.open_ = true)) → exec (f (some id)) s = .next (told s [3, 4]))) ∧
  (up → x.algorithms = true →
    exec (.getDigests c none) s = .next (told s (0 :: 1 :: sha384 chain)) ∧
    (∀ (k : BitVec 8) (o n : BitVec 16),
      let here := min n.toNat (length - o.toNat)
      exec (.getCertificate c none k o n) s = .next (
        if k = 0 ∧ o.toNat < length then told s (0 :: (leBytes 2 here ++ leBytes 2 (length - o.toNat - here) ++
          flashRead s.boot.flash (0x2_0000 + o.toNat) here))
        else told s [3, 1])) ∧
    (∀ (k : BitVec 8) (n : BitVec 256), exec (.challenge c k n) s = .next (
      if k = 0 then told drawn (0 :: withSign (sha384 chain ++ ownNonce ++ leBytes 32 n.toNat)) else told s [3, 1])) ∧
    (∀ (k : BitVec 8) (n : BitVec 256),
      (9 < k.toNat → k ≠ 0xFF → ∀ b, exec (.getMeasurements c none k b n) s = .next (told s [3, 1])) ∧
      (∃ b, exec (.getMeasurements c none k false n) s = .next (told s b) ∧
        (k = 0 → b = [0, 9]) ∧
        (1 ≤ k.toNat → k.toNat ≤ 9 → ∃ w, b = [0, 1] ++ leBytes 1 k.toNat ++ [1] ++
          leBytes 2 (3 + (content k.toNat).length) ++ [w] ++ leBytes 2 (content k.toNat).length ++ content k.toNat) ∧
        (k.toNat ≤ 9 ∨ k = 0xFF → ∃ body, b = 0 :: body ∧ exec (.getMeasurements c none k true n) s =
          .next (told drawn (0 :: withSign (body ++ ownNonce ++ leBytes 32 n.toNat))))))) ∧
  (s.boot.phase = .ready → ∀ k : BitVec 8, exec (.doeDiscovery k) s = .next { s with sec := { s.sec with doeAnswer :=
    match k.toNat with
    | 0 => [0, 1, 0, 0, 1]
    | 1 => [0, 1, 0, 1, 2]
    | 2 => [0, 1, 0, 2, 0]
    | _ => [0, 0xFF, 0xFF, 0, 0] } }) ∧
  (s.boot.phase ≠ .ready → ∀ k : BitVec 8, exec (.doeDiscovery k) s = .next s)

/-- KEY_EXCHANGE, FINISH, HEARTBEAT, KEY_UPDATE, END_SESSION and SESSION_TIMEOUT (R375, R376, R378, R416). -/
def Obligations.Sessions : Prop := ∀ (c : Chan) (id : BitVec 32) (s : State),
  let up := match c with | .doe => s.boot.phase = .ready | .mctp => s.boot.phase = .booting ∨ s.boot.phase = .ready
  let told := fun (u : State) (b : List Byte) => match c with
    | .doe => { u with sec := { u.sec with doeAnswer := b } }
    | .mctp => { u with sec := { u.sec with mctpAnswer := b } }
  let negotiated := match c with | .doe => s.sec.spdm.algorithms | .mctp => s.mss.spdm.algorithms
  let all := match c with | .doe => s.sec.sessions | .mctp => s.mss.sessions
  let put := fun (l : List Session) => match c with
    | .doe => { s with sec := { s.sec with sessions := l } }
    | .mctp => { s with mss := { s.mss with sessions := l } }
  let most := match c with | .doe => 4 | .mctp => 2
  let isOpen := ∃ x ∈ all, x.id = id ∧ x.open_ = true
  let begun := ∃ x ∈ all, x.id = id ∧ x.open_ = false
  let others := all.filter fun x => decide (x.id ≠ id)
  let onIt := fun (f : Session → Session) => all.map fun x => if x.id = id then f x else x
  let touched := fun (x : Session) => { x with lastMessage := s.refclk }
  let tenantOne := c = .doe ∧ s.sec.tenantSession = some id
  let dropped : State → Prop := fun t => (match c with | .doe => t.sec.sessions | .mctp => t.mss.sessions) = others ∧
    t.sec.tenantSession = (if tenantOne then none else s.sec.tenantSession) ∧ t.mem = s.mem ∧
    t.sec.tenant = s.sec.tenant ∧ (¬ tenantOne → t.sec.importJob = s.sec.importJob ∧ t.closed = s.closed) ∧
    (tenantOne → t.sec.importJob = none ∧ (s.sec.importJob.isSome = true → t.sec.importState = .failed))
  (∀ key : BitVec 384, up → negotiated = true →
    let new : Session := ⟨s.sec.nextSession, false, key, 0, s.refclk, 0⟩
    let u := put (all ++ [new])
    let body := leBytes 4 s.sec.nextSession.toNat ++ [60] ++ leBytes 32 (Config.spdmNonce s.freeCount).toNat
    (all.length < most → exec (.keyExchange c key) s = .next (told
      { u with freeCount := s.freeCount + 1, sec := { u.sec with nextSession := s.sec.nextSession + 1 } }
      (0 :: (body ++ leBytes 96 (Config.identitySign (BitVec.ofNat 384 (ofLe (sha384 body)))).toNat)))) ∧
    (most ≤ all.length → exec (.keyExchange c key) s = .next (told s [3, 3]))) ∧
  (∀ (root : Option (BitVec 384)) (h : BitVec 384), up → negotiated = true →
    let right := c = .doe ∨ (s.boot.recovery = false ∧ root = some s.edition.mgmtRoot)
    (begun → right → exec (.finishSession c id true root h) s = .next
      (told (put (onIt fun x => { touched x with open_ := true, transcript := h })).sendCpers [0])) ∧
    (begun → ∃ t, exec (.finishSession c id false root h) s = .next (told t [3, 6]) ∧ dropped t) ∧
    (begun → c = .mctp → s.boot.recovery = false → root ≠ some s.edition.mgmtRoot →
      ∃ t, exec (.finishSession c id true root h) s = .next (told t [3, 1]) ∧ (put others).emits t srcMss 0x0511 []) ∧
    (¬ begun → ∀ b, exec (.finishSession c id b root h) s = .next (told s [3, 4]))) ∧
  (up → isOpen →
    exec (.heartbeat c id) s = .next (told (put (onIt touched)) [0]) ∧
    exec (.keyUpdate c id) s =
      .next (told (put (onIt fun x => { touched x with keyUpdates := x.keyUpdates + 1 })) [0]) ∧
    ∃ t, exec (.endSession c id) s = .next (told t [0]) ∧ dropped t) ∧
  (∀ i, i = .heartbeat c id ∨ i = .keyUpdate c id ∨ i = .endSession c id → up → ¬ isOpen →
    exec i s = .next (told s [3, 4])) ∧
  (∀ i, (∃ k, i = .keyExchange c k) ∨ (∃ b r h, i = .finishSession c id b r h) →
    (up → negotiated = false → exec i s = .next (told s [3, 4])) ∧ (¬ up → exec i s = .next s)) ∧
  (∀ i, i = .heartbeat c id ∨ i = .keyUpdate c id ∨ i = .endSession c id → ¬ up → exec i s = .next s) ∧
  ((∃ x ∈ all, x.id = id) → ∃ t, exec (.sessionTimeout c id) s = .next t ∧ dropped t) ∧
  ((∀ x ∈ all, x.id ≠ id) → exec (.sessionTimeout c id) s = .next s)

/-- TENANT_BEGIN, TENANT_END, REKEY, POLICY_SET, IMPORT, STATUS, BIND and TENANT_RESPONSE (R382–R400). -/
def Obligations.TenantCommands : Prop := ∀ (r : TenantReq) (s : State),
  let ready := s.boot.phase = .ready
  let inside := ∃ x ∈ s.sec.sessions, x.id = r.session ∧ x.open_ = true
  let l := s.sec.sessions.map fun x => if x.id = r.session then { x with lastMessage := s.refclk } else x
  let u := { s with sec := { s.sec with sessions := l } }
  let due := fun (v : State) (op result : Nat) (p : List Byte) => { v with sec := { v.sec with responses := v.sec.responses ++
    [⟨s.refclk + 40000, r.session, leBytes 1 op ++ leBytes 1 result ++ leBytes 2 p.length ++ leBytes 4 r.tag.toNat ++ p⟩] } }
  let quiet := s.seq.state = .idle ∨ s.seq.state = .loaded ∨ s.seq.state = .faulted
  let free := s.sec.job = none ∧ s.sec.scrub = none ∧ s.sec.waiting = []
  let change := quiet ∧ s.seamRetraining = false
  let named := fun (op : Nat) => r.opcode.toNat = op ∧ r.payloadLen.toNat = r.payload.length
  let own := s.sec.tenantSession = some r.session
  let ours := r.vendor = Config.pciVendor
  let p := r.payload
  let begins := fun (t : State) (why : CommitFor) (new : Option Tenant) =>
    t.seq.cartoon = none ∧ t.seq.state = .idle ∧ t.sec.bar2Closed = true ∧
    (free → t.sec.job = some ⟨why, r.session, new, false⟩ ∧ t.sec.waiting = []) ∧
    (s.sec.job.isSome = true ∨ s.sec.scrub.isSome = true → t.sec.job = s.sec.job ∧
      t.sec.waiting = s.sec.waiting ++ [⟨why, r.session, new, false⟩]) ∧
    t.sec.tenant = s.sec.tenant ∧ t.sec.sealed = s.sec.sealed ∧ t.sec.sessions = l ∧
    t.sec.commitCount = s.sec.commitCount ∧ t.mem.bytes = s.mem.bytes ∧ t.sec.slots = s.sec.slots ∧
    t.sec.responses = s.sec.responses
  let held := fun (i : Instr) (op : Nat) (ok : Prop) =>
    ready → inside → ours → ¬ (named op ∧ ok) → exec i s = .next (due u r.opcode.toNat 1 [])
  let beginOk := s.sec.tenant = none ∧ change ∧ 48 ≤ p.length ∧ s.policyOk (p.drop 48) = true
  let endOk := s.sec.tenant.isSome = true ∧ change ∧ p = []
  let rekeyOk := own ∧ s.sec.tenant.isSome = true ∧ change ∧ p.length = 32
  let policyOk := own ∧ s.sec.tenant.isSome = true ∧ quiet ∧ s.policyOk p = true
  let header := s.hostRead (ofLe p) 64
  let importOk := own ∧ quiet ∧ s.sec.importJob = none ∧ p.length = 8 ∧ ofLe p % 64 = 0 ∧
    s.blobOk (blobHeader header) = true
  let proof := fun (t : Tenant) (x : Session) => hmac384 (bindKey t) (leBytes 48 x.transcript.toNat)
  let bindOk := s.sec.tenantSession = none ∧ s.busyRun = false ∧
    ∃ t x, s.sec.tenant = some t ∧ u.sec.sessions.find? (fun x => decide (x.id = r.session)) = some x ∧ proof t x = p
  let newTenant : Tenant := ⟨BitVec.ofNat 128 (ofLe (p.take 16)), BitVec.ofNat 256 (ofLe ((p.drop 16).take 32)), 0, p.drop 48⟩
  let any : Instr → Prop := fun i => i = .tenantBegin r ∨ i = .tenantEnd r ∨ i = .rekey r ∨ i = .policySet r ∨
    i = .importBegin r ∨ i = .status r ∨ i = .bind r
  (∀ i, any i → (¬ ready → exec i s = .next s) ∧
    (ready → ¬ inside → exec i s = .next { s with sec := { s.sec with doeAnswer := [3, 7] } }) ∧
    (ready → inside → ¬ ours → exec i s = .next { u with sec := { u.sec with doeAnswer := [3, 7] } })) ∧
  held (.tenantBegin r) 1 beginOk ∧ held (.tenantEnd r) 2 endOk ∧ held (.rekey r) 3 rekeyOk ∧
  held (.policySet r) 4 policyOk ∧ held (.importBegin r) 5 importOk ∧ held (.status r) 6 (p = []) ∧
  held (.bind r) 7 bindOk ∧
  (ready → inside → ours → named 1 → beginOk → ∃ t, exec (.tenantBegin r) s = .next (due t 1 0 []) ∧ begins t .begin_ (some newTenant)) ∧
  (ready → inside → ours → named 2 → endOk → ∃ t, exec (.tenantEnd r) s = .next (due t 2 0 []) ∧ begins t .end_ none) ∧
  (ready → inside → ours → named 3 → rekeyOk → ∃ t, exec (.rekey r) s = .next (due t 3 0 []) ∧
    begins t .rekey (s.sec.tenant.map fun x => { x with
      tmk := BitVec.ofNat 256 (ofLe p), generation := x.generation + 1 })) ∧
  (ready → inside → ours → named 4 → policyOk → ∃ t, exec (.policySet r) s = .next (due t 4 0 []) ∧
    (free → t.sec.job = some ⟨.policy, r.session, s.sec.tenant.map fun x => { x with policy := p }, false⟩) ∧
    (s.sec.job.isSome = true ∨ s.sec.scrub.isSome = true → t.sec.job = s.sec.job ∧ t.sec.waiting =
      s.sec.waiting ++ [⟨.policy, r.session, s.sec.tenant.map fun x => { x with policy := p }, false⟩]) ∧
    t.sec.tenant = s.sec.tenant ∧ t.sec.bar2Closed = s.sec.bar2Closed ∧ t.mem.bytes = s.mem.bytes ∧
    (∀ k, s.seq.cartoon = some k → k.digest.toNat ∈ policyDigests p →
      t = { u with sec := { u.sec with job := t.sec.job, waiting := t.sec.waiting, sealEngine := t.sec.sealEngine } }) ∧
    (∀ k, s.seq.cartoon = some k → k.digest.toNat ∉ policyDigests p → t.seq.cartoon = none ∧ t.seq.state = .idle)) ∧
  (ready → inside → ours → named 5 → importOk →
    let h := blobHeader header
    let job : ImportJob := ⟨BitVec.ofNat 64 (ofLe p), header, h.devAddr, h.segments, h.nonce, r.session⟩
    exec (.importBegin r) s = .next (due (State.sealSync { u with sec := { u.sec with
      importState := .running, importDone := 0, importJob := some job } }) 5 0 [])) ∧
  (ready → inside → ours → named 6 → p = [] → ∃ b, exec (.status r) s = .next (due u 6 0 b) ∧ b.length = 28 ∧
    b = leBytes 28 ((if s.sec.sealed then 1 else 0) + (if own then 2 else 0) +
      (if s.sec.sealEngine.held = [] then 0 else 4) +
      (if own then 8 * importCode s.sec.importState + 2 ^ 64 * s.sec.importDone.toNat else 0) +
      2 ^ 16 * s.sec.commitCount.toNat + 2 ^ 96 * s.fingerprintNow)) ∧
  (ready → inside → ours → named 7 → bindOk → exec (.bind r) s =
    .next (due { u with sec := { u.sec with tenantSession := some r.session } } 7 0 [])) ∧
  (s.sec.responses = [] → exec .tenantResponse s = .next s) ∧
  (∀ d rest, s.sec.responses = d :: rest → ∃ t v : State, exec .tenantResponse s = .next t ∧
    t.sec.doeAnswer = d.bytes ∧ t.sec.responses = rest ∧ t.sec.tenant = s.sec.tenant ∧ v.sec.responses = rest ∧
    (d.bytes[1]? ≠ some 1 → t.closed = s.closed ∧ t.opened = s.opened) ∧
    (d.bytes[1]? = some 1 → v.emits t srcMss 0x0420 [f64 (d.bytes[0]?.getD 0).toNat]))

/-- R385. -/
def Obligations.RunRefusesTenants : Prop := ∀ (r : TenantReq) (s : State) (c : Instr) (op : Nat),
  s.boot.phase = .ready → (∃ x ∈ s.sec.sessions, x.id = r.session ∧ x.open_ = true) → r.vendor = Config.pciVendor →
  s.seq.state = .armed ∨ s.seq.state = .running ∨ s.seq.state = .waiting →
  (c, op) ∈ [(Instr.tenantBegin r, 1), (.tenantEnd r, 2), (.rekey r, 3), (.policySet r, 4), (.importBegin r, 5), (.bind r, 7),
    (.status r, 6)] →
  let l := s.sec.sessions.map fun x => if x.id = r.session then { x with lastMessage := s.refclk } else x
  let due := fun (result : Nat) (p : List Byte) => { s with sec := { s.sec with
    sessions := l, responses := s.sec.responses ++ [⟨s.refclk + 40000, r.session,
      leBytes 1 r.opcode.toNat ++ leBytes 1 result ++ leBytes 2 p.length ++ leBytes 4 r.tag.toNat ++ p⟩] } }
  (op ≠ 6 → exec c s = .next (due 1 [])) ∧ (op = 6 → r.opcode = 6 → r.payloadLen = 0 → r.payload = [] → ∃ p, exec c s = .next (due 0 p))

/-- KEY_STORE_COMMIT and IMPORT_SEGMENT (R386–R397). -/
def Obligations.KeyStoreAndImports : Prop := ∀ s : State,
  let n := s.sec.commitCount.toNat + 1
  let k := 1 - s.sec.activeSlot.toNat
  (∀ j : CommitJob, s.sec.job = some j → j.stopped = false →
    let slot := makeSlot j.tenant n
    let cell := commitCell n k j.tenant.isSome
    let stored : State := State.sealSync { s.sealSegment .keyStore with sec := { (s.sealSegment .keyStore).sec with
      slots := smapPutList 0xFF s.sec.slots (4096 * k) slot,
      cell0 := if n % 2 = 0 then cell else s.sec.cell0, cell1 := if n % 2 = 1 then cell else s.sec.cell1,
      commitCount := BitVec.ofNat 48 n, activeSlot := BitVec.ofNat 1 k, tenant := j.tenant, sealed := j.tenant.isSome,
      job := none } }
    (s.boot.pwrFail = false →
      (j.purpose = .policy → ∃ v, exec (.keyStoreCommit .done) s = .next v.nextJob ∧ stored.emits v srcMss 0x0403 []) ∧
      (j.purpose ≠ .policy → ∃ t, exec (.keyStoreCommit .done) s = .next t ∧
        t.sec.slots = stored.sec.slots ∧ t.sec.cell0 = stored.sec.cell0 ∧ t.sec.cell1 = stored.sec.cell1 ∧
        t.sec.commitCount = stored.sec.commitCount ∧ t.sec.activeSlot = stored.sec.activeSlot ∧
        t.sec.tenant = j.tenant ∧ t.sec.sealed = j.tenant.isSome ∧ t.sec.job = none ∧ t.sec.bar2Closed = s.sec.bar2Closed ∧
        t.mem = s.mem ∧
        t.sec.scrub = some ⟨s.boardTime, some (match j.purpose with
          | .begin_ => 0x0400 | .end_ => 0x0401 | _ => 0x0402)⟩ ∧
        (j.purpose = .begin_ → t.regs.debug = false ∧
          ((∃ x ∈ s.sec.sessions, x.id = j.session ∧ x.open_ = true) → t.sec.tenantSession = some j.session)) ∧
        (j.purpose = .end_ → t.sec.tenantSession = none) ∧
        (j.purpose = .rekey → t.sec.tenantSession = s.sec.tenantSession)) ∧
      (∃ v, exec (.keyStoreCommit .readBackMismatch) s = .next v.nextJob ∧ State.emits { s with sec := { s.sec with
        slots := smapPutList 0xFF s.sec.slots (4096 * k) (List.replicate 4096 0xFF), job := none,
        bar2Closed := s.sec.sealed || s.sec.waiting.any fun x => x.purpose != .policy } } v srcMss 0x0406 []) ∧
      (∀ st b, exec (.keyStoreCommit (.powerFail st b)) s = .next s)) ∧
    (s.boot.pwrFail = true →
      (∀ o, o = .done ∨ o = .readBackMismatch → exec (.keyStoreCommit o) s = .next s) ∧
      (∀ st b, st.val < 6 → ∃ t, exec (.keyStoreCommit (.powerFail st b)) s = .next t ∧
        t = { s with sec := { s.sec with
          slots := t.sec.slots, cell0 := t.sec.cell0, cell1 := t.sec.cell1, job := some { j with stopped := true } } } ∧
        (∀ a, a < 4096 * k ∨ 4096 * (k + 1) ≤ a → smapGet 0xFF t.sec.slots a = smapGet 0xFF s.sec.slots a) ∧
        (n % 2 = 0 → t.sec.cell1 = s.sec.cell1) ∧ (n % 2 = 1 → t.sec.cell0 = s.sec.cell0) ∧
        (st.val < 4 → t.sec.cell0 = s.sec.cell0 ∧ t.sec.cell1 = s.sec.cell1) ∧
        (st.val = 5 → b = true → (if n % 2 = 0 then t.sec.cell0 else t.sec.cell1) = cell)) ∧
      (∀ st b, st.val = 6 → ∃ t, exec (.keyStoreCommit (.powerFail st b)) s = .next t ∧ t.sec.tenant = j.tenant ∧
        t.sec.commitCount = stored.sec.commitCount ∧ t.sec.slots = stored.sec.slots))) ∧
  (∀ o, (∀ j, s.sec.job = some j → j.stopped = true) → exec (.keyStoreCommit o) s = .next s) ∧
  (∀ b, s.sec.importJob = none → exec (.importSegment b) s = .next s) ∧
  (∀ j : ImportJob, s.sec.importJob = some j →
    let i := s.sec.importDone.toNat
    let w := s.sealSegment .tenantImport
    let written := fun (b : List Byte) =>
      State.placeBytes { w with sec := { w.sec with importDone := BitVec.ofNat 32 (i + 1) } } srcMss (j.devAddr + 4096 * i) b
    let ended := fun (u : State) (x : ImportState) =>
      State.sealSync { u with sec := { u.sec with importJob := none, importState := x } }
    (∃ t, exec (.importSegment true) s = .next t ∧ (ended s .failed).emits t srcMss 0x0405 [f32 i]) ∧
    (s.openSegment j i = none → ∃ t, exec (.importSegment false) s = .next t ∧
      (ended w .failed).emits t srcMss 0x0405 [f32 i]) ∧
    (∀ b, s.openSegment j i = some b →
      (i + 1 ≠ j.segments → exec (.importSegment false) s = .next (written b)) ∧
      (i + 1 = j.segments → ∃ t, exec (.importSegment false) s = .next t ∧
        (ended (written b) .done).emits t srcMss 0x0404 []) ∧
      (s.mem.wf = true → j.devAddr % 8 = 0 → b.length = 4096 → ∀ x < 4096,
        byteAt (written b).mem (j.devAddr + 4096 * i + x) = nth 0 b x)))

/-- The IDE_KM commands and the seven TDISP requests (R379, R380). -/
def Obligations.IdeAndTdisp : Prop := ∀ (id : BitVec 32) (s : State),
  let ready := s.boot.phase = .ready
  let inside := ∃ x ∈ s.sec.sessions, x.id = id ∧ x.open_ = true
  let l := s.sec.sessions.map fun x => if x.id = id then { x with lastMessage := s.refclk } else x
  let told := fun (sec : Security) (b : List Byte) => { s with sec := { sec with sessions := l, doeAnswer := b } }
  let stream := fun (k : Nat) =>
    let x := smapGet noStream s.sec.ideStreams k
    BitVec.ofNat 8 ((if x.bar0 then 1 else 0) + (if x.bar2 then 2 else 0) + (if x.pcrc then 4 else 0) +
      (if x.teeLimited then 8 else 0))
  let all : Instr → Prop := fun i => i = .query id ∨ (∃ k w, i = .keyProg id k w) ∨ (∃ k x, i = .kSetGo id k x) ∨
    (∃ k, i = .kSetStop id k) ∨ i = .getTdispVersion id ∨ i = .getTdispCapabilities id ∨
    i = .lockInterfaceRequest id ∨ i = .getDeviceInterfaceReport id ∨ i = .getDeviceInterfaceState id ∨
    i = .startInterfaceRequest id ∨ i = .stopInterfaceRequest id
  (∀ i, all i → (¬ ready → exec i s = .next s) ∧
    (ready → ¬ inside → exec i s = .next { s with sec := { s.sec with doeAnswer := [3, 4] } })) ∧
  (ready → inside →
    exec (.query id) s = .next (told s.sec ([0, 2, 0] ++ [stream 0, stream 1])) ∧
    exec (.getTdispVersion id) s = .next (told s.sec [0, 0x10]) ∧
    exec (.getTdispCapabilities id) s = .next (told s.sec [0, 1, 7]) ∧
    exec (.getDeviceInterfaceReport id) s = .next (told s.sec [0, 0, 1, 2, if s.sec.sealed then 0 else 1]) ∧
    exec (.getDeviceInterfaceState id) s = .next (told s.sec [0, match s.sec.tdi with
      | .unlocked => 0 | .locked => 1 | .run => 2 | .error => 3]) ∧
    exec (.lockInterfaceRequest id) s = .next (
      if s.sec.tdi = .unlocked then told { s.sec with tdi := .locked } [0] else told s.sec [3, 1]) ∧
    exec (.startInterfaceRequest id) s = .next (
      if s.sec.tdi = .locked then told { s.sec with tdi := .run } [0] else told s.sec [3, 1]) ∧
    exec (.stopInterfaceRequest id) s = .next (told { s.sec with tdi := .unlocked } [0]) ∧
    (∀ k : IdeKeyLoc,
      let known := k.stream.toNat < 2 ∧ k.subStream.toNat < 3
      let here := ideIndex k k.keySet.toNat
      let other := ideIndex k (1 - k.keySet.toNat)
      let key := smapGet IdeKey.none s.sec.ide
      let withKey := fun (m : SMap IdeKey) (n : Nat) (x : IdeKey) => smapPut IdeKey.none m n x
      here ≠ other ∧
      (¬ known → ∀ i, (∃ w, i = .keyProg id k w) ∨ (∃ x, i = .kSetGo id k x) ∨ i = .kSetStop id k →
        exec i s = .next (told s.sec [3, 1])) ∧
      ((key here).programmed = false → ∀ x, exec (.kSetGo id k x) s = .next (told s.sec [3, 1])) ∧
      (known → ∀ w : BitVec 256, exec (.keyProg id k w) s =
        .next (told { s.sec with ide := withKey s.sec.ide here ⟨w, true, false⟩ } [0])) ∧
      (known → exec (.kSetStop id k) s = .next (told { s.sec with ide := withKey s.sec.ide here IdeKey.none } [0])) ∧
      (known → (key here).programmed = true → ∀ x : IdeStream,
        let first := withKey s.sec.ide here { key here with inUse := true }
        let both := withKey first other { key other with inUse := false }
        exec (.kSetGo id k x) s = .next (told { s.sec with
          ide := both, ideStreams := smapPut noStream s.sec.ideStreams k.stream.toNat x } [0]))))

/-- BYPASS, IDCODE, SAMPLE/PRELOAD, EXTEST, CLAMP and HIGHZ; ENDPOINT_ID_ASSIGNMENT and DYNAMIC_ADDRESS_ASSIGNMENT. -/
def Obligations.JtagAndAddresses : Prop := ∀ s : State,
  let runs := s.boot.phase = .booting ∨ s.boot.phase = .ready
  let jtag := fun (x : JtagInstr) (d : Word) => { s with boot := { s.boot with jtag := x, jtagData := d } }
  exec .bypass s = .next (jtag .bypass 0) ∧
  exec .clamp s = .next (jtag .clamp 0) ∧
  exec .highz s = .next (jtag .highz 0) ∧
  exec .extest s = .next (jtag .extest (if s.boot.perstLow = true then s.boot.jtagData else 0)) ∧
  (∃ d : Word, exec .idcode s = .next (jtag .idcode d) ∧ d.extractLsb' 28 4 = 1#4 ∧ d.extractLsb' 12 16 = 0x8320#16 ∧
    d.extractLsb' 1 11 = Config.jep106 ∧ d.extractLsb' 0 1 = 1#1) ∧
  (∀ cells, exec (.samplePreload cells) s =
    .next { s with boot := { s.boot with jtag := .sample, boundary := cells } }) ∧
  (∀ e : BitVec 8,
    (runs → exec (.endpointIdAssignment e) s = .next { s with mss := { s.mss with eid := e } }) ∧
    (¬ runs → exec (.endpointIdAssignment e) s = .next s)) ∧
  (∀ a : BitVec 7,
    (runs → s.edition.mctpBind = false → exec (.dynamicAddressAssignment a) s =
      .next { s with mss := { s.mss with dynamicAddress := some a } }) ∧
    (¬ runs ∨ s.edition.mctpBind = true → exec (.dynamicAddressAssignment a) s = .next s))
end

