-- ==== Sys2Proof/Laws/Events.lean ====
section
/-! SUPPORT. What writing an event does, once for every command that writes one. -/

namespace Sys2Proof.Laws
open Sys2Proof Sys2Proof.Machine

theorem sameButEvents_refl (s : State) : s.sameButEvents s := rfl

theorem sameButEvents_trans {s t u : State} (h : s.sameButEvents t) (g : t.sameButEvents u) : s.sameButEvents u := by
  unfold State.sameButEvents at *
  rw [g, h]

theorem sameButEvents_addRecord (s : State) (r : Record) : s.sameButEvents (s.addRecord r) := by
  unfold State.addRecord
  dsimp only
  split <;> rfl

theorem sameButEvents_countEvent (s : State) : s.sameButEvents s.countEvent := by
  unfold State.countEvent
  split <;> rfl

theorem sameButEvents_emitPlain (s : State) (src code : Nat) (p : BitVec 704) : s.sameButEvents (s.emitPlain src code p) :=
  sameButEvents_trans (sameButEvents_countEvent s) (sameButEvents_addRecord _ _)

theorem sameButEvents_foldl {β : Type} {f : State → β → State} (hf : ∀ (s : State) b, s.sameButEvents (f s b)) (s : State)
    (l : List β) : s.sameButEvents (l.foldl f s) := by
  induction l generalizing s with
  | nil => exact sameButEvents_refl s
  | cons b r ih => exact sameButEvents_trans (hf s b) (ih _)

/-- A change of the log, and of the flash, is one of those. -/
theorem sameButEvents_log (s : State) (sram backup : List LogEntry) (unm dropped pos : Nat) (seq : DWord) (w : Bool)
    (f : SMap Byte) :
    s.sameButEvents { s with
      mss := { s.mss with sram := sram, unmirrored := unm, nextSeq := seq, dropped := dropped, backup := backup,
                          mirrorPos := pos, writing := w },
      boot := { s.boot with flash := f } } := rfl

theorem sameButEvents_mirrorOne (s : State) (e : LogEntry) : s.sameButEvents (s.mirrorOne e) := by
  unfold State.mirrorOne
  dsimp only
  exact sameButEvents_log s s.mss.sram s.mss.backup _ _ _ _ _ _

theorem sameButEvents_logEntry (s : State) (e : LogEntry) : s.sameButEvents (s.logEntry e) := by
  unfold State.logEntry
  dsimp only
  repeat' split
  · exact sameButEvents_log s s.mss.sram s.mss.backup s.mss.unmirrored _ s.mss.mirrorPos s.mss.nextSeq _ s.boot.flash
  · exact sameButEvents_trans
      (sameButEvents_log s s.mss.sram s.mss.backup s.mss.unmirrored 0 s.mss.mirrorPos _ true s.boot.flash)
      (sameButEvents_mirrorOne _ e)
  · exact sameButEvents_log s s.mss.sram s.mss.backup s.mss.unmirrored _ s.mss.mirrorPos s.mss.nextSeq _ s.boot.flash
  · exact sameButEvents_log s s.mss.sram _ s.mss.unmirrored 0 s.mss.mirrorPos _ _ s.boot.flash
  · exact sameButEvents_log s _ s.mss.backup _ 0 s.mss.mirrorPos _ _ s.boot.flash

theorem sameButEvents_logAppend (s : State) (k c src : Nat) (a b : DWord) (d : BitVec 672) :
    s.sameButEvents (s.logAppend k c src a b d) := sameButEvents_logEntry s _

theorem sameButEvents_fragments (c : Cper) (l : List Nat) (s : State) :
    s.sameButEvents (l.foldl (fun s i => s.emitPlain srcMss 0x0530 (cperFragment c i)) s) :=
  sameButEvents_foldl (fun s _ => sameButEvents_emitPlain s _ _ _) s l

theorem sameButEvents_cper (s : State) (q : List Cper) (n : Nat) :
    s.sameButEvents { s with mss := { s.mss with cper := q, cperDropped := n, mgmtAlert := true } } := rfl

theorem sameButEvents_sendCpers (s : State) : s.sameButEvents s.sendCpers := by
  unfold State.sendCpers
  split <;> rfl

theorem sameButEvents_cperFor (s : State) (k c : Nat) (id : DWord) (b : List Byte) :
    s.sameButEvents (s.cperFor k c id b) := by
  unfold State.cperFor State.emitFragments
  split
  · exact sameButEvents_refl s
  · rename_i sev _
    dsimp only
    generalize Cper.mk id sev b false = c'
    generalize cperPush s.mss.cper c' _ = q
    exact sameButEvents_trans (sameButEvents_cper s q.1 _)
      (sameButEvents_trans (sameButEvents_sendCpers _) (sameButEvents_fragments c' _ _))

theorem sameButEvents_takeCperDropped (s : State) (k c : Nat) : s.sameButEvents (s.takeCperDropped k c) := by
  unfold State.takeCperDropped
  split <;> rfl

theorem sameButEvents_logRecord (s : State) (r : Record) : s.sameButEvents (s.logRecord r) :=
  sameButEvents_trans (sameButEvents_takeCperDropped s _ _)
    (sameButEvents_trans (sameButEvents_logAppend _ _ _ _ _ _ _) (sameButEvents_cperFor _ _ _ _ _))

theorem sameButEvents_emit (s : State) (src code : Nat) (fields : List (Nat × Nat)) :
    s.sameButEvents (s.emit src code fields) := by
  unfold State.emit State.emitRaw
  dsimp only
  split
  · exact sameButEvents_trans (sameButEvents_countEvent s)
      (sameButEvents_trans (sameButEvents_addRecord _ _) (sameButEvents_logRecord _ _))
  · exact sameButEvents_trans (sameButEvents_countEvent s) (sameButEvents_addRecord _ _)

/-! ### The record -/

/-- Only records of CPER fragments are added. -/
def onlyFragments (s t : State) : Prop :=
  s.seq.phase = t.seq.phase ∧ ∃ rest : List Record, (∀ x ∈ rest, x.code = 0x0530) ∧
    if s.seq.phase = .inStroke then t.opened = s.opened ++ rest ∧ t.closed = s.closed
    else t.closed = s.closed ++ rest ∧ t.opened = s.opened

theorem onlyFragments_refl (s : State) : onlyFragments s s := ⟨rfl, [], by simp, by split <;> simp⟩

theorem onlyFragments_same {s t : State} (h : s.seq.phase = t.seq.phase) (ho : t.opened = s.opened)
    (hc : t.closed = s.closed) : onlyFragments s t := ⟨h, [], by simp, by simp [ho, hc]⟩

theorem onlyFragments_trans {s t u : State} (h : onlyFragments s t) (g : onlyFragments t u) : onlyFragments s u := by
  obtain ⟨hp, r1, h1, h2⟩ := h
  obtain ⟨gp, r2, g1, g2⟩ := g
  refine ⟨hp.trans gp, r1 ++ r2, ?_, ?_⟩
  · intro x hx
    rcases List.mem_append.mp hx with h | h
    · exact h1 x h
    · exact g1 x h
  · rw [← hp] at g2
    split
    · rename_i c
      rw [if_pos c] at h2 g2
      exact ⟨by rw [g2.1, h2.1, List.append_assoc], by rw [g2.2, h2.2]⟩
    · rename_i c
      rw [if_neg c] at h2 g2
      exact ⟨by rw [g2.1, h2.1, List.append_assoc], by rw [g2.2, h2.2]⟩

theorem countEvent_phase (s : State) : s.countEvent.seq.phase = s.seq.phase := by
  unfold State.countEvent
  split <;> rfl

theorem addRecord_phase (s : State) (r : Record) : (s.addRecord r).seq.phase = s.seq.phase := by
  unfold State.addRecord
  dsimp only
  split <;> rfl

theorem addRecord_lists (s : State) (r : Record) :
    if s.seq.phase = .inStroke then (s.addRecord r).opened = s.opened ++ [r] ∧ (s.addRecord r).closed = s.closed
    else (s.addRecord r).closed = s.closed ++ [r] ∧ (s.addRecord r).opened = s.opened := by
  unfold State.addRecord
  dsimp only
  split <;> simp

theorem countEvent_lists (s : State) : s.countEvent.opened = s.opened ∧ s.countEvent.closed = s.closed
    ∧ s.countEvent.sourceSeq = s.sourceSeq ∧ s.countEvent.boardTime = s.boardTime := by
  unfold State.countEvent
  split <;> simp

theorem onlyFragments_fragment (s : State) (c : Cper) (i : Nat) :
    onlyFragments s (s.emitPlain srcMss 0x0530 (cperFragment c i)) := by
  unfold State.emitPlain
  have h := addRecord_lists s.countEvent (s.countEvent.mkRecord 2 srcMss 0x0530 (cperFragment c i))
  rw [countEvent_phase, (countEvent_lists s).1, (countEvent_lists s).2.1] at h
  exact ⟨by rw [addRecord_phase, countEvent_phase], _, by simp [State.mkRecord], h⟩

theorem onlyFragments_fragments (c : Cper) (l : List Nat) (s : State) :
    onlyFragments s (l.foldl (fun s i => s.emitPlain srcMss 0x0530 (cperFragment c i)) s) := by
  induction l generalizing s with
  | nil => exact onlyFragments_refl s
  | cons i l ih => exact onlyFragments_trans (onlyFragments_fragment s c i) (ih _)

theorem onlyFragments_sendCpers (s : State) : onlyFragments s s.sendCpers := by
  unfold State.sendCpers
  split <;> exact onlyFragments_same rfl rfl rfl

theorem onlyFragments_cperFor (s : State) (k c : Nat) (id : DWord) (b : List Byte) :
    onlyFragments s (s.cperFor k c id b) := by
  unfold State.cperFor State.emitFragments
  split
  · exact onlyFragments_refl s
  · rename_i sev _
    dsimp only
    generalize Cper.mk id sev b false = c'
    generalize cperPush s.mss.cper c' _ = q
    refine onlyFragments_trans ?_ (onlyFragments_trans (onlyFragments_sendCpers _) (onlyFragments_fragments c' _ _))
    exact onlyFragments_same rfl rfl rfl

theorem onlyFragments_logEntry (s : State) (e : LogEntry) : onlyFragments s (s.logEntry e) := by
  unfold State.logEntry
  dsimp only
  repeat' split
  · exact onlyFragments_same rfl rfl rfl
  · unfold State.mirrorOne
    dsimp only
    generalize flashProgram _ _ _ = f
    exact onlyFragments_same rfl rfl rfl
  all_goals exact onlyFragments_same rfl rfl rfl

theorem onlyFragments_logAppend (s : State) (k c src : Nat) (a b : DWord) (d : BitVec 672) :
    onlyFragments s (s.logAppend k c src a b d) := onlyFragments_logEntry s _

theorem onlyFragments_takeCperDropped (s : State) (k c : Nat) : onlyFragments s (s.takeCperDropped k c) := by
  unfold State.takeCperDropped
  split <;> exact onlyFragments_same rfl rfl rfl

theorem onlyFragments_logRecord (s : State) (r : Record) : onlyFragments s (s.logRecord r) :=
  onlyFragments_trans (onlyFragments_takeCperDropped s _ _)
    (onlyFragments_trans (onlyFragments_logAppend _ _ _ _ _ _ _) (onlyFragments_cperFor _ _ _ _ _))

/-- Writing an event writes exactly that event. -/
theorem emits_emit (s : State) (src code : Nat) (fields : List (Nat × Nat)) :
    s.emits (s.emit src code fields) src code fields := by
  refine ⟨sameButEvents_emit s src code fields, s.countEvent.mkRecord 2 src code (eventPayload fields), ?_,
    rfl, rfl, rfl, ?_, ?_, rfl⟩
  · have h := addRecord_lists s.countEvent (s.countEvent.mkRecord 2 src code (eventPayload fields))
    rw [countEvent_phase, (countEvent_lists s).1, (countEvent_lists s).2.1] at h
    unfold State.emit State.emitRaw State.wrote
    dsimp only
    by_cases hl : loggedEvent code = true
    · rw [if_pos hl]
      have g := onlyFragments_logRecord (s.countEvent.addRecord (s.countEvent.mkRecord 2 src code (eventPayload fields)))
        (s.countEvent.mkRecord 2 src code (eventPayload fields))
      obtain ⟨-, rest, g1, g2⟩ := g
      rw [addRecord_phase, countEvent_phase] at g2
      refine ⟨rest, g1, ?_⟩
      split
      · rename_i c
        rw [if_pos c] at h g2
        exact ⟨by rw [g2.1, h.1, List.append_assoc]; rfl, by rw [g2.2, h.2]⟩
      · rename_i c
        rw [if_neg c] at h g2
        exact ⟨by rw [g2.1, h.1, List.append_assoc]; rfl, by rw [g2.2, h.2]⟩
    · rw [if_neg hl]
      exact ⟨[], by simp, h⟩
  · simp only [State.mkRecord, (countEvent_lists s).2.2.1]
  · simp only [State.mkRecord, (countEvent_lists s).2.2.2]

/-! ### Decisions of the MSS -/

theorem sameButEvents_decide (s : State) (code : Nat) (fields : List (Nat × Nat)) :
    s.sameButEvents (s.decide_ code fields) := by
  unfold State.decide_
  dsimp only
  generalize logBytes _ = b
  refine sameButEvents_trans (sameButEvents_takeCperDropped s 2 code) ?_
  generalize s.takeCperDropped 2 code = u
  exact sameButEvents_trans (sameButEvents_logEntry u _) (sameButEvents_cperFor _ _ _ _ _)

theorem onlyFragments_decide (s : State) (code : Nat) (fields : List (Nat × Nat)) :
    onlyFragments s (s.decide_ code fields) := by
  unfold State.decide_
  dsimp only
  generalize logBytes _ = b
  refine onlyFragments_trans (onlyFragments_takeCperDropped s 2 code) ?_
  generalize s.takeCperDropped 2 code = u
  exact onlyFragments_trans (onlyFragments_logEntry u _) (onlyFragments_cperFor _ _ _ _ _)

theorem emitPlain_sram (s : State) (src code : Nat) (p : BitVec 704) :
    (s.emitPlain src code p).mss.sram = s.mss.sram := by
  unfold State.emitPlain State.addRecord State.countEvent
  dsimp only
  repeat' split
  all_goals rfl

theorem fragments_sram (c : Cper) (l : List Nat) (s : State) :
    (l.foldl (fun s i => s.emitPlain srcMss 0x0530 (cperFragment c i)) s).mss.sram = s.mss.sram := by
  induction l generalizing s with
  | nil => rfl
  | cons i l ih => exact (ih _).trans (emitPlain_sram _ _ _ _)

theorem sendCpers_sram (s : State) : s.sendCpers.mss.sram = s.mss.sram := by
  unfold State.sendCpers
  split <;> rfl

theorem cperFor_sram (s : State) (k c : Nat) (id : DWord) (b : List Byte) : (s.cperFor k c id b).mss.sram = s.mss.sram := by
  unfold State.cperFor State.emitFragments
  split
  · rfl
  · rename_i sev _
    dsimp only
    generalize Cper.mk id sev b false = c'
    generalize cperPush s.mss.cper c' _ = q
    rw [fragments_sram, sendCpers_sram]

theorem takeCperDropped_mss (s : State) (k c : Nat) : (s.takeCperDropped k c).mss.nextSeq = s.mss.nextSeq
    ∧ (s.takeCperDropped k c).mss.degraded = s.mss.degraded
    ∧ (s.takeCperDropped k c).mss.backupFailed = s.mss.backupFailed := by
  unfold State.takeCperDropped
  split <;> simp

/-- An entry that the log's SRAM takes is its last. -/
theorem logEntry_last (s : State) (e : LogEntry) (hd : s.mss.degraded = false) (hb : s.mss.backupFailed = false) :
    (s.logEntry e).mss.sram.getLast? = some e := by
  unfold State.logEntry
  simp only [hd, hb, Bool.false_eq_true, if_false]
  rw [List.drop_append_of_le_length (by omega)]
  simp

/-- Logging a decision logs exactly that decision. -/
theorem logs_decide (s : State) (code : Nat) (fields : List (Nat × Nat)) : s.logs (s.decide_ code fields) code := by
  refine ⟨sameButEvents_decide s code fields, (onlyFragments_decide s code fields).2, ?_⟩
  intro hd hb
  unfold State.decide_
  dsimp only
  rw [cperFor_sram]
  have h := takeCperDropped_mss s 2 code
  exact ⟨_, logEntry_last _ _ (h.2.1.trans hd) (h.2.2.trans hb), rfl, rfl, h.1⟩

end Sys2Proof.Laws
end

