-- ==== Sys2Proof/Laws/SMap.lean ====
section
/-! SUPPORT. The laws of the sparse maps: a read after a write, and that every operation keeps the canonical form. -/

namespace Sys2Proof.Laws
open Sys2Proof.Machine

variable {α : Type} [DecidableEq α]

/-! ### Reads after writes -/

omit [DecidableEq α] in
theorem smapGet_of_above (d : α) (m : SMap α) (k x : Nat) (h : smapAbove k m = true) (hx : x ≤ k) :
    smapGet d m x = d := by
  induction m with
  | nil => rfl
  | cons p r ih =>
    obtain ⟨y, v⟩ := p
    simp only [smapAbove, Bool.and_eq_true, decide_eq_true_eq] at h
    have hne : x ≠ y := by omega
    simp [smapGet, hne, ih h.2]

/-- A read after a write to the same key gives the value written. -/
theorem smapGet_put_self (d : α) (m : SMap α) (k : Nat) (v : α) (h : smapWf d m = true) :
    smapGet d (smapPut d m k v) k = v := by
  induction m with
  | nil => by_cases hv : v = d <;> simp [smapPut, smapGet, hv]
  | cons p r ih =>
    obtain ⟨y, w⟩ := p
    simp only [smapWf, Bool.and_eq_true] at h
    obtain ⟨⟨-, ha⟩, hr⟩ := h
    rcases Nat.lt_trichotomy k y with hk | hk | hk
    · have hk' : k ≠ y := by omega
      by_cases hv : v = d
      · simp [smapPut, smapGet, hk, hv, hk', smapGet_of_above d r y k ha (by omega)]
      · simp [smapPut, smapGet, hk, hv]
    · subst hk
      by_cases hv : v = d
      · simp [smapPut, hv, smapGet_of_above d r k k ha (by omega)]
      · simp [smapPut, smapGet, hv]
    · have h1 : ¬ k < y := by omega
      have h2 : k ≠ y := by omega
      simp [smapPut, smapGet, h1, h2, ih hr]

/-- A write leaves every other key alone. -/
theorem smapGet_put_other (d : α) (m : SMap α) (k x : Nat) (v : α) (hx : x ≠ k) :
    smapGet d (smapPut d m k v) x = smapGet d m x := by
  induction m with
  | nil => by_cases hv : v = d <;> simp [smapPut, smapGet, hv, hx]
  | cons p r ih =>
    obtain ⟨y, w⟩ := p
    rcases Nat.lt_trichotomy k y with hk | hk | hk
    · by_cases hv : v = d <;> simp [smapPut, smapGet, hk, hv, hx]
    · subst hk
      by_cases hv : v = d <;> simp [smapPut, smapGet, hv, hx]
    · have h1 : ¬ k < y := by omega
      have h2 : k ≠ y := by omega
      by_cases hxy : x = y
      · simp [smapPut, smapGet, h1, h2, hxy]
      · simp [smapPut, smapGet, h1, h2, hxy, ih]

/-- The read of any key after a write. -/
theorem smapGet_put (d : α) (m : SMap α) (k x : Nat) (v : α) (h : smapWf d m = true) :
    smapGet d (smapPut d m k v) x = if x = k then v else smapGet d m x := by
  by_cases hx : x = k
  · subst hx; simp [smapGet_put_self d m x v h]
  · simp [hx, smapGet_put_other d m k x v hx]

/-! ### The canonical form -/

/-- A value that is listed reads back, in canonical form or not. -/
theorem smapGet_put_ne (d : α) (m : SMap α) (k : Nat) (v : α) (hv : v ≠ d) : smapGet d (smapPut d m k v) k = v := by
  induction m with
  | nil => simp [smapPut, smapGet, hv]
  | cons p r ih =>
    obtain ⟨a, w⟩ := p
    simp only [smapPut, hv, if_false]
    split
    · simp [smapGet]
    · split
      · simp [smapGet]
      · rename_i h1 h2; simp [smapGet, h2, ih]

omit [DecidableEq α] in
theorem smapAbove_mono (m : SMap α) (k l : Nat) (h : smapAbove k m = true) (hl : l ≤ k) :
    smapAbove l m = true := by
  induction m with
  | nil => rfl
  | cons p r ih =>
    obtain ⟨y, v⟩ := p
    simp only [smapAbove, Bool.and_eq_true, decide_eq_true_eq] at h ⊢
    exact ⟨by omega, ih h.2⟩

theorem smapAbove_put (d : α) (m : SMap α) (j k : Nat) (v : α) (h : smapAbove j m = true) (hk : j < k) :
    smapAbove j (smapPut d m k v) = true := by
  induction m with
  | nil => by_cases hv : v = d <;> simp [smapPut, smapAbove, hv, hk]
  | cons p r ih =>
    obtain ⟨y, w⟩ := p
    simp only [smapAbove, Bool.and_eq_true, decide_eq_true_eq] at h
    rcases Nat.lt_trichotomy k y with h1 | h1 | h1
    · by_cases hv : v = d <;> simp [smapPut, smapAbove, h1, hv, h.1, h.2, hk]
    · subst h1
      by_cases hv : v = d <;> simp [smapPut, smapAbove, hv, h.1, h.2]
    · have h2 : ¬ k < y := by omega
      have h3 : k ≠ y := by omega
      simp [smapPut, smapAbove, h2, h3, h.1, ih h.2]

theorem smapWf_put (d : α) (m : SMap α) (k : Nat) (v : α) (h : smapWf d m = true) :
    smapWf d (smapPut d m k v) = true := by
  induction m with
  | nil => by_cases hv : v = d <;> simp [smapPut, smapWf, smapAbove, hv]
  | cons p r ih =>
    obtain ⟨y, w⟩ := p
    have h0 := h
    simp only [smapWf, Bool.and_eq_true, decide_eq_true_eq] at h
    obtain ⟨⟨hw, ha⟩, hr⟩ := h
    rcases Nat.lt_trichotomy k y with h1 | h1 | h1
    · by_cases hv : v = d
      · simpa [smapPut, h1, hv] using h0
      · simp [smapPut, h1, hv, smapWf, smapAbove, hw, ha, hr, smapAbove_mono r y k ha (by omega)]
    · subst h1
      by_cases hv : v = d
      · simpa [smapPut, hv] using hr
      · simp [smapPut, hv, smapWf, ha, hr]
    · have h2 : ¬ k < y := by omega
      have h3 : k ≠ y := by omega
      simp [smapPut, smapWf, h2, h3, hw, ih hr, smapAbove_put d r y k v ha h1]

theorem smapWf_mod (d : α) (m : SMap α) (k : Nat) (f : α → α) (h : smapWf d m = true) :
    smapWf d (smapMod d m k f) = true := smapWf_put d m k _ h

theorem smapWf_putList (d : α) (l : List α) (m : SMap α) (k : Nat) (h : smapWf d m = true) :
    smapWf d (smapPutList d m k l) = true := by
  induction l generalizing m k with
  | nil => exact h
  | cons v r ih => exact ih _ _ (smapWf_put d m k v h)

/-- A list that is put down leaves every key outside it. -/
theorem smapGet_putList_other (d : α) (l : List α) (m : SMap α) (k x : Nat) (h : x < k ∨ k + l.length ≤ x) :
    smapGet d (smapPutList d m k l) x = smapGet d m x := by
  induction l generalizing m k with
  | nil => rfl
  | cons v r ih =>
    simp only [List.length_cons] at h
    rw [smapPutList, ih _ _ (by omega), smapGet_put_other _ _ _ _ _ (by omega)]

/-- Reading apart from the keys of a list that is put down. -/
theorem smapGetList_putList_other (d : α) (l : List α) (m : SMap α) (k a n : Nat) (h : a + n ≤ k ∨ k + l.length ≤ a) :
    smapGetList d (smapPutList d m k l) a n = smapGetList d m a n := by
  induction n generalizing a with
  | zero => rfl
  | succ n ih => rw [smapGetList, smapGetList, ih _ (by omega), smapGet_putList_other _ _ _ _ _ (by omega)]

/-- Reading back the list that has been put down. -/
theorem smapGetList_putList_self (d : α) (l : List α) (m : SMap α) (k : Nat) (h : smapWf d m = true) :
    smapGetList d (smapPutList d m k l) k l.length = l := by
  induction l generalizing m k with
  | nil => rfl
  | cons v r ih =>
    rw [List.length_cons, smapGetList, smapPutList, ih _ _ (smapWf_put _ _ _ _ h),
      smapGet_putList_other _ _ _ _ _ (by omega), smapGet_put_self _ _ _ _ h]

omit [DecidableEq α] in
theorem smapAbove_filter (m : SMap α) (k : Nat) (f : Nat × α → Bool) (h : smapAbove k m = true) :
    smapAbove k (m.filter f) = true := by
  induction m with
  | nil => rfl
  | cons p r ih =>
    obtain ⟨y, v⟩ := p
    simp only [smapAbove, Bool.and_eq_true, decide_eq_true_eq] at h
    by_cases hf : f (y, v) = true
    · simp [hf, smapAbove, h.1, ih h.2]
    · simp [hf, ih h.2]

theorem smapWf_filter (d : α) (m : SMap α) (f : Nat × α → Bool) (h : smapWf d m = true) :
    smapWf d (m.filter f) = true := by
  induction m with
  | nil => rfl
  | cons p r ih =>
    obtain ⟨y, v⟩ := p
    simp only [smapWf, Bool.and_eq_true, decide_eq_true_eq] at h
    by_cases hf : f (y, v) = true
    · simp [hf, smapWf, h.1.1, smapAbove_filter r y f h.1.2, ih h.2]
    · simp [hf, ih h.2]

theorem smapWf_drop (d : α) (m : SMap α) (lo hi : Nat) (h : smapWf d m = true) :
    smapWf d (smapDrop m lo hi) = true := smapWf_filter d m _ h

theorem smapAbove_map (d : α) (m : SMap α) (k : Nat) (f : α → α) (h : smapAbove k m = true) :
    smapAbove k (smapMap d f m) = true := by
  induction m with
  | nil => rfl
  | cons p r ih =>
    obtain ⟨y, v⟩ := p
    simp only [smapAbove, Bool.and_eq_true, decide_eq_true_eq] at h
    by_cases hf : f v = d
    · simp [smapMap, hf, ih h.2]
    · simp [smapMap, hf, smapAbove, h.1, ih h.2]

theorem smapWf_map (d : α) (m : SMap α) (f : α → α) (h : smapWf d m = true) :
    smapWf d (smapMap d f m) = true := by
  induction m with
  | nil => rfl
  | cons p r ih =>
    obtain ⟨y, v⟩ := p
    simp only [smapWf, Bool.and_eq_true, decide_eq_true_eq] at h
    by_cases hf : f v = d
    · simp [smapMap, hf, ih h.2]
    · simp [smapMap, hf, smapWf, smapAbove_map d r y f h.1.2, ih h.2]

end Sys2Proof.Laws
end

