-- ==== Sys2Proof/Laws/Memory.lean ====
section
/-! SUPPORT. Every operation on memory keeps its canonical form. -/

namespace Sys2Proof.Laws
open Sys2Proof.Machine

theorem memory_wf_iff (m : Memory) : m.wf = true ↔
    smapWf 0 m.bytes = true ∧ smapWf .unwritten m.marks = true ∧ smapWf false m.fresh = true ∧
      smapWf 0 m.host = true := by
  simp [Memory.wf, Bool.and_eq_true, and_assoc]

theorem putWord_wf (m : Memory) (w : Nat) (bs : List Byte) (mk : EccMark) (h : m.wf = true) :
    (putWord m w bs mk).wf = true := by
  rw [memory_wf_iff] at h ⊢
  obtain ⟨h1, h2, h3, h4⟩ := h
  refine ⟨smapWf_putList _ _ _ _ h1, smapWf_put _ _ _ _ h2, ?_, h4⟩
  by_cases he : isEngineStore (8 * w) = true
  · simpa [putWord, he] using smapWf_put _ _ _ _ h3
  · simpa [putWord, he] using h3

theorem putPiece_wf (m : Memory) (w off : Nat) (bs : List Byte) (h : m.wf = true) :
    (putPiece m w off bs).wf = true := by
  unfold putPiece
  split
  · exact putWord_wf m w bs _ h
  · split
    · exact h
    · exact putWord_wf m w _ _ h

theorem putBytes_wf (f : Nat) (m : Memory) (a : Nat) (bs : List Byte) (h : m.wf = true) :
    (putBytes f m a bs).wf = true := by
  induction f generalizing m a bs with
  | zero => exact h
  | succ f ih =>
    cases bs with
    | nil => exact h
    | cons b r => exact ih _ _ _ (putPiece_wf _ _ _ _ h)

theorem memory_put_wf (m : Memory) (a : Nat) (bs : List Byte) (h : m.wf = true) : (m.put a bs).wf = true :=
  putBytes_wf _ _ _ _ h

theorem poisonWord_wf (m : Memory) (w : Nat) (h : m.wf = true) : (poisonWord m w).wf = true :=
  putWord_wf _ _ _ _ h

theorem poisonWords_wf (l : List Nat) (m : Memory) (h : m.wf = true) : (l.foldl poisonWord m).wf = true := by
  induction l generalizing m with
  | nil => exact h
  | cons w r ih => exact ih _ (poisonWord_wf m w h)

theorem memory_marks_wf (m : Memory) (w : Nat) (k : EccMark) (h : m.wf = true) :
    ({ m with marks := smapPut .unwritten m.marks w k } : Memory).wf = true := by
  rw [memory_wf_iff] at h ⊢
  exact ⟨h.1, smapWf_put _ _ _ _ h.2.1, h.2.2⟩

/-- The words marked as written in this stroke keep the form. -/
theorem memory_fresh_wf (m : Memory) (l : List Nat) (h : m.wf = true) :
    ({ m with fresh := l.foldl (fun f w => smapPut false f w true) m.fresh } : Memory).wf = true := by
  induction l generalizing m with
  | nil => exact h
  | cons w r ih =>
    refine ih { m with fresh := smapPut false m.fresh w true } ?_
    rw [memory_wf_iff] at h ⊢
    exact ⟨h.1, h.2.1, smapWf_put _ _ _ _ h.2.2.1, h.2.2.2⟩

/-- The other words of the blocks that a write reaches (R394). -/
theorem wholeBlocks_wf (t : Bool) (a n : Nat) (m : Memory) (h : m.wf = true) : (wholeBlocks t a n m).wf = true := by
  unfold wholeBlocks
  split
  · generalize List.range (wordsOf a n) = l
    induction l generalizing m with
    | nil => exact h
    | cons i r ih =>
      refine ih _ ?_
      dsimp only
      split
      · exact memory_marks_wf _ _ _ h
      · exact h
  · exact h

theorem memory_host_wf (m : Memory) (a : Nat) (bs : List Byte) (h : m.wf = true) :
    ({ m with host := smapPutList 0 m.host a bs } : Memory).wf = true := by
  rw [memory_wf_iff] at h ⊢
  exact ⟨h.1, h.2.1, h.2.2.1, smapWf_putList _ _ _ _ h.2.2.2⟩

theorem memory_early_wf (m : Memory) (l : List EarlyWrite) (h : m.wf = true) :
    ({ m with early := l } : Memory).wf = true := h

theorem dropCluster_wf (m : Memory) (c : ClusterLoc) (h : m.wf = true) : (m.dropCluster c).wf = true := by
  rw [memory_wf_iff] at h ⊢
  exact ⟨smapWf_drop _ _ _ _ h.1, smapWf_drop _ _ _ _ h.2.1, smapWf_drop _ _ _ _ h.2.2.1, h.2.2.2⟩

theorem dropPlate_wf (m : Memory) (p : Nat) (h : m.wf = true) : (m.dropPlate p).wf = true := by
  rw [memory_wf_iff] at h ⊢
  exact ⟨smapWf_drop _ _ _ _ (smapWf_drop _ _ _ _ h.1), smapWf_drop _ _ _ _ (smapWf_drop _ _ _ _ h.2.1),
    smapWf_drop _ _ _ _ h.2.2.1, h.2.2.2⟩

theorem reset_memory_wf : State.reset.mem.wf = true := rfl

end Sys2Proof.Laws
end

