-- ==== Sys2Proof/Laws/Kept.lean ====
section
/-! SUPPORT. The frame `Kept` for changes of the state's fields, and for folds. -/

namespace Sys2Proof.Laws
open Sys2Proof.Machine

variable {k : List Instr × DWord × Option (BitVec 384) × BitVec 384}

section
variable {s : State}
    {x_boardTime : DWord} {x_timeValid : Bool} {x_refclk : DWord} {x_syncEnds : DWord} {x_clock : Nat} {x_works
    : List Work} {x_writes : List WriteDue} {x_deferred : List Deferral} {x_tailEvents : List TailEvent}
    {x_charges : List Charge} {x_norm : Option NormJob} {x_clip : ClipState} {x_markUpdates : List MarkUpdate}
    {x_remoteMarks : List RemoteMark} {x_seq : Seq} {x_recvs : List OpenRecv} {x_seamRetraining : Bool}
    {x_opened : List Record} {x_closed : List Record} {x_written : DWord} {x_msixPending : List Nat} {x_regs :
    Regs} {x_edition : Edition} {x_grain : Grain} {x_sec : Security} {x_mss : Mss} {x_freeCount : Nat}

theorem Kept.upd : Kept k (State.mk s.pending x_boardTime x_timeValid x_refclk x_syncEnds s.mem s.engines s.counts s.remaps
    s.nextRemaps s.gates s.clusterCounts s.stackCounts s.lanes s.picks s.windows s.stipples s.busy s.nextIssue
    s.taken x_clock x_works x_writes x_deferred x_tailEvents s.reports s.partials x_charges x_norm x_clip s.segE
    s.segMax x_markUpdates x_remoteMarks s.marks s.watches x_seq s.links x_recvs s.ports s.seam x_seamRetraining
    s.sourceSeq x_opened x_closed x_written s.rings s.msix x_msixPending s.gauges x_regs x_edition x_grain x_sec
    x_mss s.boot x_freeCount) ↔ Kept k s := Iff.rfl

theorem Kept.updBoot {b : Boot} (h : Kept k s) (hu : b.uniqueId = s.boot.uniqueId)
    (ho : b.ownerKeyDigest = s.boot.ownerKeyDigest) (hr : b.romDigest = s.boot.romDigest) :
    Kept k (State.mk s.pending x_boardTime x_timeValid x_refclk x_syncEnds s.mem s.engines s.counts s.remaps
    s.nextRemaps s.gates s.clusterCounts s.stackCounts s.lanes s.picks s.windows s.stipples s.busy s.nextIssue
    s.taken x_clock x_works x_writes x_deferred x_tailEvents s.reports s.partials x_charges x_norm x_clip s.segE
    s.segMax x_markUpdates x_remoteMarks s.marks s.watches x_seq s.links x_recvs s.ports s.seam x_seamRetraining
    s.sourceSeq x_opened x_closed x_written s.rings s.msix x_msixPending s.gauges x_regs x_edition x_grain x_sec
    x_mss b x_freeCount) := by
  obtain ⟨h1, h2⟩ := h
  exact ⟨by simpa [State.fixed, hu, ho, hr] using h1, h2⟩

theorem Kept.boot {b : Boot} (hu : b.uniqueId = s.boot.uniqueId)
    (ho : b.ownerKeyDigest = s.boot.ownerKeyDigest) (hr : b.romDigest = s.boot.romDigest) :
    Kept k (State.mk s.pending x_boardTime x_timeValid x_refclk x_syncEnds s.mem s.engines s.counts s.remaps
    s.nextRemaps s.gates s.clusterCounts s.stackCounts s.lanes s.picks s.windows s.stipples s.busy s.nextIssue
    s.taken x_clock x_works x_writes x_deferred x_tailEvents s.reports s.partials x_charges x_norm x_clip s.segE
    s.segMax x_markUpdates x_remoteMarks s.marks s.watches x_seq s.links x_recvs s.ports s.seam x_seamRetraining
    s.sourceSeq x_opened x_closed x_written s.rings s.msix x_msixPending s.gauges x_regs x_edition x_grain x_sec
    x_mss b x_freeCount) ↔ Kept k s := by
  simp [Kept, State.fixed, State.canonical, hu, ho, hr]

theorem Kept.updMem {m : Memory} (h : Kept k s) (hm : s.mem.wf = true → m.wf = true) :
    Kept k (State.mk s.pending x_boardTime x_timeValid x_refclk x_syncEnds m s.engines s.counts s.remaps s.nextRemaps
    s.gates s.clusterCounts s.stackCounts s.lanes s.picks s.windows s.stipples s.busy s.nextIssue s.taken
    x_clock x_works x_writes x_deferred x_tailEvents s.reports s.partials x_charges x_norm x_clip s.segE
    s.segMax x_markUpdates x_remoteMarks s.marks s.watches x_seq s.links x_recvs s.ports s.seam x_seamRetraining
    s.sourceSeq x_opened x_closed x_written s.rings s.msix x_msixPending s.gauges x_regs x_edition x_grain x_sec
    x_mss s.boot x_freeCount) := ⟨h.1, hm h.2.1, h.2.2⟩

theorem Kept.updMemBoot {m : Memory} {b : Boot} (h : Kept k s) (hu : b.uniqueId = s.boot.uniqueId)
    (ho : b.ownerKeyDigest = s.boot.ownerKeyDigest) (hr : b.romDigest = s.boot.romDigest)
    (hm : s.mem.wf = true → m.wf = true) :
    Kept k (State.mk s.pending x_boardTime x_timeValid x_refclk x_syncEnds m s.engines s.counts s.remaps s.nextRemaps
    s.gates s.clusterCounts s.stackCounts s.lanes s.picks s.windows s.stipples s.busy s.nextIssue s.taken
    x_clock x_works x_writes x_deferred x_tailEvents s.reports s.partials x_charges x_norm x_clip s.segE
    s.segMax x_markUpdates x_remoteMarks s.marks s.watches x_seq s.links x_recvs s.ports s.seam x_seamRetraining
    s.sourceSeq x_opened x_closed x_written s.rings s.msix x_msixPending s.gauges x_regs x_edition x_grain x_sec
    x_mss b x_freeCount) := by
  obtain ⟨h1, h2, h3⟩ := h
  exact ⟨by simpa [State.fixed, hu, ho, hr] using h1, hm h2, h3⟩

variable
    {x_engines : SMap Engine} {x_counts : SMap EngineCounts} {x_remaps : SMap Remap} {x_nextRemaps : SMap Remap}
    {x_gates : SMap Gate} {x_clusterCounts : SMap ClusterCounts} {x_stackCounts : SMap StackCounts} {x_lanes :
    SMap DWord} {x_picks : SMap PickEntry} {x_windows : SMap PickWin} {x_stipples : SMap Stipple} {x_busy : SMap
    Nat} {x_nextIssue : SMap Nat} {x_taken : SMap Nat} {x_reports : SMap Nat} {x_partials : SMap Word} {x_segE :
    SMap Int} {x_segMax : SMap (Option (Option Int))} {x_marks : SMap DWord} {x_watches : SMap Watch} {x_links :
    SMap Link} {x_ports : SMap Port} {x_seam : SMap SeamChan} {x_sourceSeq : SMap DWord} {x_rings : SMap Ring}
    {x_msix : SMap MsixEntry} {x_gauges : SMap Gauge}

/-- Every field may change, if what is held by number keeps its form. -/
theorem Kept.all {m : Memory} {b : Boot} (h : Kept k s) (hu : b.uniqueId = s.boot.uniqueId)
    (ho : b.ownerKeyDigest = s.boot.ownerKeyDigest) (hr : b.romDigest = s.boot.romDigest)
    (hm : s.mem.wf = true → m.wf = true)
    (h_engines : smapWf .empty s.engines = true → smapWf .empty x_engines = true)
    (h_counts : smapWf .zero s.counts = true → smapWf .zero x_counts = true)
    (h_remaps : smapWf .reset s.remaps = true → smapWf .reset x_remaps = true)
    (h_nextRemaps : smapWf .reset s.nextRemaps = true → smapWf .reset x_nextRemaps = true)
    (h_gates : smapWf .reset s.gates = true → smapWf .reset x_gates = true)
    (h_clusterCounts : smapWf .zero s.clusterCounts = true → smapWf .zero x_clusterCounts = true)
    (h_stackCounts : smapWf .zero s.stackCounts = true → smapWf .zero x_stackCounts = true)
    (h_lanes : smapWf 0 s.lanes = true → smapWf 0 x_lanes = true)
    (h_picks : smapWf .zero s.picks = true → smapWf .zero x_picks = true)
    (h_windows : smapWf .empty s.windows = true → smapWf .empty x_windows = true)
    (h_stipples : smapWf .empty s.stipples = true → smapWf .empty x_stipples = true)
    (h_busy : smapWf 0 s.busy = true → smapWf 0 x_busy = true)
    (h_nextIssue : smapWf 0 s.nextIssue = true → smapWf 0 x_nextIssue = true)
    (h_taken : smapWf 0 s.taken = true → smapWf 0 x_taken = true)
    (h_reports : smapWf 0 s.reports = true → smapWf 0 x_reports = true)
    (h_partials : smapWf 0 s.partials = true → smapWf 0 x_partials = true)
    (h_segE : smapWf 0 s.segE = true → smapWf 0 x_segE = true)
    (h_segMax : smapWf none s.segMax = true → smapWf none x_segMax = true)
    (h_marks : smapWf 0 s.marks = true → smapWf 0 x_marks = true)
    (h_watches : smapWf .reset s.watches = true → smapWf .reset x_watches = true)
    (h_links : smapWf .empty s.links = true → smapWf .empty x_links = true)
    (h_ports : smapWf .reset s.ports = true → smapWf .reset x_ports = true)
    (h_seam : smapWf .up s.seam = true → smapWf .up x_seam = true)
    (h_sourceSeq : smapWf 0 s.sourceSeq = true → smapWf 0 x_sourceSeq = true)
    (h_rings : smapWf .reset s.rings = true → smapWf .reset x_rings = true)
    (h_msix : smapWf .reset s.msix = true → smapWf .reset x_msix = true)
    (h_gauges : smapWf .reset s.gauges = true → smapWf .reset x_gauges = true) :
    Kept k (State.mk s.pending x_boardTime x_timeValid x_refclk x_syncEnds m x_engines x_counts x_remaps x_nextRemaps
    x_gates x_clusterCounts x_stackCounts x_lanes x_picks x_windows x_stipples x_busy x_nextIssue x_taken
    x_clock x_works x_writes x_deferred x_tailEvents x_reports x_partials x_charges x_norm x_clip x_segE
    x_segMax x_markUpdates x_remoteMarks x_marks x_watches x_seq x_links x_recvs x_ports x_seam x_seamRetraining
    x_sourceSeq x_opened x_closed x_written x_rings x_msix x_msixPending x_gauges x_regs x_edition x_grain x_sec
    x_mss b x_freeCount) := by
  obtain ⟨h1, h2, h3⟩ := h
  refine ⟨by simpa [State.fixed, hu, ho, hr] using h1, hm h2, ?_⟩
  simp only [State.canonical, Bool.and_eq_true] at h3 ⊢
  obtain ⟨⟨⟨⟨⟨⟨⟨⟨⟨⟨⟨⟨⟨⟨⟨⟨⟨⟨⟨⟨⟨⟨⟨⟨⟨⟨c0, c1⟩, c2⟩, c3⟩, c4⟩, c5⟩, c6⟩, c7⟩, c8⟩, c9⟩, c10⟩, c11⟩, c12⟩, c13⟩, c14⟩,
    c15⟩, c16⟩, c17⟩, c18⟩, c19⟩, c20⟩, c21⟩, c22⟩, c23⟩, c24⟩, c25⟩, c26⟩ := h3
  exact ⟨⟨⟨⟨⟨⟨⟨⟨⟨⟨⟨⟨⟨⟨⟨⟨⟨⟨⟨⟨⟨⟨⟨⟨⟨⟨h_engines c0, h_counts c1⟩, h_remaps c2⟩, h_nextRemaps c3⟩, h_gates c4⟩,
    h_clusterCounts c5⟩, h_stackCounts c6⟩, h_lanes c7⟩, h_picks c8⟩, h_windows c9⟩, h_stipples c10⟩, h_busy
    c11⟩, h_nextIssue c12⟩, h_taken c13⟩, h_reports c14⟩, h_partials c15⟩, h_segE c16⟩, h_segMax c17⟩, h_marks
    c18⟩, h_watches c19⟩, h_links c20⟩, h_ports c21⟩, h_seam c22⟩, h_sourceSeq c23⟩, h_rings c24⟩, h_msix c25⟩,
    h_gauges c26⟩
end

theorem kept_foldl {β : Type} {f : State → β → State} {s : State} {l : List β} (h : Kept k s)
    (hf : ∀ s b, Kept k s → Kept k (f s b)) : Kept k (l.foldl f s) := by
  induction l generalizing s with
  | nil => exact h
  | cons b r ih => exact ih (hf s b h)

/-- What every step of a fold keeps, the fold keeps. -/
theorem foldl_keeps {α β : Type} {P : α → Prop} {f : α → β → α} {z : α} {l : List β} (h : P z)
    (hf : ∀ z b, P z → P (f z b)) : P (l.foldl f z) := by
  induction l generalizing z with
  | nil => exact h
  | cons b r ih => exact ih (hf z b h)

theorem kept_foldl_snd {α β : Type} {f : α × State → β → α × State} {z : α × State} {l : List β} (h : Kept k z.2)
    (hf : ∀ z b, Kept k z.2 → Kept k (f z b).2) : Kept k (l.foldl f z).2 :=
  foldl_keeps (P := fun z : α × State => Kept k z.2) h hf

theorem kept_foldl_third {α γ β : Type} {f : α × γ × State → β → α × γ × State} {z : α × γ × State} {l : List β}
    (h : Kept k z.2.2) (hf : ∀ z b, Kept k z.2.2 → Kept k (f z b).2.2) : Kept k (l.foldl f z).2.2 :=
  foldl_keeps (P := fun z : α × γ × State => Kept k z.2.2) h hf

theorem smapWf_nil {α : Type} [DecidableEq α] (d : α) : smapWf d ([] : SMap α) = true := rfl

/-- A fold of writes keeps the form. -/
theorem smapWf_foldl_put {α β : Type} [DecidableEq α] {d : α} {m : SMap α} {l : List β} {g : β → Nat}
    {v : SMap α → β → α} (h : smapWf d m = true) :
    smapWf d (l.foldl (fun m b => smapPut d m (g b) (v m b)) m) = true :=
  foldl_keeps (P := fun m => smapWf d m = true) h fun _ _ h => smapWf_put _ _ _ _ h

theorem smapWf_foldl_mod {α β : Type} [DecidableEq α] {d : α} {m : SMap α} {l : List β} {g : β → Nat}
    {f : β → α → α} (h : smapWf d m = true) :
    smapWf d (l.foldl (fun m b => smapMod d m (g b) (f b)) m) = true :=
  foldl_keeps (P := fun m => smapWf d m = true) h fun _ _ h => smapWf_mod _ _ _ _ h

end Sys2Proof.Laws
end

