-- ==== Sys2Proof/Laws/KeptOps.lean ====
section
/-! SUPPORT. Every shared operation keeps the fixed part and the canonical form of memory. -/

namespace Sys2Proof.Laws
open Sys2Proof Sys2Proof.Machine

variable {k : List Instr × DWord × Option (BitVec 384) × BitVec 384}

theorem kept_State_setPort (x0 : State) (x1 : Nat) (x2 : Port) (h0 : Kept k x0) : Kept k (State.setPort x0 x1 x2) :=
    by
  unfold State.setPort
  repeat first
    | with_reducible first
      | assumption | apply kept_foldl | apply kept_foldl_snd | apply kept_foldl_third
    | with_reducible rfl | with_reducible exact fun h => h | with_reducible exact fun h => smapWf_put _ _ _ _ h
    | with_reducible exact fun h => smapWf_mod _ _ _ _ h | with_reducible exact fun h => smapWf_map _ _ _ h
    | with_reducible exact fun h => smapWf_drop _ _ _ _ h | exact fun h => smapWf_foldl_put h
    | exact fun h => smapWf_foldl_mod h | with_reducible exact fun _ => smapWf_nil _ | split | dsimp only
    | simp only [Kept.upd] | with_reducible apply Kept.all | intro _ | with_reducible refine And.intro ?_ ?_

theorem kept_State_setRing (x0 : State) (x1 : Nat) (x2 : Ring) (h0 : Kept k x0) : Kept k (State.setRing x0 x1 x2) :=
    by
  unfold State.setRing
  repeat first
    | with_reducible first
      | assumption | apply kept_foldl | apply kept_foldl_snd | apply kept_foldl_third
    | with_reducible rfl | with_reducible exact fun h => h | with_reducible exact fun h => smapWf_put _ _ _ _ h
    | with_reducible exact fun h => smapWf_mod _ _ _ _ h | with_reducible exact fun h => smapWf_map _ _ _ h
    | with_reducible exact fun h => smapWf_drop _ _ _ _ h | exact fun h => smapWf_foldl_put h
    | exact fun h => smapWf_foldl_mod h | with_reducible exact fun _ => smapWf_nil _ | split | dsimp only
    | simp only [Kept.upd] | with_reducible apply Kept.all | intro _ | with_reducible refine And.intro ?_ ?_

theorem kept_State_setStipple (x0 : State) (x1 : ClusterLoc) (x2 : Stipple) (h0 : Kept k x0) : Kept k
    (State.setStipple x0 x1 x2) := by
  unfold State.setStipple
  repeat first
    | with_reducible first
      | assumption | apply kept_foldl | apply kept_foldl_snd | apply kept_foldl_third
    | with_reducible rfl | with_reducible exact fun h => h | with_reducible exact fun h => smapWf_put _ _ _ _ h
    | with_reducible exact fun h => smapWf_mod _ _ _ _ h | with_reducible exact fun h => smapWf_map _ _ _ h
    | with_reducible exact fun h => smapWf_drop _ _ _ _ h | exact fun h => smapWf_foldl_put h
    | exact fun h => smapWf_foldl_mod h | with_reducible exact fun _ => smapWf_nil _ | split | dsimp only
    | simp only [Kept.upd] | with_reducible apply Kept.all | intro _ | with_reducible refine And.intro ?_ ?_

theorem kept_State_setBusy (x0 : State) (x1 : Nat) (x2 : Nat) (h0 : Kept k x0) : Kept k (State.setBusy x0 x1 x2) :=
    by
  unfold State.setBusy
  repeat first
    | with_reducible first
      | assumption | apply kept_foldl | apply kept_foldl_snd | apply kept_foldl_third
    | with_reducible rfl | with_reducible exact fun h => h | with_reducible exact fun h => smapWf_put _ _ _ _ h
    | with_reducible exact fun h => smapWf_mod _ _ _ _ h | with_reducible exact fun h => smapWf_map _ _ _ h
    | with_reducible exact fun h => smapWf_drop _ _ _ _ h | exact fun h => smapWf_foldl_put h
    | exact fun h => smapWf_foldl_mod h | with_reducible exact fun _ => smapWf_nil _ | split | dsimp only
    | simp only [Kept.upd] | with_reducible apply Kept.all | intro _ | with_reducible refine And.intro ?_ ?_

theorem kept_State_advanceTo (x0 : State) (x1 : Nat) (h0 : Kept k x0) : Kept k (State.advanceTo x0 x1) := by
  unfold State.advanceTo
  repeat first
    | with_reducible first
      | assumption
    | split | dsimp only | simp only [Kept.upd] | intro _

theorem kept_State_addRecord (x0 : State) (x1 : Record) (h0 : Kept k x0) : Kept k (State.addRecord x0 x1) := by
  unfold State.addRecord
  repeat first
    | with_reducible first
      | assumption | apply kept_foldl | apply kept_foldl_snd | apply kept_foldl_third
    | with_reducible rfl | with_reducible exact fun h => h | with_reducible exact fun h => smapWf_put _ _ _ _ h
    | with_reducible exact fun h => smapWf_mod _ _ _ _ h | with_reducible exact fun h => smapWf_map _ _ _ h
    | with_reducible exact fun h => smapWf_drop _ _ _ _ h | exact fun h => smapWf_foldl_put h
    | exact fun h => smapWf_foldl_mod h | with_reducible exact fun _ => smapWf_nil _ | split | dsimp only
    | simp only [Kept.upd] | with_reducible apply Kept.all | intro _ | with_reducible refine And.intro ?_ ?_

theorem kept_State_countEvent (x0 : State) (h0 : Kept k x0) : Kept k (State.countEvent x0) := by
  unfold State.countEvent
  repeat first
    | with_reducible first
      | assumption
    | split | dsimp only | simp only [Kept.upd] | intro _

theorem kept_State_mirrorOne (s : State) (e : LogEntry) (h : Kept k s) : Kept k (s.mirrorOne e) := by
  unfold State.mirrorOne
  exact Kept.updBoot h rfl rfl rfl

theorem kept_State_logEntry (x0 : State) (x1 : LogEntry) (h0 : Kept k x0) : Kept k (State.logEntry x0 x1) := by
  unfold State.logEntry
  repeat first
    | with_reducible first
      | assumption | apply kept_State_mirrorOne
    | split | dsimp only | simp only [Kept.upd] | intro _

theorem kept_State_logAppend (x0 : State) (x1 : Nat) (x2 : Nat) (x3 : Nat) (x4 : DWord) (x5 : DWord) (x6 : BitVec
    672) (h0 : Kept k x0) : Kept k (State.logAppend x0 x1 x2 x3 x4 x5 x6) := by
  unfold State.logAppend
  repeat first
    | with_reducible first
      | assumption | apply kept_State_logEntry
    | split | dsimp only | simp only [Kept.upd] | intro _

theorem kept_State_sendCpers (x0 : State) (h0 : Kept k x0) : Kept k (State.sendCpers x0) := by
  unfold State.sendCpers
  repeat first
    | with_reducible first
      | assumption
    | split | dsimp only | simp only [Kept.upd] | intro _

theorem kept_State_emitPlain (x0 : State) (x1 : Nat) (x2 : Nat) (x3 : BitVec 704) (h0 : Kept k x0) : Kept k
    (State.emitPlain x0 x1 x2 x3) := by
  unfold State.emitPlain
  repeat first
    | with_reducible first
      | assumption | apply kept_State_addRecord | apply kept_State_countEvent
    | split | dsimp only | simp only [Kept.upd] | intro _

theorem kept_State_emitFragments (x0 : State) (x1 : Cper) (h0 : Kept k x0) : Kept k (State.emitFragments x0 x1) :=
    by
  unfold State.emitFragments
  repeat first
    | with_reducible first
      | assumption | apply kept_State_emitPlain | apply kept_foldl | apply kept_foldl_snd
      | apply kept_foldl_third
    | split | dsimp only | simp only [Kept.upd] | intro _ | with_reducible refine And.intro ?_ ?_

theorem kept_State_cperFor (x0 : State) (x1 : Nat) (x2 : Nat) (x3 : DWord) (x4 : List Byte) (h0 : Kept k x0) : Kept
    k (State.cperFor x0 x1 x2 x3 x4) := by
  unfold State.cperFor
  repeat first
    | with_reducible first
      | assumption | apply kept_State_emitFragments | apply kept_State_sendCpers
    | split | dsimp only | simp only [Kept.upd] | intro _

theorem kept_State_takeCperDropped (x0 : State) (x1 : Nat) (x2 : Nat) (h0 : Kept k x0) : Kept k
    (State.takeCperDropped x0 x1 x2) := by
  unfold State.takeCperDropped
  repeat first
    | with_reducible first
      | assumption
    | split | dsimp only | simp only [Kept.upd] | intro _

theorem kept_State_logRecord (x0 : State) (x1 : Record) (h0 : Kept k x0) : Kept k (State.logRecord x0 x1) := by
  unfold State.logRecord
  repeat first
    | with_reducible first
      | assumption | apply kept_State_takeCperDropped | apply kept_State_logAppend | apply kept_State_cperFor
    | split | dsimp only | simp only [Kept.upd] | intro _

theorem kept_State_emitRaw (x0 : State) (x1 : Nat) (x2 : Nat) (x3 : BitVec 704) (h0 : Kept k x0) : Kept k
    (State.emitRaw x0 x1 x2 x3) := by
  unfold State.emitRaw
  repeat first
    | with_reducible first
      | assumption | apply kept_State_countEvent | apply kept_State_addRecord | apply kept_State_logRecord
    | split | dsimp only | simp only [Kept.upd] | intro _

theorem kept_State_emit (x0 : State) (x1 : Nat) (x2 : Nat) (x3 : List (Nat × Nat)) (h0 : Kept k x0) : Kept k
    (State.emit x0 x1 x2 x3) := by
  unfold State.emit
  repeat first
    | with_reducible first
      | assumption | apply kept_State_emitRaw
    | split | dsimp only | simp only [Kept.upd] | intro _

theorem kept_State_decide_ (x0 : State) (x1 : Nat) (x2 : List (Nat × Nat)) (h0 : Kept k x0) : Kept k (State.decide_
    x0 x1 x2) := by
  unfold State.decide_
  repeat first
    | with_reducible first
      | assumption | apply kept_State_takeCperDropped | apply kept_State_cperFor | apply kept_State_logEntry
    | split | dsimp only | simp only [Kept.upd] | intro _

theorem kept_State_pend (x0 : State) (x1 : Nat) (x2 : Nat) (x3 : Nat) (x4 : Nat) (x5 : List (Nat × Nat)) (x6 : Bool)
    (x7 : Nat) (h0 : Kept k x0) : Kept k (State.pend x0 x1 x2 x3 x4 x5 x6 x7) := by
  unfold State.pend
  repeat first
    | with_reducible first
      | assumption
    | split | dsimp only | simp only [Kept.upd] | intro _

theorem kept_State_raise (x0 : State) (x1 : Nat) (x2 : Nat) (x3 : Nat) (x4 : Nat) (x5 : List (Nat × Nat)) (x6 :
    Bool) (x7 : Nat) (h0 : Kept k x0) : Kept k (State.raise x0 x1 x2 x3 x4 x5 x6 x7) := by
  unfold State.raise
  repeat first
    | with_reducible first
      | assumption | apply kept_State_pend | apply kept_State_emit
    | split | dsimp only | simp only [Kept.upd] | intro _

theorem kept_State_countReport (x0 : State) (x1 : Nat) (x2 : Nat) (h0 : Kept k x0) : Kept k (State.countReport x0 x1
    x2) := by
  unfold State.countReport
  repeat first
    | with_reducible first
      | assumption | apply kept_foldl | apply kept_foldl_snd | apply kept_foldl_third
    | with_reducible rfl | with_reducible exact fun h => h | with_reducible exact fun h => smapWf_put _ _ _ _ h
    | with_reducible exact fun h => smapWf_mod _ _ _ _ h | with_reducible exact fun h => smapWf_map _ _ _ h
    | with_reducible exact fun h => smapWf_drop _ _ _ _ h | exact fun h => smapWf_foldl_put h
    | exact fun h => smapWf_foldl_mod h | with_reducible exact fun _ => smapWf_nil _ | split | dsimp only
    | simp only [Kept.upd] | with_reducible apply Kept.all | intro _ | with_reducible refine And.intro ?_ ?_

theorem kept_State_signal (s : State) (v : Nat) (h : Kept k s) : Kept k (s.signal v) := by
  unfold State.signal
  dsimp only
  split
  · split
    · exact h
    · exact Kept.upd.mpr h
  · exact Kept.updMem h fun hm => memory_host_wf _ _ _ hm

theorem kept_State_refuse (x0 : State) (x1 : Nat) (h0 : Kept k x0) : Kept k (State.refuse x0 x1) := by
  unfold State.refuse
  repeat first
    | with_reducible first
      | assumption
    | split | dsimp only | simp only [Kept.upd] | intro _

/-- A host write keeps what its effect keeps. -/
theorem kept_hostWr {f : State → State} {s : State} (hf : ∀ s, Kept k s → Kept k (f s)) (h : Kept k s) :
    ∀ t, hostWr f s = .next t → Kept k t := by
  intro t ht
  unfold hostWr at ht
  split at ht <;> injection ht with ht <;> subst ht
  · apply hf
    simp only [Kept.upd]
    exact h
  · exact h

theorem kept_State_freeByte (x0 : State) (h0 : Kept k x0) : Kept k (State.freeByte x0).2 := by
  unfold State.freeByte
  repeat first
    | with_reducible first
      | assumption
    | split | dsimp only | simp only [Kept.upd] | intro _

theorem kept_idle (x0 : State) (h0 : Kept k x0) : Kept k (idle x0) := by
  unfold idle
  repeat first
    | with_reducible first
      | assumption | apply kept_State_advanceTo
    | split | dsimp only | simp only [Kept.upd] | intro _

theorem kept_State_countCorrected (x0 : State) (x1 : Nat) (h0 : Kept k x0) : Kept k (State.countCorrected x0 x1) :=
    by
  unfold State.countCorrected
  repeat first
    | with_reducible first
      | assumption | apply kept_foldl | apply kept_foldl_snd | apply kept_foldl_third
    | with_reducible rfl | with_reducible exact fun h => h | with_reducible exact fun h => smapWf_put _ _ _ _ h
    | with_reducible exact fun h => smapWf_mod _ _ _ _ h | with_reducible exact fun h => smapWf_map _ _ _ h
    | with_reducible exact fun h => smapWf_drop _ _ _ _ h | exact fun h => smapWf_foldl_put h
    | exact fun h => smapWf_foldl_mod h | with_reducible exact fun _ => smapWf_nil _ | split | dsimp only
    | simp only [Kept.upd] | with_reducible apply Kept.all | intro _ | with_reducible refine And.intro ?_ ?_

theorem kept_State_noteCorrected (x0 : State) (x1 : Nat) (x2 : Nat) (x3 : Nat) (x4 : Nat) (h0 : Kept k x0) : Kept k
    (State.noteCorrected x0 x1 x2 x3 x4) := by
  unfold State.noteCorrected
  repeat first
    | with_reducible first
      | assumption | apply kept_State_countReport | apply kept_State_emit
    | split | dsimp only | simp only [Kept.upd] | intro _

theorem kept_State_reportCorrected (x0 : State) (x1 : Nat) (x2 : Nat) (h0 : Kept k x0) : Kept k
    (State.reportCorrected x0 x1 x2) := by
  unfold State.reportCorrected
  repeat first
    | with_reducible first
      | assumption | apply kept_State_noteCorrected | apply kept_State_countCorrected
    | split | dsimp only | simp only [Kept.upd] | intro _

theorem kept_State_notePoison (x0 : State) (x1 : StationRef) (x2 : Nat) (x3 : Nat) (x4 : Nat) (x5 : Nat) (x6 : Nat)
    (h0 : Kept k x0) : Kept k (State.notePoison x0 x1 x2 x3 x4 x5 x6) := by
  unfold State.notePoison
  repeat first
    | with_reducible first
      | assumption | apply kept_State_countReport | apply kept_State_raise
    | split | dsimp only | simp only [Kept.upd] | intro _

theorem kept_State_countPoison (x0 : State) (x1 : Nat) (h0 : Kept k x0) : Kept k (State.countPoison x0 x1) := by
  unfold State.countPoison
  repeat first
    | with_reducible first
      | assumption | apply kept_foldl | apply kept_foldl_snd | apply kept_foldl_third
    | with_reducible rfl | with_reducible exact fun h => h | with_reducible exact fun h => smapWf_put _ _ _ _ h
    | with_reducible exact fun h => smapWf_mod _ _ _ _ h | with_reducible exact fun h => smapWf_map _ _ _ h
    | with_reducible exact fun h => smapWf_drop _ _ _ _ h | exact fun h => smapWf_foldl_put h
    | exact fun h => smapWf_foldl_mod h | with_reducible exact fun _ => smapWf_nil _ | split | dsimp only
    | simp only [Kept.upd] | with_reducible apply Kept.all | intro _ | with_reducible refine And.intro ?_ ?_

theorem kept_State_reportPoison (x0 : State) (x1 : StationRef) (x2 : Nat) (x3 : Nat) (x4 : Nat) (h0 : Kept k x0) :
    Kept k (State.reportPoison x0 x1 x2 x3 x4) := by
  unfold State.reportPoison
  repeat first
    | with_reducible first
      | assumption | apply kept_State_notePoison | apply kept_State_countPoison | apply kept_foldl
      | apply kept_foldl_snd | apply kept_foldl_third
    | with_reducible rfl | with_reducible exact fun h => h | with_reducible exact fun h => smapWf_put _ _ _ _ h
    | with_reducible exact fun h => smapWf_mod _ _ _ _ h | with_reducible exact fun h => smapWf_map _ _ _ h
    | with_reducible exact fun h => smapWf_drop _ _ _ _ h | exact fun h => smapWf_foldl_put h
    | exact fun h => smapWf_foldl_mod h | with_reducible exact fun _ => smapWf_nil _ | split | dsimp only
    | simp only [Kept.upd] | with_reducible apply Kept.all | intro _ | with_reducible refine And.intro ?_ ?_

theorem kept_State_reportUnwritten (x0 : State) (x1 : StationRef) (x2 : Nat) (x3 : Nat) (h0 : Kept k x0) : Kept k
    (State.reportUnwritten x0 x1 x2 x3) := by
  unfold State.reportUnwritten
  repeat first
    | with_reducible first
      | assumption | apply kept_State_countReport | apply kept_State_emit
    | split | dsimp only | simp only [Kept.upd] | intro _

theorem kept_State_reportRead (x0 : State) (x1 : StationRef) (x2 : Nat) (x3 : Nat) (x4 : ReadData) (h0 : Kept k x0)
    : Kept k (State.reportRead x0 x1 x2 x3 x4) := by
  unfold State.reportRead
  repeat first
    | with_reducible first
      | assumption | apply kept_State_reportCorrected | apply kept_State_reportPoison
      | apply kept_State_reportUnwritten | apply kept_foldl | apply kept_foldl_snd | apply kept_foldl_third
    | split | dsimp only | simp only [Kept.upd] | intro _ | with_reducible refine And.intro ?_ ?_

theorem kept_State_rankRead (x0 : State) (x1 : StationRef) (x2 : Nat) (x3 : Nat) (x4 : Nat) (x5 : Nat) (x6 : Nat)
    (x7 : Nat) (h0 : Kept k x0) : Kept k (State.rankRead x0 x1 x2 x3 x4 x5 x6 x7).2 := by
  unfold State.rankRead
  repeat first
    | with_reducible first
      | assumption | apply kept_State_reportRead
    | split | dsimp only | simp only [Kept.upd] | intro _

theorem kept_State_stationRead (x0 : State) (x1 : StationRef) (x2 : Nat) (x3 : Nat) (x4 : Nat) (x5 : Nat) (x6 : Nat)
    (h0 : Kept k x0) : Kept k (State.stationRead x0 x1 x2 x3 x4 x5 x6).2 := by
  unfold State.stationRead
  repeat first
    | with_reducible first
      | assumption | apply kept_State_rankRead
    | split | dsimp only | simp only [Kept.upd] | intro _

theorem kept_State_descRead (x0 : State) (x1 : StationRef) (x2 : Nat) (x3 : Nat) (x4 : Nat) (x5 : Nat) (h0 : Kept k
    x0) : Kept k (State.descRead x0 x1 x2 x3 x4 x5).2 := by
  unfold State.descRead
  repeat first
    | with_reducible first
      | assumption | apply kept_State_stationRead
    | split | dsimp only | simp only [Kept.upd] | intro _

theorem kept_State_touched (x0 : State) (x1 : Nat) (x2 : Nat) (h0 : Kept k x0) : Kept k (State.touched x0 x1 x2) :=
    by
  unfold State.touched
  repeat first
    | with_reducible first
      | assumption
    | split | dsimp only | simp only [Kept.upd] | intro _

/-- Bytes that are placed keep memory in canonical form. -/
theorem kept_State_placeBytes (s : State) (w a : Nat) (bs : List Byte) (p : List Nat) (h : Kept k s) :
    Kept k (s.placeBytes w a bs p) := by
  unfold State.placeBytes
  dsimp only
  refine kept_foldl ?_ fun s x hs => kept_State_reportCorrected _ _ _ hs
  refine kept_State_touched _ _ _ (Kept.updMem h fun hm => ?_)
  exact wholeBlocks_wf _ _ _ _ (poisonWords_wf _ _ (memory_put_wf _ _ _ hm))

theorem kept_State_keeping (s : State) (c : Int) (a n : Nat) (h : Kept k s) : Kept k (s.keeping c a n) :=
  Kept.updMem h fun hm => hm

/-- A write that is taken keeps memory in canonical form. -/
theorem kept_State_takeWrite (s : State) (w : WriteDue) (h : Kept k s) : Kept k (s.takeWrite w) := by
  unfold State.takeWrite
  split
  · exact h
  · exact kept_State_placeBytes _ _ _ _ _ (kept_State_keeping _ _ _ _ h)

theorem kept_State_writeParts (x0 : State) (x1 : Nat) (x2 : Nat) (x3 : List Byte) (x4 : List Nat) (x5 : List Served)
    (h0 : Kept k x0) : Kept k (State.writeParts x0 x1 x2 x3 x4 x5) := by
  unfold State.writeParts
  repeat first
    | with_reducible first
      | assumption
    | split | dsimp only | simp only [Kept.upd] | intro _

theorem kept_State_stationWrite (x0 : State) (x1 : StationRef) (x2 : Nat) (x3 : Nat) (x4 : List Byte) (x5 : List
    Nat) (h0 : Kept k x0) : Kept k (State.stationWrite x0 x1 x2 x3 x4 x5) := by
  unfold State.stationWrite
  repeat first
    | with_reducible first
      | assumption | apply kept_State_writeParts
    | split | dsimp only | simp only [Kept.upd] | intro _

theorem kept_State_outsideWrite (s : State) (w a : Nat) (bs : List Byte) (h : Kept k s) :
    Kept k (s.outsideWrite w a bs) := by
  unfold State.outsideWrite
  split
  · exact kept_State_placeBytes _ _ _ _ _ (kept_foldl h fun _ _ hs => kept_State_keeping _ _ _ _ hs)
  · exact kept_State_placeBytes _ _ _ _ _ h

theorem kept_State_setEng (x0 : State) (x1 : Who) (x2 : Engine) (h0 : Kept k x0) : Kept k (State.setEng x0 x1 x2) :=
    by
  unfold State.setEng
  repeat first
    | with_reducible first
      | assumption | apply kept_foldl | apply kept_foldl_snd | apply kept_foldl_third
    | with_reducible rfl | with_reducible exact fun h => h | with_reducible exact fun h => smapWf_put _ _ _ _ h
    | with_reducible exact fun h => smapWf_mod _ _ _ _ h | with_reducible exact fun h => smapWf_map _ _ _ h
    | with_reducible exact fun h => smapWf_drop _ _ _ _ h | exact fun h => smapWf_foldl_put h
    | exact fun h => smapWf_foldl_mod h | with_reducible exact fun _ => smapWf_nil _ | split | dsimp only
    | simp only [Kept.upd] | with_reducible apply Kept.all | intro _ | with_reducible refine And.intro ?_ ?_

theorem kept_State_forBoth {s : State} {e : EngineLoc} {f : Who → State → State} (h : Kept k s)
    (hf : ∀ w s, Kept k s → Kept k (f w s)) : Kept k (s.forBoth e f) := by
  unfold State.forBoth
  apply hf
  split
  · exact hf _ _ h
  · exact h

theorem kept_State_whoRead (x0 : State) (x1 : Who) (x2 : StationRef) (x3 : Nat) (x4 : Nat) (x5 : Nat) (x6 : Nat) (x7
    : Nat) (x8 : Nat) (h0 : Kept k x0) : Kept k (State.whoRead x0 x1 x2 x3 x4 x5 x6 x7 x8).2 := by
  unfold State.whoRead
  repeat first
    | with_reducible first
      | assumption | apply kept_State_reportRead
    | split | dsimp only | simp only [Kept.upd] | intro _

theorem kept_State_checkItem (x0 : State) (x1 : Who) (x2 : CheckItem) (h0 : Kept k x0) : Kept k (State.checkItem x0
    x1 x2) := by
  unfold State.checkItem
  repeat first
    | with_reducible first
      | assumption
    | split | dsimp only | simp only [Kept.upd] | intro _

theorem kept_State_issued (x0 : State) (x1 : StationRef) (x2 : Issue) (h0 : Kept k x0) : Kept k (State.issued x0 x1
    x2) := by
  unfold State.issued
  repeat first
    | with_reducible first
      | assumption | apply kept_foldl | apply kept_foldl_snd | apply kept_foldl_third
    | with_reducible rfl | with_reducible exact fun h => h | with_reducible exact fun h => smapWf_put _ _ _ _ h
    | with_reducible exact fun h => smapWf_mod _ _ _ _ h | with_reducible exact fun h => smapWf_map _ _ _ h
    | with_reducible exact fun h => smapWf_drop _ _ _ _ h | exact fun h => smapWf_foldl_put h
    | exact fun h => smapWf_foldl_mod h | with_reducible exact fun _ => smapWf_nil _ | split | dsimp only
    | simp only [Kept.upd] | with_reducible apply Kept.all | intro _ | with_reducible refine And.intro ?_ ?_

theorem kept_State_plan (x0 : State) (x1 : StationRef) (x2 : Nat) (x3 : Nat) (x4 : Job) (h0 : Kept k x0) : Kept k
    (State.plan x0 x1 x2 x3 x4) := by
  unfold State.plan
  repeat first
    | with_reducible first
      | assumption
    | split | dsimp only | simp only [Kept.upd] | intro _

theorem kept_State_addDrainBubbles (x0 : State) (x1 : EngineLoc) (x2 : Nat) (h0 : Kept k x0) : Kept k
    (State.addDrainBubbles x0 x1 x2) := by
  unfold State.addDrainBubbles
  repeat first
    | with_reducible first
      | assumption | apply kept_foldl | apply kept_foldl_snd | apply kept_foldl_third
    | with_reducible rfl | with_reducible exact fun h => h | with_reducible exact fun h => smapWf_put _ _ _ _ h
    | with_reducible exact fun h => smapWf_mod _ _ _ _ h | with_reducible exact fun h => smapWf_map _ _ _ h
    | with_reducible exact fun h => smapWf_drop _ _ _ _ h | exact fun h => smapWf_foldl_put h
    | exact fun h => smapWf_foldl_mod h | with_reducible exact fun _ => smapWf_nil _ | split | dsimp only
    | simp only [Kept.upd] | with_reducible apply Kept.all | intro _ | with_reducible refine And.intro ?_ ?_

theorem kept_State_addSaturations (x0 : State) (x1 : EngineLoc) (x2 : Nat) (h0 : Kept k x0) : Kept k
    (State.addSaturations x0 x1 x2) := by
  unfold State.addSaturations
  repeat first
    | with_reducible first
      | assumption | apply kept_foldl | apply kept_foldl_snd | apply kept_foldl_third
    | with_reducible rfl | with_reducible exact fun h => h | with_reducible exact fun h => smapWf_put _ _ _ _ h
    | with_reducible exact fun h => smapWf_mod _ _ _ _ h | with_reducible exact fun h => smapWf_map _ _ _ h
    | with_reducible exact fun h => smapWf_drop _ _ _ _ h | exact fun h => smapWf_foldl_put h
    | exact fun h => smapWf_foldl_mod h | with_reducible exact fun _ => smapWf_nil _ | split | dsimp only
    | simp only [Kept.upd] | with_reducible apply Kept.all | intro _ | with_reducible refine And.intro ?_ ?_

theorem kept_State_addStoreWaits (x0 : State) (x1 : EngineLoc) (x2 : Nat) (h0 : Kept k x0) : Kept k
    (State.addStoreWaits x0 x1 x2) := by
  unfold State.addStoreWaits
  repeat first
    | with_reducible first
      | assumption | apply kept_foldl | apply kept_foldl_snd | apply kept_foldl_third
    | with_reducible rfl | with_reducible exact fun h => h | with_reducible exact fun h => smapWf_put _ _ _ _ h
    | with_reducible exact fun h => smapWf_mod _ _ _ _ h | with_reducible exact fun h => smapWf_map _ _ _ h
    | with_reducible exact fun h => smapWf_drop _ _ _ _ h | exact fun h => smapWf_foldl_put h
    | exact fun h => smapWf_foldl_mod h | with_reducible exact fun _ => smapWf_nil _ | split | dsimp only
    | simp only [Kept.upd] | with_reducible apply Kept.all | intro _ | with_reducible refine And.intro ?_ ?_

theorem kept_State_advanceLane (x0 : State) (x1 : Nat) (h0 : Kept k x0) : Kept k (State.advanceLane x0 x1) := by
  unfold State.advanceLane
  repeat first
    | with_reducible first
      | assumption | apply kept_foldl | apply kept_foldl_snd | apply kept_foldl_third
    | with_reducible rfl | with_reducible exact fun h => h | with_reducible exact fun h => smapWf_put _ _ _ _ h
    | with_reducible exact fun h => smapWf_mod _ _ _ _ h | with_reducible exact fun h => smapWf_map _ _ _ h
    | with_reducible exact fun h => smapWf_drop _ _ _ _ h | exact fun h => smapWf_foldl_put h
    | exact fun h => smapWf_foldl_mod h | with_reducible exact fun _ => smapWf_nil _ | split | dsimp only
    | simp only [Kept.upd] | with_reducible apply Kept.all | intro _ | with_reducible refine And.intro ?_ ?_

theorem kept_State_rowDraws (x0 : State) (x1 : Who) (h0 : Kept k x0) : Kept k (State.rowDraws x0 x1).2 := by
  unfold State.rowDraws
  repeat first
    | with_reducible first
      | assumption | apply kept_State_setEng | apply kept_State_advanceLane | apply kept_foldl
      | apply kept_foldl_snd | apply kept_foldl_third
    | split | dsimp only | simp only [Kept.upd] | intro _ | with_reducible refine And.intro ?_ ?_

theorem kept_State_gaugeBreach (x0 : State) (x1 : EngineLoc) (x2 : Nat) (x3 : Nat) (x4 : Nat) (x5 : Nat) (x6 : Nat)
    (x7 : Nat) (x8 : Word) (h0 : Kept k x0) : Kept k (State.gaugeBreach x0 x1 x2 x3 x4 x5 x6 x7 x8) := by
  unfold State.gaugeBreach
  repeat first
    | with_reducible first
      | assumption | apply kept_State_countReport | apply kept_State_emit | apply kept_State_pend
    | split | dsimp only | simp only [Kept.upd] | intro _

theorem kept_State_addTile (x0 : State) (x1 : Nat) (x2 : Nat) (x3 : List Byte) (h0 : Kept k x0) : Kept k
    (State.addTile x0 x1 x2 x3) := by
  unfold State.addTile
  repeat first
    | with_reducible first
      | assumption
    | split | dsimp only | simp only [Kept.upd] | intro _

theorem kept_State_settleCharges (x0 : State) (x1 : Nat) (h0 : Kept k x0) : Kept k (State.settleCharges x0 x1) := by
  unfold State.settleCharges
  repeat first
    | with_reducible first
      | assumption | apply kept_foldl | apply kept_foldl_snd | apply kept_foldl_third
    | with_reducible rfl | with_reducible exact fun h => h | with_reducible exact fun h => smapWf_put _ _ _ _ h
    | with_reducible exact fun h => smapWf_mod _ _ _ _ h | with_reducible exact fun h => smapWf_map _ _ _ h
    | with_reducible exact fun h => smapWf_drop _ _ _ _ h | exact fun h => smapWf_foldl_put h
    | exact fun h => smapWf_foldl_mod h | with_reducible exact fun _ => smapWf_nil _ | split | dsimp only
    | simp only [Kept.upd] | with_reducible apply Kept.all | intro _ | with_reducible refine And.intro ?_ ?_

end Sys2Proof.Laws
end

