-- ==== Sys2Proof/Laws/KeptLinks.lean ====
section
/-! SUPPORT. What the links, the rings, the cells, the plates and the steps share keeps them. -/

namespace Sys2Proof.Laws
open Sys2Proof Sys2Proof.Machine

variable {k : List Instr × DWord × Option (BitVec 384) × BitVec 384}

theorem kept_State_setLink (x0 : State) (x1 : LinkRef) (x2 : Link) (h0 : Kept k x0) : Kept k (State.setLink x0 x1
    x2) := by
  unfold State.setLink
  repeat first
    | with_reducible first
      | assumption | apply kept_foldl | apply kept_foldl_snd | apply kept_foldl_third
    | with_reducible rfl | with_reducible exact fun h => h | with_reducible exact fun h => smapWf_put _ _ _ _ h
    | with_reducible exact fun h => smapWf_mod _ _ _ _ h | with_reducible exact fun h => smapWf_map _ _ _ h
    | with_reducible exact fun h => smapWf_drop _ _ _ _ h | exact fun h => smapWf_foldl_put h
    | exact fun h => smapWf_foldl_mod h | with_reducible exact fun _ => smapWf_nil _ | split | dsimp only
    | simp only [Kept.upd] | with_reducible apply Kept.all | intro _ | with_reducible refine And.intro ?_ ?_

/-- Flits that leave keep what a changed link keeps. -/
theorem kept_pumpData (f : Nat) (p : Fin 16) (s : State) (h : Kept k s) : Kept k (pumpData f p s) := by
  induction f generalizing s with
  | zero => exact h
  | succ f ih =>
    unfold pumpData
    dsimp only
    split
    · exact h
    · split
      · split
        · exact ih _ (kept_State_setLink _ _ _ h)
        · exact h
      · exact h

theorem kept_pumpCtrl (f : Nat) (p : Fin 16) (s : State) (h : Kept k s) : Kept k (pumpCtrl f p s) := by
  induction f generalizing s with
  | zero => exact h
  | succ f ih =>
    unfold pumpCtrl
    dsimp only
    split
    · exact h
    · split
      · exact ih _ (kept_State_setLink _ _ _ h)
      · exact h

theorem kept_State_pumpLink (x0 : State) (x1 : Fin 16) (h0 : Kept k x0) : Kept k (State.pumpLink x0 x1) := by
  unfold State.pumpLink
  repeat first
    | with_reducible first
      | assumption | apply kept_pumpCtrl | apply kept_pumpData
    | split | dsimp only | simp only [Kept.upd] | intro _

theorem kept_State_sendCtrl (x0 : State) (x1 : Fin 16) (x2 : Nat) (x3 : Nat) (x4 : List Byte) (h0 : Kept k x0) :
    Kept k (State.sendCtrl x0 x1 x2 x3 x4) := by
  unfold State.sendCtrl
  repeat first
    | with_reducible first
      | assumption | apply kept_State_pumpLink | apply kept_State_setLink
    | split | dsimp only | simp only [Kept.upd] | intro _

theorem kept_State_sendToRole (x0 : State) (x1 : Nat) (x2 : Nat) (x3 : List Byte) (h0 : Kept k x0) : Kept k
    (State.sendToRole x0 x1 x2 x3) := by
  unfold State.sendToRole
  repeat first
    | with_reducible first
      | assumption | apply kept_State_sendCtrl
    | split | dsimp only | simp only [Kept.upd] | intro _

theorem kept_State_sendToAll (x0 : State) (x1 : Nat) (x2 : List Byte) (h0 : Kept k x0) : Kept k (State.sendToAll x0
    x1 x2) := by
  unfold State.sendToAll
  repeat first
    | with_reducible first
      | assumption | apply kept_State_sendToRole | apply kept_foldl | apply kept_foldl_snd
      | apply kept_foldl_third
    | split | dsimp only | simp only [Kept.upd] | intro _ | with_reducible refine And.intro ?_ ?_

theorem kept_State_staleFlit (x0 : State) (x1 : Fin 16) (x2 : FlitHeader) (x3 : Nat) (h0 : Kept k x0) : Kept k
    (State.staleFlit x0 x1 x2 x3) := by
  unfold State.staleFlit
  repeat first
    | with_reducible first
      | assumption | apply kept_State_setPort | apply kept_State_sendCtrl | apply kept_State_emit
    | split | dsimp only | simp only [Kept.upd] | intro _

theorem kept_State_landPieces (x0 : State) (x1 : StationRef) (x2 : Nat) (x3 : List Byte) (x4 : List Nat) (x5 : Nat)
    (x6 : List Served) (h0 : Kept k x0) : Kept k (State.landPieces x0 x1 x2 x3 x4 x5 x6) := by
  unfold State.landPieces
  repeat first
    | with_reducible first
      | assumption | apply kept_State_takeWrite | apply kept_foldl | apply kept_foldl_snd
      | apply kept_foldl_third
    | split | dsimp only | simp only [Kept.upd] | intro _ | with_reducible refine And.intro ?_ ?_

theorem kept_State_addElement (x0 : OpenRecv) (x1 : State) (x2 : Nat) (h1 : Kept k x1) : Kept k (State.addElement x0
    x1 x2).2 := by
  unfold State.addElement
  repeat first
    | with_reducible first
      | assumption | apply kept_State_landPieces | apply kept_State_reportRead
    | split | dsimp only | simp only [Kept.upd] | intro _

theorem kept_State_recvFlit (x0 : State) (x1 : OpenRecv) (x2 : Nat) (x3 : Flit) (h0 : Kept k x0) : Kept k
    (State.recvFlit x0 x1 x2 x3).2 := by
  unfold State.recvFlit
  repeat first
    | with_reducible first
      | assumption | apply kept_State_landPieces | apply kept_State_addElement | apply kept_foldl
      | apply kept_foldl_snd | apply kept_foldl_third
    | split | dsimp only | simp only [Kept.upd] | intro _ | with_reducible refine And.intro ?_ ?_

theorem kept_State_offerFlit (x0 : State) (x1 : LinkRef) (x2 : Flit) (h0 : Kept k x0) : Kept k (State.offerFlit x0
    x1 x2) := by
  unfold State.offerFlit
  repeat first
    | with_reducible first
      | assumption | apply kept_State_setLink | apply kept_State_recvFlit
    | split | dsimp only | simp only [Kept.upd] | intro _

theorem kept_State_offerBuffered (x0 : State) (x1 : LinkRef) (h0 : Kept k x0) : Kept k (State.offerBuffered x0 x1)
    := by
  unfold State.offerBuffered
  repeat first
    | with_reducible first
      | assumption | apply kept_State_offerFlit | apply kept_State_setLink | apply kept_foldl
      | apply kept_foldl_snd | apply kept_foldl_third
    | split | dsimp only | simp only [Kept.upd] | intro _ | with_reducible refine And.intro ?_ ?_

theorem kept_State_landData (x0 : State) (x1 : LinkRef) (x2 : FlitHeader) (x3 : Nat → List Byte) (h0 : Kept k x0) :
    Kept k (State.landData x0 x1 x2 x3) := by
  unfold State.landData
  repeat first
    | with_reducible first
      | assumption | apply kept_State_setLink | apply kept_State_staleFlit | apply kept_State_offerFlit
    | split | dsimp only | simp only [Kept.upd] | intro _

theorem kept_State_acceptCtrl (x0 : State) (x1 : LinkRef) (x2 : FlitHeader) (h0 : Kept k x0) : Kept k
    (State.acceptCtrl x0 x1 x2).2 := by
  unfold State.acceptCtrl
  repeat first
    | with_reducible first
      | assumption | apply kept_State_setLink | apply kept_State_staleFlit
    | split | dsimp only | simp only [Kept.upd] | intro _

theorem kept_State_seamCross (x0 : State) (x1 : Fin 2) (x2 : Fin 48) (x3 : Flit) (h0 : Kept k x0) : Kept k
    (State.seamCross x0 x1 x2 x3) := by
  unfold State.seamCross
  repeat first
    | with_reducible first
      | assumption | apply kept_State_landData | apply kept_State_setLink
    | split | dsimp only | simp only [Kept.upd] | intro _

theorem kept_State_seamSend (x0 : State) (x1 : Fin 2) (x2 : Fin 48) (x3 : FlitHeader) (x4 : List Byte) (h0 : Kept k
    x0) : Kept k (State.seamSend x0 x1 x2 x3 x4) := by
  unfold State.seamSend
  repeat first
    | with_reducible first
      | assumption | apply kept_State_seamCross | apply kept_State_setLink
    | split | dsimp only | simp only [Kept.upd] | intro _

theorem kept_State_kazinSend (x0 : State) (x1 : Fin 16) (x2 : FlitHeader) (x3 : List Byte) (h0 : Kept k x0) : Kept k
    (State.kazinSend x0 x1 x2 x3) := by
  unfold State.kazinSend
  repeat first
    | with_reducible first
      | assumption | apply kept_State_pumpLink | apply kept_State_setLink
    | split | dsimp only | simp only [Kept.upd] | intro _

theorem kept_State_sealSync (x0 : State) (h0 : Kept k x0) : Kept k (State.sealSync x0) := by
  unfold State.sealSync
  repeat first
    | with_reducible first
      | assumption
    | split | dsimp only | simp only [Kept.upd] | intro _

theorem kept_State_sealSegment (x0 : State) (x1 : SealUser) (h0 : Kept k x0) : Kept k (State.sealSegment x0 x1) :=
    by
  unfold State.sealSegment
  repeat first
    | with_reducible first
      | assumption
    | split | dsimp only | simp only [Kept.upd] | intro _

theorem kept_State_securityRefusal (x0 : State) (x1 : Nat) (h0 : Kept k x0) : Kept k (State.securityRefusal x0 x1)
    := by
  unfold State.securityRefusal
  repeat first
    | with_reducible first
      | assumption | apply kept_State_emit
    | split | dsimp only | simp only [Kept.upd] | intro _

theorem kept_State_loadKeyStore (x0 : State) (h0 : Kept k x0) : Kept k (State.loadKeyStore x0) := by
  unfold State.loadKeyStore
  repeat first
    | with_reducible first
      | assumption | apply kept_State_emit
    | split | dsimp only | simp only [Kept.upd] | intro _

theorem kept_State_loadFloors (x0 : State) (h0 : Kept k x0) : Kept k (State.loadFloors x0) := by
  unfold State.loadFloors
  repeat first
    | with_reducible first
      | assumption | apply kept_foldl | apply kept_foldl_snd | apply kept_foldl_third
    | split | dsimp only | simp only [Kept.upd] | simp only [Kept.boot] | intro _ | with_reducible rfl

theorem kept_State_raiseFloors (x0 : State) (x1 : Nat) (x2 : Nat) (h0 : Kept k x0) : Kept k (State.raiseFloors x0 x1
    x2) := by
  unfold State.raiseFloors
  repeat first
    | with_reducible first
      | assumption | apply kept_State_emit | apply kept_foldl | apply kept_foldl_snd | apply kept_foldl_third
    | split | dsimp only | simp only [Kept.upd] | simp only [Kept.boot] | intro _ | with_reducible rfl

theorem kept_State_appendBoot (x0 : State) (x1 : BootEntry) (h0 : Kept k x0) : Kept k (State.appendBoot x0 x1) := by
  unfold State.appendBoot
  repeat first
    | with_reducible first
      | assumption | apply kept_foldl | apply kept_foldl_snd | apply kept_foldl_third
    | split | dsimp only | simp only [Kept.upd] | simp only [Kept.boot] | intro _ | with_reducible rfl

theorem kept_State_hostWrite (s : State) (a : Nat) (bs : List Byte) (h : Kept k s) : Kept k (s.hostWrite a bs) :=
  Kept.updMem h fun hm => memory_host_wf _ _ _ hm

theorem kept_State_ringTo (x0 : State) (x1 : Nat) (x2 : RingState) (h0 : Kept k x0) : Kept k (State.ringTo x0 x1 x2)
    := by
  unfold State.ringTo
  repeat first
    | with_reducible first
      | assumption | apply kept_State_emit | apply kept_State_setRing
    | split | dsimp only | simp only [Kept.upd] | intro _

theorem kept_State_ringError (x0 : State) (x1 : Nat) (x2 : Nat) (x3 : List (Nat × Nat)) (h0 : Kept k x0) : Kept k
    (State.ringError x0 x1 x2 x3) := by
  unfold State.ringError
  repeat first
    | with_reducible first
      | assumption | apply kept_State_emit | apply kept_State_ringTo
    | split | dsimp only | simp only [Kept.upd] | intro _

theorem kept_State_ringBusError (x0 : State) (x1 : Nat) (x2 : DWord) (h0 : Kept k x0) : Kept k (State.ringBusError
    x0 x1 x2) := by
  unfold State.ringBusError
  repeat first
    | with_reducible first
      | assumption | apply kept_State_ringError
    | split | dsimp only | simp only [Kept.upd] | intro _

theorem kept_State_ringAccessed (x0 : State) (x1 : Nat) (x2 : Option DWord) (h0 : Kept k x0) : Kept k
    (State.ringAccessed x0 x1 x2) := by
  unfold State.ringAccessed
  repeat first
    | with_reducible first
      | assumption | apply kept_State_ringBusError
    | split | dsimp only | simp only [Kept.upd] | intro _

theorem kept_State_ringSignal (x0 : State) (x1 : Nat) (h0 : Kept k x0) : Kept k (State.ringSignal x0 x1) := by
  unfold State.ringSignal
  repeat first
    | with_reducible first
      | assumption | apply kept_State_signal | apply kept_State_setRing
    | split | dsimp only | simp only [Kept.upd] | intro _

theorem kept_State_ringVisible (x0 : State) (x1 : Nat) (h0 : Kept k x0) : Kept k (State.ringVisible x0 x1) := by
  unfold State.ringVisible
  repeat first
    | with_reducible first
      | assumption | apply kept_State_setRing | apply kept_State_ringSignal
    | split | dsimp only | simp only [Kept.upd] | intro _

theorem kept_State_ringAdvance (x0 : State) (x1 : Nat) (h0 : Kept k x0) : Kept k (State.ringAdvance x0 x1) := by
  unfold State.ringAdvance
  repeat first
    | with_reducible first
      | assumption | apply kept_State_ringVisible | apply kept_State_hostWrite | apply kept_State_setRing
    | split | dsimp only | simp only [Kept.upd] | intro _

theorem kept_State_putRecord (x0 : State) (x1 : Nat) (x2 : Record) (h0 : Kept k x0) : Kept k (State.putRecord x0 x1
    x2) := by
  unfold State.putRecord
  repeat first
    | with_reducible first
      | assumption | apply kept_State_ringAdvance | apply kept_State_hostWrite
    | split | dsimp only | simp only [Kept.upd] | intro _

theorem kept_State_readSeed (x0 : State) (x1 : Bool) (h0 : Kept k x0) : Kept k (State.readSeed x0 x1) := by
  unfold State.readSeed
  repeat first
    | with_reducible first
      | assumption | apply kept_State_ringBusError
    | split | dsimp only | simp only [Kept.upd] | intro _

theorem kept_State_takeSeed (x0 : State) (x1 : Nat) (h0 : Kept k x0) : Kept k (State.takeSeed x0 x1) := by
  unfold State.takeSeed
  repeat first
    | with_reducible first
      | assumption | apply kept_State_ringAdvance
    | split | dsimp only | simp only [Kept.upd] | intro _

theorem kept_State_logSeed (x0 : State) (x1 : Nat) (h0 : Kept k x0) : Kept k (State.logSeed x0 x1) := by
  unfold State.logSeed
  repeat first
    | with_reducible first
      | assumption | apply kept_State_logAppend
    | split | dsimp only | simp only [Kept.upd] | intro _

theorem kept_State_seedFor (x0 : State) (x1 : Nat) (x2 : Bool) (h0 : Kept k x0) : Kept k (State.seedFor x0 x1 x2) :=
    by
  unfold State.seedFor
  repeat first
    | with_reducible first
      | assumption | apply kept_State_logSeed | apply kept_State_takeSeed | apply kept_State_readSeed
    | split | dsimp only | simp only [Kept.upd] | intro _

theorem kept_State_movePort (x0 : State) (x1 : Nat) (x2 : Port) (x3 : PortState) (h0 : Kept k x0) : Kept k
    (State.movePort x0 x1 x2 x3) := by
  unfold State.movePort
  repeat first
    | with_reducible first
      | assumption | apply kept_State_emit | apply kept_State_setPort
    | split | dsimp only | simp only [Kept.upd] | intro _

theorem kept_State_portTo (x0 : State) (x1 : Nat) (x2 : PortState) (h0 : Kept k x0) : Kept k (State.portTo x0 x1 x2)
    := by
  unfold State.portTo
  repeat first
    | with_reducible first
      | assumption | apply kept_State_movePort
    | split | dsimp only | simp only [Kept.upd] | intro _

theorem kept_State_mssAlert (x0 : State) (h0 : Kept k x0) : Kept k (State.mssAlert x0) := by
  unfold State.mssAlert
  repeat first
    | with_reducible first
      | assumption | apply kept_State_signal
    | split | dsimp only | simp only [Kept.upd] | intro _

theorem kept_State_holdPlate (s : State) (p : Nat) (h : Kept k s) : Kept k (s.holdPlate p) := by
  unfold State.holdPlate
  split
  · exact h
  · have h1 : Kept k ((List.range 8).foldl (fun s i => s.portTo (8 * p + i) .off) s) :=
      kept_foldl h fun s i hs => kept_State_portTo _ _ _ hs
    dsimp only
    revert h1
    generalize (List.range 8).foldl (fun (s : State) i => s.portTo (8 * p + i) .off) s = t
    intro h1
    exact Kept.updMemBoot h1 rfl rfl rfl fun hm => dropPlate_wf _ _ hm

theorem kept_State_holdFailed (x0 : State) (h0 : Kept k x0) : Kept k (State.holdFailed x0) := by
  unfold State.holdFailed
  repeat first
    | with_reducible first
      | assumption | apply kept_State_holdPlate | apply kept_foldl | apply kept_foldl_snd
      | apply kept_foldl_third
    | split | dsimp only | simp only [Kept.upd] | intro _ | with_reducible refine And.intro ?_ ?_

theorem kept_State_markPlate (x0 : State) (x1 : Nat) (h0 : Kept k x0) : Kept k (State.markPlate x0 x1) := by
  unfold State.markPlate
  repeat first
    | with_reducible first
      | assumption | apply kept_State_mssAlert
    | split | dsimp only | simp only [Kept.upd] | intro _

theorem kept_State_fireWatch (x0 : State) (x1 : Nat) (h0 : Kept k x0) : Kept k (State.fireWatch x0 x1) := by
  unfold State.fireWatch
  repeat first
    | with_reducible first
      | assumption | apply kept_State_signal | apply kept_foldl | apply kept_foldl_snd | apply kept_foldl_third
    | with_reducible rfl | with_reducible exact fun h => h | with_reducible exact fun h => smapWf_put _ _ _ _ h
    | with_reducible exact fun h => smapWf_mod _ _ _ _ h | with_reducible exact fun h => smapWf_map _ _ _ h
    | with_reducible exact fun h => smapWf_drop _ _ _ _ h | exact fun h => smapWf_foldl_put h
    | exact fun h => smapWf_foldl_mod h | with_reducible exact fun _ => smapWf_nil _ | split | dsimp only
    | simp only [Kept.upd] | with_reducible apply Kept.all | intro _ | with_reducible refine And.intro ?_ ?_

theorem kept_State_testWatches (x0 : State) (x1 : Nat) (x2 : DWord) (h0 : Kept k x0) : Kept k (State.testWatches x0
    x1 x2) := by
  unfold State.testWatches
  repeat first
    | with_reducible first
      | assumption | apply kept_State_fireWatch | apply kept_foldl | apply kept_foldl_snd
      | apply kept_foldl_third
    | split | dsimp only | simp only [Kept.upd] | intro _ | with_reducible refine And.intro ?_ ?_

theorem kept_State_settleMarks (x0 : State) (h0 : Kept k x0) : Kept k (State.settleMarks x0) := by
  unfold State.settleMarks
  repeat first
    | with_reducible first
      | assumption | apply kept_State_testWatches | apply kept_foldl | apply kept_foldl_snd
      | apply kept_foldl_third
    | with_reducible rfl | with_reducible exact fun h => h | with_reducible exact fun h => smapWf_put _ _ _ _ h
    | with_reducible exact fun h => smapWf_mod _ _ _ _ h | with_reducible exact fun h => smapWf_map _ _ _ h
    | with_reducible exact fun h => smapWf_drop _ _ _ _ h | exact fun h => smapWf_foldl_put h
    | exact fun h => smapWf_foldl_mod h | with_reducible exact fun _ => smapWf_nil _ | split | dsimp only
    | simp only [Kept.upd] | with_reducible apply Kept.all | intro _ | with_reducible refine And.intro ?_ ?_

theorem kept_State_updateMark (x0 : State) (x1 : Nat) (x2 : DWord → DWord) (h0 : Kept k x0) : Kept k
    (State.updateMark x0 x1 x2) := by
  unfold State.updateMark
  repeat first
    | with_reducible first
      | assumption | apply kept_State_testWatches | apply kept_foldl | apply kept_foldl_snd
      | apply kept_foldl_third
    | with_reducible rfl | with_reducible exact fun h => h | with_reducible exact fun h => smapWf_put _ _ _ _ h
    | with_reducible exact fun h => smapWf_mod _ _ _ _ h | with_reducible exact fun h => smapWf_map _ _ _ h
    | with_reducible exact fun h => smapWf_drop _ _ _ _ h | exact fun h => smapWf_foldl_put h
    | exact fun h => smapWf_foldl_mod h | with_reducible exact fun _ => smapWf_nil _ | split | dsimp only
    | simp only [Kept.upd] | with_reducible apply Kept.all | intro _ | with_reducible refine And.intro ?_ ?_

theorem kept_markWaitEffect (x0 : StationRef) (x1 : Nat) (x2 : MarkWaitArgs) (x3 : State) (h3 : Kept k x3) : Kept k
    (markWaitEffect x0 x1 x2 x3) := by
  unfold markWaitEffect
  repeat first
    | with_reducible first
      | assumption | apply kept_State_pend
    | split | dsimp only | simp only [Kept.upd] | intro _

theorem kept_markSignalEffect (x0 : StationRef) (x1 : Nat) (x2 : MarkSignalArgs) (x3 : State) (h3 : Kept k x3) :
    Kept k (markSignalEffect x0 x1 x2 x3) := by
  unfold markSignalEffect
  repeat first
    | with_reducible first
      | assumption | apply kept_State_plan
    | split | dsimp only | simp only [Kept.upd] | intro _

theorem kept_markRemoteEffect (x0 : StationRef) (x1 : MarkRemoteArgs) (x2 : State) (h2 : Kept k x2) : Kept k
    (markRemoteEffect x0 x1 x2) := by
  unfold markRemoteEffect
  repeat first
    | with_reducible first
      | assumption | apply kept_State_sendCtrl
    | split | dsimp only | simp only [Kept.upd] | intro _

theorem kept_execMarkWrite (x0 : BitVec 12) (x1 : DWord) (x2 : State) (h2 : Kept k x2) : ∀ t, (execMarkWrite x0 x1
    x2) = .next t → Kept k t := by
  unfold execMarkWrite
  repeat first
    | with_reducible first
      | assumption | apply kept_hostWr | apply kept_State_updateMark
    | split | dsimp only | simp only [Kept.upd] | intro _

theorem kept_execMarkAdd (x0 : BitVec 12) (x1 : DWord) (x2 : State) (h2 : Kept k x2) : ∀ t, (execMarkAdd x0 x1 x2) =
    .next t → Kept k t := by
  unfold execMarkAdd
  repeat first
    | with_reducible first
      | assumption | apply kept_hostWr | apply kept_State_updateMark
    | split | dsimp only | simp only [Kept.upd] | intro _

theorem kept_State_sendGate (x0 : State) (x1 : Nat) (x2 : Nat) (h0 : Kept k x0) : Kept k (State.sendGate x0 x1 x2)
    := by
  unfold State.sendGate
  repeat first
    | with_reducible first
      | assumption | apply kept_State_sendToAll
    | split | dsimp only | simp only [Kept.upd] | intro _

theorem kept_State_batchReady (x0 : State) (x1 : Nat) (x2 : Nat) (h0 : Kept k x0) : Kept k (State.batchReady x0 x1
    x2) := by
  unfold State.batchReady
  repeat first
    | with_reducible first
      | assumption | apply kept_State_sendGate
    | split | dsimp only | simp only [Kept.upd] | intro _

theorem kept_State_betweenSteps (x0 : State) (h0 : Kept k x0) : Kept k (State.betweenSteps x0) := by
  unfold State.betweenSteps
  repeat first
    | with_reducible first
      | assumption
    | split | dsimp only | simp only [Kept.upd] | intro _

theorem kept_State_endRecord (x0 : State) (x1 : Nat) (x2 : Nat) (x3 : Nat) (x4 : Nat) (h0 : Kept k x0) : Kept k
    (State.endRecord x0 x1 x2 x3 x4) := by
  unfold State.endRecord
  repeat first
    | with_reducible first
      | assumption | apply kept_State_addRecord | apply kept_State_logRecord
    | split | dsimp only | simp only [Kept.upd] | intro _

theorem kept_State_proofRecords (x0 : State) (h0 : Kept k x0) : Kept k (State.proofRecords x0) := by
  unfold State.proofRecords
  repeat first
    | with_reducible first
      | assumption | apply kept_State_addRecord | apply kept_foldl | apply kept_foldl_snd
      | apply kept_foldl_third
    | split | dsimp only | simp only [Kept.upd] | intro _ | with_reducible refine And.intro ?_ ?_

theorem kept_State_sendStop (x0 : State) (x1 : Nat) (h0 : Kept k x0) : Kept k (State.sendStop x0 x1) := by
  unfold State.sendStop
  repeat first
    | with_reducible first
      | assumption | apply kept_State_sendToAll
    | split | dsimp only | simp only [Kept.upd] | intro _

theorem kept_State_skipDescriptor (x0 : State) (x1 : Nat) (h0 : Kept k x0) : Kept k (State.skipDescriptor x0 x1) :=
    by
  unfold State.skipDescriptor
  repeat first
    | with_reducible first
      | assumption | apply kept_State_emit | apply kept_State_ringAdvance
    | split | dsimp only | simp only [Kept.upd] | intro _

theorem kept_State_skipRing (f n : Nat) (s : State) (h : Kept k s) : Kept k (State.skipRing f n s) := by
  induction f generalizing s with
  | zero => exact h
  | succ f ih =>
    unfold State.skipRing
    split
    · exact ih _ (kept_State_skipDescriptor _ _ h)
    · exact h

theorem kept_State_skipOut (x0 : State) (h0 : Kept k x0) : Kept k (State.skipOut x0) := by
  unfold State.skipOut
  repeat first
    | with_reducible first
      | assumption | apply kept_State_skipRing | apply kept_foldl | apply kept_foldl_snd
      | apply kept_foldl_third
    | split | dsimp only | simp only [Kept.upd] | intro _ | with_reducible refine And.intro ?_ ?_

theorem kept_State_addRemoteMarks (x0 : State) (h0 : Kept k x0) : Kept k (State.addRemoteMarks x0) := by
  unfold State.addRemoteMarks
  repeat first
    | with_reducible first
      | assumption | apply kept_State_updateMark | apply kept_foldl | apply kept_foldl_snd
      | apply kept_foldl_third
    | split | dsimp only | simp only [Kept.upd] | intro _ | with_reducible refine And.intro ?_ ?_

theorem kept_State_staleEvent (x0 : State) (x1 : Nat) (x2 : StaleMsg) (h0 : Kept k x0) : Kept k (State.staleEvent x0
    x1 x2) := by
  unfold State.staleEvent
  repeat first
    | with_reducible first
      | assumption | apply kept_State_emit
    | split | dsimp only | simp only [Kept.upd] | intro _

theorem kept_State_landedRest (x0 : State) (h0 : Kept k x0) : Kept k (State.landedRest x0) := by
  unfold State.landedRest
  repeat first
    | with_reducible first
      | assumption | apply kept_State_staleEvent | apply kept_State_addRemoteMarks | apply kept_foldl
      | apply kept_foldl_snd | apply kept_foldl_third
    | split | dsimp only | simp only [Kept.upd] | intro _ | with_reducible refine And.intro ?_ ?_

theorem kept_State_leaveRun (x0 : State) (h0 : Kept k x0) : Kept k (State.leaveRun x0) := by
  unfold State.leaveRun
  repeat first
    | with_reducible first
      | assumption | apply kept_State_landedRest | apply kept_foldl | apply kept_foldl_snd
      | apply kept_foldl_third
    | with_reducible rfl | with_reducible exact fun h => h | with_reducible exact fun h => smapWf_put _ _ _ _ h
    | with_reducible exact fun h => smapWf_mod _ _ _ _ h | with_reducible exact fun h => smapWf_map _ _ _ h
    | with_reducible exact fun h => smapWf_drop _ _ _ _ h | exact fun h => smapWf_foldl_put h
    | exact fun h => smapWf_foldl_mod h | with_reducible exact fun _ => smapWf_nil _ | split | dsimp only
    | simp only [Kept.upd] | with_reducible apply Kept.all | intro _ | with_reducible refine And.intro ?_ ?_

theorem kept_State_stopped (x0 : State) (h0 : Kept k x0) : Kept k (State.stopped x0) := by
  unfold State.stopped
  repeat first
    | with_reducible first
      | assumption | apply kept_State_holdFailed | apply kept_State_leaveRun
    | split | dsimp only | simp only [Kept.upd] | intro _

theorem kept_State_runEnded (x0 : State) (h0 : Kept k x0) : Kept k (State.runEnded x0) := by
  unfold State.runEnded
  repeat first
    | with_reducible first
      | assumption | apply kept_State_leaveRun | apply kept_State_skipOut
    | split | dsimp only | simp only [Kept.upd] | intro _

theorem kept_State_abortBetween (x0 : State) (h0 : Kept k x0) : Kept k (State.abortBetween x0) := by
  unfold State.abortBetween
  repeat first
    | with_reducible first
      | assumption | apply kept_State_sendStop | apply kept_State_leaveRun
    | split | dsimp only | simp only [Kept.upd] | intro _

theorem kept_State_stopBetween (x0 : State) (x1 : Nat) (x2 : Nat) (x3 : Bool) (h0 : Kept k x0) : Kept k
    (State.stopBetween x0 x1 x2 x3) := by
  unfold State.stopBetween
  repeat first
    | with_reducible first
      | assumption | apply kept_State_endRecord | apply kept_State_stopped | apply kept_State_sendStop
    | split | dsimp only | simp only [Kept.upd] | intro _

theorem kept_State_raiseAsync (x0 : State) (x1 : Nat) (x2 : Nat) (x3 : List (Nat × Nat)) (h0 : Kept k x0) : Kept k
    (State.raiseAsync x0 x1 x2 x3) := by
  unfold State.raiseAsync
  repeat first
    | with_reducible first
      | assumption | apply kept_State_pend | apply kept_State_stopBetween
    | split | dsimp only | simp only [Kept.upd] | intro _

theorem kept_State_failPlate (x0 : State) (x1 : Nat) (h0 : Kept k x0) : Kept k (State.failPlate x0 x1) := by
  unfold State.failPlate
  repeat first
    | with_reducible first
      | assumption | apply kept_State_markPlate | apply kept_State_raiseAsync | apply kept_State_holdFailed
      | apply kept_State_emit
    | split | dsimp only | simp only [Kept.upd] | intro _

theorem kept_State_reportFault (x0 : State) (x1 : PendingFault) (h0 : Kept k x0) : Kept k (State.reportFault x0 x1)
    := by
  unfold State.reportFault
  repeat first
    | with_reducible first
      | assumption | apply kept_State_emitRaw
    | split | dsimp only | simp only [Kept.upd] | intro _

theorem kept_State_reportOthers (x0 : State) (x1 : PendingFault) (h0 : Kept k x0) : Kept k (State.reportOthers x0
    x1) := by
  unfold State.reportOthers
  repeat first
    | with_reducible first
      | assumption | apply kept_State_reportFault | apply kept_foldl | apply kept_foldl_snd
      | apply kept_foldl_third
    | split | dsimp only | simp only [Kept.upd] | intro _ | with_reducible refine And.intro ?_ ?_

theorem kept_State_checkStale (x0 : State) (h0 : Kept k x0) : Kept k (State.checkStale x0) := by
  unfold State.checkStale
  repeat first
    | with_reducible first
      | assumption | apply kept_State_pend | apply kept_foldl | apply kept_foldl_snd | apply kept_foldl_third
    | split | dsimp only | simp only [Kept.upd] | intro _ | with_reducible refine And.intro ?_ ?_

end Sys2Proof.Laws
end

