-- ==== Sys2Proof/Laws/KeptEngine.lean ====
section
/-! SUPPORT. What the engine stations do keeps them. -/

namespace Sys2Proof.Laws
open Sys2Proof Sys2Proof.Machine

variable {k : List Instr × DWord × Option (BitVec 384) × BitVec 384}

theorem kept_State_lateFault (x0 : State) (x1 : Nat) (x2 : Nat) (x3 : Nat) (x4 : Nat) (x5 : List (Nat × Nat)) (h0 :
    Kept k x0) : Kept k (State.lateFault x0 x1 x2 x3 x4 x5) := by
  unfold State.lateFault
  repeat first
    | with_reducible first
      | assumption | apply kept_State_pend
    | split | dsimp only | simp only [Kept.upd] | intro _

theorem kept_State_checkLink (x0 : State) (x1 : LinkRef) (h0 : Kept k x0) : Kept k (State.checkLink x0 x1) := by
  unfold State.checkLink
  repeat first
    | with_reducible first
      | assumption | apply kept_State_lateFault
    | split | dsimp only | simp only [Kept.upd] | intro _

theorem kept_State_checkSurplus (x0 : State) (x1 : LinkRef) (h0 : Kept k x0) : Kept k (State.checkSurplus x0 x1) :=
    by
  unfold State.checkSurplus
  repeat first
    | with_reducible first
      | assumption | apply kept_State_pend
    | split | dsimp only | simp only [Kept.upd] | intro _

theorem kept_State_checkRecv (x0 : State) (x1 : OpenRecv × Nat) (h0 : Kept k x0) : Kept k (State.checkRecv x0 x1) :=
    by
  unfold State.checkRecv
  repeat first
    | with_reducible first
      | assumption | apply kept_State_lateFault
    | split | dsimp only | simp only [Kept.upd] | intro _

theorem kept_State_lateMessage (x0 : State) (x1 : Nat) (x2 : Nat) (h0 : Kept k x0) : Kept k (State.lateMessage x0 x1
    x2) := by
  unfold State.lateMessage
  repeat first
    | with_reducible first
      | assumption | apply kept_State_lateFault
    | split | dsimp only | simp only [Kept.upd] | intro _

theorem kept_State_checkDue (x0 : State) (h0 : Kept k x0) : Kept k (State.checkDue x0) := by
  unfold State.checkDue
  repeat first
    | with_reducible first
      | assumption | apply kept_State_lateMessage | apply kept_foldl | apply kept_foldl_snd
      | apply kept_foldl_third
    | split | dsimp only | simp only [Kept.upd] | intro _ | with_reducible refine And.intro ?_ ?_

theorem kept_State_checkModes (x0 : State) (h0 : Kept k x0) : Kept k (State.checkModes x0) := by
  unfold State.checkModes
  repeat first
    | with_reducible first
      | assumption | apply kept_State_pend | apply kept_foldl | apply kept_foldl_snd | apply kept_foldl_third
    | split | dsimp only | simp only [Kept.upd] | intro _ | with_reducible refine And.intro ?_ ?_

theorem kept_State_checkSeam (x0 : State) (h0 : Kept k x0) : Kept k (State.checkSeam x0) := by
  unfold State.checkSeam
  repeat first
    | with_reducible first
      | assumption
    | split | dsimp only | simp only [Kept.upd] | intro _

theorem kept_State_collectLate (x0 : State) (h0 : Kept k x0) : Kept k (State.collectLate x0) := by
  unfold State.collectLate
  repeat first
    | with_reducible first
      | assumption | apply kept_State_checkLink | apply kept_State_checkSurplus | apply kept_State_checkRecv
      | apply kept_State_checkSeam | apply kept_State_checkStale | apply kept_State_checkModes
      | apply kept_State_checkDue | apply kept_foldl | apply kept_foldl_snd | apply kept_foldl_third
    | split | dsimp only | simp only [Kept.upd] | intro _ | with_reducible refine And.intro ?_ ?_

theorem kept_State_countReplays (x0 : State) (x1 : LinkRef) (h0 : Kept k x0) : Kept k (State.countReplays x0 x1) :=
    by
  unfold State.countReplays
  repeat first
    | with_reducible first
      | assumption | apply kept_State_setPort | apply kept_State_emit | apply kept_foldl | apply kept_foldl_snd
      | apply kept_foldl_third
    | with_reducible rfl | with_reducible exact fun h => h | with_reducible exact fun h => smapWf_put _ _ _ _ h
    | with_reducible exact fun h => smapWf_mod _ _ _ _ h | with_reducible exact fun h => smapWf_map _ _ _ h
    | with_reducible exact fun h => smapWf_drop _ _ _ _ h | exact fun h => smapWf_foldl_put h
    | exact fun h => smapWf_foldl_mod h | with_reducible exact fun _ => smapWf_nil _ | split | dsimp only
    | simp only [Kept.upd] | with_reducible apply Kept.all | intro _ | with_reducible refine And.intro ?_ ?_

theorem kept_State_flipLinks (x0 : State) (h0 : Kept k x0) : Kept k (State.flipLinks x0) := by
  unfold State.flipLinks
  repeat first
    | with_reducible first
      | assumption | apply kept_foldl | apply kept_foldl_snd | apply kept_foldl_third
    | with_reducible rfl | with_reducible exact fun h => h | with_reducible exact fun h => smapWf_put _ _ _ _ h
    | with_reducible exact fun h => smapWf_mod _ _ _ _ h | with_reducible exact fun h => smapWf_map _ _ _ h
    | with_reducible exact fun h => smapWf_drop _ _ _ _ h | exact fun h => smapWf_foldl_put h
    | exact fun h => smapWf_foldl_mod h | with_reducible exact fun _ => smapWf_nil _ | split | dsimp only
    | simp only [Kept.upd] | with_reducible apply Kept.all | intro _ | with_reducible refine And.intro ?_ ?_

theorem kept_State_applyRemaps (x0 : State) (h0 : Kept k x0) : Kept k (State.applyRemaps x0) := by
  unfold State.applyRemaps
  repeat first
    | with_reducible first
      | assumption | apply kept_foldl | apply kept_foldl_snd | apply kept_foldl_third
    | with_reducible rfl | with_reducible exact fun h => h | with_reducible exact fun h => smapWf_put _ _ _ _ h
    | with_reducible exact fun h => smapWf_mod _ _ _ _ h | with_reducible exact fun h => smapWf_map _ _ _ h
    | with_reducible exact fun h => smapWf_drop _ _ _ _ h | exact fun h => smapWf_foldl_put h
    | exact fun h => smapWf_foldl_mod h | with_reducible exact fun _ => smapWf_nil _ | split | dsimp only
    | simp only [Kept.upd] | with_reducible apply Kept.all | intro _ | with_reducible refine And.intro ?_ ?_

theorem kept_State_compareShadow (x0 : State) (x1 : Nat) (h0 : Kept k x0) : Kept k (State.compareShadow x0 x1) := by
  unfold State.compareShadow
  repeat first
    | with_reducible first
      | assumption | apply kept_State_emit | apply kept_State_pend
    | split | dsimp only | simp only [Kept.upd] | intro _

theorem kept_State_compareShadows (x0 : State) (h0 : Kept k x0) : Kept k (State.compareShadows x0) := by
  unfold State.compareShadows
  repeat first
    | with_reducible first
      | assumption | apply kept_State_compareShadow | apply kept_foldl | apply kept_foldl_snd
      | apply kept_foldl_third
    | split | dsimp only | simp only [Kept.upd] | intro _ | with_reducible refine And.intro ?_ ?_

theorem kept_State_actOn (x0 : State) (x1 : ClusterLoc) (x2 : List (Fin 9)) (h0 : Kept k x0) : Kept k (State.actOn
    x0 x1 x2) := by
  unfold State.actOn
  repeat first
    | with_reducible first
      | assumption | apply kept_State_emit | apply kept_State_failPlate | apply kept_foldl
      | apply kept_foldl_snd | apply kept_foldl_third
    | with_reducible rfl | with_reducible exact fun h => h | with_reducible exact fun h => smapWf_put _ _ _ _ h
    | with_reducible exact fun h => smapWf_mod _ _ _ _ h | with_reducible exact fun h => smapWf_map _ _ _ h
    | with_reducible exact fun h => smapWf_drop _ _ _ _ h | exact fun h => smapWf_foldl_put h
    | exact fun h => smapWf_foldl_mod h | with_reducible exact fun _ => smapWf_nil _ | split | dsimp only
    | simp only [Kept.upd] | with_reducible apply Kept.all | intro _ | with_reducible refine And.intro ?_ ?_

theorem kept_State_checkCluster (x0 : List EngineResult) (x1 : (Nat × Nat) × State) (x2 : Nat) (h1 : Kept k x1.2) :
    Kept k (State.checkCluster x0 x1 x2).2 := by
  unfold State.checkCluster
  repeat first
    | with_reducible first
      | assumption | apply kept_State_decide_ | apply kept_State_emit | apply kept_State_actOn
    | split | dsimp only | simp only [Kept.upd] | intro _

theorem kept_State_takeCheckSeed (x0 : State) (x1 : Nat) (h0 : Kept k x0) : Kept k (State.takeCheckSeed x0 x1) := by
  unfold State.takeCheckSeed
  repeat first
    | with_reducible first
      | assumption | apply kept_State_emit
    | split | dsimp only | simp only [Kept.upd] | intro _

theorem kept_State_takeGear (x0 : State) (h0 : Kept k x0) : Kept k (State.takeGear x0) := by
  unfold State.takeGear
  repeat first
    | with_reducible first
      | assumption
    | split | dsimp only | simp only [Kept.upd] | intro _

theorem kept_State_stopChecked (x0 : State) (x1 : Nat) (x2 : Nat) (x3 : Nat) (x4 : Bool) (h0 : Kept k x0) : Kept k
    (State.stopChecked x0 x1 x2 x3 x4) := by
  unfold State.stopChecked
  repeat first
    | with_reducible first
      | assumption | apply kept_State_endRecord | apply kept_State_stopped | apply kept_State_sendStop
    | split | dsimp only | simp only [Kept.upd] | intro _

theorem kept_State_afterCheck (x0 : State) (h0 : Kept k x0) : Kept k (State.afterCheck x0) := by
  unfold State.afterCheck
  repeat first
    | with_reducible first
      | assumption | apply kept_State_stopChecked | apply kept_State_reportOthers | apply kept_State_runEnded
      | apply kept_State_abortBetween | apply kept_State_betweenSteps
    | split | dsimp only | simp only [Kept.upd] | intro _

theorem kept_State_checkClusters_ (x0 : State) (x1 : List EngineResult) (h0 : Kept k x0) : Kept k
    (State.checkClusters_ x0 x1) := by
  unfold State.checkClusters_
  repeat first
    | with_reducible first
      | assumption | apply kept_State_checkCluster | apply kept_State_emit | apply kept_foldl
      | apply kept_foldl_snd | apply kept_foldl_third
    | split | dsimp only | simp only [Kept.upd] | intro _ | with_reducible refine And.intro ?_ ?_

theorem kept_State_checkTail (x0 : State) (h0 : Kept k x0) : Kept k (State.checkTail x0) := by
  unfold State.checkTail
  repeat first
    | with_reducible first
      | assumption | apply kept_State_takeGear | apply kept_State_addRemoteMarks | apply kept_State_flipLinks
      | apply kept_State_applyRemaps
    | split | dsimp only | simp only [Kept.upd] | intro _

theorem kept_checkStrokeEffect (x0 : List EngineResult) (x1 : State) (h1 : Kept k x1) : Kept k (checkStrokeEffect x0
    x1) := by
  unfold checkStrokeEffect
  repeat first
    | with_reducible first
      | assumption | apply kept_State_advanceTo | apply kept_State_takeCheckSeed
      | apply kept_State_checkClusters_ | apply kept_State_checkTail | apply kept_State_checkStale
      | apply kept_State_afterCheck
    | split | dsimp only | simp only [Kept.upd] | intro _

theorem kept_execCheckStroke (x0 : List EngineResult) (x1 : State) (h1 : Kept k x1) : ∀ t, (execCheckStroke x0 x1) =
    .next t → Kept k t := by
  intro t h
  unfold execCheckStroke at h
  try dsimp only at h
  repeat (split at h)
  all_goals first
    | (cases h; done)
    | (injection h with h; subst h)
  repeat first
    | with_reducible first
      | assumption | apply kept_checkStrokeEffect | apply kept_foldl | apply kept_foldl_snd
      | apply kept_foldl_third
    | split | dsimp only | simp only [Kept.upd] | intro _

theorem kept_State_addFeedBubbles (x0 : State) (x1 : EngineLoc) (x2 : Nat) (h0 : Kept k x0) : Kept k
    (State.addFeedBubbles x0 x1 x2) := by
  unfold State.addFeedBubbles
  repeat first
    | with_reducible first
      | assumption | apply kept_foldl | apply kept_foldl_snd | apply kept_foldl_third
    | with_reducible rfl | with_reducible exact fun h => h | with_reducible exact fun h => smapWf_put _ _ _ _ h
    | with_reducible exact fun h => smapWf_mod _ _ _ _ h | with_reducible exact fun h => smapWf_map _ _ _ h
    | with_reducible exact fun h => smapWf_drop _ _ _ _ h | exact fun h => smapWf_foldl_put h
    | exact fun h => smapWf_foldl_mod h | with_reducible exact fun _ => smapWf_nil _ | split | dsimp only
    | simp only [Kept.upd] | with_reducible apply Kept.all | intro _ | with_reducible refine And.intro ?_ ?_

theorem kept_State_runPass (x0 : State) (x1 : Who) (h0 : Kept k x0) : Kept k (State.runPass x0 x1) := by
  unfold State.runPass
  repeat first
    | with_reducible first
      | assumption | apply kept_State_setEng | apply kept_State_addFeedBubbles
    | split | dsimp only | simp only [Kept.upd] | intro _

theorem kept_openPass (x0 : Nat) (x1 : PassArgs) (x2 : Who) (x3 : State) (h3 : Kept k x3) : Kept k (openPass x0 x1
    x2 x3) := by
  unfold openPass
  repeat first
    | with_reducible first
      | assumption | apply kept_State_runPass | apply kept_State_setEng
    | split | dsimp only | simp only [Kept.upd] | intro _

theorem kept_passEffect (x0 : EngineLoc) (x1 : Nat) (x2 : PassArgs) (x3 : State) (h3 : Kept k x3) : Kept k
    (passEffect x0 x1 x2 x3) := by
  unfold passEffect
  repeat first
    | with_reducible first
      | assumption | apply kept_State_forBoth | apply kept_openPass
    | split | dsimp only | simp only [Kept.upd] | intro _

theorem kept_swapEffect (x0 : EngineLoc) (x1 : Nat) (x2 : State) (h2 : Kept k x2) : Kept k (swapEffect x0 x1 x2) :=
    by
  unfold swapEffect
  repeat first
    | with_reducible first
      | assumption | apply kept_State_forBoth | apply kept_State_setEng
    | split | dsimp only | simp only [Kept.upd] | intro _

theorem kept_State_drainSource (x0 : State) (x1 : Who) (x2 : Nat) (x3 : DrainArgs) (x4 : Nat) (x5 : Nat) (h0 : Kept
    k x0) : Kept k (State.drainSource x0 x1 x2 x3 x4 x5).2 := by
  unfold State.drainSource
  repeat first
    | with_reducible first
      | assumption | apply kept_State_whoRead
    | split | dsimp only | simp only [Kept.upd] | intro _

theorem kept_State_endTile (x0 : State) (x1 : Who) (x2 : DrainJob) (x3 : Nat) (h0 : Kept k x0) : Kept k
    (State.endTile x0 x1 x2 x3) := by
  unfold State.endTile
  repeat first
    | with_reducible first
      | assumption | apply kept_State_gaugeBreach | apply kept_State_addTile
    | split | dsimp only | simp only [Kept.upd] | intro _

theorem kept_State_drainOne (x0 : State) (x1 : Who) (x2 : Nat) (h0 : Kept k x0) : ∀ t, (State.drainOne x0 x1 x2) =
    some t → Kept k t := by
  intro t h
  unfold State.drainOne at h
  try dsimp only at h
  repeat (split at h)
  all_goals first
    | (cases h; done)
    | (injection h with h; subst h)
  repeat first
    | with_reducible first
      | assumption | apply kept_State_drainSource | apply kept_State_rowDraws | apply kept_State_endTile
      | apply kept_State_addDrainBubbles | apply kept_State_addSaturations | apply kept_State_checkItem
      | apply kept_State_setEng | apply kept_foldl | apply kept_foldl_snd | apply kept_foldl_third
    | split | dsimp only | simp only [Kept.upd] | intro _

theorem kept_State_storeRow (x0 : State) (x1 : Who) (x2 : WriteArgs) (x3 : Nat) (x4 : Nat) (x5 : OutRow) (h0 : Kept
    k x0) : Kept k (State.storeRow x0 x1 x2 x3 x4 x5) := by
  unfold State.storeRow
  repeat first
    | with_reducible first
      | assumption | apply kept_State_stationWrite
    | split | dsimp only | simp only [Kept.upd] | intro _

theorem kept_State_writeOne (x0 : State) (x1 : Who) (x2 : Nat) (h0 : Kept k x0) : ∀ t, (State.writeOne x0 x1 x2) =
    some t → Kept k t := by
  intro t h
  unfold State.writeOne at h
  try dsimp only at h
  repeat (split at h)
  all_goals first
    | (cases h; done)
    | (injection h with h; subst h)
  repeat first
    | with_reducible first
      | assumption | apply kept_State_storeRow | apply kept_State_addStoreWaits | apply kept_State_checkItem
      | apply kept_State_setEng | apply kept_foldl | apply kept_foldl_snd | apply kept_foldl_third
    | split | dsimp only | simp only [Kept.upd] | intro _

theorem kept_State_pumpRows (f : Nat) (w : Who) (h : Nat) (s : State) (hs : Kept k s) :
    Kept k (State.pumpRows f w h s) := by
  induction f generalizing s with
  | zero => exact hs
  | succ f ih =>
    unfold State.pumpRows
    split
    · next hd => exact ih _ (kept_State_drainOne _ _ _ hs _ hd)
    · split
      · next hw => exact ih _ (kept_State_writeOne _ _ _ hs _ hw)
      · exact hs

theorem kept_State_pump (x0 : State) (x1 : Who) (x2 : Nat) (h0 : Kept k x0) : Kept k (State.pump x0 x1 x2) := by
  unfold State.pump
  repeat first
    | with_reducible first
      | assumption | apply kept_State_setEng | apply kept_State_pumpRows
    | split | dsimp only | simp only [Kept.upd] | intro _

theorem kept_State_pumpAll (x0 : State) (x1 : Nat) (h0 : Kept k x0) : Kept k (State.pumpAll x0 x1) := by
  unfold State.pumpAll
  repeat first
    | with_reducible first
      | assumption | apply kept_State_pump | apply kept_foldl | apply kept_foldl_snd | apply kept_foldl_third
    | split | dsimp only | simp only [Kept.upd] | intro _ | with_reducible refine And.intro ?_ ?_

theorem kept_openDrain (x0 : Nat) (x1 : DrainArgs) (x2 : Who) (x3 : State) (h3 : Kept k x3) : Kept k (openDrain x0
    x1 x2 x3) := by
  unfold openDrain
  repeat first
    | with_reducible first
      | assumption | apply kept_State_setEng
    | split | dsimp only | simp only [Kept.upd] | intro _

theorem kept_drainEffect (x0 : EngineLoc) (x1 : Nat) (x2 : DrainArgs) (x3 : State) (h3 : Kept k x3) : Kept k
    (drainEffect x0 x1 x2 x3) := by
  unfold drainEffect
  repeat first
    | with_reducible first
      | assumption | apply kept_State_forBoth | apply kept_openDrain
    | split | dsimp only | simp only [Kept.upd] | intro _

theorem kept_readParams (x0 : Nat) (x1 : ParamArgs) (x2 : Who) (x3 : State) (h3 : Kept k x3) : Kept k (readParams x0
    x1 x2 x3) := by
  unfold readParams
  repeat first
    | with_reducible first
      | assumption | apply kept_State_whoRead | apply kept_State_setEng | apply kept_foldl
      | apply kept_foldl_snd | apply kept_foldl_third
    | split | dsimp only | simp only [Kept.upd] | intro _ | with_reducible refine And.intro ?_ ?_

theorem kept_paramsArrive (x0 : EngineLoc) (x1 : Nat) (x2 : ParamArgs) (x3 : State) (h3 : Kept k x3) : Kept k
    (paramsArrive x0 x1 x2 x3) := by
  unfold paramsArrive
  repeat first
    | with_reducible first
      | assumption | apply kept_State_forBoth | apply kept_readParams
    | split | dsimp only | simp only [Kept.upd] | intro _

theorem kept_paramEffect (x0 : EngineLoc) (x1 : Nat) (x2 : ParamArgs) (x3 : State) (h3 : Kept k x3) : Kept k
    (paramEffect x0 x1 x2 x3) := by
  unfold paramEffect
  repeat first
    | with_reducible first
      | assumption | apply kept_State_plan
    | split | dsimp only | simp only [Kept.upd] | intro _

theorem kept_openWrite (x0 : Nat) (x1 : WriteArgs) (x2 : Who) (x3 : State) (h3 : Kept k x3) : Kept k (openWrite x0
    x1 x2 x3) := by
  unfold openWrite
  repeat first
    | with_reducible first
      | assumption | apply kept_State_setEng
    | split | dsimp only | simp only [Kept.upd] | intro _

theorem kept_writeEffect (x0 : EngineLoc) (x1 : Nat) (x2 : WriteArgs) (x3 : State) (h3 : Kept k x3) : Kept k
    (writeEffect x0 x1 x2 x3) := by
  unfold writeEffect
  repeat first
    | with_reducible first
      | assumption | apply kept_State_forBoth | apply kept_openWrite
    | split | dsimp only | simp only [Kept.upd] | intro _

theorem kept_State_fetchRow (x0 : State) (x1 : Who) (x2 : Nat) (x3 : Nat) (x4 : Nat) (x5 : Nat) (x6 : Nat) (h0 :
    Kept k x0) : Kept k (State.fetchRow x0 x1 x2 x3 x4 x5 x6).2 := by
  unfold State.fetchRow
  repeat first
    | with_reducible first
      | assumption | apply kept_State_whoRead
    | split | dsimp only | simp only [Kept.upd] | intro _

theorem kept_pushRow (x0 : Nat) (x1 : LoadKind) (x2 : LoadArgs) (x3 : Nat) (x4 : Who) (x5 : State) (h5 : Kept k x5)
    : Kept k (pushRow x0 x1 x2 x3 x4 x5) := by
  unfold pushRow
  repeat first
    | with_reducible first
      | assumption | apply kept_State_fetchRow | apply kept_State_runPass | apply kept_State_setEng
    | split | dsimp only | simp only [Kept.upd] | intro _

theorem kept_planLoad (x0 : EngineLoc) (x1 : Nat) (x2 : LoadKind) (x3 : LoadArgs) (x4 : Nat) (x5 : State) (h5 : Kept
    k x5) : Kept k (planLoad x0 x1 x2 x3 x4 x5) := by
  unfold planLoad
  repeat first
    | with_reducible first
      | assumption | apply kept_State_plan
    | split | dsimp only | simp only [Kept.upd] | intro _

theorem kept_loadRow (x0 : EngineLoc) (x1 : Nat) (x2 : LoadKind) (x3 : LoadArgs) (x4 : Nat) (x5 : State) (h5 : Kept
    k x5) : Kept k (loadRow x0 x1 x2 x3 x4 x5) := by
  unfold loadRow
  repeat first
    | with_reducible first
      | assumption | apply kept_planLoad | apply kept_State_forBoth | apply kept_pushRow
    | split | dsimp only | simp only [Kept.upd] | intro _

theorem kept_loadEffect (x0 : EngineLoc) (x1 : Nat) (x2 : LoadKind) (x3 : LoadArgs) (x4 : State) (h4 : Kept k x4) :
    Kept k (loadEffect x0 x1 x2 x3 x4) := by
  unfold loadEffect
  repeat first
    | with_reducible first
      | assumption | apply kept_planLoad
    | split | dsimp only | simp only [Kept.upd] | intro _

theorem kept_State_raiseMeta (x0 : State) (x1 : EngineLoc) (x2 : Nat) (x3 : Nat) (x4 : Nat) (x5 : Nat) (x6 : Nat)
    (x7 : Nat) (h0 : Kept k x0) : Kept k (State.raiseMeta x0 x1 x2 x3 x4 x5 x6 x7) := by
  unfold State.raiseMeta
  repeat first
    | with_reducible first
      | assumption | apply kept_State_raise
    | split | dsimp only | simp only [Kept.upd] | intro _

theorem kept_State_metaWord (x0 : State) (x1 : Who) (x2 : Nat) (x3 : LoadMetaArgs) (x4 : Nat) (x5 : Nat) (h0 : Kept
    k x0) : Kept k (State.metaWord x0 x1 x2 x3 x4 x5).2 := by
  unfold State.metaWord
  repeat first
    | with_reducible first
      | assumption | apply kept_State_whoRead | apply kept_State_checkItem | apply kept_State_raiseMeta
    | split | dsimp only | simp only [Kept.upd] | intro _

theorem kept_State_metaBlock (x0 : State) (x1 : Who) (x2 : Nat) (x3 : LoadMetaArgs) (x4 : Nat) (x5 : Nat) (h0 : Kept
    k x0) : Kept k (State.metaBlock x0 x1 x2 x3 x4 x5).2 := by
  unfold State.metaBlock
  repeat first
    | with_reducible first
      | assumption | apply kept_State_metaWord | apply kept_foldl | apply kept_foldl_snd
      | apply kept_foldl_third
    | split | dsimp only | simp only [Kept.upd] | intro _ | with_reducible refine And.intro ?_ ?_

theorem kept_readWords (x0 : Nat) (x1 : LoadMetaArgs) (x2 : Who) (x3 : State) (h3 : Kept k x3) : Kept k (readWords
    x0 x1 x2 x3) := by
  unfold readWords
  repeat first
    | with_reducible first
      | assumption | apply kept_State_metaBlock | apply kept_State_setEng
    | split | dsimp only | simp only [Kept.upd] | intro _

theorem kept_metaWords (x0 : EngineLoc) (x1 : Nat) (x2 : LoadMetaArgs) (x3 : State) (h3 : Kept k x3) : Kept k
    (metaWords x0 x1 x2 x3) := by
  unfold metaWords
  repeat first
    | with_reducible first
      | assumption | apply kept_State_forBoth | apply kept_readWords
    | split | dsimp only | simp only [Kept.upd] | intro _

theorem kept_loadMetaEffect (x0 : EngineLoc) (x1 : Nat) (x2 : LoadMetaArgs) (x3 : State) (h3 : Kept k x3) : Kept k
    (loadMetaEffect x0 x1 x2 x3) := by
  unfold loadMetaEffect
  repeat first
    | with_reducible first
      | assumption | apply kept_State_forBoth | apply kept_State_setEng | apply kept_State_plan
    | split | dsimp only | simp only [Kept.upd] | intro _

theorem kept_State_takeCodes (x0 : State) (x1 : Who) (x2 : LoadWArgs) (x3 : Option Nat) (h0 : Kept k x0) : Kept k
    (State.takeCodes x0 x1 x2 x3).2 := by
  unfold State.takeCodes
  repeat first
    | with_reducible first
      | assumption | apply kept_State_metaBlock | apply kept_State_setEng
    | split | dsimp only | simp only [Kept.upd] | intro _

theorem kept_readPlane (x0 : Nat) (x1 : LoadWArgs) (x2 : Option Nat) (x3 : Who) (x4 : State) (h4 : Kept k x4) : Kept
    k (readPlane x0 x1 x2 x3 x4) := by
  unfold readPlane
  repeat first
    | with_reducible first
      | assumption | apply kept_State_takeCodes | apply kept_State_fetchRow | apply kept_State_setEng
      | apply kept_foldl | apply kept_foldl_snd | apply kept_foldl_third
    | split | dsimp only | simp only [Kept.upd] | intro _ | with_reducible refine And.intro ?_ ?_

theorem kept_planeArrives (x0 : EngineLoc) (x1 : Nat) (x2 : LoadWArgs) (x3 : Option Nat) (x4 : State) (h4 : Kept k
    x4) : Kept k (planeArrives x0 x1 x2 x3 x4) := by
  unfold planeArrives
  repeat first
    | with_reducible first
      | assumption | apply kept_State_forBoth | apply kept_readPlane
    | split | dsimp only | simp only [Kept.upd] | intro _

theorem kept_loadWEffect (x0 : EngineLoc) (x1 : Nat) (x2 : LoadWArgs) (x3 : State) (h3 : Kept k x3) : Kept k
    (loadWEffect x0 x1 x2 x3) := by
  unfold loadWEffect
  repeat first
    | with_reducible first
      | assumption | apply kept_State_forBoth | apply kept_State_setEng | apply kept_State_plan
    | split | dsimp only | simp only [Kept.upd] | intro _

end Sys2Proof.Laws
end

