-- ==== Sys2Proof/Laws/KeptCluster.lean ====
section
/-! SUPPORT. What the cluster stations and the Selectors do keeps them. -/

namespace Sys2Proof.Laws
open Sys2Proof Sys2Proof.Machine

variable {k : List Instr × DWord × Option (BitVec 384) × BitVec 384}

theorem kept_State_readPiece (x0 : State) (x1 : ClusterLoc) (x2 : Nat) (x3 : Nat) (x4 : Nat) (x5 : Nat) (h0 : Kept k
    x0) : Kept k (State.readPiece x0 x1 x2 x3 x4 x5).2 := by
  unfold State.readPiece
  repeat first
    | with_reducible first
      | assumption | apply kept_State_stationRead
    | split | dsimp only | simp only [Kept.upd] | intro _

theorem kept_State_readPieces (x0 : State) (x1 : ClusterLoc) (x2 : Nat) (x3 : Nat) (x4 : List (Nat × Nat)) (h0 :
    Kept k x0) : Kept k (State.readPieces x0 x1 x2 x3 x4).2 := by
  unfold State.readPieces
  repeat first
    | with_reducible first
      | assumption | apply kept_State_readPiece | apply kept_foldl | apply kept_foldl_snd
      | apply kept_foldl_third
    | split | dsimp only | simp only [Kept.upd] | intro _ | with_reducible refine And.intro ?_ ?_

theorem kept_State_writePiece (x0 : State) (x1 : ClusterLoc) (x2 : Nat) (x3 : Piece) (h0 : Kept k x0) : Kept k
    (State.writePiece x0 x1 x2 x3) := by
  unfold State.writePiece
  repeat first
    | with_reducible first
      | assumption | apply kept_State_stationWrite
    | split | dsimp only | simp only [Kept.upd] | intro _

theorem kept_State_burnBlock (x0 : State) (x1 : ClusterLoc) (x2 : Nat) (x3 : Nat) (x4 : LayerDesc) (x5 : Bool) (x6 :
    Nat) (x7 : Nat) (x8 : Nat) (x9 : BurnCounts) (h0 : Kept k x0) : Kept k (State.burnBlock x0 x1 x2 x3 x4 x5 x6 x7
    x8 x9).2.2 := by
  unfold State.burnBlock
  repeat first
    | with_reducible first
      | assumption | apply kept_State_writePiece | apply kept_State_readPieces | apply kept_foldl
      | apply kept_foldl_snd | apply kept_foldl_third
    | split | dsimp only | simp only [Kept.upd] | intro _ | with_reducible refine And.intro ?_ ?_

theorem kept_State_raiseBurnMeta (x0 : State) (x1 : ClusterLoc) (x2 : Nat) (x3 : Nat) (x4 : Nat) (x5 : Nat) (x6 :
    Nat) (x7 : Nat) (h0 : Kept k x0) : Kept k (State.raiseBurnMeta x0 x1 x2 x3 x4 x5 x6 x7) := by
  unfold State.raiseBurnMeta
  repeat first
    | with_reducible first
      | assumption | apply kept_State_pend
    | split | dsimp only | simp only [Kept.upd] | intro _

theorem kept_State_burnWord (x0 : State) (x1 : ClusterLoc) (x2 : Nat) (x3 : Nat) (x4 : LayerDesc) (x5 : Nat) (x6 :
    Nat) (h0 : Kept k x0) : Kept k (State.burnWord x0 x1 x2 x3 x4 x5 x6).2 := by
  unfold State.burnWord
  repeat first
    | with_reducible first
      | assumption | apply kept_State_readPiece | apply kept_State_raiseBurnMeta
    | split | dsimp only | simp only [Kept.upd] | intro _

theorem kept_State_burnWordBack (x0 : State) (x1 : ClusterLoc) (x2 : Nat) (x3 : LayerDesc) (x4 : Nat) (x5 : Nat) (x6
    : BurnWord) (h0 : Kept k x0) : Kept k (State.burnWordBack x0 x1 x2 x3 x4 x5 x6) := by
  unfold State.burnWordBack
  repeat first
    | with_reducible first
      | assumption | apply kept_State_writePiece
    | split | dsimp only | simp only [Kept.upd] | intro _

theorem kept_planBurn (x0 : ClusterLoc) (x1 : Nat) (x2 : BurnishArgs) (x3 : Nat) (x4 : Nat) (x5 : BurnWord) (x6 :
    BurnCounts) (x7 : State) (h7 : Kept k x7) : Kept k (planBurn x0 x1 x2 x3 x4 x5 x6 x7) := by
  unfold planBurn
  repeat first
    | with_reducible first
      | assumption | apply kept_State_plan
    | split | dsimp only | simp only [Kept.upd] | intro _

theorem kept_burnOne (x0 : ClusterLoc) (x1 : Nat) (x2 : BurnishArgs) (x3 : Nat) (x4 : Nat) (x5 : BurnWord) (x6 :
    BurnCounts) (x7 : State) (h7 : Kept k x7) : Kept k (burnOne x0 x1 x2 x3 x4 x5 x6 x7) := by
  unfold burnOne
  repeat first
    | with_reducible first
      | assumption | apply kept_State_burnWord | apply kept_State_burnBlock | apply kept_State_burnWordBack
      | apply kept_planBurn
    | split | dsimp only | simp only [Kept.upd] | intro _

theorem kept_burnishEffect (x0 : ClusterLoc) (x1 : Nat) (x2 : BurnishArgs) (x3 : State) (h3 : Kept k x3) : Kept k
    (burnishEffect x0 x1 x2 x3) := by
  unfold burnishEffect
  repeat first
    | with_reducible first
      | assumption | apply kept_State_plan | apply kept_State_setBusy
    | split | dsimp only | simp only [Kept.upd] | intro _

theorem kept_burnArrives (x0 : ClusterLoc) (x1 : Nat) (x2 : BurnishArgs) (x3 : State) (h3 : Kept k x3) : Kept k
    (burnArrives x0 x1 x2 x3) := by
  unfold burnArrives
  repeat first
    | with_reducible first
      | assumption | apply kept_State_descRead | apply kept_planBurn
    | split | dsimp only | simp only [Kept.upd] | intro _

theorem kept_State_readRow64 (x0 : State) (x1 : StationRef) (x2 : Nat) (x3 : Nat) (x4 : Nat) (x5 : Nat) (x6 : Nat)
    (x7 : FpFmt) (h0 : Kept k x0) : Kept k (State.readRow64 x0 x1 x2 x3 x4 x5 x6 x7).2 := by
  unfold State.readRow64
  repeat first
    | with_reducible first
      | assumption | apply kept_State_stationRead | apply kept_foldl | apply kept_foldl_snd
      | apply kept_foldl_third
    | split | dsimp only | simp only [Kept.upd] | intro _ | with_reducible refine And.intro ?_ ?_

theorem kept_State_groupScores (x0 : State) (x1 : SelectorLoc) (x2 : Nat) (x3 : TopbArgs) (x4 : TopbDesc) (x5 : Nat)
    (h0 : Kept k x0) : Kept k (State.groupScores x0 x1 x2 x3 x4 x5).2 := by
  unfold State.groupScores
  repeat first
    | with_reducible first
      | assumption | apply kept_State_readRow64 | apply kept_foldl | apply kept_foldl_snd
      | apply kept_foldl_third
    | split | dsimp only | simp only [Kept.upd] | intro _ | with_reducible refine And.intro ?_ ?_

theorem kept_State_writePicks (x0 : State) (x1 : Nat) (x2 : Nat) (x3 : Nat) (x4 : List Nat) (h0 : Kept k x0) : Kept
    k (State.writePicks x0 x1 x2 x3 x4) := by
  unfold State.writePicks
  repeat first
    | with_reducible first
      | assumption | apply kept_foldl | apply kept_foldl_snd | apply kept_foldl_third
    | with_reducible rfl | with_reducible exact fun h => h | with_reducible exact fun h => smapWf_put _ _ _ _ h
    | with_reducible exact fun h => smapWf_mod _ _ _ _ h | with_reducible exact fun h => smapWf_map _ _ _ h
    | with_reducible exact fun h => smapWf_drop _ _ _ _ h | exact fun h => smapWf_foldl_put h
    | exact fun h => smapWf_foldl_mod h | with_reducible exact fun _ => smapWf_nil _ | split | dsimp only
    | simp only [Kept.upd] | with_reducible apply Kept.all | intro _ | with_reducible refine And.intro ?_ ?_

theorem kept_planTopb (x0 : SelectorLoc) (x1 : Nat) (x2 : TopbArgs) (x3 : Nat) (x4 : Nat) (x5 : Nat) (x6 : State)
    (h6 : Kept k x6) : Kept k (planTopb x0 x1 x2 x3 x4 x5 x6) := by
  unfold planTopb
  repeat first
    | with_reducible first
      | assumption | apply kept_State_plan
    | split | dsimp only | simp only [Kept.upd] | intro _

theorem kept_topbOne (x0 : SelectorLoc) (x1 : Nat) (x2 : TopbArgs) (x3 : Nat) (x4 : Nat) (x5 : Nat) (x6 : State) (h6
    : Kept k x6) : Kept k (topbOne x0 x1 x2 x3 x4 x5 x6) := by
  unfold topbOne
  repeat first
    | with_reducible first
      | assumption | apply kept_State_groupScores | apply kept_planTopb | apply kept_State_writePicks
    | split | dsimp only | simp only [Kept.upd] | intro _

theorem kept_topbEffect (x0 : SelectorLoc) (x1 : Nat) (x2 : TopbArgs) (x3 : State) (h3 : Kept k x3) : Kept k
    (topbEffect x0 x1 x2 x3) := by
  unfold topbEffect
  repeat first
    | with_reducible first
      | assumption | apply kept_State_plan | apply kept_State_setBusy
    | split | dsimp only | simp only [Kept.upd] | intro _

theorem kept_topbArrives (x0 : SelectorLoc) (x1 : Nat) (x2 : TopbArgs) (x3 : State) (h3 : Kept k x3) : Kept k
    (topbArrives x0 x1 x2 x3) := by
  unfold topbArrives
  repeat first
    | with_reducible first
      | assumption | apply kept_State_descRead | apply kept_planTopb
    | split | dsimp only | simp only [Kept.upd] | intro _

theorem kept_State_changeWindow (x0 : State) (x1 : Nat) (x2 : Nat) (x3 : Nat) (x4 : Option WinDesc) (h0 : Kept k x0)
    : Kept k (State.changeWindow x0 x1 x2 x3 x4) := by
  unfold State.changeWindow
  repeat first
    | with_reducible first
      | assumption | apply kept_foldl | apply kept_foldl_snd | apply kept_foldl_third
    | with_reducible rfl | with_reducible exact fun h => h | with_reducible exact fun h => smapWf_put _ _ _ _ h
    | with_reducible exact fun h => smapWf_mod _ _ _ _ h | with_reducible exact fun h => smapWf_map _ _ _ h
    | with_reducible exact fun h => smapWf_drop _ _ _ _ h | exact fun h => smapWf_foldl_put h
    | exact fun h => smapWf_foldl_mod h | with_reducible exact fun _ => smapWf_nil _ | split | dsimp only
    | simp only [Kept.upd] | with_reducible apply Kept.all | intro _ | with_reducible refine And.intro ?_ ?_

theorem kept_setwinEffect (x0 : SelectorLoc) (x1 : Nat) (x2 : SetwinArgs) (x3 : State) (h3 : Kept k x3) : Kept k
    (setwinEffect x0 x1 x2 x3) := by
  unfold setwinEffect
  repeat first
    | with_reducible first
      | assumption | apply kept_State_changeWindow | apply kept_State_plan
    | split | dsimp only | simp only [Kept.upd] | intro _

theorem kept_setwinArrives (x0 : SelectorLoc) (x1 : Nat) (x2 : SetwinArgs) (x3 : State) (h3 : Kept k x3) : Kept k
    (setwinArrives x0 x1 x2 x3) := by
  unfold setwinArrives
  repeat first
    | with_reducible first
      | assumption | apply kept_State_descRead | apply kept_State_changeWindow
    | split | dsimp only | simp only [Kept.upd] | intro _

theorem kept_State_sampleRow (x0 : State) (x1 : SelectorLoc) (x2 : Nat) (x3 : SampleArgs) (x4 : SampleDesc) (x5 :
    Nat) (h0 : Kept k x0) : Kept k (State.sampleRow x0 x1 x2 x3 x4 x5).2 := by
  unfold State.sampleRow
  repeat first
    | with_reducible first
      | assumption | apply kept_State_readRow64 | apply kept_State_stationWrite | apply kept_State_advanceLane
    | split | dsimp only | simp only [Kept.upd] | intro _

theorem kept_planSample (x0 : SelectorLoc) (x1 : Nat) (x2 : SampleArgs) (x3 : Nat) (x4 : Nat) (x5 : Nat) (x6 :
    State) (h6 : Kept k x6) : Kept k (planSample x0 x1 x2 x3 x4 x5 x6) := by
  unfold planSample
  repeat first
    | with_reducible first
      | assumption | apply kept_State_plan
    | split | dsimp only | simp only [Kept.upd] | intro _

theorem kept_sampleOne (x0 : SelectorLoc) (x1 : Nat) (x2 : SampleArgs) (x3 : Nat) (x4 : Nat) (x5 : Nat) (x6 : State)
    (h6 : Kept k x6) : Kept k (sampleOne x0 x1 x2 x3 x4 x5 x6) := by
  unfold sampleOne
  repeat first
    | with_reducible first
      | assumption | apply kept_State_sampleRow | apply kept_planSample
    | split | dsimp only | simp only [Kept.upd] | intro _

theorem kept_State_fillDraws (x0 : State) (x1 : SelectorLoc) (x2 : FillDesc) (h0 : Kept k x0) : Kept k
    (State.fillDraws x0 x1 x2).2 := by
  unfold State.fillDraws
  repeat first
    | with_reducible first
      | assumption | apply kept_State_advanceLane | apply kept_foldl | apply kept_foldl_snd
      | apply kept_foldl_third
    | split | dsimp only | simp only [Kept.upd] | intro _ | with_reducible refine And.intro ?_ ?_

theorem kept_State_fillOne (x0 : State) (x1 : SelectorLoc) (x2 : Nat) (x3 : SampleArgs) (x4 : FillDesc) (x5 : Nat)
    (h0 : Kept k x0) : Kept k (State.fillOne x0 x1 x2 x3 x4 x5) := by
  unfold State.fillOne
  repeat first
    | with_reducible first
      | assumption | apply kept_State_fillDraws | apply kept_State_stationWrite
    | split | dsimp only | simp only [Kept.upd] | intro _

theorem kept_planFill (x0 : SelectorLoc) (x1 : Nat) (x2 : SampleArgs) (x3 : Nat) (x4 : Nat) (x5 : State) (h5 : Kept
    k x5) : Kept k (planFill x0 x1 x2 x3 x4 x5) := by
  unfold planFill
  repeat first
    | with_reducible first
      | assumption | apply kept_State_plan
    | split | dsimp only | simp only [Kept.upd] | intro _

theorem kept_fillStep (x0 : SelectorLoc) (x1 : Nat) (x2 : SampleArgs) (x3 : Nat) (x4 : Nat) (x5 : State) (h5 : Kept
    k x5) : Kept k (fillStep x0 x1 x2 x3 x4 x5) := by
  unfold fillStep
  repeat first
    | with_reducible first
      | assumption | apply kept_planFill | apply kept_State_fillOne
    | split | dsimp only | simp only [Kept.upd] | intro _

theorem kept_samplingEffect (x0 : SelectorLoc) (x1 : Nat) (x2 : SampleArgs) (x3 : State) (h3 : Kept k x3) : Kept k
    (samplingEffect x0 x1 x2 x3) := by
  unfold samplingEffect
  repeat first
    | with_reducible first
      | assumption | apply kept_State_plan | apply kept_State_setBusy
    | split | dsimp only | simp only [Kept.upd] | intro _

theorem kept_samplingArrives (x0 : SelectorLoc) (x1 : Nat) (x2 : SampleArgs) (x3 : State) (h3 : Kept k x3) : Kept k
    (samplingArrives x0 x1 x2 x3) := by
  unfold samplingArrives
  repeat first
    | with_reducible first
      | assumption | apply kept_State_descRead | apply kept_planSample | apply kept_planFill
    | split | dsimp only | simp only [Kept.upd] | intro _

theorem kept_State_copyReadRow (x0 : State) (x1 : ClusterLoc) (x2 : Nat) (x3 : CopyArgs) (x4 : CopyDesc) (x5 : Nat)
    (x6 : Nat) (h0 : Kept k x0) : Kept k (State.copyReadRow x0 x1 x2 x3 x4 x5 x6).2 := by
  unfold State.copyReadRow
  repeat first
    | with_reducible first
      | assumption | apply kept_State_stationRead
    | split | dsimp only | simp only [Kept.upd] | intro _

theorem kept_State_copyPut (x0 : State) (x1 : ClusterLoc) (x2 : Nat) (x3 : Nat) (x4 : Nat) (x5 : List Byte) (x6 :
    Nat → List Nat) (h0 : Kept k x0) : Kept k (State.copyPut x0 x1 x2 x3 x4 x5 x6) := by
  unfold State.copyPut
  repeat first
    | with_reducible first
      | assumption | apply kept_State_stationWrite
    | split | dsimp only | simp only [Kept.upd] | intro _

theorem kept_State_copyWriteRow (x0 : State) (x1 : ClusterLoc) (x2 : Nat) (x3 : CopyArgs) (x4 : CopyDesc) (x5 : Nat)
    (x6 : Nat) (x7 : List (Nat × Bool)) (x8 : List (List Nat)) (h0 : Kept k x0) : Kept k (State.copyWriteRow x0 x1
    x2 x3 x4 x5 x6 x7 x8) := by
  unfold State.copyWriteRow
  repeat first
    | with_reducible first
      | assumption | apply kept_State_copyPut
    | split | dsimp only | simp only [Kept.upd] | intro _

theorem kept_State_copyTile (x0 : State) (x1 : ClusterLoc) (x2 : Nat) (x3 : CopyArgs) (x4 : CopyDesc) (x5 : List
    (List Nat)) (x6 : Nat) (h0 : Kept k x0) : Kept k (State.copyTile x0 x1 x2 x3 x4 x5 x6).2 := by
  unfold State.copyTile
  repeat first
    | with_reducible first
      | assumption | apply kept_State_copyReadRow | apply kept_State_copyWriteRow | apply kept_foldl
      | apply kept_foldl_snd | apply kept_foldl_third
    | with_reducible rfl | with_reducible exact fun h => h | with_reducible exact fun h => smapWf_put _ _ _ _ h
    | with_reducible exact fun h => smapWf_mod _ _ _ _ h | with_reducible exact fun h => smapWf_map _ _ _ h
    | with_reducible exact fun h => smapWf_drop _ _ _ _ h | exact fun h => smapWf_foldl_put h
    | exact fun h => smapWf_foldl_mod h | with_reducible exact fun _ => smapWf_nil _ | split | dsimp only
    | simp only [Kept.upd] | with_reducible apply Kept.all | intro _ | with_reducible refine And.intro ?_ ?_

theorem kept_planCopy (x0 : ClusterLoc) (x1 : Nat) (x2 : CopyArgs) (x3 : Nat) (x4 : Nat) (x5 : List (List Nat)) (x6
    : State) (h6 : Kept k x6) : Kept k (planCopy x0 x1 x2 x3 x4 x5 x6) := by
  unfold planCopy
  repeat first
    | with_reducible first
      | assumption | apply kept_State_plan
    | split | dsimp only | simp only [Kept.upd] | intro _

theorem kept_copyOne (x0 : ClusterLoc) (x1 : Nat) (x2 : CopyArgs) (x3 : Nat) (x4 : Nat) (x5 : List (List Nat)) (x6 :
    State) (h6 : Kept k x6) : Kept k (copyOne x0 x1 x2 x3 x4 x5 x6) := by
  unfold copyOne
  repeat first
    | with_reducible first
      | assumption | apply kept_State_copyTile | apply kept_planCopy
    | split | dsimp only | simp only [Kept.upd] | intro _

theorem kept_copyEffect (x0 : ClusterLoc) (x1 : Nat) (x2 : CopyArgs) (x3 : State) (h3 : Kept k x3) : Kept k
    (copyEffect x0 x1 x2 x3) := by
  unfold copyEffect
  repeat first
    | with_reducible first
      | assumption | apply kept_State_plan | apply kept_State_setBusy
    | split | dsimp only | simp only [Kept.upd] | intro _

theorem kept_copyArrives (x0 : ClusterLoc) (x1 : Nat) (x2 : CopyArgs) (x3 : State) (h3 : Kept k x3) : Kept k
    (copyArrives x0 x1 x2 x3) := by
  unfold copyArrives
  repeat first
    | with_reducible first
      | assumption | apply kept_State_descRead | apply kept_planCopy
    | split | dsimp only | simp only [Kept.upd] | intro _

theorem kept_State_readSlotWord (x0 : State) (x1 : ClusterLoc) (x2 : Nat) (x3 : Nat) (x4 : Nat) (x5 : Nat) (x6 :
    StSlot) (h0 : Kept k x0) : Kept k (State.readSlotWord x0 x1 x2 x3 x4 x5 x6) := by
  unfold State.readSlotWord
  repeat first
    | with_reducible first
      | assumption | apply kept_State_noteCorrected | apply kept_State_notePoison | apply kept_foldl
      | apply kept_foldl_snd | apply kept_foldl_third
    | with_reducible rfl | with_reducible exact fun h => h | with_reducible exact fun h => smapWf_put _ _ _ _ h
    | with_reducible exact fun h => smapWf_mod _ _ _ _ h | with_reducible exact fun h => smapWf_map _ _ _ h
    | with_reducible exact fun h => smapWf_drop _ _ _ _ h | exact fun h => smapWf_foldl_put h
    | exact fun h => smapWf_foldl_mod h | with_reducible exact fun _ => smapWf_nil _ | split | dsimp only
    | simp only [Kept.upd] | with_reducible apply Kept.all | intro _ | with_reducible refine And.intro ?_ ?_

theorem kept_State_readSlot (x0 : State) (x1 : ClusterLoc) (x2 : Nat) (x3 : Nat) (x4 : Nat) (x5 : Nat) (x6 : Nat)
    (h0 : Kept k x0) : Kept k (State.readSlot x0 x1 x2 x3 x4 x5 x6) := by
  unfold State.readSlot
  repeat first
    | with_reducible first
      | assumption | apply kept_State_readSlotWord | apply kept_foldl | apply kept_foldl_snd
      | apply kept_foldl_third
    | split | dsimp only | simp only [Kept.upd] | intro _ | with_reducible refine And.intro ?_ ?_

theorem kept_State_closeRun (x0 : State) (x1 : ClusterLoc) (x2 : Nat) (x3 : Nat) (x4 : Option Nat) (x5 : Option
    (Word × List Word)) (h0 : Kept k x0) : Kept k (State.closeRun x0 x1 x2 x3 x4 x5) := by
  unfold State.closeRun
  repeat first
    | with_reducible first
      | assumption | apply kept_State_plan | apply kept_State_setStipple
    | split | dsimp only | simp only [Kept.upd] | intro _

theorem kept_State_stServe (s : State) (c : ClusterLoc) (w : Bool) (l t a n : Nat) (h : Kept k s) :
    ∀ r, s.stServe c w l t a n = some r → Kept k r.2 := by
  intro r hr
  simp only [State.stServe, Option.map_eq_some_iff] at hr
  obtain ⟨z, -, rfl⟩ := hr
  exact kept_State_setStipple _ _ _ h

theorem kept_State_stFault (x0 : State) (x1 : ClusterLoc) (x2 : Nat) (x3 : Nat) (x4 : Nat) (x5 : List (Nat × Nat))
    (h0 : Kept k x0) : Kept k (State.stFault x0 x1 x2 x3 x4 x5) := by
  unfold State.stFault
  repeat first
    | with_reducible first
      | assumption | apply kept_State_pend
    | split | dsimp only | simp only [Kept.upd] | intro _

theorem kept_State_stStop (x0 : State) (x1 : ClusterLoc) (x2 : Nat) (h0 : Kept k x0) : Kept k (State.stStop x0 x1
    x2) := by
  unfold State.stStop
  repeat first
    | with_reducible first
      | assumption | apply kept_State_setStipple
    | split | dsimp only | simp only [Kept.upd] | intro _

theorem kept_State_stHalt (x0 : State) (x1 : ClusterLoc) (x2 : Nat) (x3 : Nat) (x4 : Nat) (x5 : List (Nat × Nat))
    (h0 : Kept k x0) : Kept k (State.stHalt x0 x1 x2 x3 x4 x5) := by
  unfold State.stHalt
  repeat first
    | with_reducible first
      | assumption | apply kept_State_stFault | apply kept_State_stStop
    | split | dsimp only | simp only [Kept.upd] | intro _

theorem kept_State_purge (x0 : State) (x1 : ClusterLoc) (x2 : Nat) (h0 : Kept k x0) : Kept k (State.purge x0 x1 x2)
    := by
  unfold State.purge
  repeat first
    | with_reducible first
      | assumption | apply kept_State_setStipple
    | split | dsimp only | simp only [Kept.upd] | intro _

theorem kept_State_stWrite (x0 : State) (x1 : ClusterLoc) (x2 : Nat) (x3 : Nat) (x4 : List Byte) (x5 : Option (List
    Served)) (h0 : Kept k x0) : Kept k (State.stWrite x0 x1 x2 x3 x4 x5) := by
  unfold State.stWrite
  repeat first
    | with_reducible first
      | assumption | apply kept_State_writeParts
    | split | dsimp only | simp only [Kept.upd] | intro _

theorem kept_State_spillRun (x0 : State) (x1 : ClusterLoc) (x2 : StRun) (h0 : Kept k x0) : Kept k (State.spillRun x0
    x1 x2) := by
  unfold State.spillRun
  repeat first
    | with_reducible first
      | assumption | apply kept_State_stHalt | apply kept_State_stWrite | apply kept_State_setStipple
      | apply kept_State_stServe
    | split | dsimp only | simp only [Kept.upd] | intro _

theorem kept_State_insertRun (x0 : State) (x1 : ClusterLoc) (x2 : StRun) (h0 : Kept k x0) : Kept k (State.insertRun
    x0 x1 x2) := by
  unfold State.insertRun
  repeat first
    | with_reducible first
      | assumption | apply kept_State_purge | apply kept_State_readSlot | apply kept_State_setStipple
      | apply kept_State_spillRun | apply kept_foldl | apply kept_foldl_snd | apply kept_foldl_third
    | split | dsimp only | simp only [Kept.upd] | intro _ | with_reducible refine And.intro ?_ ?_

theorem kept_insertOldest (x0 : ClusterLoc) (x1 : State) (h1 : Kept k x1) : Kept k (insertOldest x0 x1) := by
  unfold insertOldest
  repeat first
    | with_reducible first
      | assumption | apply kept_State_insertRun | apply kept_State_setStipple
    | split | dsimp only | simp only [Kept.upd] | intro _

theorem kept_insertDue (x0 : ClusterLoc) (x1 : Nat) (x2 : State) (h2 : Kept k x2) : Kept k (insertDue x0 x1 x2) :=
    by
  unfold insertDue
  repeat first
    | with_reducible first
      | assumption | apply kept_insertOldest
    | split | dsimp only | simp only [Kept.upd] | intro _

theorem kept_execStippleInsert (x0 : ClusterLoc) (x1 : State) (h1 : Kept k x1) : ∀ t, (execStippleInsert x0 x1) =
    .next t → Kept k t := by
  intro t h
  unfold execStippleInsert at h
  try dsimp only at h
  repeat (split at h)
  all_goals first
    | (cases h; done)
    | (injection h with h; subst h)
  repeat first
    | with_reducible first
      | assumption | apply kept_insertOldest | apply kept_foldl | apply kept_foldl_snd | apply kept_foldl_third
    | split | dsimp only | simp only [Kept.upd] | intro _

theorem kept_clearEffect (x0 : ClusterLoc) (x1 : Nat) (x2 : ClearArgs) (x3 : State) (h3 : Kept k x3) : Kept k
    (clearEffect x0 x1 x2 x3) := by
  unfold clearEffect
  repeat first
    | with_reducible first
      | assumption | apply kept_State_purge | apply kept_State_plan | apply kept_State_setBusy
      | apply kept_State_setStipple
    | split | dsimp only | simp only [Kept.upd] | intro _

theorem kept_clearArrives (x0 : ClusterLoc) (x1 : Nat) (x2 : ClearArgs) (x3 : State) (h3 : Kept k x3) : Kept k
    (clearArrives x0 x1 x2 x3) := by
  unfold clearArrives
  repeat first
    | with_reducible first
      | assumption | apply kept_State_descRead | apply kept_State_setStipple
    | split | dsimp only | simp only [Kept.upd] | intro _

theorem kept_clearedAll (x0 : ClusterLoc) (x1 : Nat) (x2 : State) (h2 : Kept k x2) : Kept k (clearedAll x0 x1 x2) :=
    by
  unfold clearedAll
  repeat first
    | with_reducible first
      | assumption | apply kept_State_purge | apply kept_State_setStipple
    | split | dsimp only | simp only [Kept.upd] | intro _

theorem kept_State_stRead (x0 : State) (x1 : ClusterLoc) (x2 : Nat) (x3 : Nat) (x4 : Nat) (x5 : Nat) (x6 : Nat) (h0
    : Kept k x0) : Kept k (State.stRead x0 x1 x2 x3 x4 x5 x6).2 := by
  unfold State.stRead
  repeat first
    | with_reducible first
      | assumption | apply kept_State_stationRead
    | split | dsimp only | simp only [Kept.upd] | intro _

theorem kept_State_accumEntry (x0 : State) (x1 : ClusterLoc) (x2 : Nat) (x3 : AccumArgs) (x4 : Nat) (h0 : Kept k x0)
    : Kept k (State.accumEntry x0 x1 x2 x3 x4).2 := by
  unfold State.accumEntry
  repeat first
    | with_reducible first
      | assumption | apply kept_State_stRead
    | split | dsimp only | simp only [Kept.upd] | intro _

theorem kept_planAccum (x0 : ClusterLoc) (x1 : Nat) (x2 : AccumArgs) (x3 : Nat) (x4 : Option (Word × List Word)) (x5
    : State) (h5 : Kept k x5) : Kept k (planAccum x0 x1 x2 x3 x4 x5) := by
  unfold planAccum
  repeat first
    | with_reducible first
      | assumption | apply kept_State_plan
    | split | dsimp only | simp only [Kept.upd] | intro _

theorem kept_accumOne (x0 : ClusterLoc) (x1 : Nat) (x2 : AccumArgs) (x3 : Nat) (x4 : Option (Word × List Word)) (x5
    : State) (h5 : Kept k x5) : Kept k (accumOne x0 x1 x2 x3 x4 x5) := by
  unfold accumOne
  repeat first
    | with_reducible first
      | assumption | apply kept_State_accumEntry | apply kept_planAccum | apply kept_State_closeRun
    | split | dsimp only | simp only [Kept.upd] | intro _

theorem kept_accumEffect (x0 : ClusterLoc) (x1 : Nat) (x2 : AccumArgs) (x3 : State) (h3 : Kept k x3) : Kept k
    (accumEffect x0 x1 x2 x3) := by
  unfold accumEffect
  repeat first
    | with_reducible first
      | assumption | apply kept_planAccum | apply kept_State_setBusy | apply kept_State_setStipple
    | split | dsimp only | simp only [Kept.upd] | intro _

theorem kept_State_stArrive (x0 : State) (x1 : ClusterLoc) (x2 : Nat) (x3 : Nat) (x4 : List Served) (h0 : Kept k x0)
    : Kept k (State.stArrive x0 x1 x2 x3 x4).2 := by
  unfold State.stArrive
  repeat first
    | with_reducible first
      | assumption | apply kept_State_reportRead
    | split | dsimp only | simp only [Kept.upd] | intro _

theorem kept_gatherHeader (x0 : ClusterLoc) (x1 : Nat) (x2 : Nat) (x3 : GatherProg × State) (h3 : Kept k x3.2) :
    Kept k (gatherHeader x0 x1 x2 x3).2 := by
  unfold gatherHeader
  repeat first
    | with_reducible first
      | assumption | apply kept_State_stArrive
    | split | dsimp only | simp only [Kept.upd] | intro _

theorem kept_gatherEnter (x0 : ClusterLoc) (x1 : Nat) (x2 : Nat) (x3 : Nat) (x4 : GatherProg × State) (h4 : Kept k
    x4.2) : Kept k (gatherEnter x0 x1 x2 x3 x4).2 := by
  unfold gatherEnter
  repeat first
    | with_reducible first
      | assumption | apply kept_State_closeRun
    | split | dsimp only | simp only [Kept.upd] | intro _

theorem kept_gatherRow (x0 : ClusterLoc) (x1 : Nat) (x2 : Nat) (x3 : StOp) (x4 : GatherProg × State) (h4 : Kept k
    x4.2) : Kept k (gatherRow x0 x1 x2 x3 x4).2 := by
  unfold gatherRow
  repeat first
    | with_reducible first
      | assumption | apply kept_State_stArrive
    | split | dsimp only | simp only [Kept.upd] | intro _

theorem kept_readIn (x0 : ClusterLoc) (x1 : Nat) (x2 : Nat) (x3 : Nat) (x4 : Nat) (x5 : State) (h5 : Kept k x5) : ∀
    t, (readIn x0 x1 x2 x3 x4 x5) = some t → Kept k t.2 := by
  unfold readIn
  repeat first
    | with_reducible first
      | assumption | apply kept_State_stServe
    | split | dsimp only | simp only [Kept.upd] | intro _

theorem kept_gatherReadHeader (c : ClusterLoc) (a : GatherArgs) (l x : Nat) (z : GatherProg × State)
    (h : Kept k z.2) : ∀ t, gatherReadHeader c a l x z = some t → Kept k t.2 := by
  intro t ht
  unfold gatherReadHeader at ht
  split at ht
  · rw [Option.map_eq_some_iff] at ht
    obtain ⟨r, hr, rfl⟩ := ht
    exact kept_readIn _ _ _ _ _ _ h _ hr
  · injection ht with ht
    exact ht ▸ h

theorem kept_gatherReadEntry (c : ClusterLoc) (a : GatherArgs) (l x : Nat) (z : GatherProg × State)
    (h : Kept k z.2) : ∀ t, gatherReadEntry c a l x z = some t → Kept k t.2 := by
  intro t ht
  unfold gatherReadEntry at ht
  split at ht
  · injection ht with ht
    exact ht ▸ h
  · split at ht
    · injection ht with ht
      exact ht ▸ h
    · dsimp only at ht
      rw [Option.map_eq_some_iff] at ht
      obtain ⟨r, hr, rfl⟩ := ht
      exact kept_readIn _ _ _ _ _ _ h _ hr

theorem kept_gatherReadRow (c : ClusterLoc) (o : StOp) (l x : Nat) (z : GatherProg × State) (h : Kept k z.2) :
    ∀ t, gatherReadRow c o l x z = some t → Kept k t.2 := by
  intro t ht
  unfold gatherReadRow at ht
  split at ht
  · injection ht with ht
    exact ht ▸ h
  · dsimp only at ht
    split at ht
    · rw [Option.map_eq_some_iff] at ht
      obtain ⟨r, hr, rfl⟩ := ht
      exact kept_readIn _ _ _ _ _ _ h _ hr
    · injection ht with ht
      exact ht ▸ h

theorem kept_gatherEntry (x0 : ClusterLoc) (x1 : Nat) (x2 : Nat) (x3 : StOp) (x4 : GatherProg × State) (h4 : Kept k
    x4.2) : Kept k (gatherEntry x0 x1 x2 x3 x4).2 := by
  unfold gatherEntry
  repeat first
    | with_reducible first
      | assumption | apply kept_State_stArrive | apply kept_State_stFault
    | split | dsimp only | simp only [Kept.upd] | intro _

theorem kept_gatherOne (c : ClusterLoc) (i : Nat) (a : GatherArgs) (g : GatherProg) (s : State) (h : Kept k s) :
    Kept k (gatherOne c i a g s) := by
  unfold gatherOne
  dsimp only
  split
  · exact kept_State_plan _ _ _ _ _ (kept_State_closeRun _ _ _ _ _ _ h)
  · have hz := kept_gatherRow (k := k) c i (i + 1281 + g.d) g.op _
      (kept_gatherEnter c i (i + 1281 + g.d) (i + a.reserve.toNat) _
        (kept_gatherHeader c i (i + 1281 + g.d) (g, s) h))
    split
    · exact kept_State_stHalt _ _ _ _ _ _ hz
    · next hb =>
      rw [Option.bind_eq_some_iff] at hb
      obtain ⟨z2, hb, h3⟩ := hb
      rw [Option.bind_eq_some_iff] at hb
      obtain ⟨z1, h1, h2⟩ := hb
      exact kept_State_plan _ _ _ _ _ (kept_gatherEntry _ _ _ _ _ (kept_gatherReadRow _ _ _ _ _
        (kept_gatherReadEntry _ _ _ _ _ (kept_gatherReadHeader _ _ _ _ _ hz _ h1) _ h2) _ h3))

theorem kept_gatherCount (x0 : ClusterLoc) (x1 : Nat) (x2 : GatherArgs) (x3 : List Served) (x4 : State) (h4 : Kept k
    x4) : Kept k (gatherCount x0 x1 x2 x3 x4) := by
  unfold gatherCount
  repeat first
    | with_reducible first
      | assumption | apply kept_State_stArrive | apply kept_State_stFault | apply kept_State_plan
    | split | dsimp only | simp only [Kept.upd] | intro _

theorem kept_gatherEffect (c : ClusterLoc) (t : Nat) (a : GatherArgs) (s : State) (h : Kept k s) :
    Kept k (gatherEffect c t a s) := by
  have h1 := kept_State_setBusy _ (srcCluster c 2) (t + a.reserve.toNat)
    (kept_State_setStipple s c { s.stipple c with claims := [] } h)
  unfold gatherEffect
  dsimp only
  split
  · exact kept_State_stFault _ _ _ _ _ _ h1
  · next hr => exact kept_State_plan _ _ _ _ _ (kept_readIn _ _ _ _ _ _ h1 _ hr)

theorem kept_State_freeSlot (x0 : State) (x1 : ClusterLoc) (x2 : Nat) (h0 : Kept k x0) : Kept k (State.freeSlot x0
    x1 x2) := by
  unfold State.freeSlot
  repeat first
    | with_reducible first
      | assumption | apply kept_State_setStipple
    | split | dsimp only | simp only [Kept.upd] | intro _

theorem kept_foldSlot (c : ClusterLoc) (i l t p : Nat) (v : StSlot) (z : FoldProg × State)
    (h : Kept k z.2) : ∀ r, foldSlot c i l t p v z = some r → Kept k r.2 := by
  intro r hr
  unfold foldSlot at hr
  dsimp only at hr
  split at hr
  · injection hr with hr
    subst hr
    apply kept_State_freeSlot
    split
    · exact h
    · exact kept_State_stFault _ _ _ _ _ _ h
  · rw [Option.map_eq_some_iff] at hr
    obtain ⟨y, hy, rfl⟩ := hr
    exact kept_State_stWrite _ _ _ _ _ _ (kept_State_freeSlot _ _ _
      (kept_State_stServe _ _ _ _ _ _ _ (kept_State_readSlot _ _ _ _ _ _ _ h) _ hy))

theorem kept_foldReads (x0 : ClusterLoc) (x1 : Nat) (x2 : FoldProg) (x3 : Nat) (x4 : State) (h4 : Kept k x4) : Kept
    k (foldReads x0 x1 x2 x3 x4).2.2 := by
  unfold foldReads
  repeat first
    | with_reducible first
      | assumption | apply kept_readIn | apply kept_foldl | apply kept_foldl_snd | apply kept_foldl_third
    | split | dsimp only | simp only [Kept.upd] | intro _ | with_reducible refine And.intro ?_ ?_

theorem kept_foldTotal (x0 : ClusterLoc) (x1 : Nat) (x2 : Nat) (x3 : FoldProg) (x4 : State) (h4 : Kept k x4) : Kept
    k (foldTotal x0 x1 x2 x3 x4) := by
  unfold foldTotal
  repeat first
    | with_reducible first
      | assumption | apply kept_State_stServe | apply kept_State_stHalt | apply kept_State_stWrite
      | apply kept_State_setStipple
    | split | dsimp only | simp only [Kept.upd] | intro _

theorem kept_foldRound (x0 : ClusterLoc) (x1 : Nat) (x2 : FoldArgs) (x3 : FoldProg) (x4 : State) (h4 : Kept k x4) :
    Kept k (foldRound x0 x1 x2 x3 x4) := by
  unfold foldRound
  repeat first
    | with_reducible first
      | assumption | apply kept_foldTotal | apply kept_foldReads | apply kept_State_plan
    | split | dsimp only | simp only [Kept.upd] | intro _

theorem kept_foldVisit (c : ClusterLoc) (i t : Nat) (a : FoldArgs) (g : FoldProg) (s : State) (h : Kept k s) :
    Kept k (foldVisit c i t a g s) := by
  unfold foldVisit
  dsimp only
  have hp := kept_State_purge s c t h
  split
  · split
    · exact kept_State_stHalt _ _ _ _ _ _ hp
    · next hz =>
      apply kept_State_plan
      split at hz
      · injection hz with hz
        exact hz ▸ hp
      · exact kept_foldSlot _ _ _ _ _ _ _ hp _ hz
  · exact kept_foldRound _ _ _ _ _ h

theorem kept_foldRefill (x0 : ClusterLoc) (x1 : Nat) (x2 : FoldArgs) (x3 : FoldProg) (x4 : State) (h4 : Kept k x4) :
    Kept k (foldRefill x0 x1 x2 x3 x4) := by
  unfold foldRefill
  repeat first
    | with_reducible first
      | assumption | apply kept_State_stArrive | apply kept_State_plan | apply kept_State_closeRun
    | split | dsimp only | simp only [Kept.upd] | intro _

theorem kept_foldEffect (x0 : ClusterLoc) (x1 : Nat) (x2 : FoldArgs) (x3 : State) (h3 : Kept k x3) : Kept k
    (foldEffect x0 x1 x2 x3) := by
  unfold foldEffect
  repeat first
    | with_reducible first
      | assumption | apply kept_State_setBusy | apply kept_State_setStipple | apply kept_State_plan
    | split | dsimp only | simp only [Kept.upd] | intro _

end Sys2Proof.Laws
end

