-- ==== Sys2Proof/Laws/KeptStations.lean ====
section
/-! SUPPORT. What the update units, the relays and the agenda do keeps them, and so every station command. -/

namespace Sys2Proof.Laws
open Sys2Proof Sys2Proof.Machine

variable {k : List Instr × DWord × Option (BitVec 384) × BitVec 384}

theorem kept_State_schedule (x0 : State) (x1 : UnitLoc) (x2 : Nat) (x3 : HyperSet) (h0 : Kept k x0) : Kept k
    (State.schedule x0 x1 x2 x3).2 := by
  unfold State.schedule
  repeat first
    | with_reducible first
      | assumption | apply kept_State_rankRead
    | split | dsimp only | simp only [Kept.upd] | intro _

theorem kept_State_readPlane (x0 : State) (x1 : UnitLoc) (x2 : Nat) (x3 : Nat) (x4 : Nat) (x5 : Nat) (x6 : Nat) (x7
    : Nat) (h0 : Kept k x0) : Kept k (State.readPlane x0 x1 x2 x3 x4 x5 x6 x7).2 := by
  unfold State.readPlane
  repeat first
    | with_reducible first
      | assumption | apply kept_State_stationRead
    | split | dsimp only | simp only [Kept.upd] | intro _

theorem kept_State_readChunk (x0 : State) (x1 : UnitLoc) (x2 : Nat) (x3 : UpdateArgs) (x4 : UpdateDesc) (x5 : Nat)
    (h0 : Kept k x0) : Kept k (State.readChunk x0 x1 x2 x3 x4 x5).2 := by
  unfold State.readChunk
  repeat first
    | with_reducible first
      | assumption | apply kept_State_readPlane | apply kept_foldl | apply kept_foldl_snd
      | apply kept_foldl_third
    | split | dsimp only | simp only [Kept.upd] | intro _ | with_reducible refine And.intro ?_ ?_

theorem kept_State_updateChunk (x0 : State) (x1 : UnitLoc) (x2 : Nat) (x3 : UpdateArgs) (x4 : UpdateDesc) (x5 :
    HyperSet) (x6 : Schedule) (x7 : Option Word) (x8 : Bool) (x9 : Nat) (h0 : Kept k x0) : Kept k (State.updateChunk
    x0 x1 x2 x3 x4 x5 x6 x7 x8 x9) := by
  unfold State.updateChunk
  repeat first
    | with_reducible first
      | assumption | apply kept_State_readChunk | apply kept_State_stationWrite | apply kept_foldl
      | apply kept_foldl_snd | apply kept_foldl_third
    | split | dsimp only | simp only [Kept.upd] | intro _ | with_reducible refine And.intro ?_ ?_

theorem kept_planChunk (x0 : UnitLoc) (x1 : Nat) (x2 : UpdateArgs) (x3 : Nat) (x4 : Option Word) (x5 : Bool) (x6 :
    Schedule) (x7 : Nat) (x8 : State) (h8 : Kept k x8) : Kept k (planChunk x0 x1 x2 x3 x4 x5 x6 x7 x8) := by
  unfold planChunk
  repeat first
    | with_reducible first
      | assumption | apply kept_State_plan
    | split | dsimp only | simp only [Kept.upd] | intro _

theorem kept_chunkOne (x0 : UnitLoc) (x1 : Nat) (x2 : UpdateArgs) (x3 : Nat) (x4 : Option Word) (x5 : Bool) (x6 :
    Schedule) (x7 : Nat) (x8 : State) (h8 : Kept k x8) : Kept k (chunkOne x0 x1 x2 x3 x4 x5 x6 x7 x8) := by
  unfold chunkOne
  repeat first
    | with_reducible first
      | assumption | apply kept_planChunk | apply kept_State_updateChunk
    | split | dsimp only | simp only [Kept.upd] | intro _

theorem kept_scheduleArrives (x0 : UnitLoc) (x1 : Nat) (x2 : UpdateArgs) (x3 : Nat) (x4 : Option Word) (x5 : Bool)
    (x6 : State) (h6 : Kept k x6) : Kept k (scheduleArrives x0 x1 x2 x3 x4 x5 x6) := by
  unfold scheduleArrives
  repeat first
    | with_reducible first
      | assumption | apply kept_State_schedule | apply kept_planChunk
    | split | dsimp only | simp only [Kept.upd] | intro _

theorem kept_updateEffect (x0 : UnitLoc) (x1 : Nat) (x2 : UpdateArgs) (x3 : State) (h3 : Kept k x3) : Kept k
    (updateEffect x0 x1 x2 x3) := by
  unfold updateEffect
  repeat first
    | with_reducible first
      | assumption | apply kept_State_plan | apply kept_State_setBusy
    | split | dsimp only | simp only [Kept.upd] | intro _

theorem kept_updateArrives (x0 : UnitLoc) (x1 : Nat) (x2 : UpdateArgs) (x3 : Option Word) (x4 : Bool) (x5 : State)
    (h5 : Kept k x5) : Kept k (updateArrives x0 x1 x2 x3 x4 x5) := by
  unfold updateArrives
  repeat first
    | with_reducible first
      | assumption | apply kept_State_descRead | apply kept_State_plan
    | split | dsimp only | simp only [Kept.upd] | intro _

theorem kept_State_formClip (x0 : State) (x1 : Nat) (x2 : Nat) (x3 : Word) (x4 : Nat) (h0 : Kept k x0) : Kept k
    (State.formClip x0 x1 x2 x3 x4) := by
  unfold State.formClip
  repeat first
    | with_reducible first
      | assumption
    | split | dsimp only | simp only [Kept.upd] | intro _

theorem kept_State_normFormed (x0 : State) (x1 : NormJob) (h0 : Kept k x0) : Kept k (State.normFormed x0 x1) := by
  unfold State.normFormed
  repeat first
    | with_reducible first
      | assumption | apply kept_State_formClip | apply kept_State_plan
    | split | dsimp only | simp only [Kept.upd] | intro _

theorem kept_normEffect (x0 : UnitLoc) (x1 : Nat) (x2 : NormArgs) (x3 : State) (h3 : Kept k x3) : Kept k (normEffect
    x0 x1 x2 x3) := by
  unfold normEffect
  repeat first
    | with_reducible first
      | assumption | apply kept_State_settleCharges | apply kept_State_normFormed
    | split | dsimp only | simp only [Kept.upd] | intro _

theorem kept_State_normStart (x0 : State) (h0 : Kept k x0) : Kept k (State.normStart x0) := by
  unfold State.normStart
  repeat first
    | with_reducible first
      | assumption | apply kept_State_plan
    | split | dsimp only | simp only [Kept.upd] | intro _

theorem kept_State_normTail (x0 : State) (h0 : Kept k x0) : Kept k (State.normTail x0) := by
  unfold State.normTail
  repeat first
    | with_reducible first
      | assumption | apply kept_State_formClip
    | split | dsimp only | simp only [Kept.upd] | intro _

theorem kept_State_sendFlit (x0 : State) (x1 : RelayLoc) (x2 : SendArgs) (x3 : Nat) (x4 : List Byte) (x5 : Bool) (h0
    : Kept k x0) : Kept k (State.sendFlit x0 x1 x2 x3 x4 x5) := by
  unfold State.sendFlit
  repeat first
    | with_reducible first
      | assumption | apply kept_State_kazinSend | apply kept_State_seamSend
    | split | dsimp only | simp only [Kept.upd] | intro _

theorem kept_planSend (x0 : RelayLoc) (x1 : Nat) (x2 : SendArgs) (x3 : Nat) (x4 : Nat) (x5 : List Byte) (x6 : Bool)
    (x7 : State) (h7 : Kept k x7) : Kept k (planSend x0 x1 x2 x3 x4 x5 x6 x7) := by
  unfold planSend
  repeat first
    | with_reducible first
      | assumption | apply kept_State_plan
    | split | dsimp only | simp only [Kept.upd] | intro _

theorem kept_State_sendWord (x0 : State) (x1 : RelayLoc) (x2 : Nat) (x3 : SendArgs) (x4 : List Byte × Bool × Bool)
    (x5 : Nat) (h0 : Kept k x0) : Kept k (State.sendWord x0 x1 x2 x3 x4 x5).2 := by
  unfold State.sendWord
  repeat first
    | with_reducible first
      | assumption | apply kept_State_stationRead
    | split | dsimp only | simp only [Kept.upd] | intro _

theorem kept_sendOne (x0 : RelayLoc) (x1 : Nat) (x2 : SendArgs) (x3 : Nat) (x4 : Nat) (x5 : List Byte) (x6 : Bool)
    (x7 : State) (h7 : Kept k x7) : Kept k (sendOne x0 x1 x2 x3 x4 x5 x6 x7) := by
  unfold sendOne
  repeat first
    | with_reducible first
      | assumption | apply kept_State_sendWord | apply kept_planSend | apply kept_State_sendFlit
      | apply kept_foldl | apply kept_foldl_snd | apply kept_foldl_third
    | split | dsimp only | simp only [Kept.upd] | intro _ | with_reducible refine And.intro ?_ ?_

theorem kept_sendEffect (x0 : RelayLoc) (x1 : Nat) (x2 : SendArgs) (x3 : State) (h3 : Kept k x3) : Kept k
    (sendEffect x0 x1 x2 x3) := by
  unfold sendEffect
  repeat first
    | with_reducible first
      | assumption | apply kept_planSend | apply kept_State_setBusy
    | split | dsimp only | simp only [Kept.upd] | intro _

theorem kept_recvEffect (x0 : RelayLoc) (x1 : Nat) (x2 : RecvArgs) (x3 : State) (h3 : Kept k x3) : Kept k
    (recvEffect x0 x1 x2 x3) := by
  unfold recvEffect
  repeat first
    | with_reducible first
      | assumption | apply kept_State_setBusy | apply kept_State_offerBuffered | apply kept_foldl
      | apply kept_foldl_snd | apply kept_foldl_third
    | split | dsimp only | simp only [Kept.upd] | intro _ | with_reducible refine And.intro ?_ ?_

theorem kept_planFxexp (x0 : RelayLoc) (x1 : Nat) (x2 : FxexpArgs) (x3 : Nat) (x4 : State) (h4 : Kept k x4) : Kept k
    (planFxexp x0 x1 x2 x3 x4) := by
  unfold planFxexp
  repeat first
    | with_reducible first
      | assumption | apply kept_State_plan
    | split | dsimp only | simp only [Kept.upd] | intro _

theorem kept_State_joinMax (x0 : State) (x1 : Nat) (x2 : Option Int) (h0 : Kept k x0) : Kept k (State.joinMax x0 x1
    x2) := by
  unfold State.joinMax
  repeat first
    | with_reducible first
      | assumption | apply kept_foldl | apply kept_foldl_snd | apply kept_foldl_third
    | with_reducible rfl | with_reducible exact fun h => h | with_reducible exact fun h => smapWf_put _ _ _ _ h
    | with_reducible exact fun h => smapWf_mod _ _ _ _ h | with_reducible exact fun h => smapWf_map _ _ _ h
    | with_reducible exact fun h => smapWf_drop _ _ _ _ h | exact fun h => smapWf_foldl_put h
    | exact fun h => smapWf_foldl_mod h | with_reducible exact fun _ => smapWf_nil _ | split | dsimp only
    | simp only [Kept.upd] | with_reducible apply Kept.all | intro _ | with_reducible refine And.intro ?_ ?_

theorem kept_fxexpOne (x0 : RelayLoc) (x1 : Nat) (x2 : FxexpArgs) (x3 : Nat) (x4 : State) (h4 : Kept k x4) : Kept k
    (fxexpOne x0 x1 x2 x3 x4) := by
  unfold fxexpOne
  repeat first
    | with_reducible first
      | assumption | apply kept_State_stationRead | apply kept_planFxexp | apply kept_State_joinMax
    | split | dsimp only | simp only [Kept.upd] | intro _

theorem kept_fxexpEffect (x0 : RelayLoc) (x1 : Nat) (x2 : FxexpArgs) (x3 : State) (h3 : Kept k x3) : Kept k
    (fxexpEffect x0 x1 x2 x3) := by
  unfold fxexpEffect
  repeat first
    | with_reducible first
      | assumption | apply kept_planFxexp | apply kept_State_setBusy | apply kept_State_joinMax
    | split | dsimp only | simp only [Kept.upd] | intro _

theorem kept_State_fxGroup (x0 : State) (x1 : FxKind) (x2 : RelayLoc) (x3 : Nat) (x4 : FxArgs) (x5 : Nat) (h0 : Kept
    k x0) : Kept k (State.fxGroup x0 x1 x2 x3 x4 x5) := by
  unfold State.fxGroup
  repeat first
    | with_reducible first
      | assumption | apply kept_State_stationRead | apply kept_State_stationWrite
    | split | dsimp only | simp only [Kept.upd] | intro _

theorem kept_planFx (x0 : FxKind) (x1 : RelayLoc) (x2 : Nat) (x3 : FxArgs) (x4 : Nat) (x5 : State) (h5 : Kept k x5)
    : Kept k (planFx x0 x1 x2 x3 x4 x5) := by
  unfold planFx
  repeat first
    | with_reducible first
      | assumption | apply kept_State_plan
    | split | dsimp only | simp only [Kept.upd] | intro _

theorem kept_fxOne (x0 : FxKind) (x1 : RelayLoc) (x2 : Nat) (x3 : FxArgs) (x4 : Nat) (x5 : State) (h5 : Kept k x5) :
    Kept k (fxOne x0 x1 x2 x3 x4 x5) := by
  unfold fxOne
  repeat first
    | with_reducible first
      | assumption | apply kept_planFx | apply kept_State_fxGroup
    | split | dsimp only | simp only [Kept.upd] | intro _

theorem kept_fxEffect (x0 : FxKind) (x1 : RelayLoc) (x2 : Nat) (x3 : FxArgs) (x4 : State) (h4 : Kept k x4) : Kept k
    (fxEffect x0 x1 x2 x3 x4) := by
  unfold fxEffect
  repeat first
    | with_reducible first
      | assumption | apply kept_planFx | apply kept_State_setBusy
    | split | dsimp only | simp only [Kept.upd] | intro _

theorem kept_State_setExponents (x0 : State) (h0 : Kept k x0) : Kept k (State.setExponents x0) := by
  unfold State.setExponents
  repeat first
    | with_reducible first
      | assumption | apply kept_foldl | apply kept_foldl_snd | apply kept_foldl_third
    | with_reducible rfl | with_reducible exact fun h => h | with_reducible exact fun h => smapWf_put _ _ _ _ h
    | with_reducible exact fun h => smapWf_mod _ _ _ _ h | with_reducible exact fun h => smapWf_map _ _ _ h
    | with_reducible exact fun h => smapWf_drop _ _ _ _ h | exact fun h => smapWf_foldl_put h
    | exact fun h => smapWf_foldl_mod h | with_reducible exact fun _ => smapWf_nil _ | split | dsimp only
    | simp only [Kept.upd] | with_reducible apply Kept.all | intro _ | with_reducible refine And.intro ?_ ?_

theorem kept_doJob (x0 : Nat) (x1 : Nat) (x2 : Job) (x3 : State) (h3 : Kept k x3) : Kept k (doJob x0 x1 x2 x3) := by
  unfold doJob
  repeat first
    | with_reducible first
      | assumption | apply kept_loadRow | apply kept_metaWords | apply kept_planeArrives
      | apply kept_paramsArrive | apply kept_copyArrives | apply kept_burnArrives | apply kept_topbArrives
      | apply kept_setwinArrives | apply kept_samplingArrives | apply kept_clearArrives
      | apply kept_updateArrives | apply kept_clearedAll | apply kept_copyOne | apply kept_burnOne
      | apply kept_topbOne | apply kept_sampleOne | apply kept_fillStep | apply kept_scheduleArrives
      | apply kept_chunkOne | apply kept_accumOne | apply kept_insertDue | apply kept_gatherCount
      | apply kept_gatherOne | apply kept_foldVisit | apply kept_foldRefill | apply kept_State_stHalt
      | apply kept_sendOne | apply kept_fxexpOne | apply kept_fxOne | apply kept_State_sendToAll
      | apply kept_State_testWatches
    | split | dsimp only | simp only [Kept.upd] | intro _

theorem kept_State_doNext (x0 : State) (h0 : Kept k x0) : Kept k (State.doNext x0) := by
  unfold State.doNext
  repeat first
    | with_reducible first
      | assumption | apply kept_State_takeWrite | apply kept_doJob
    | split | dsimp only | simp only [Kept.upd] | intro _

theorem kept_State_runFuel (f h : Nat) (s : State) (hs : Kept k s) : Kept k (State.runFuel f h s) := by
  induction f generalizing s with
  | zero => exact hs
  | succ f ih =>
    unfold State.runFuel
    dsimp only
    have h1 : ∀ n, Kept k (s.pumpAll n) := fun n => kept_State_pumpAll _ _ hs
    split
    · split
      · exact ih _ (kept_State_doNext _ (h1 _))
      · exact h1 _
    · exact h1 _

theorem kept_State_runTo (s : State) (h : Nat) (hs : Kept k s) : Kept k (s.runTo h) :=
  Kept.upd.mpr (kept_State_runFuel agendaFuel h s hs)

theorem kept_State_takeWrites (x0 : State) (h0 : Kept k x0) : Kept k (State.takeWrites x0) := by
  unfold State.takeWrites
  repeat first
    | with_reducible first
      | assumption | apply kept_State_takeWrite | apply kept_foldl | apply kept_foldl_snd
      | apply kept_foldl_third
    | split | dsimp only | simp only [Kept.upd] | intro _ | with_reducible refine And.intro ?_ ?_

theorem kept_State_reachTail (x0 : State) (h0 : Kept k x0) : Kept k (State.reachTail x0) := by
  unfold State.reachTail
  repeat first
    | with_reducible first
      | assumption | apply kept_State_runTo
    | split | dsimp only | simp only [Kept.upd] | intro _

theorem kept_State_wordCorrected (x0 : State) (x1 : StationRef) (x2 : Nat) (h0 : Kept k x0) : Kept k
    (State.wordCorrected x0 x1 x2) := by
  unfold State.wordCorrected
  repeat first
    | with_reducible first
      | assumption | apply kept_State_reportCorrected | apply kept_foldl | apply kept_foldl_snd
      | apply kept_foldl_third
    | split | dsimp only | simp only [Kept.upd] | intro _ | with_reducible refine And.intro ?_ ?_

theorem kept_State_skipWord (x0 : State) (x1 : StationRef) (x2 : Issue) (x3 : List Nat) (h0 : Kept k x0) : Kept k
    (State.skipWord x0 x1 x2 x3) := by
  unfold State.skipWord
  repeat first
    | with_reducible first
      | assumption | apply kept_State_countReport | apply kept_State_countPoison | apply kept_State_notePoison
      | apply kept_State_issued | apply kept_foldl | apply kept_foldl_snd | apply kept_foldl_third
    | split | dsimp only | simp only [Kept.upd] | intro _ | with_reducible refine And.intro ?_ ?_

/-- A station command keeps what its effect keeps. -/
theorem kept_stationStep (s : State) (st : StationRef) (i : Issue) (bad : State → Option Nat) (f : State → State)
    (h : Kept k s) (hf : ∀ s, Kept k s → Kept k (f s)) : ∀ t, stationStep s st i bad f = .next t → Kept k t := by
  intro t ht
  have h1 := kept_State_runTo s i.cycle.toNat h
  unfold stationStep at ht
  dsimp only at ht
  split at ht
  · injection ht with ht
    exact ht ▸ h
  · split at ht
    · cases ht
    · split at ht
      · injection ht with ht
        exact ht ▸ kept_State_skipWord _ _ _ _ h1
      · split at ht
        · cases ht
        · injection ht with ht
          exact ht ▸ hf _ (kept_State_issued _ _ _ (kept_State_wordCorrected _ _ _ h1))

theorem kept_loadStep (x0 : EngineLoc) (x1 : Issue) (x2 : LoadKind) (x3 : LoadArgs) (x4 : State) (h4 : Kept k x4) :
    ∀ t, (loadStep x0 x1 x2 x3 x4) = .next t → Kept k t := by
  unfold loadStep
  repeat first
    | with_reducible first
      | assumption | apply kept_stationStep | apply kept_loadEffect
    | split | dsimp only | simp only [Kept.upd] | intro _

theorem kept_execLoadA (x0 : EngineLoc) (x1 : Issue) (x2 : LoadArgs) (x3 : State) (h3 : Kept k x3) : ∀ t, (execLoadA
    x0 x1 x2 x3) = .next t → Kept k t := by
  unfold execLoadA
  repeat first
    | with_reducible first
      | assumption | apply kept_loadStep
    | split | dsimp only | simp only [Kept.upd] | intro _

theorem kept_execLoadS (x0 : EngineLoc) (x1 : Issue) (x2 : LoadArgs) (x3 : State) (h3 : Kept k x3) : ∀ t, (execLoadS
    x0 x1 x2 x3) = .next t → Kept k t := by
  unfold execLoadS
  repeat first
    | with_reducible first
      | assumption | apply kept_loadStep
    | split | dsimp only | simp only [Kept.upd] | intro _

theorem kept_execLoadDiag (x0 : EngineLoc) (x1 : Issue) (x2 : LoadArgs) (x3 : State) (h3 : Kept k x3) : ∀ t,
    (execLoadDiag x0 x1 x2 x3) = .next t → Kept k t := by
  unfold execLoadDiag
  repeat first
    | with_reducible first
      | assumption | apply kept_loadStep
    | split | dsimp only | simp only [Kept.upd] | intro _

theorem kept_execLoadMeta (x0 : EngineLoc) (x1 : Issue) (x2 : LoadMetaArgs) (x3 : State) (h3 : Kept k x3) : ∀ t,
    (execLoadMeta x0 x1 x2 x3) = .next t → Kept k t := by
  unfold execLoadMeta
  repeat first
    | with_reducible first
      | assumption | apply kept_stationStep | apply kept_loadMetaEffect
    | split | dsimp only | simp only [Kept.upd] | intro _

theorem kept_execLoadW (x0 : EngineLoc) (x1 : Issue) (x2 : LoadWArgs) (x3 : State) (h3 : Kept k x3) : ∀ t,
    (execLoadW x0 x1 x2 x3) = .next t → Kept k t := by
  unfold execLoadW
  repeat first
    | with_reducible first
      | assumption | apply kept_stationStep | apply kept_loadWEffect
    | split | dsimp only | simp only [Kept.upd] | intro _

theorem kept_execPass (x0 : EngineLoc) (x1 : Issue) (x2 : PassArgs) (x3 : State) (h3 : Kept k x3) : ∀ t, (execPass
    x0 x1 x2 x3) = .next t → Kept k t := by
  unfold execPass
  repeat first
    | with_reducible first
      | assumption | apply kept_stationStep | apply kept_passEffect
    | split | dsimp only | simp only [Kept.upd] | intro _

theorem kept_execSwap (x0 : EngineLoc) (x1 : Issue) (x2 : State) (h2 : Kept k x2) : ∀ t, (execSwap x0 x1 x2) = .next
    t → Kept k t := by
  unfold execSwap
  repeat first
    | with_reducible first
      | assumption | apply kept_stationStep | apply kept_swapEffect
    | split | dsimp only | simp only [Kept.upd] | intro _

theorem kept_execDrain (x0 : EngineLoc) (x1 : Issue) (x2 : DrainArgs) (x3 : State) (h3 : Kept k x3) : ∀ t,
    (execDrain x0 x1 x2 x3) = .next t → Kept k t := by
  unfold execDrain
  repeat first
    | with_reducible first
      | assumption | apply kept_stationStep | apply kept_drainEffect
    | split | dsimp only | simp only [Kept.upd] | intro _

theorem kept_execParam (x0 : EngineLoc) (x1 : Issue) (x2 : ParamArgs) (x3 : State) (h3 : Kept k x3) : ∀ t,
    (execParam x0 x1 x2 x3) = .next t → Kept k t := by
  unfold execParam
  repeat first
    | with_reducible first
      | assumption | apply kept_stationStep | apply kept_paramEffect
    | split | dsimp only | simp only [Kept.upd] | intro _

theorem kept_execWrite (x0 : EngineLoc) (x1 : Issue) (x2 : WriteArgs) (x3 : State) (h3 : Kept k x3) : ∀ t,
    (execWrite x0 x1 x2 x3) = .next t → Kept k t := by
  unfold execWrite
  repeat first
    | with_reducible first
      | assumption | apply kept_stationStep | apply kept_writeEffect
    | split | dsimp only | simp only [Kept.upd] | intro _

theorem kept_execMarkWait (x0 : StationRef) (x1 : Issue) (x2 : MarkWaitArgs) (x3 : State) (h3 : Kept k x3) : ∀ t,
    (execMarkWait x0 x1 x2 x3) = .next t → Kept k t := by
  unfold execMarkWait
  repeat first
    | with_reducible first
      | assumption | apply kept_stationStep | apply kept_markWaitEffect
    | split | dsimp only | simp only [Kept.upd] | intro _

theorem kept_execMarkSignal (x0 : StationRef) (x1 : Issue) (x2 : MarkSignalArgs) (x3 : State) (h3 : Kept k x3) : ∀
    t, (execMarkSignal x0 x1 x2 x3) = .next t → Kept k t := by
  unfold execMarkSignal
  repeat first
    | with_reducible first
      | assumption | apply kept_stationStep | apply kept_markSignalEffect
    | split | dsimp only | simp only [Kept.upd] | intro _

theorem kept_execMarkRemote (x0 : StationRef) (x1 : Issue) (x2 : MarkRemoteArgs) (x3 : State) (h3 : Kept k x3) : ∀
    t, (execMarkRemote x0 x1 x2 x3) = .next t → Kept k t := by
  unfold execMarkRemote
  repeat first
    | with_reducible first
      | assumption | apply kept_stationStep | apply kept_markRemoteEffect
    | split | dsimp only | simp only [Kept.upd] | intro _

theorem kept_execBurnish (x0 : ClusterLoc) (x1 : Issue) (x2 : BurnishArgs) (x3 : State) (h3 : Kept k x3) : ∀ t,
    (execBurnish x0 x1 x2 x3) = .next t → Kept k t := by
  unfold execBurnish
  repeat first
    | with_reducible first
      | assumption | apply kept_stationStep | apply kept_burnishEffect
    | split | dsimp only | simp only [Kept.upd] | intro _

theorem kept_execTopb (x0 : SelectorLoc) (x1 : Issue) (x2 : TopbArgs) (x3 : State) (h3 : Kept k x3) : ∀ t, (execTopb
    x0 x1 x2 x3) = .next t → Kept k t := by
  unfold execTopb
  repeat first
    | with_reducible first
      | assumption | apply kept_stationStep | apply kept_topbEffect
    | split | dsimp only | simp only [Kept.upd] | intro _

theorem kept_execSetwin (x0 : SelectorLoc) (x1 : Issue) (x2 : SetwinArgs) (x3 : State) (h3 : Kept k x3) : ∀ t,
    (execSetwin x0 x1 x2 x3) = .next t → Kept k t := by
  unfold execSetwin
  repeat first
    | with_reducible first
      | assumption | apply kept_stationStep | apply kept_setwinEffect
    | split | dsimp only | simp only [Kept.upd] | intro _

theorem kept_execSample (x0 : SelectorLoc) (x1 : Issue) (x2 : SampleArgs) (x3 : State) (h3 : Kept k x3) : ∀ t,
    (execSample x0 x1 x2 x3) = .next t → Kept k t := by
  unfold execSample
  repeat first
    | with_reducible first
      | assumption | apply kept_stationStep | apply kept_samplingEffect
    | split | dsimp only | simp only [Kept.upd] | intro _

theorem kept_execFill (x0 : SelectorLoc) (x1 : Issue) (x2 : SampleArgs) (x3 : State) (h3 : Kept k x3) : ∀ t,
    (execFill x0 x1 x2 x3) = .next t → Kept k t := by
  unfold execFill
  repeat first
    | with_reducible first
      | assumption | apply kept_stationStep | apply kept_samplingEffect
    | split | dsimp only | simp only [Kept.upd] | intro _

theorem kept_execClear (x0 : ClusterLoc) (x1 : Issue) (x2 : ClearArgs) (x3 : State) (h3 : Kept k x3) : ∀ t,
    (execClear x0 x1 x2 x3) = .next t → Kept k t := by
  unfold execClear
  repeat first
    | with_reducible first
      | assumption | apply kept_stationStep | apply kept_clearEffect
    | split | dsimp only | simp only [Kept.upd] | intro _

theorem kept_execAccum (x0 : ClusterLoc) (x1 : Issue) (x2 : AccumArgs) (x3 : State) (h3 : Kept k x3) : ∀ t,
    (execAccum x0 x1 x2 x3) = .next t → Kept k t := by
  unfold execAccum
  repeat first
    | with_reducible first
      | assumption | apply kept_stationStep | apply kept_accumEffect
    | split | dsimp only | simp only [Kept.upd] | intro _

theorem kept_execGather (x0 : ClusterLoc) (x1 : Issue) (x2 : GatherArgs) (x3 : State) (h3 : Kept k x3) : ∀ t,
    (execGather x0 x1 x2 x3) = .next t → Kept k t := by
  unfold execGather
  repeat first
    | with_reducible first
      | assumption | apply kept_stationStep | apply kept_gatherEffect
    | split | dsimp only | simp only [Kept.upd] | intro _

theorem kept_execFold (x0 : ClusterLoc) (x1 : Issue) (x2 : FoldArgs) (x3 : State) (h3 : Kept k x3) : ∀ t, (execFold
    x0 x1 x2 x3) = .next t → Kept k t := by
  unfold execFold
  repeat first
    | with_reducible first
      | assumption | apply kept_stationStep | apply kept_foldEffect
    | split | dsimp only | simp only [Kept.upd] | intro _

theorem kept_execCopy (x0 : ClusterLoc) (x1 : Issue) (x2 : CopyArgs) (x3 : State) (h3 : Kept k x3) : ∀ t, (execCopy
    x0 x1 x2 x3) = .next t → Kept k t := by
  unfold execCopy
  repeat first
    | with_reducible first
      | assumption | apply kept_stationStep | apply kept_copyEffect
    | split | dsimp only | simp only [Kept.upd] | intro _

theorem kept_execUpdate (x0 : UnitLoc) (x1 : Issue) (x2 : UpdateArgs) (x3 : State) (h3 : Kept k x3) : ∀ t,
    (execUpdate x0 x1 x2 x3) = .next t → Kept k t := by
  unfold execUpdate
  repeat first
    | with_reducible first
      | assumption | apply kept_stationStep | apply kept_updateEffect
    | split | dsimp only | simp only [Kept.upd] | intro _

theorem kept_execNorm (x0 : UnitLoc) (x1 : Issue) (x2 : NormArgs) (x3 : State) (h3 : Kept k x3) : ∀ t, (execNorm x0
    x1 x2 x3) = .next t → Kept k t := by
  unfold execNorm
  repeat first
    | with_reducible first
      | assumption | apply kept_stationStep | apply kept_normEffect
    | split | dsimp only | simp only [Kept.upd] | intro _

theorem kept_execSend (x0 : RelayLoc) (x1 : Issue) (x2 : SendArgs) (x3 : State) (h3 : Kept k x3) : ∀ t, (execSend x0
    x1 x2 x3) = .next t → Kept k t := by
  unfold execSend
  repeat first
    | with_reducible first
      | assumption | apply kept_stationStep | apply kept_sendEffect
    | split | dsimp only | simp only [Kept.upd] | intro _

theorem kept_execRecv (x0 : RelayLoc) (x1 : Issue) (x2 : RecvArgs) (x3 : State) (h3 : Kept k x3) : ∀ t, (execRecv x0
    x1 x2 x3) = .next t → Kept k t := by
  unfold execRecv
  repeat first
    | with_reducible first
      | assumption | apply kept_stationStep | apply kept_recvEffect
    | split | dsimp only | simp only [Kept.upd] | intro _

theorem kept_execFxexp (x0 : RelayLoc) (x1 : Issue) (x2 : FxexpArgs) (x3 : State) (h3 : Kept k x3) : ∀ t, (execFxexp
    x0 x1 x2 x3) = .next t → Kept k t := by
  unfold execFxexp
  repeat first
    | with_reducible first
      | assumption | apply kept_stationStep | apply kept_fxexpEffect
    | split | dsimp only | simp only [Kept.upd] | intro _

theorem kept_execFxset (x0 : RelayLoc) (x1 : Issue) (x2 : FxArgs) (x3 : State) (h3 : Kept k x3) : ∀ t, (execFxset x0
    x1 x2 x3) = .next t → Kept k t := by
  unfold execFxset
  repeat first
    | with_reducible first
      | assumption | apply kept_stationStep | apply kept_fxEffect
    | split | dsimp only | simp only [Kept.upd] | intro _

theorem kept_execFxadd (x0 : RelayLoc) (x1 : Issue) (x2 : FxArgs) (x3 : State) (h3 : Kept k x3) : ∀ t, (execFxadd x0
    x1 x2 x3) = .next t → Kept k t := by
  unfold execFxadd
  repeat first
    | with_reducible first
      | assumption | apply kept_stationStep | apply kept_fxEffect
    | split | dsimp only | simp only [Kept.upd] | intro _

theorem kept_execFxout (x0 : RelayLoc) (x1 : Issue) (x2 : FxArgs) (x3 : State) (h3 : Kept k x3) : ∀ t, (execFxout x0
    x1 x2 x3) = .next t → Kept k t := by
  unfold execFxout
  repeat first
    | with_reducible first
      | assumption | apply kept_stationStep | apply kept_fxEffect
    | split | dsimp only | simp only [Kept.upd] | intro _

end Sys2Proof.Laws
end

