-- ==== Sys2Proof/Laws/KeptRun.lean ====
section
/-! SUPPORT. The sequencer, the links, the rings and the load keep them. -/

namespace Sys2Proof.Laws
open Sys2Proof Sys2Proof.Machine

variable {k : List Instr × DWord × Option (BitVec 384) × BitVec 384}

theorem kept_State_freshStroke (s : State) (h : Kept k s) : Kept k s.freshStroke := by
  unfold State.freshStroke
  apply Kept.all h rfl rfl rfl
  · intro hm
    rw [memory_wf_iff] at hm ⊢
    exact ⟨hm.1, hm.2.1, rfl, hm.2.2.2⟩
  all_goals first
    | with_reducible exact fun h => h
    | with_reducible exact fun h => smapWf_map _ _ _ h
    | with_reducible exact fun _ => smapWf_nil _
    | (split <;> first | exact fun _ => smapWf_nil _ | exact fun h => h)

theorem kept_strokeStartEffect (x0 : State) (h0 : Kept k x0) : Kept k (strokeStartEffect x0) := by
  unfold strokeStartEffect
  repeat first
    | with_reducible first
      | assumption | apply kept_State_freshStroke | apply kept_State_advanceTo | apply kept_State_normStart
    | split | dsimp only | simp only [Kept.upd] | intro _

theorem kept_execStrokeStart (x0 : State) (h0 : Kept k x0) : ∀ t, (execStrokeStart x0) = .next t → Kept k t := by
  intro t h
  unfold execStrokeStart at h
  try dsimp only at h
  repeat (split at h)
  all_goals first
    | (cases h; done)
    | (injection h with h; subst h)
  repeat first
    | with_reducible first
      | assumption | apply kept_strokeStartEffect | apply kept_foldl | apply kept_foldl_snd
      | apply kept_foldl_third
    | split | dsimp only | simp only [Kept.upd] | intro _

theorem kept_State_reportMeta (x0 : State) (h0 : Kept k x0) : Kept k (State.reportMeta x0) := by
  unfold State.reportMeta
  repeat first
    | with_reducible first
      | assumption | apply kept_State_reportFault | apply kept_State_emit | apply kept_foldl
      | apply kept_foldl_snd | apply kept_foldl_third
    | split | dsimp only | simp only [Kept.upd] | intro _ | with_reducible refine And.intro ?_ ?_

theorem kept_State_reportSuppressed (x0 : State) (h0 : Kept k x0) : Kept k (State.reportSuppressed x0) := by
  unfold State.reportSuppressed
  repeat first
    | with_reducible first
      | assumption | apply kept_State_emit | apply kept_foldl | apply kept_foldl_snd | apply kept_foldl_third
    | split | dsimp only | simp only [Kept.upd] | intro _ | with_reducible refine And.intro ?_ ?_

theorem kept_State_checkOverruns (x0 : State) (h0 : Kept k x0) : Kept k (State.checkOverruns x0) := by
  unfold State.checkOverruns
  repeat first
    | with_reducible first
      | assumption | apply kept_State_pend | apply kept_foldl | apply kept_foldl_snd | apply kept_foldl_third
    | split | dsimp only | simp only [Kept.upd] | intro _ | with_reducible refine And.intro ?_ ?_

theorem kept_State_dropWorks (x0 : State) (h0 : Kept k x0) : Kept k (State.dropWorks x0) := by
  unfold State.dropWorks
  repeat first
    | with_reducible first
      | assumption | apply kept_State_takeWrites
    | split | dsimp only | simp only [Kept.upd] | intro _

theorem kept_State_checkGears (x0 : State) (h0 : Kept k x0) : Kept k (State.checkGears x0) := by
  unfold State.checkGears
  repeat first
    | with_reducible first
      | assumption | apply kept_State_lateMessage | apply kept_foldl | apply kept_foldl_snd
      | apply kept_foldl_third
    | split | dsimp only | simp only [Kept.upd] | intro _ | with_reducible refine And.intro ?_ ?_

theorem kept_State_captureTail (x0 : State) (h0 : Kept k x0) : Kept k (State.captureTail x0) := by
  unfold State.captureTail
  repeat first
    | with_reducible first
      | assumption
    | split | dsimp only | simp only [Kept.upd] | intro _

theorem kept_State_tailCollect (x0 : State) (h0 : Kept k x0) : Kept k (State.tailCollect x0) := by
  unfold State.tailCollect
  repeat first
    | with_reducible first
      | assumption | apply kept_State_dropWorks | apply kept_State_checkOverruns | apply kept_State_advanceTo
      | apply kept_State_reachTail | apply kept_State_compareShadows | apply kept_State_reportSuppressed
      | apply kept_State_reportMeta | apply kept_State_settleCharges | apply kept_State_setExponents
      | apply kept_State_normTail | apply kept_State_collectLate | apply kept_State_checkGears
      | apply kept_State_emitRaw | apply kept_State_captureTail | apply kept_State_countReplays
      | apply kept_foldl | apply kept_foldl_snd | apply kept_foldl_third
    | split | dsimp only | simp only [Kept.upd] | intro _ | with_reducible refine And.intro ?_ ?_

theorem kept_State_tailMarks (x0 : State) (h0 : Kept k x0) : Kept k (State.tailMarks x0) := by
  unfold State.tailMarks
  repeat first
    | with_reducible first
      | assumption | apply kept_State_addRemoteMarks | apply kept_State_settleMarks
    | split | dsimp only | simp only [Kept.upd] | intro _

theorem kept_State_closeRecords (x0 : State) (h0 : Kept k x0) : Kept k (State.closeRecords x0) := by
  unfold State.closeRecords
  repeat first
    | with_reducible first
      | assumption | apply kept_State_advanceTo
    | split | dsimp only | simp only [Kept.upd] | intro _

theorem kept_State_endFaulted (x0 : State) (x1 : Nat) (x2 : Nat) (x3 : Nat) (x4 : Bool) (h0 : Kept k x0) : Kept k
    (State.endFaulted x0 x1 x2 x3 x4) := by
  unfold State.endFaulted
  repeat first
    | with_reducible first
      | assumption | apply kept_State_endRecord | apply kept_State_proofRecords | apply kept_State_sendStop
    | split | dsimp only | simp only [Kept.upd] | intro _

theorem kept_State_afterFault (x0 : State) (h0 : Kept k x0) : Kept k (State.afterFault x0) := by
  unfold State.afterFault
  repeat first
    | with_reducible first
      | assumption | apply kept_State_stopped
    | split | dsimp only | simp only [Kept.upd] | intro _

theorem kept_State_writeCheckpoint (s : State) (h : Kept k s) : Kept k s.writeCheckpoint := by
  unfold State.writeCheckpoint
  dsimp only
  exact kept_State_emit _ _ _ _ (kept_State_placeBytes _ _ _ _ _ h)

theorem kept_State_endComplete (x0 : State) (x1 : Bool) (h0 : Kept k x0) : Kept k (State.endComplete x0 x1) := by
  unfold State.endComplete
  repeat first
    | with_reducible first
      | assumption | apply kept_State_writeCheckpoint | apply kept_State_emit | apply kept_State_endRecord
      | apply kept_State_proofRecords | apply kept_State_seedFor
    | split | dsimp only | simp only [Kept.upd] | intro _

theorem kept_State_followStep (x0 : State) (x1 : Bool) (h0 : Kept k x0) : Kept k (State.followStep x0 x1) := by
  unfold State.followStep
  repeat first
    | with_reducible first
      | assumption
    | split | dsimp only | simp only [Kept.upd] | intro _

theorem kept_State_afterComplete (x0 : State) (h0 : Kept k x0) : Kept k (State.afterComplete x0) := by
  unfold State.afterComplete
  repeat first
    | with_reducible first
      | assumption | apply kept_State_followStep | apply kept_State_betweenSteps | apply kept_State_runEnded
      | apply kept_State_takeGear | apply kept_State_abortBetween
    | split | dsimp only | simp only [Kept.upd] | intro _

theorem kept_State_afterStroke (x0 : State) (h0 : Kept k x0) : Kept k (State.afterStroke x0) := by
  unfold State.afterStroke
  repeat first
    | with_reducible first
      | assumption
    | split | dsimp only | simp only [Kept.upd] | intro _

theorem kept_State_reportRest (x0 : State) (h0 : Kept k x0) : Kept k (State.reportRest x0) := by
  unfold State.reportRest
  repeat first
    | with_reducible first
      | assumption | apply kept_State_reportOthers
    | split | dsimp only | simp only [Kept.upd] | intro _

theorem kept_strokeTailEffect (x0 : Bool) (x1 : State) (h1 : Kept k x1) : Kept k (strokeTailEffect x0 x1) := by
  unfold strokeTailEffect
  repeat first
    | with_reducible first
      | assumption | apply kept_State_tailMarks | apply kept_State_flipLinks | apply kept_State_applyRemaps
      | apply kept_State_tailCollect | apply kept_State_afterFault | apply kept_State_closeRecords
      | apply kept_State_endFaulted | apply kept_State_reportRest | apply kept_State_afterComplete
      | apply kept_State_endComplete | apply kept_State_afterStroke
    | split | dsimp only | simp only [Kept.upd] | intro _

theorem kept_execStrokeTail (f : Bool) (s : State) (h : Kept k s) : ∀ t, execStrokeTail f s = .next t → Kept k t := by
  intro t ht
  unfold execStrokeTail at ht
  split at ht
  · injection ht with ht
    exact ht ▸ kept_strokeTailEffect _ _ h
  · injection ht with ht
    exact ht ▸ h

theorem kept_State_freshStep (x0 : State) (x1 : Nat) (h0 : Kept k x0) : Kept k (State.freshStep x0 x1) := by
  unfold State.freshStep
  repeat first
    | with_reducible first
      | assumption | apply kept_foldl | apply kept_foldl_snd | apply kept_foldl_third
    | with_reducible rfl | with_reducible exact fun h => h | with_reducible exact fun h => smapWf_put _ _ _ _ h
    | with_reducible exact fun h => smapWf_mod _ _ _ _ h | with_reducible exact fun h => smapWf_map _ _ _ h
    | with_reducible exact fun h => smapWf_drop _ _ _ _ h | exact fun h => smapWf_foldl_put h
    | exact fun h => smapWf_foldl_mod h | with_reducible exact fun _ => smapWf_nil _ | split | dsimp only
    | simp only [Kept.upd] | with_reducible apply Kept.all | intro _ | with_reducible refine And.intro ?_ ?_

theorem kept_State_gateEvents (x0 : State) (x1 : Nat) (h0 : Kept k x0) : Kept k (State.gateEvents x0 x1) := by
  unfold State.gateEvents
  repeat first
    | with_reducible first
      | assumption | apply kept_State_emit
    | split | dsimp only | simp only [Kept.upd] | intro _

theorem kept_stepBeginEffect (x0 : Nat) (x1 : State) (h1 : Kept k x1) : Kept k (stepBeginEffect x0 x1) := by
  unfold stepBeginEffect
  repeat first
    | with_reducible first
      | assumption | apply kept_State_advanceTo | apply kept_State_stopBetween | apply kept_State_gateEvents
      | apply kept_State_freshStep
    | split | dsimp only | simp only [Kept.upd] | intro _

theorem kept_execStepBegin (x0 : State) (h0 : Kept k x0) : ∀ t, (execStepBegin x0) = .next t → Kept k t := by
  intro t h
  unfold execStepBegin at h
  try dsimp only at h
  repeat (split at h)
  all_goals first
    | (cases h; done)
    | (injection h with h; subst h)
  repeat first
    | with_reducible first
      | assumption | apply kept_stepBeginEffect | apply kept_foldl | apply kept_foldl_snd
      | apply kept_foldl_third
    | split | dsimp only | simp only [Kept.upd] | intro _

theorem kept_gateAlarmEffect (x0 : State) (h0 : Kept k x0) : Kept k (gateAlarmEffect x0) := by
  unfold gateAlarmEffect
  repeat first
    | with_reducible first
      | assumption | apply kept_State_advanceTo | apply kept_State_logRecord | apply kept_State_addRecord
    | split | dsimp only | simp only [Kept.upd] | intro _

theorem kept_execGateAlarm (x0 : State) (h0 : Kept k x0) : ∀ t, (execGateAlarm x0) = .next t → Kept k t := by
  unfold execGateAlarm
  dsimp only
  repeat (first | split | simp [*, kept_gateAlarmEffect])

theorem kept_State_refreshStack (x0 : State) (x1 : Bool) (x2 : Nat) (h0 : Kept k x0) : Kept k (State.refreshStack x0
    x1 x2) := by
  unfold State.refreshStack
  repeat first
    | with_reducible first
      | assumption
    | split | dsimp only | simp only [Kept.upd] | intro _

theorem kept_closingRefreshEffect (x0 : Nat) (x1 : State) (h1 : Kept k x1) : Kept k (closingRefreshEffect x0 x1) :=
    by
  unfold closingRefreshEffect
  repeat first
    | with_reducible first
      | assumption | apply kept_State_advanceTo | apply kept_State_refreshStack | apply kept_foldl
      | apply kept_foldl_snd | apply kept_foldl_third
    | split | dsimp only | simp only [Kept.upd] | intro _ | with_reducible refine And.intro ?_ ?_

theorem kept_execClosingRefresh (x0 : State) (h0 : Kept k x0) : ∀ t, (execClosingRefresh x0) = .next t → Kept k t :=
    by
  intro t h
  unfold execClosingRefresh at h
  try dsimp only at h
  repeat (split at h)
  all_goals first
    | (cases h; done)
    | (injection h with h; subst h)
  repeat first
    | with_reducible first
      | assumption | apply kept_closingRefreshEffect | apply kept_foldl | apply kept_foldl_snd
      | apply kept_foldl_third
    | split | dsimp only | simp only [Kept.upd] | intro _

theorem kept_execRefreshSlot (x0 : Fin 10) (x1 : BitVec 12) (x2 : State) (h2 : Kept k x2) : ∀ t, (execRefreshSlot x0
    x1 x2) = .next t → Kept k t := by
  intro t h
  unfold execRefreshSlot at h
  try dsimp only at h
  repeat (split at h)
  all_goals first
    | (cases h; done)
    | (injection h with h; subst h)
  repeat first
    | with_reducible first
      | assumption | apply kept_State_refreshStack | apply kept_foldl | apply kept_foldl_snd
      | apply kept_foldl_third
    | split | dsimp only | simp only [Kept.upd] | intro _

theorem kept_ringContextWriteEffect (x0 : Nat) (x1 : Nat) (x2 : DWord) (x3 : State) (h3 : Kept k x3) : Kept k
    (ringContextWriteEffect x0 x1 x2 x3) := by
  unfold ringContextWriteEffect
  repeat first
    | with_reducible first
      | assumption | apply kept_State_refuse | apply kept_State_setRing
    | split | dsimp only | simp only [Kept.upd] | intro _

theorem kept_execRingContextWrite (x0 : BitVec 12) (x1 : Fin 8) (x2 : DWord) (x3 : State) (h3 : Kept k x3) : ∀ t,
    (execRingContextWrite x0 x1 x2 x3) = .next t → Kept k t := by
  unfold execRingContextWrite
  repeat first
    | with_reducible first
      | assumption | apply kept_hostWr | apply kept_ringContextWriteEffect
    | split | dsimp only | simp only [Kept.upd] | intro _

theorem kept_State_releaseOne (x0 : State) (x1 : Nat) (h0 : Kept k x0) : Kept k (State.releaseOne x0 x1) := by
  unfold State.releaseOne
  repeat first
    | with_reducible first
      | assumption | apply kept_State_putRecord | apply kept_State_setRing
    | split | dsimp only | simp only [Kept.upd] | intro _

theorem kept_State_releaseFuel (f : Nat) (s : State) (h : Kept k s) : Kept k (State.releaseFuel f s) := by
  induction f generalizing s with
  | zero => exact h
  | succ f ih =>
    unfold State.releaseFuel
    split
    · exact ih _ (kept_State_releaseOne _ _ h)
    · exact h

theorem kept_State_releaseAll (x0 : State) (h0 : Kept k x0) : Kept k (State.releaseAll x0) := by
  unfold State.releaseAll
  repeat first
    | with_reducible first
      | assumption | apply kept_State_releaseFuel
    | split | dsimp only | simp only [Kept.upd] | intro _

theorem kept_State_forgetReady (x0 : State) (x1 : Nat) (h0 : Kept k x0) : Kept k (State.forgetReady x0 x1) := by
  unfold State.forgetReady
  repeat first
    | with_reducible first
      | assumption
    | split | dsimp only | simp only [Kept.upd] | intro _

theorem kept_State_activate (x0 : State) (x1 : Nat) (h0 : Kept k x0) : Kept k (State.activate x0 x1) := by
  unfold State.activate
  repeat first
    | with_reducible first
      | assumption | apply kept_State_releaseAll | apply kept_State_ringTo | apply kept_State_forgetReady
      | apply kept_State_setRing | apply kept_State_ringError
    | split | dsimp only | simp only [Kept.upd] | intro _

theorem kept_ringEnableEffect (x0 : Nat) (x1 : State) (h1 : Kept k x1) : Kept k (ringEnableEffect x0 x1) := by
  unfold ringEnableEffect
  repeat first
    | with_reducible first
      | assumption | apply kept_State_activate | apply kept_State_setRing | apply kept_State_refuse
    | split | dsimp only | simp only [Kept.upd] | intro _

theorem kept_execRingEnable (x0 : BitVec 12) (x1 : State) (h1 : Kept k x1) : ∀ t, (execRingEnable x0 x1) = .next t →
    Kept k t := by
  unfold execRingEnable
  repeat first
    | with_reducible first
      | assumption | apply kept_hostWr | apply kept_ringEnableEffect
    | split | dsimp only | simp only [Kept.upd] | intro _

theorem kept_State_copyIn (x0 : State) (x1 : Nat) (x2 : CopyRequest) (h0 : Kept k x0) : Kept k (State.copyIn x0 x1
    x2) := by
  unfold State.copyIn
  repeat first
    | with_reducible first
      | assumption | apply kept_State_outsideWrite
    | split | dsimp only | simp only [Kept.upd] | intro _

theorem kept_State_outBytes (x0 : State) (x1 : Nat) (x2 : CopyRequest) (h0 : Kept k x0) : Kept k (State.outBytes x0
    x1 x2).2 := by
  unfold State.outBytes
  repeat first
    | with_reducible first
      | assumption | apply kept_State_reportCorrected | apply kept_foldl | apply kept_foldl_snd
      | apply kept_foldl_third
    | split | dsimp only | simp only [Kept.upd] | intro _ | with_reducible refine And.intro ?_ ?_

theorem kept_State_movePart (x0 : State) (x1 : Nat) (x2 : Nat) (h0 : Kept k x0) : Kept k (State.movePart x0 x1 x2)
    := by
  unfold State.movePart
  repeat first
    | with_reducible first
      | assumption | apply kept_State_copyIn | apply kept_State_outBytes | apply kept_State_hostWrite
    | split | dsimp only | simp only [Kept.upd] | intro _

theorem kept_State_copyEnded (x0 : State) (x1 : Nat) (h0 : Kept k x0) : Kept k (State.copyEnded x0 x1) := by
  unfold State.copyEnded
  repeat first
    | with_reducible first
      | assumption | apply kept_State_setRing
    | split | dsimp only | simp only [Kept.upd] | intro _

theorem kept_ringDisableEffect (x0 : Nat) (x1 : State) (h1 : Kept k x1) : Kept k (ringDisableEffect x0 x1) := by
  unfold ringDisableEffect
  repeat first
    | with_reducible first
      | assumption | apply kept_State_refuse | apply kept_State_ringTo | apply kept_State_setRing
    | split | dsimp only | simp only [Kept.upd] | intro _

theorem kept_execRingDisable (x0 : BitVec 12) (x1 : State) (h1 : Kept k x1) : ∀ t, (execRingDisable x0 x1) = .next t
    → Kept k t := by
  unfold execRingDisable
  repeat first
    | with_reducible first
      | assumption | apply kept_hostWr | apply kept_ringDisableEffect
    | split | dsimp only | simp only [Kept.upd] | intro _

theorem kept_recordNoRoom (x0 : Nat) (x1 : Record) (x2 : State) (h2 : Kept k x2) : Kept k (recordNoRoom x0 x1 x2) :=
    by
  unfold recordNoRoom
  repeat first
    | with_reducible first
      | assumption | apply kept_State_raiseAsync | apply kept_State_stopped | apply kept_State_sendStop
      | apply kept_State_logRecord
    | split | dsimp only | simp only [Kept.upd] | intro _

theorem kept_recordWriteEffect (x0 : Record) (x1 : List Record) (x2 : State) (h2 : Kept k x2) : Kept k
    (recordWriteEffect x0 x1 x2) := by
  unfold recordWriteEffect
  repeat first
    | with_reducible first
      | assumption | apply kept_State_putRecord | apply kept_State_setRing | apply kept_recordNoRoom
    | split | dsimp only | simp only [Kept.upd] | intro _

theorem kept_execRecordWrite (x0 : Option DWord) (x1 : State) (h1 : Kept k x1) : ∀ t, (execRecordWrite x0 x1) =
    .next t → Kept k t := by
  intro t h
  unfold execRecordWrite at h
  try dsimp only at h
  repeat (split at h)
  all_goals first
    | (cases h; done)
    | (injection h with h; subst h)
  repeat first
    | with_reducible first
      | assumption | apply kept_State_ringAccessed | apply kept_recordWriteEffect | apply kept_foldl
      | apply kept_foldl_snd | apply kept_foldl_third
    | split | dsimp only | simp only [Kept.upd] | intro _

theorem kept_State_writeRecords (f : Nat) (s : State) (h : Kept k s) : Kept k (State.writeRecords f s) := by
  induction f generalizing s with
  | zero => exact h
  | succ f ih =>
    unfold State.writeRecords
    split
    · exact ih _ (kept_recordWriteEffect _ _ _ h)
    · exact h

theorem kept_recordsLostEffect (x0 : Nat) (x1 : State) (h1 : Kept k x1) : Kept k (recordsLostEffect x0 x1) := by
  unfold recordsLostEffect
  repeat first
    | with_reducible first
      | assumption | apply kept_State_emit | apply kept_State_setRing
    | split | dsimp only | simp only [Kept.upd] | intro _

theorem kept_execRecordsLost (x0 : BitVec 12) (x1 : State) (h1 : Kept k x1) : ∀ t, (execRecordsLost x0 x1) = .next t
    → Kept k t := by
  intro t h
  unfold execRecordsLost at h
  try dsimp only at h
  repeat (split at h)
  all_goals first
    | (cases h; done)
    | (injection h with h; subst h)
  repeat first
    | with_reducible first
      | assumption | apply kept_recordsLostEffect | apply kept_foldl | apply kept_foldl_snd
      | apply kept_foldl_third
    | split | dsimp only | simp only [Kept.upd] | intro _

theorem kept_execCoalesceTimeout (x0 : BitVec 12) (x1 : State) (h1 : Kept k x1) : ∀ t, (execCoalesceTimeout x0 x1) =
    .next t → Kept k t := by
  intro t h
  unfold execCoalesceTimeout at h
  try dsimp only at h
  repeat (split at h)
  all_goals first
    | (cases h; done)
    | (injection h with h; subst h)
  repeat first
    | with_reducible first
      | assumption | apply kept_State_ringSignal | apply kept_State_advanceTo | apply kept_foldl
      | apply kept_foldl_snd | apply kept_foldl_third
    | split | dsimp only | simp only [Kept.upd] | intro _

theorem kept_doorbellEffect (x0 : Nat) (x1 : DWord) (x2 : State) (h2 : Kept k x2) : Kept k (doorbellEffect x0 x1 x2)
    := by
  unfold doorbellEffect
  repeat first
    | with_reducible first
      | assumption | apply kept_State_refuse | apply kept_State_releaseAll | apply kept_State_setRing
      | apply kept_State_ringError
    | split | dsimp only | simp only [Kept.upd] | intro _

theorem kept_execDoorbell (x0 : BitVec 12) (x1 : DWord) (x2 : State) (h2 : Kept k x2) : ∀ t, (execDoorbell x0 x1 x2)
    = .next t → Kept k t := by
  unfold execDoorbell
  repeat first
    | with_reducible first
      | assumption | apply kept_hostWr | apply kept_doorbellEffect
    | split | dsimp only | simp only [Kept.upd] | intro _

theorem kept_State_passIn (x0 : State) (x1 : Nat) (h0 : Kept k x0) : Kept k (State.passIn x0 x1) := by
  unfold State.passIn
  repeat first
    | with_reducible first
      | assumption | apply kept_State_copyEnded | apply kept_State_ringAdvance | apply kept_State_copyIn
      | apply kept_State_batchReady
    | split | dsimp only | simp only [Kept.upd] | intro _

theorem kept_State_copyEvent (x0 : State) (x1 : Nat) (x2 : CopyRequest) (x3 : Nat) (x4 : List Byte) (h0 : Kept k x0)
    : Kept k (State.copyEvent x0 x1 x2 x3 x4) := by
  unfold State.copyEvent
  repeat first
    | with_reducible first
      | assumption | apply kept_State_addRecord
    | split | dsimp only | simp only [Kept.upd] | intro _

theorem kept_State_passOut (x0 : State) (x1 : Nat) (h0 : Kept k x0) : Kept k (State.passOut x0 x1) := by
  unfold State.passOut
  repeat first
    | with_reducible first
      | assumption | apply kept_State_outBytes | apply kept_State_copyEnded | apply kept_State_ringAdvance
      | apply kept_State_hostWrite | apply kept_State_copyEvent
    | split | dsimp only | simp only [Kept.upd] | intro _

theorem kept_State_copyFails (x0 : State) (x1 : Nat) (x2 : DWord) (x3 : Nat) (h0 : Kept k x0) : Kept k
    (State.copyFails x0 x1 x2 x3) := by
  unfold State.copyFails
  repeat first
    | with_reducible first
      | assumption | apply kept_State_ringBusError | apply kept_State_copyEnded | apply kept_State_movePart
    | split | dsimp only | simp only [Kept.upd] | intro _

theorem kept_inCopyDoneEffect (x0 : Nat) (x1 : DWord) (x2 : CopyEnd) (x3 : State) (h3 : Kept k x3) : Kept k
    (inCopyDoneEffect x0 x1 x2 x3) := by
  unfold inCopyDoneEffect
  repeat first
    | with_reducible first
      | assumption | apply kept_State_advanceTo | apply kept_State_copyFails | apply kept_State_ringError
      | apply kept_State_skipDescriptor | apply kept_State_passIn
    | split | dsimp only | simp only [Kept.upd] | intro _

theorem kept_execInCopyDone (x0 : BitVec 12) (x1 : DWord) (x2 : CopyEnd) (x3 : State) (h3 : Kept k x3) : ∀ t,
    (execInCopyDone x0 x1 x2 x3) = .next t → Kept k t := by
  intro t h
  unfold execInCopyDone at h
  try dsimp only at h
  repeat (split at h)
  all_goals first
    | (cases h; done)
    | (injection h with h; subst h)
  repeat first
    | with_reducible first
      | assumption | apply kept_inCopyDoneEffect | apply kept_foldl | apply kept_foldl_snd
      | apply kept_foldl_third
    | split | dsimp only | simp only [Kept.upd] | intro _

theorem kept_outDescriptorEffect (x0 : Nat) (x1 : CopyEnd) (x2 : State) (h2 : Kept k x2) : Kept k
    (outDescriptorEffect x0 x1 x2) := by
  unfold outDescriptorEffect
  repeat first
    | with_reducible first
      | assumption | apply kept_State_copyFails | apply kept_State_ringError | apply kept_State_skipDescriptor
      | apply kept_State_passOut
    | split | dsimp only | simp only [Kept.upd] | intro _

theorem kept_execOutDescriptor (x0 : BitVec 12) (x1 : CopyEnd) (x2 : State) (h2 : Kept k x2) : ∀ t,
    (execOutDescriptor x0 x1 x2) = .next t → Kept k t := by
  intro t h
  unfold execOutDescriptor at h
  try dsimp only at h
  repeat (split at h)
  all_goals first
    | (cases h; done)
    | (injection h with h; subst h)
  repeat first
    | with_reducible first
      | assumption | apply kept_outDescriptorEffect | apply kept_foldl | apply kept_foldl_snd
      | apply kept_foldl_third
    | split | dsimp only | simp only [Kept.upd] | intro _

theorem kept_State_stopCopy (x0 : State) (x1 : Nat) (x2 : Nat) (h0 : Kept k x0) : Kept k (State.stopCopy x0 x1 x2)
    := by
  unfold State.stopCopy
  repeat first
    | with_reducible first
      | assumption | apply kept_State_copyEnded | apply kept_State_movePart | apply kept_State_passIn
      | apply kept_State_passOut
    | split | dsimp only | simp only [Kept.upd] | intro _

theorem kept_State_stopCopies (x0 : State) (x1 : List CopyStop) (h0 : Kept k x0) : Kept k (State.stopCopies x0 x1)
    := by
  unfold State.stopCopies
  repeat first
    | with_reducible first
      | assumption | apply kept_State_stopCopy | apply kept_foldl | apply kept_foldl_snd
      | apply kept_foldl_third
    | split | dsimp only | simp only [Kept.upd] | intro _ | with_reducible refine And.intro ?_ ?_

theorem kept_State_drained (x0 : State) (x1 : Nat) (h0 : Kept k x0) : Kept k (State.drained x0 x1) := by
  unfold State.drained
  repeat first
    | with_reducible first
      | assumption | apply kept_State_hostWrite | apply kept_State_forgetReady | apply kept_State_setRing
      | apply kept_State_activate | apply kept_State_releaseAll | apply kept_State_ringTo
    | split | dsimp only | simp only [Kept.upd] | intro _

theorem kept_ringDrainEndEffect (x0 : Nat) (x1 : Nat) (x2 : Option DWord) (x3 : State) (h3 : Kept k x3) : Kept k
    (ringDrainEndEffect x0 x1 x2 x3) := by
  unfold ringDrainEndEffect
  repeat first
    | with_reducible first
      | assumption | apply kept_State_stopCopy | apply kept_State_ringBusError | apply kept_State_drained
    | split | dsimp only | simp only [Kept.upd] | intro _

theorem kept_execRingDrainEnd (x0 : BitVec 12) (x1 : BitVec 20) (x2 : Option DWord) (x3 : State) (h3 : Kept k x3) :
    ∀ t, (execRingDrainEnd x0 x1 x2 x3) = .next t → Kept k t := by
  intro t h
  unfold execRingDrainEnd at h
  try dsimp only at h
  repeat (split at h)
  all_goals first
    | (cases h; done)
    | (injection h with h; subst h)
  repeat first
    | with_reducible first
      | assumption | apply kept_ringDrainEndEffect | apply kept_foldl | apply kept_foldl_snd
      | apply kept_foldl_third
    | split | dsimp only | simp only [Kept.upd] | intro _

/-- A command that lands on a link keeps what its effect keeps. -/
theorem kept_landStep {s : State} {l : LinkRef} {f : State → State} (h : Kept k s)
    (hf : ∀ s, Kept k s → Kept k (f s)) : ∀ t, landStep s l f = .next t → Kept k t := by
  intro t ht
  unfold landStep at ht
  split at ht
  · injection ht with ht
    exact ht ▸ hf _ h
  · injection ht with ht
    exact ht ▸ h

theorem kept_landCtrl (x0 : LinkRef) (x1 : FlitHeader) (x2 : Nat → State → State) (x3 : State) (h2 : ∀ a0 a1, (Kept
    k a1) → (Kept k (x2 a0 a1))) (h3 : Kept k x3) : Kept k (landCtrl x0 x1 x2 x3) := by
  unfold landCtrl
  dsimp only
  repeat (first | split | simp [*, kept_State_acceptCtrl])

theorem kept_State_refuseLaunch (x0 : State) (x1 : Nat) (h0 : Kept k x0) : Kept k (State.refuseLaunch x0 x1) := by
  unfold State.refuseLaunch
  repeat first
    | with_reducible first
      | assumption | apply kept_State_emit | apply kept_State_sendStop | apply kept_State_leaveRun
    | split | dsimp only | simp only [Kept.upd] | intro _

theorem kept_landClose (x0 : LinkRef) (x1 : CloseMsg) (x2 : Nat) (x3 : State) (h3 : Kept k x3) : Kept k (landClose
    x0 x1 x2 x3) := by
  unfold landClose
  repeat first
    | with_reducible first
      | assumption | apply kept_State_setLink
    | split | dsimp only | simp only [Kept.upd] | intro _

theorem kept_execStrokeClose (x0 : LinkRef) (x1 : FlitHeader) (x2 : CloseMsg) (x3 : State) (h3 : Kept k x3) : ∀ t,
    (execStrokeClose x0 x1 x2 x3) = .next t → Kept k t := by
  unfold execStrokeClose
  repeat first
    | with_reducible first
      | assumption | apply kept_landStep | apply kept_landCtrl | apply kept_landClose
    | split | dsimp only | simp only [Kept.upd] | intro _

theorem kept_State_sendClose (x0 : State) (x1 : Fin 16) (h0 : Kept k x0) : Kept k (State.sendClose x0 x1) := by
  unfold State.sendClose
  repeat first
    | with_reducible first
      | assumption | apply kept_State_sendCtrl | apply kept_State_setLink
    | split | dsimp only | simp only [Kept.upd] | intro _

theorem kept_State_seamClose (x0 : State) (x1 : Fin 2) (x2 : Fin 48) (h0 : Kept k x0) : Kept k (State.seamClose x0
    x1 x2) := by
  unfold State.seamClose
  repeat first
    | with_reducible first
      | assumption | apply kept_State_setLink | apply kept_landCtrl | apply kept_landClose
    | split | dsimp only | simp only [Kept.upd] | intro _

theorem kept_strokeCloseSendEffect (x0 : State) (h0 : Kept k x0) : Kept k (strokeCloseSendEffect x0) := by
  unfold strokeCloseSendEffect
  repeat first
    | with_reducible first
      | assumption | apply kept_State_runTo | apply kept_State_sendClose | apply kept_State_seamClose
      | apply kept_State_sendToAll | apply kept_foldl | apply kept_foldl_snd | apply kept_foldl_third
    | split | dsimp only | simp only [Kept.upd] | intro _ | with_reducible refine And.intro ?_ ?_

theorem kept_execStrokeCloseSend (s : State) (h : Kept k s) : ∀ t, execStrokeCloseSend s = .next t → Kept k t := by
  intro t ht
  unfold execStrokeCloseSend at ht
  split at ht
  · injection ht with ht
    exact ht ▸ kept_strokeCloseSendEffect _ h
  · injection ht with ht
    exact ht ▸ h

theorem kept_landDataFlit (x0 : LinkRef) (x1 : FlitHeader) (x2 : List Byte) (x3 : State) (h3 : Kept k x3) : Kept k
    (landDataFlit x0 x1 x2 x3) := by
  unfold landDataFlit
  repeat first
    | with_reducible first
      | assumption | apply kept_State_landData
    | split | dsimp only | simp only [Kept.upd] | intro _

theorem kept_execDataFlit (x0 : LinkRef) (x1 : FlitHeader) (x2 : List Byte) (x3 : State) (h3 : Kept k x3) : ∀ t,
    (execDataFlit x0 x1 x2 x3) = .next t → Kept k t := by
  unfold execDataFlit
  repeat first
    | with_reducible first
      | assumption | apply kept_landStep | apply kept_landDataFlit
    | split | dsimp only | simp only [Kept.upd] | intro _

theorem kept_State_checkLateNotice (x0 : State) (x1 : Fin 16) (x2 : Nat) (x3 : Nat) (h0 : Kept k x0) : Kept k
    (State.checkLateNotice x0 x1 x2 x3) := by
  unfold State.checkLateNotice
  repeat first
    | with_reducible first
      | assumption | apply kept_State_stopBetween
    | split | dsimp only | simp only [Kept.upd] | intro _

theorem kept_landGate (x0 : Fin 16) (x1 : Nat) (x2 : DWord) (x3 : DWord) (x4 : State) (h4 : Kept k x4) : Kept k
    (landGate x0 x1 x2 x3 x4) := by
  unfold landGate
  repeat first
    | with_reducible first
      | assumption | apply kept_State_checkLateNotice
    | split | dsimp only | simp only [Kept.upd] | intro _

theorem kept_execGateNotice (x0 : Fin 16) (x1 : FlitHeader) (x2 : DWord) (x3 : DWord) (x4 : State) (h4 : Kept k x4)
    : ∀ t, (execGateNotice x0 x1 x2 x3 x4) = .next t → Kept k t := by
  unfold execGateNotice
  repeat first
    | with_reducible first
      | assumption | apply kept_landStep | apply kept_landCtrl | apply kept_landGate
    | split | dsimp only | simp only [Kept.upd] | intro _

theorem kept_landStop (x0 : Nat) (x1 : StopMsg) (x2 : State) (h2 : Kept k x2) : Kept k (landStop x0 x1 x2) := by
  unfold landStop
  repeat first
    | with_reducible first
      | assumption | apply kept_State_stopBetween | apply kept_State_refuseLaunch
    | split | dsimp only | simp only [Kept.upd] | intro _

theorem kept_execStopNotice (x0 : Fin 16) (x1 : FlitHeader) (x2 : StopMsg) (x3 : State) (h3 : Kept k x3) : ∀ t,
    (execStopNotice x0 x1 x2 x3) = .next t → Kept k t := by
  unfold execStopNotice
  repeat first
    | with_reducible first
      | assumption | apply kept_landStep | apply kept_landCtrl | apply kept_landStop
    | split | dsimp only | simp only [Kept.upd] | intro _

theorem kept_landMark (x0 : BitVec 16) (x1 : DWord) (x2 : State) (h2 : Kept k x2) : Kept k (landMark x0 x1 x2) := by
  unfold landMark
  repeat first
    | with_reducible first
      | assumption | apply kept_State_updateMark
    | split | dsimp only | simp only [Kept.upd] | intro _

theorem kept_execRemoteMark (x0 : Fin 16) (x1 : FlitHeader) (x2 : BitVec 16) (x3 : DWord) (x4 : State) (h4 : Kept k
    x4) : ∀ t, (execRemoteMark x0 x1 x2 x3 x4) = .next t → Kept k t := by
  unfold execRemoteMark
  repeat first
    | with_reducible first
      | assumption | apply kept_landStep | apply kept_landCtrl | apply kept_landMark
    | split | dsimp only | simp only [Kept.upd] | intro _

theorem kept_landNorm (x0 : Fin 16) (x1 : BitVec 3) (x2 : NormMsg) (x3 : State) (h3 : Kept k x3) : Kept k (landNorm
    x0 x1 x2 x3) := by
  unfold landNorm
  repeat first
    | with_reducible first
      | assumption | apply kept_State_raiseAsync
    | split | dsimp only | simp only [Kept.upd] | intro _

theorem kept_execNormTotal (x0 : Fin 16) (x1 : FlitHeader) (x2 : NormMsg) (x3 : State) (h3 : Kept k x3) : ∀ t,
    (execNormTotal x0 x1 x2 x3) = .next t → Kept k t := by
  unfold execNormTotal
  repeat first
    | with_reducible first
      | assumption | apply kept_landStep | apply kept_landCtrl | apply kept_landNorm
    | split | dsimp only | simp only [Kept.upd] | intro _

theorem kept_landMaxima (x0 : BitVec 3) (x1 : List (BitVec 16)) (x2 : State) (h2 : Kept k x2) : Kept k (landMaxima
    x0 x1 x2) := by
  unfold landMaxima
  repeat first
    | with_reducible first
      | assumption
    | split | dsimp only | simp only [Kept.upd] | intro _

theorem kept_execExponentMaxima (x0 : Fin 16) (x1 : FlitHeader) (x2 : List (BitVec 16)) (x3 : State) (h3 : Kept k
    x3) : ∀ t, (execExponentMaxima x0 x1 x2 x3) = .next t → Kept k t := by
  unfold execExponentMaxima
  repeat first
    | with_reducible first
      | assumption | apply kept_landStep | apply kept_landCtrl | apply kept_landMaxima
    | split | dsimp only | simp only [Kept.upd] | intro _

theorem kept_landStale (x0 : Fin 16) (x1 : StaleMsg) (x2 : State) (h2 : Kept k x2) : Kept k (landStale x0 x1 x2) :=
    by
  unfold landStale
  repeat first
    | with_reducible first
      | assumption | apply kept_State_staleEvent
    | split | dsimp only | simp only [Kept.upd] | intro _

theorem kept_execRoleStaleReport (x0 : Fin 16) (x1 : FlitHeader) (x2 : StaleMsg) (x3 : State) (h3 : Kept k x3) : ∀
    t, (execRoleStaleReport x0 x1 x2 x3) = .next t → Kept k t := by
  unfold execRoleStaleReport
  repeat first
    | with_reducible first
      | assumption | apply kept_landStep | apply kept_landCtrl | apply kept_landStale
    | split | dsimp only | simp only [Kept.upd] | intro _

theorem kept_State_sendCheck (x0 : State) (x1 : Fin 16) (h0 : Kept k x0) : Kept k (State.sendCheck x0 x1) := by
  unfold State.sendCheck
  repeat first
    | with_reducible first
      | assumption | apply kept_State_sendCtrl
    | split | dsimp only | simp only [Kept.upd] | intro _

theorem kept_tickCheckEffect (x0 : Fin 16) (x1 : State) (h1 : Kept k x1) : Kept k (tickCheckEffect x0 x1) := by
  unfold tickCheckEffect
  repeat first
    | with_reducible first
      | assumption | apply kept_State_advanceTo | apply kept_State_sendCheck | apply kept_State_setPort
    | split | dsimp only | simp only [Kept.upd] | intro _

theorem kept_execBoardTimeCheckSend (x0 : Fin 16) (x1 : State) (h1 : Kept k x1) : ∀ t, (execBoardTimeCheckSend x0
    x1) = .next t → Kept k t := by
  intro t h
  unfold execBoardTimeCheckSend at h
  try dsimp only at h
  repeat (split at h)
  all_goals first
    | (cases h; done)
    | (injection h with h; subst h)
  repeat first
    | with_reducible first
      | assumption | apply kept_tickCheckEffect | apply kept_foldl | apply kept_foldl_snd
      | apply kept_foldl_third
    | split | dsimp only | simp only [Kept.upd] | intro _

theorem kept_State_checkSkew (x0 : State) (x1 : Fin 16) (x2 : Option Int) (x3 : Option Int) (h0 : Kept k x0) : Kept
    k (State.checkSkew x0 x1 x2 x3) := by
  unfold State.checkSkew
  repeat first
    | with_reducible first
      | assumption | apply kept_State_emit | apply kept_State_refuseLaunch | apply kept_State_raiseAsync
    | split | dsimp only | simp only [Kept.upd] | intro _

theorem kept_State_keepGear (x0 : State) (x1 : Nat) (x2 : Nat) (x3 : BitVec 2) (h0 : Kept k x0) : Kept k
    (State.keepGear x0 x1 x2 x3) := by
  unfold State.keepGear
  repeat first
    | with_reducible first
      | assumption
    | split | dsimp only | simp only [Kept.upd] | intro _

theorem kept_landCheck (x0 : Fin 16) (x1 : CheckMsg) (x2 : Nat) (x3 : State) (h3 : Kept k x3) : Kept k (landCheck x0
    x1 x2 x3) := by
  unfold landCheck
  repeat first
    | with_reducible first
      | assumption | apply kept_State_setPort | apply kept_State_keepGear | apply kept_State_checkSkew
    | split | dsimp only | simp only [Kept.upd] | intro _

theorem kept_execBoardTimeCheck (x0 : Fin 16) (x1 : FlitHeader) (x2 : CheckMsg) (x3 : Nat) (x4 : State) (h4 : Kept k
    x4) : ∀ t, (execBoardTimeCheck x0 x1 x2 x3 x4) = .next t → Kept k t := by
  unfold execBoardTimeCheck
  repeat first
    | with_reducible first
      | assumption | apply kept_landStep | apply kept_landCtrl | apply kept_landCheck
    | split | dsimp only | simp only [Kept.upd] | intro _

theorem kept_actOnMessage (x0 : Fin 16) (x1 : FlitHeader) (x2 : List Byte) (x3 : Nat) (x4 : State) (h4 : Kept k x4)
    : Kept k (actOnMessage x0 x1 x2 x3 x4) := by
  unfold actOnMessage
  repeat first
    | with_reducible first
      | assumption | apply kept_landClose | apply kept_landMark | apply kept_landGate | apply kept_landStop
      | apply kept_landNorm | apply kept_landMaxima | apply kept_landCheck | apply kept_landStale
    | split | dsimp only | simp only [Kept.upd] | intro _

theorem kept_landFlit (x0 : LinkRef) (x1 : List Byte) (x2 : State) (h2 : Kept k x2) : Kept k (landFlit x0 x1 x2) :=
    by
  unfold landFlit
  repeat first
    | with_reducible first
      | assumption | apply kept_landDataFlit | apply kept_landCtrl | apply kept_actOnMessage
      | apply kept_landClose
    | split | dsimp only | simp only [Kept.upd] | intro _

theorem kept_State_frameControl (x0 : State) (x1 : LinkRef) (x2 : Nat) (x3 : Nat) (h0 : Kept k x0) : Kept k
    (State.frameControl x0 x1 x2 x3) := by
  unfold State.frameControl
  repeat first
    | with_reducible first
      | assumption | apply kept_State_setLink | apply kept_State_pumpLink | apply kept_State_setPort
    | split | dsimp only | simp only [Kept.upd] | intro _

theorem kept_State_countCodewords (x0 : State) (x1 : LinkRef) (x2 : RxFrame) (h0 : Kept k x0) : Kept k
    (State.countCodewords x0 x1 x2) := by
  unfold State.countCodewords
  repeat first
    | with_reducible first
      | assumption | apply kept_State_setPort | apply kept_foldl | apply kept_foldl_snd
      | apply kept_foldl_third
    | with_reducible rfl | with_reducible exact fun h => h | with_reducible exact fun h => smapWf_put _ _ _ _ h
    | with_reducible exact fun h => smapWf_mod _ _ _ _ h | with_reducible exact fun h => smapWf_map _ _ _ h
    | with_reducible exact fun h => smapWf_drop _ _ _ _ h | exact fun h => smapWf_foldl_put h
    | exact fun h => smapWf_foldl_mod h | with_reducible exact fun _ => smapWf_nil _ | split | dsimp only
    | simp only [Kept.upd] | with_reducible apply Kept.all | intro _ | with_reducible refine And.intro ?_ ?_

theorem kept_State_sendFrame (x0 : State) (x1 : LinkRef) (h0 : Kept k x0) : Kept k (State.sendFrame x0 x1) := by
  unfold State.sendFrame
  repeat first
    | with_reducible first
      | assumption | apply kept_State_setLink | apply kept_State_setPort
    | split | dsimp only | simp only [Kept.upd] | intro _

theorem kept_frameEffect (x0 : LinkRef) (x1 : Nat) (x2 : List (BitVec 10)) (x3 : State) (h3 : Kept k x3) : Kept k
    (frameEffect x0 x1 x2 x3) := by
  unfold frameEffect
  repeat first
    | with_reducible first
      | assumption | apply kept_State_advanceTo | apply kept_State_countCodewords
      | apply kept_State_frameControl | apply kept_landFlit | apply kept_State_setLink
      | apply kept_State_sendFrame | apply kept_foldl | apply kept_foldl_snd | apply kept_foldl_third
    | split | dsimp only | simp only [Kept.upd] | intro _ | with_reducible refine And.intro ?_ ?_

theorem kept_execFrame (x0 : LinkRef) (x1 : DWord) (x2 : List (BitVec 10)) (x3 : State) (h3 : Kept k x3) : ∀ t,
    (execFrame x0 x1 x2 x3) = .next t → Kept k t := by
  unfold execFrame
  repeat first
    | with_reducible first
      | assumption | apply kept_landStep | apply kept_frameEffect
    | split | dsimp only | simp only [Kept.upd] | intro _

theorem kept_replayEffect (x0 : LinkRef) (x1 : Bool) (x2 : Nat) (x3 : List (Bool × Nat)) (x4 : State) (h4 : Kept k
    x4) : Kept k (replayEffect x0 x1 x2 x3 x4) := by
  unfold replayEffect
  repeat first
    | with_reducible first
      | assumption | apply kept_State_setLink | apply kept_State_seamCross
    | split | dsimp only | simp only [Kept.upd] | intro _

theorem kept_execReplaySend (x0 : LinkRef) (x1 : State) (h1 : Kept k x1) : ∀ t, (execReplaySend x0 x1) = .next t →
    Kept k t := by
  intro t h
  unfold execReplaySend at h
  try dsimp only at h
  repeat (split at h)
  all_goals first
    | (cases h; done)
    | (injection h with h; subst h)
  repeat first
    | with_reducible first
      | assumption | apply kept_replayEffect | apply kept_foldl | apply kept_foldl_snd | apply kept_foldl_third
    | split | dsimp only | simp only [Kept.upd] | intro _

theorem kept_execReplayTimeout (x0 : LinkRef) (x1 : Bool) (x2 : Nat) (x3 : State) (h3 : Kept k x3) : ∀ t,
    (execReplayTimeout x0 x1 x2 x3) = .next t → Kept k t := by
  unfold execReplayTimeout
  dsimp only
  repeat (first | split | simp [*, kept_State_advanceTo, kept_State_setLink])

theorem kept_State_sendChecks (x0 : State) (h0 : Kept k x0) : Kept k (State.sendChecks x0) := by
  unfold State.sendChecks
  repeat first
    | with_reducible first
      | assumption | apply kept_State_sendCheck | apply kept_foldl | apply kept_foldl_snd
      | apply kept_foldl_third
    | split | dsimp only | simp only [Kept.upd] | intro _ | with_reducible refine And.intro ?_ ?_

theorem kept_State_sendReadyGates (x0 : State) (h0 : Kept k x0) : Kept k (State.sendReadyGates x0) := by
  unfold State.sendReadyGates
  repeat first
    | with_reducible first
      | assumption | apply kept_State_sendGate | apply kept_foldl | apply kept_foldl_snd
      | apply kept_foldl_third
    | split | dsimp only | simp only [Kept.upd] | intro _ | with_reducible refine And.intro ?_ ?_

theorem kept_launchAtEffect (x0 : DWord) (x1 : State) (h1 : Kept k x1) : Kept k (launchAtEffect x0 x1) := by
  unfold launchAtEffect
  repeat first
    | with_reducible first
      | assumption | apply kept_State_sendChecks | apply kept_State_refuse | apply kept_foldl
      | apply kept_foldl_snd | apply kept_foldl_third
    | with_reducible rfl | with_reducible exact fun h => h | with_reducible exact fun h => smapWf_put _ _ _ _ h
    | with_reducible exact fun h => smapWf_mod _ _ _ _ h | with_reducible exact fun h => smapWf_map _ _ _ h
    | with_reducible exact fun h => smapWf_drop _ _ _ _ h | exact fun h => smapWf_foldl_put h
    | exact fun h => smapWf_foldl_mod h | with_reducible exact fun _ => smapWf_nil _ | split | dsimp only
    | simp only [Kept.upd] | with_reducible apply Kept.all | intro _ | with_reducible refine And.intro ?_ ?_

theorem kept_execLaunchAt (x0 : DWord) (x1 : State) (h1 : Kept k x1) : ∀ t, (execLaunchAt x0 x1) = .next t → Kept k
    t := by
  unfold execLaunchAt
  repeat first
    | with_reducible first
      | assumption | apply kept_hostWr | apply kept_launchAtEffect
    | split | dsimp only | simp only [Kept.upd] | intro _

theorem kept_launchCheckEffect (x0 : Bool) (x1 : State) (h1 : Kept k x1) : Kept k (launchCheckEffect x0 x1) := by
  unfold launchCheckEffect
  repeat first
    | with_reducible first
      | assumption | apply kept_State_advanceTo | apply kept_State_refuseLaunch | apply kept_State_seedFor
    | split | dsimp only | simp only [Kept.upd] | intro _

theorem kept_execLaunchCheck (x0 : Bool) (x1 : State) (h1 : Kept k x1) : ∀ t, (execLaunchCheck x0 x1) = .next t →
    Kept k t := by
  intro t h
  unfold execLaunchCheck at h
  try dsimp only at h
  repeat (split at h)
  all_goals first
    | (cases h; done)
    | (injection h with h; subst h)
  repeat first
    | with_reducible first
      | assumption | apply kept_launchCheckEffect | apply kept_foldl | apply kept_foldl_snd
      | apply kept_foldl_third
    | split | dsimp only | simp only [Kept.upd] | intro _

theorem kept_launchEffect (x0 : State) (h0 : Kept k x0) : Kept k (launchEffect x0) := by
  unfold launchEffect
  repeat first
    | with_reducible first
      | assumption | apply kept_State_advanceTo | apply kept_State_betweenSteps | apply kept_foldl
      | apply kept_foldl_snd | apply kept_foldl_third
    | with_reducible rfl | with_reducible exact fun h => h | with_reducible exact fun h => smapWf_put _ _ _ _ h
    | with_reducible exact fun h => smapWf_mod _ _ _ _ h | with_reducible exact fun h => smapWf_map _ _ _ h
    | with_reducible exact fun h => smapWf_drop _ _ _ _ h | exact fun h => smapWf_foldl_put h
    | exact fun h => smapWf_foldl_mod h | with_reducible exact fun _ => smapWf_nil _ | split | dsimp only
    | simp only [Kept.upd] | with_reducible apply Kept.all | intro _ | with_reducible refine And.intro ?_ ?_

theorem kept_execLaunch (x0 : State) (h0 : Kept k x0) : ∀ t, (execLaunch x0) = .next t → Kept k t := by
  intro t h
  unfold execLaunch at h
  try dsimp only at h
  repeat (split at h)
  all_goals first
    | (cases h; done)
    | (injection h with h; subst h)
  repeat first
    | with_reducible first
      | assumption | apply kept_launchEffect | apply kept_foldl | apply kept_foldl_snd | apply kept_foldl_third
    | split | dsimp only | simp only [Kept.upd] | intro _

theorem kept_State_abortAfter (x0 : State) (x1 : Nat) (h0 : Kept k x0) : Kept k (State.abortAfter x0 x1) := by
  unfold State.abortAfter
  repeat first
    | with_reducible first
      | assumption
    | split | dsimp only | simp only [Kept.upd] | intro _

theorem kept_abortEffect (x0 : State) (h0 : Kept k x0) : Kept k (abortEffect x0) := by
  unfold abortEffect
  repeat first
    | with_reducible first
      | assumption | apply kept_State_abortBetween | apply kept_State_abortAfter
    | split | dsimp only | simp only [Kept.upd] | intro _

theorem kept_execAbort (x0 : State) (h0 : Kept k x0) : ∀ t, (execAbort x0) = .next t → Kept k t := by
  unfold execAbort
  repeat first
    | with_reducible first
      | assumption | apply kept_hostWr | apply kept_abortEffect
    | split | dsimp only | simp only [Kept.upd] | intro _

theorem kept_abortCompleteEffect (x0 : List CopyStop) (x1 : State) (h1 : Kept k x1) : Kept k (abortCompleteEffect x0
    x1) := by
  unfold abortCompleteEffect
  repeat first
    | with_reducible first
      | assumption | apply kept_State_stopCopies | apply kept_State_skipOut | apply kept_State_writeRecords
      | apply kept_State_signal | apply kept_foldl | apply kept_foldl_snd | apply kept_foldl_third
    | with_reducible rfl | with_reducible exact fun h => h | with_reducible exact fun h => smapWf_put _ _ _ _ h
    | with_reducible exact fun h => smapWf_mod _ _ _ _ h | with_reducible exact fun h => smapWf_map _ _ _ h
    | with_reducible exact fun h => smapWf_drop _ _ _ _ h | exact fun h => smapWf_foldl_put h
    | exact fun h => smapWf_foldl_mod h | with_reducible exact fun _ => smapWf_nil _ | split | dsimp only
    | simp only [Kept.upd] | with_reducible apply Kept.all | intro _ | with_reducible refine And.intro ?_ ?_

theorem kept_execAbortComplete (x0 : List CopyStop) (x1 : State) (h1 : Kept k x1) : ∀ t, (execAbortComplete x0 x1) =
    .next t → Kept k t := by
  intro t h
  unfold execAbortComplete at h
  try dsimp only at h
  repeat (split at h)
  all_goals first
    | (cases h; done)
    | (injection h with h; subst h)
  repeat first
    | with_reducible first
      | assumption | apply kept_abortCompleteEffect | apply kept_foldl | apply kept_foldl_snd
      | apply kept_foldl_third
    | split | dsimp only | simp only [Kept.upd] | intro _

theorem kept_faultClearEffect (x0 : State) (h0 : Kept k x0) : Kept k (faultClearEffect x0) := by
  unfold faultClearEffect
  repeat first
    | with_reducible first
      | assumption | apply kept_State_refuse | apply kept_State_skipOut
    | split | dsimp only | simp only [Kept.upd] | intro _

theorem kept_execFaultClear (x0 : State) (h0 : Kept k x0) : ∀ t, (execFaultClear x0) = .next t → Kept k t := by
  unfold execFaultClear
  repeat first
    | with_reducible first
      | assumption | apply kept_hostWr | apply kept_faultClearEffect
    | split | dsimp only | simp only [Kept.upd] | intro _

theorem kept_counterClearEffect (x0 : State) (h0 : Kept k x0) : Kept k (counterClearEffect x0) := by
  unfold counterClearEffect
  repeat first
    | with_reducible first
      | assumption | apply kept_foldl | apply kept_foldl_snd | apply kept_foldl_third
    | with_reducible rfl | with_reducible exact fun h => h | with_reducible exact fun h => smapWf_put _ _ _ _ h
    | with_reducible exact fun h => smapWf_mod _ _ _ _ h | with_reducible exact fun h => smapWf_map _ _ _ h
    | with_reducible exact fun h => smapWf_drop _ _ _ _ h | exact fun h => smapWf_foldl_put h
    | exact fun h => smapWf_foldl_mod h | with_reducible exact fun _ => smapWf_nil _ | split | dsimp only
    | simp only [Kept.upd] | with_reducible apply Kept.all | intro _ | with_reducible refine And.intro ?_ ?_

theorem kept_execCounterClear (x0 : State) (h0 : Kept k x0) : ∀ t, (execCounterClear x0) = .next t → Kept k t := by
  unfold execCounterClear
  repeat first
    | with_reducible first
      | assumption | apply kept_hostWr | apply kept_counterClearEffect
    | split | dsimp only | simp only [Kept.upd] | intro _

theorem kept_State_dropCartoon (x0 : State) (h0 : Kept k x0) : Kept k (State.dropCartoon x0) := by
  unfold State.dropCartoon
  repeat first
    | with_reducible first
      | assumption
    | split | dsimp only | simp only [Kept.upd] | intro _

theorem kept_roleCommitEffect (x0 : State) (h0 : Kept k x0) : Kept k (roleCommitEffect x0) := by
  unfold roleCommitEffect
  repeat first
    | with_reducible first
      | assumption | apply kept_State_dropCartoon | apply kept_State_emit | apply kept_State_refuse
    | split | dsimp only | simp only [Kept.upd] | intro _

theorem kept_execRoleCommit (x0 : State) (h0 : Kept k x0) : ∀ t, (execRoleCommit x0) = .next t → Kept k t := by
  unfold execRoleCommit
  repeat first
    | with_reducible first
      | assumption | apply kept_hostWr | apply kept_roleCommitEffect
    | split | dsimp only | simp only [Kept.upd] | intro _

theorem kept_syncFireEffect (x0 : State) (h0 : Kept k x0) : Kept k (syncFireEffect x0) := by
  unfold syncFireEffect
  repeat first
    | with_reducible first
      | assumption
    | split | dsimp only | simp only [Kept.upd] | intro _

theorem kept_execSyncFire (x0 : State) (h0 : Kept k x0) : ∀ t, (execSyncFire x0) = .next t → Kept k t := by
  unfold execSyncFire
  repeat first
    | with_reducible first
      | assumption | apply kept_hostWr | apply kept_syncFireEffect
    | split | dsimp only | simp only [Kept.upd] | intro _

theorem kept_execSyncIn (s : State) (h : Kept k s) : ∀ t, execSyncIn s = .next t → Kept k t := by
  intro t ht
  unfold execSyncIn at ht
  split at ht
  · injection ht with ht
    subst ht
    apply Kept.all h rfl rfl rfl
    all_goals first | exact id | exact smapWf_map _ _ _
  · injection ht with ht
    exact ht ▸ kept_State_emit _ _ _ _ h

theorem kept_remoteSignalEffect (x0 : BitVec 12) (x1 : BitVec 3) (x2 : State) (h2 : Kept k x2) : Kept k
    (remoteSignalEffect x0 x1 x2) := by
  unfold remoteSignalEffect
  repeat first
    | with_reducible first
      | assumption | apply kept_State_refuse
    | split | dsimp only | simp only [Kept.upd] | intro _

theorem kept_execRemoteSignal (x0 : BitVec 12) (x1 : BitVec 3) (x2 : State) (h2 : Kept k x2) : ∀ t,
    (execRemoteSignal x0 x1 x2) = .next t → Kept k t := by
  unfold execRemoteSignal
  repeat first
    | with_reducible first
      | assumption | apply kept_hostWr | apply kept_remoteSignalEffect
    | split | dsimp only | simp only [Kept.upd] | intro _

theorem kept_execRemoteSignalSend (s : State) (h : Kept k s) : ∀ t, execRemoteSignalSend s = .next t → Kept k t := by
  intro t ht
  unfold execRemoteSignalSend at ht
  split at ht
  · injection ht with ht
    exact ht ▸ h
  · split at ht
    · injection ht with ht
      exact ht ▸ h
    · injection ht with ht
      exact ht ▸ kept_State_sendCtrl _ _ _ _ _ (Kept.upd.mpr h)

theorem kept_State_refuseLater (x0 : State) (x1 : Nat) (h0 : Kept k x0) : Kept k (State.refuseLater x0 x1) := by
  unfold State.refuseLater
  repeat first
    | with_reducible first
      | assumption
    | split | dsimp only | simp only [Kept.upd] | intro _

theorem kept_State_advanceRef (x0 : State) (x1 : DWord) (h0 : Kept k x0) : Kept k (State.advanceRef x0 x1) := by
  unfold State.advanceRef
  repeat first
    | with_reducible first
      | assumption | apply kept_State_advanceTo
    | split | dsimp only | simp only [Kept.upd] | intro _

theorem kept_execDebugRefusalReport (x0 : State) (h0 : Kept k x0) : ∀ t, (execDebugRefusalReport x0) = .next t →
    Kept k t := by
  intro t h
  unfold execDebugRefusalReport at h
  try dsimp only at h
  repeat (split at h)
  all_goals first
    | (cases h; done)
    | (injection h with h; subst h)
  repeat first
    | with_reducible first
      | assumption | apply kept_State_advanceRef | apply kept_State_securityRefusal | apply kept_State_refuse
      | apply kept_foldl | apply kept_foldl_snd | apply kept_foldl_third
    | split | dsimp only | simp only [Kept.upd] | intro _

theorem kept_State_leaveDebug (x0 : State) (h0 : Kept k x0) : Kept k (State.leaveDebug x0) := by
  unfold State.leaveDebug
  repeat first
    | with_reducible first
      | assumption
    | split | dsimp only | simp only [Kept.upd] | intro _

theorem kept_debugEnEffect (x0 : DWord) (x1 : State) (h1 : Kept k x1) : Kept k (debugEnEffect x0 x1) := by
  unfold debugEnEffect
  repeat first
    | with_reducible first
      | assumption | apply kept_State_refuseLater | apply kept_State_leaveDebug
    | split | dsimp only | simp only [Kept.upd] | intro _

theorem kept_execDebugEn (x0 : DWord) (x1 : State) (h1 : Kept k x1) : ∀ t, (execDebugEn x0 x1) = .next t → Kept k t
    := by
  unfold execDebugEn
  repeat first
    | with_reducible first
      | assumption | apply kept_hostWr | apply kept_debugEnEffect
    | split | dsimp only | simp only [Kept.upd] | intro _

theorem kept_State_setCapture (x0 : State) (x1 : Nat) (h0 : Kept k x0) : Kept k (State.setCapture x0 x1) := by
  unfold State.setCapture
  repeat first
    | with_reducible first
      | assumption
    | split | dsimp only | simp only [Kept.upd] | intro _

theorem kept_captureArmEffect (x0 : DWord) (x1 : State) (h1 : Kept k x1) : Kept k (captureArmEffect x0 x1) := by
  unfold captureArmEffect
  repeat first
    | with_reducible first
      | assumption | apply kept_State_setCapture | apply kept_State_refuseLater
    | split | dsimp only | simp only [Kept.upd] | intro _

theorem kept_captureWordEffect (x0 : DWord) (x1 : State) (h1 : Kept k x1) : Kept k (captureWordEffect x0 x1) := by
  unfold captureWordEffect
  repeat first
    | with_reducible first
      | assumption | apply kept_captureArmEffect | apply kept_State_refuseLater | apply kept_State_refuse
      | apply kept_State_setCapture
    | split | dsimp only | simp only [Kept.upd] | intro _

theorem kept_execCapArmed (x0 : DWord) (x1 : State) (h1 : Kept k x1) : ∀ t, (execCapArmed x0 x1) = .next t → Kept k
    t := by
  unfold execCapArmed
  repeat first
    | with_reducible first
      | assumption | apply kept_hostWr | apply kept_captureWordEffect
    | split | dsimp only | simp only [Kept.upd] | intro _

theorem kept_execCapDisarm (x0 : DWord) (x1 : State) (h1 : Kept k x1) : ∀ t, (execCapDisarm x0 x1) = .next t → Kept
    k t := by
  unfold execCapDisarm
  repeat first
    | with_reducible first
      | assumption | apply kept_hostWr | apply kept_captureWordEffect
    | split | dsimp only | simp only [Kept.upd] | intro _

theorem kept_winBaseEffect (x0 : DWord) (x1 : State) (h1 : Kept k x1) : Kept k (winBaseEffect x0 x1) := by
  unfold winBaseEffect
  repeat first
    | with_reducible first
      | assumption | apply kept_State_refuse
    | split | dsimp only | simp only [Kept.upd] | intro _

theorem kept_execWinBase (x0 : DWord) (x1 : State) (h1 : Kept k x1) : ∀ t, (execWinBase x0 x1) = .next t → Kept k t
    := by
  unfold execWinBase
  repeat first
    | with_reducible first
      | assumption | apply kept_hostWr | apply kept_winBaseEffect
    | split | dsimp only | simp only [Kept.upd] | intro _

theorem kept_State_returned (x0 : State) (x1 : List Byte) (x2 : Bool) (h0 : Kept k x0) : Kept k (State.returned x0
    x1 x2) := by
  unfold State.returned
  repeat first
    | with_reducible first
      | assumption
    | split | dsimp only | simp only [Kept.upd] | intro _

theorem kept_State_unsupported (x0 : State) (h0 : Kept k x0) : Kept k (State.unsupported x0) := by
  unfold State.unsupported
  repeat first
    | with_reducible first
      | assumption
    | split | dsimp only | simp only [Kept.upd] | intro _

theorem kept_State_plainStore (s : State) (a n : Nat) (h : Kept k s) : Kept k (s.plainStore a n) := by
  unfold State.plainStore
  exact Kept.updMem h fun hm => memory_fresh_wf _ _ hm

theorem kept_State_hostPoison (x0 : State) (x1 : Nat) (h0 : Kept k x0) : Kept k (State.hostPoison x0 x1) := by
  unfold State.hostPoison
  repeat first
    | with_reducible first
      | assumption | apply kept_State_emit | apply kept_foldl | apply kept_foldl_snd | apply kept_foldl_third
    | with_reducible rfl | with_reducible exact fun h => h | with_reducible exact fun h => smapWf_put _ _ _ _ h
    | with_reducible exact fun h => smapWf_mod _ _ _ _ h | with_reducible exact fun h => smapWf_map _ _ _ h
    | with_reducible exact fun h => smapWf_drop _ _ _ _ h | exact fun h => smapWf_foldl_put h
    | exact fun h => smapWf_foldl_mod h | with_reducible exact fun _ => smapWf_nil _ | split | dsimp only
    | simp only [Kept.upd] | with_reducible apply Kept.all | intro _ | with_reducible refine And.intro ?_ ?_

theorem kept_State_hostReported (x0 : State) (x1 : ReadData) (h0 : Kept k x0) : Kept k (State.hostReported x0 x1) :=
    by
  unfold State.hostReported
  repeat first
    | with_reducible first
      | assumption | apply kept_State_hostPoison | apply kept_State_reportCorrected | apply kept_foldl
      | apply kept_foldl_snd | apply kept_foldl_third
    | split | dsimp only | simp only [Kept.upd] | intro _ | with_reducible refine And.intro ?_ ?_

theorem kept_windowRead (x0 : Nat) (x1 : Nat) (x2 : State) (h2 : Kept k x2) : Kept k (windowRead x0 x1 x2) := by
  unfold windowRead
  repeat first
    | with_reducible first
      | assumption | apply kept_State_plainStore | apply kept_State_returned | apply kept_State_hostReported
    | split | dsimp only | simp only [Kept.upd] | intro _

theorem kept_windowWrite (x0 : Nat) (x1 : List Byte) (x2 : State) (h2 : Kept k x2) : Kept k (windowWrite x0 x1 x2)
    := by
  unfold windowWrite
  repeat first
    | with_reducible first
      | assumption | apply kept_State_outsideWrite | apply kept_State_plainStore | apply kept_State_refuse
    | split | dsimp only | simp only [Kept.upd] | intro _

theorem kept_storeWindowEffect (x0 : Nat) (x1 : HostAccess) (x2 : State) (h2 : Kept k x2) : Kept k
    (storeWindowEffect x0 x1 x2) := by
  unfold storeWindowEffect
  repeat first
    | with_reducible first
      | assumption | apply kept_windowRead | apply kept_State_unsupported | apply kept_windowWrite
    | split | dsimp only | simp only [Kept.upd] | intro _

theorem kept_execStoreWindowAccess (o : BitVec 16) (a : HostAccess) (s : State) (h : Kept k s) :
    ∀ t, execStoreWindowAccess o a s = .next t → Kept k t := by
  intro t ht
  unfold execStoreWindowAccess at ht
  split at ht
  · exact kept_hostWr (fun s hs => kept_storeWindowEffect _ _ _ hs) h t ht
  · split at ht
    · injection ht with ht
      exact ht ▸ kept_storeWindowEffect _ _ _ h
    · injection ht with ht
      exact ht ▸ h

theorem kept_bar2Read (x0 : Nat) (x1 : Nat) (x2 : State) (h2 : Kept k x2) : Kept k (bar2Read x0 x1 x2) := by
  unfold bar2Read
  repeat first
    | with_reducible first
      | assumption | apply kept_State_returned | apply kept_State_hostReported
    | split | dsimp only | simp only [Kept.upd] | intro _

theorem kept_State_bar2Put (f a : Nat) (bs : List Byte) (s : State) (h : Kept k s) :
    Kept k (State.bar2Put f a bs s) := by
  induction f generalizing a bs s with
  | zero => exact h
  | succ f ih =>
    cases bs with
    | nil => exact h
    | cons b r =>
      unfold State.bar2Put
      dsimp only
      apply ih
      split
      · exact h
      · exact kept_State_outsideWrite _ _ _ _ h

theorem kept_bar2Write (x0 : Nat) (x1 : List Byte) (x2 : State) (h2 : Kept k x2) : Kept k (bar2Write x0 x1 x2) := by
  unfold bar2Write
  repeat first
    | with_reducible first
      | assumption | apply kept_State_returned | apply kept_State_bar2Put
    | split | dsimp only | simp only [Kept.upd] | intro _

theorem kept_bar2Effect (x0 : Nat) (x1 : HostAccess) (x2 : State) (h2 : Kept k x2) : Kept k (bar2Effect x0 x1 x2) :=
    by
  unfold bar2Effect
  repeat first
    | with_reducible first
      | assumption | apply kept_bar2Read | apply kept_State_unsupported | apply kept_bar2Write
    | split | dsimp only | simp only [Kept.upd] | intro _

theorem kept_execBar2Access (x0 : BitVec 36) (x1 : HostAccess) (x2 : State) (h2 : Kept k x2) : ∀ t, (execBar2Access
    x0 x1 x2) = .next t → Kept k t := by
  intro t h
  unfold execBar2Access at h
  try dsimp only at h
  repeat (split at h)
  all_goals first
    | (cases h; done)
    | (injection h with h; subst h)
  repeat first
    | with_reducible first
      | assumption | apply kept_bar2Effect | apply kept_foldl | apply kept_foldl_snd | apply kept_foldl_third
    | split | dsimp only | simp only [Kept.upd] | intro _

theorem kept_loadTriggerEffect (x0 : State) (h0 : Kept k x0) : Kept k (loadTriggerEffect x0) := by
  unfold loadTriggerEffect
  repeat first
    | with_reducible first
      | assumption | apply kept_State_refuse
    | split | dsimp only | simp only [Kept.upd] | intro _

theorem kept_execLoadTrigger (x0 : State) (h0 : Kept k x0) : ∀ t, (execLoadTrigger x0) = .next t → Kept k t := by
  unfold execLoadTrigger
  repeat first
    | with_reducible first
      | assumption | apply kept_hostWr | apply kept_loadTriggerEffect
    | split | dsimp only | simp only [Kept.upd] | intro _













theorem kept_State_copyImage (s : State) (img : List Byte) (half : Bool) (h : Kept k s) :
    Kept k (s.copyImage img half) := by
  unfold State.copyImage
  exact kept_foldl h fun s p hs => kept_State_placeBytes _ _ _ _ _ hs

theorem kept_State_acceptImage (s : State) (m : Image) (half : Bool) (l : List Deferral) (h : Kept k s) :
    Kept k (s.acceptImage m half l) := by
  unfold State.acceptImage
  dsimp only
  apply kept_State_sendReadyGates
  apply kept_State_emit
  exact Kept.upd.mpr (kept_foldl h fun s p hs => kept_State_placeBytes _ _ _ _ _ hs)

theorem kept_State_refuseImage (x0 : State) (x1 : Nat) (h0 : Kept k x0) : Kept k (State.refuseImage x0 x1) := by
  unfold State.refuseImage
  repeat first
    | with_reducible first
      | assumption | apply kept_State_emit
    | split | dsimp only | simp only [Kept.upd] | intro _

theorem kept_loadCheckEffect (x0 : Bool) (x1 : State) (h1 : Kept k x1) : Kept k (loadCheckEffect x0 x1) := by
  unfold loadCheckEffect
  repeat first
    | with_reducible first
      | assumption | apply kept_State_copyImage | apply kept_State_acceptImage | apply kept_State_refuseImage
    | split | dsimp only | simp only [Kept.upd] | intro _

theorem kept_execLoadCheck (x0 : Bool) (x1 : State) (h1 : Kept k x1) : ∀ t, (execLoadCheck x0 x1) = .next t → Kept k
    t := by
  intro t h
  unfold execLoadCheck at h
  try dsimp only at h
  repeat (split at h)
  all_goals first
    | (cases h; done)
    | (injection h with h; subst h)
  repeat first
    | with_reducible first
      | assumption | apply kept_loadCheckEffect | apply kept_foldl | apply kept_foldl_snd
      | apply kept_foldl_third
    | split | dsimp only | simp only [Kept.upd] | intro _

theorem kept_laneLossEffect (x0 : Nat) (x1 : Fin 8) (x2 : State) (h2 : Kept k x2) : Kept k (laneLossEffect x0 x1 x2)
    := by
  unfold laneLossEffect
  repeat first
    | with_reducible first
      | assumption | apply kept_State_portTo | apply kept_State_setPort
    | split | dsimp only | simp only [Kept.upd] | intro _

theorem kept_execLaneLossOfLock (x0 : Fin 16) (x1 : Fin 8) (x2 : State) (h2 : Kept k x2) : ∀ t, (execLaneLossOfLock
    x0 x1 x2) = .next t → Kept k t := by
  intro t h
  unfold execLaneLossOfLock at h
  try dsimp only at h
  repeat (split at h)
  all_goals first
    | (cases h; done)
    | (injection h with h; subst h)
  repeat first
    | with_reducible first
      | assumption | apply kept_laneLossEffect | apply kept_foldl | apply kept_foldl_snd
      | apply kept_foldl_third
    | split | dsimp only | simp only [Kept.upd] | intro _

theorem kept_laneSwapEffect (x0 : Nat) (x1 : Bool) (x2 : Fin 8) (x3 : State) (h3 : Kept k x3) : Kept k
    (laneSwapEffect x0 x1 x2 x3) := by
  unfold laneSwapEffect
  repeat first
    | with_reducible first
      | assumption | apply kept_State_emit | apply kept_State_setPort
    | split | dsimp only | simp only [Kept.upd] | intro _

theorem kept_execLaneSwap (p : Fin 16) (r : Bool) (l : Fin 8) (s : State) (h : Kept k s) :
    ∀ t, execLaneSwap p r l s = .next t → Kept k t := by
  intro t ht
  unfold execLaneSwap at ht
  split at ht
  · injection ht with ht
    exact ht ▸ kept_laneSwapEffect _ _ _ _ h
  · injection ht with ht
    exact ht ▸ h

theorem kept_execSpareLaneRestore (x0 : Fin 16) (x1 : Bool) (x2 : State) (h2 : Kept k x2) : ∀ t,
    (execSpareLaneRestore x0 x1 x2) = .next t → Kept k t := by
  intro t h
  unfold execSpareLaneRestore at h
  try dsimp only at h
  all_goals first
    | (cases h; done)
    | (injection h with h; subst h)
  repeat first
    | with_reducible first
      | assumption | apply kept_State_setPort | apply kept_foldl | apply kept_foldl_snd
      | apply kept_foldl_third
    | split | dsimp only | simp only [Kept.upd] | intro _

theorem kept_laneWindowEffect (x0 : Nat) (x1 : List Nat) (x2 : Nat) (x3 : State) (h3 : Kept k x3) : Kept k
    (laneWindowEffect x0 x1 x2 x3) := by
  unfold laneWindowEffect
  repeat first
    | with_reducible first
      | assumption | apply kept_State_decide_ | apply kept_State_setPort
    | split | dsimp only | simp only [Kept.upd] | intro _

theorem kept_execLaneWindow (x0 : Fin 16) (x1 : List Nat) (x2 : Nat) (x3 : State) (h3 : Kept k x3) : ∀ t,
    (execLaneWindow x0 x1 x2 x3) = .next t → Kept k t := by
  intro t h
  unfold execLaneWindow at h
  try dsimp only at h
  all_goals first
    | (cases h; done)
    | (injection h with h; subst h)
  repeat first
    | with_reducible first
      | assumption | apply kept_laneWindowEffect | apply kept_foldl | apply kept_foldl_snd
      | apply kept_foldl_third
    | split | dsimp only | simp only [Kept.upd] | intro _

theorem kept_portEnableEffect (x0 : Nat) (x1 : State) (h1 : Kept k x1) : Kept k (portEnableEffect x0 x1) := by
  unfold portEnableEffect
  repeat first
    | with_reducible first
      | assumption | apply kept_State_portTo | apply kept_State_setPort
    | split | dsimp only | simp only [Kept.upd] | intro _

theorem kept_execPortEnable (x0 : Fin 16) (x1 : State) (h1 : Kept k x1) : ∀ t, (execPortEnable x0 x1) = .next t →
    Kept k t := by
  unfold execPortEnable
  repeat first
    | with_reducible first
      | assumption | apply kept_hostWr | apply kept_portEnableEffect
    | split | dsimp only | simp only [Kept.upd] | intro _

theorem kept_portDisableEffect (x0 : Nat) (x1 : State) (h1 : Kept k x1) : Kept k (portDisableEffect x0 x1) := by
  unfold portDisableEffect
  repeat first
    | with_reducible first
      | assumption | apply kept_State_refuse | apply kept_State_portTo | apply kept_State_setPort
    | split | dsimp only | simp only [Kept.upd] | intro _

theorem kept_execPortDisable (x0 : Fin 16) (x1 : State) (h1 : Kept k x1) : ∀ t, (execPortDisable x0 x1) = .next t →
    Kept k t := by
  unfold execPortDisable
  repeat first
    | with_reducible first
      | assumption | apply kept_hostWr | apply kept_portDisableEffect
    | split | dsimp only | simp only [Kept.upd] | intro _

theorem kept_portTrainedEffect (x0 : Fin 16) (x1 : PeerId) (x2 : State) (h2 : Kept k x2) : Kept k (portTrainedEffect
    x0 x1 x2) := by
  unfold portTrainedEffect
  repeat first
    | with_reducible first
      | assumption | apply kept_State_portTo | apply kept_State_setLink | apply kept_State_emit
    | split | dsimp only | simp only [Kept.upd] | intro _

theorem kept_execPortTrained (x0 : Fin 16) (x1 : PeerId) (x2 : State) (h2 : Kept k x2) : ∀ t, (execPortTrained x0 x1
    x2) = .next t → Kept k t := by
  intro t h
  unfold execPortTrained at h
  try dsimp only at h
  repeat (split at h)
  all_goals first
    | (cases h; done)
    | (injection h with h; subst h)
  repeat first
    | with_reducible first
      | assumption | apply kept_portTrainedEffect | apply kept_foldl | apply kept_foldl_snd
      | apply kept_foldl_third
    | split | dsimp only | simp only [Kept.upd] | intro _

theorem kept_execPortTrainingTimeout (x0 : Fin 16) (x1 : State) (h1 : Kept k x1) : ∀ t, (execPortTrainingTimeout x0
    x1) = .next t → Kept k t := by
  intro t h
  unfold execPortTrainingTimeout at h
  try dsimp only at h
  repeat (split at h)
  all_goals first
    | (cases h; done)
    | (injection h with h; subst h)
  repeat first
    | with_reducible first
      | assumption | apply kept_State_portTo | apply kept_foldl | apply kept_foldl_snd | apply kept_foldl_third
    | split | dsimp only | simp only [Kept.upd] | intro _

theorem kept_portDrainEndEffect (x0 : Fin 16) (x1 : State) (h1 : Kept k x1) : Kept k (portDrainEndEffect x0 x1) :=
    by
  unfold portDrainEndEffect
  repeat first
    | with_reducible first
      | assumption | apply kept_State_setLink | apply kept_State_movePort
    | split | dsimp only | simp only [Kept.upd] | intro _

theorem kept_execPortDrainEnd (x0 : Fin 16) (x1 : State) (h1 : Kept k x1) : ∀ t, (execPortDrainEnd x0 x1) = .next t
    → Kept k t := by
  intro t h
  unfold execPortDrainEnd at h
  try dsimp only at h
  repeat (split at h)
  all_goals first
    | (cases h; done)
    | (injection h with h; subst h)
  repeat first
    | with_reducible first
      | assumption | apply kept_portDrainEndEffect | apply kept_foldl | apply kept_foldl_snd
      | apply kept_foldl_third
    | split | dsimp only | simp only [Kept.upd] | intro _

theorem kept_State_lockSeam (x0 : State) (x1 : Nat) (x2 : Bool) (h0 : Kept k x0) : Kept k (State.lockSeam x0 x1 x2)
    := by
  unfold State.lockSeam
  repeat first
    | with_reducible first
      | assumption | apply kept_foldl | apply kept_foldl_snd | apply kept_foldl_third
    | with_reducible rfl | with_reducible exact fun h => h | with_reducible exact fun h => smapWf_put _ _ _ _ h
    | with_reducible exact fun h => smapWf_mod _ _ _ _ h | with_reducible exact fun h => smapWf_map _ _ _ h
    | with_reducible exact fun h => smapWf_drop _ _ _ _ h | exact fun h => smapWf_foldl_put h
    | exact fun h => smapWf_foldl_mod h | with_reducible exact fun _ => smapWf_nil _ | split | dsimp only
    | simp only [Kept.upd] | with_reducible apply Kept.all | intro _ | with_reducible refine And.intro ?_ ?_

theorem kept_State_seamFault (x0 : State) (x1 : Nat) (h0 : Kept k x0) : Kept k (State.seamFault x0 x1) := by
  unfold State.seamFault
  repeat first
    | with_reducible first
      | assumption | apply kept_State_emit | apply kept_State_raiseAsync
    | split | dsimp only | simp only [Kept.upd] | intro _

theorem kept_execSeamLossOfLock (x0 : Fin 2) (x1 : Fin 48) (x2 : State) (h2 : Kept k x2) : ∀ t, (execSeamLossOfLock
    x0 x1 x2) = .next t → Kept k t := by
  unfold execSeamLossOfLock
  dsimp only
  repeat (first | split | simp [*, kept_State_lockSeam, kept_State_seamFault])

theorem kept_State_freshSeam (x0 : State) (h0 : Kept k x0) : Kept k (State.freshSeam x0) := by
  unfold State.freshSeam
  repeat first
    | with_reducible first
      | assumption | apply kept_State_setLink | apply kept_foldl | apply kept_foldl_snd
      | apply kept_foldl_third
    | split | dsimp only | simp only [Kept.upd] | intro _ | with_reducible refine And.intro ?_ ?_

theorem kept_seamRetrainedEffect (x0 : State) (h0 : Kept k x0) : Kept k (seamRetrainedEffect x0) := by
  unfold seamRetrainedEffect
  repeat first
    | with_reducible first
      | assumption | apply kept_State_freshSeam | apply kept_State_emit | apply kept_foldl
      | apply kept_foldl_snd | apply kept_foldl_third
    | with_reducible rfl | with_reducible exact fun h => h | with_reducible exact fun h => smapWf_put _ _ _ _ h
    | with_reducible exact fun h => smapWf_mod _ _ _ _ h | with_reducible exact fun h => smapWf_map _ _ _ h
    | with_reducible exact fun h => smapWf_drop _ _ _ _ h | exact fun h => smapWf_foldl_put h
    | exact fun h => smapWf_foldl_mod h | with_reducible exact fun _ => smapWf_nil _ | split | dsimp only
    | simp only [Kept.upd] | with_reducible apply Kept.all | intro _ | with_reducible refine And.intro ?_ ?_

theorem kept_execSeamRetrained (x0 : State) (h0 : Kept k x0) : ∀ t, (execSeamRetrained x0) = .next t → Kept k t :=
    by
  intro t h
  unfold execSeamRetrained at h
  try dsimp only at h
  repeat (split at h)
  all_goals first
    | (cases h; done)
    | (injection h with h; subst h)
  repeat first
    | with_reducible first
      | assumption | apply kept_seamRetrainedEffect | apply kept_foldl | apply kept_foldl_snd
      | apply kept_foldl_third
    | split | dsimp only | simp only [Kept.upd] | intro _

theorem kept_seamRetrainTimeoutEffect (x0 : State) (h0 : Kept k x0) : Kept k (seamRetrainTimeoutEffect x0) := by
  unfold seamRetrainTimeoutEffect
  repeat first
    | with_reducible first
      | assumption | apply kept_State_emit | apply kept_State_holdPlate
    | split | dsimp only | simp only [Kept.upd] | intro _

theorem kept_execSeamRetrainTimeout (x0 : State) (h0 : Kept k x0) : ∀ t, (execSeamRetrainTimeout x0) = .next t →
    Kept k t := by
  intro t h
  unfold execSeamRetrainTimeout at h
  try dsimp only at h
  repeat (split at h)
  all_goals first
    | (cases h; done)
    | (injection h with h; subst h)
  repeat first
    | with_reducible first
      | assumption | apply kept_seamRetrainTimeoutEffect | apply kept_foldl | apply kept_foldl_snd
      | apply kept_foldl_third
    | split | dsimp only | simp only [Kept.upd] | intro _

theorem kept_State_requestGear (x0 : State) (x1 : Fin 4) (h0 : Kept k x0) : Kept k (State.requestGear x0 x1) := by
  unfold State.requestGear
  repeat first
    | with_reducible first
      | assumption | apply kept_State_decide_
    | split | dsimp only | simp only [Kept.upd] | intro _

theorem kept_State_chooseGear (x0 : State) (x1 : Nat) (x2 : Fin 4) (h0 : Kept k x0) : Kept k (State.chooseGear x0 x1
    x2) := by
  unfold State.chooseGear
  repeat first
    | with_reducible first
      | assumption | apply kept_State_requestGear
    | split | dsimp only | simp only [Kept.upd] | intro _

theorem kept_State_setGate (x0 : State) (x1 : ClusterLoc) (x2 : Gate) (h0 : Kept k x0) : Kept k (State.setGate x0 x1
    x2) := by
  unfold State.setGate
  repeat first
    | with_reducible first
      | assumption | apply kept_State_emit | apply kept_foldl | apply kept_foldl_snd | apply kept_foldl_third
    | with_reducible rfl | with_reducible exact fun h => h | with_reducible exact fun h => smapWf_put _ _ _ _ h
    | with_reducible exact fun h => smapWf_mod _ _ _ _ h | with_reducible exact fun h => smapWf_map _ _ _ h
    | with_reducible exact fun h => smapWf_drop _ _ _ _ h | exact fun h => smapWf_foldl_put h
    | exact fun h => smapWf_foldl_mod h | with_reducible exact fun _ => smapWf_nil _ | split | dsimp only
    | simp only [Kept.upd] | with_reducible apply Kept.all | intro _ | with_reducible refine And.intro ?_ ?_

theorem kept_State_gateTo (x0 : State) (x1 : ClusterLoc) (x2 : GateState) (h0 : Kept k x0) : Kept k (State.gateTo x0
    x1 x2) := by
  unfold State.gateTo
  repeat first
    | with_reducible first
      | assumption | apply kept_State_setGate
    | split | dsimp only | simp only [Kept.upd] | intro _

theorem kept_State_gatePending (x0 : State) (x1 : ClusterLoc) (x2 : Bool) (h0 : Kept k x0) : Kept k
    (State.gatePending x0 x1 x2) := by
  unfold State.gatePending
  repeat first
    | with_reducible first
      | assumption | apply kept_foldl | apply kept_foldl_snd | apply kept_foldl_third
    | with_reducible rfl | with_reducible exact fun h => h | with_reducible exact fun h => smapWf_put _ _ _ _ h
    | with_reducible exact fun h => smapWf_mod _ _ _ _ h | with_reducible exact fun h => smapWf_map _ _ _ h
    | with_reducible exact fun h => smapWf_drop _ _ _ _ h | exact fun h => smapWf_foldl_put h
    | exact fun h => smapWf_foldl_mod h | with_reducible exact fun _ => smapWf_nil _ | split | dsimp only
    | simp only [Kept.upd] | with_reducible apply Kept.all | intro _ | with_reducible refine And.intro ?_ ?_

theorem kept_clusterEnableEffect (x0 : ClusterLoc) (x1 : State) (h1 : Kept k x1) : Kept k (clusterEnableEffect x0
    x1) := by
  unfold clusterEnableEffect
  repeat first
    | with_reducible first
      | assumption | apply kept_State_gatePending | apply kept_State_gateTo
    | split | dsimp only | simp only [Kept.upd] | intro _

theorem kept_execClusterEnable (x0 : ClusterLoc) (x1 : State) (h1 : Kept k x1) : ∀ t, (execClusterEnable x0 x1) =
    .next t → Kept k t := by
  unfold execClusterEnable
  repeat first
    | with_reducible first
      | assumption | apply kept_hostWr | apply kept_clusterEnableEffect
    | split | dsimp only | simp only [Kept.upd] | intro _

theorem kept_clusterDisableEffect (x0 : ClusterLoc) (x1 : State) (h1 : Kept k x1) : Kept k (clusterDisableEffect x0
    x1) := by
  unfold clusterDisableEffect
  repeat first
    | with_reducible first
      | assumption | apply kept_State_refuse | apply kept_State_gateTo | apply kept_State_gatePending
    | split | dsimp only | simp only [Kept.upd] | intro _

theorem kept_execClusterDisable (x0 : ClusterLoc) (x1 : State) (h1 : Kept k x1) : ∀ t, (execClusterDisable x0 x1) =
    .next t → Kept k t := by
  unfold execClusterDisable
  repeat first
    | with_reducible first
      | assumption | apply kept_hostWr | apply kept_clusterDisableEffect
    | split | dsimp only | simp only [Kept.upd] | intro _

theorem kept_execClusterDrainEnd (x0 : ClusterLoc) (x1 : State) (h1 : Kept k x1) : ∀ t, (execClusterDrainEnd x0 x1)
    = .next t → Kept k t := by
  intro t h
  unfold execClusterDrainEnd at h
  try dsimp only at h
  repeat (split at h)
  all_goals first
    | (cases h; done)
    | (injection h with h; subst h)
  repeat first
    | with_reducible first
      | assumption | apply kept_State_setGate | apply kept_foldl | apply kept_foldl_snd
      | apply kept_foldl_third
    | split | dsimp only | simp only [Kept.upd] | intro _

theorem kept_State_clearCluster (s : State) (c : ClusterLoc) (h : Kept k s) : Kept k (s.clearCluster c) := by
  unfold State.clearCluster
  dsimp only
  apply Kept.all h rfl rfl rfl (dropCluster_wf _ _)
  all_goals first
    | with_reducible exact fun h => h
    | with_reducible exact fun h => smapWf_put _ _ _ _ h
    | with_reducible exact fun h => smapWf_drop _ _ _ _ h

theorem kept_execClusterPowered (x0 : ClusterLoc) (x1 : State) (h1 : Kept k x1) : ∀ t, (execClusterPowered x0 x1) =
    .next t → Kept k t := by
  intro t h
  unfold execClusterPowered at h
  try dsimp only at h
  repeat (split at h)
  all_goals first
    | (cases h; done)
    | (injection h with h; subst h)
  repeat first
    | with_reducible first
      | assumption | apply kept_State_gateTo | apply kept_State_clearCluster | apply kept_foldl
      | apply kept_foldl_snd | apply kept_foldl_third
    | split | dsimp only | simp only [Kept.upd] | intro _

end Sys2Proof.Laws
end

