-- ==== Sys2Proof/Laws/KeptManage.lean ====
section
/-! SUPPORT. The host and management commands keep them. -/

namespace Sys2Proof.Laws
open Sys2Proof Sys2Proof.Machine

variable {k : List Instr × DWord × Option (BitVec 384) × BitVec 384}

theorem kept_State_skipEvent (x0 : State) (x1 : Nat) (x2 : Nat) (h0 : Kept k x0) : Kept k (State.skipEvent x0 x1 x2)
    := by
  unfold State.skipEvent
  repeat first
    | with_reducible first
      | assumption | apply kept_State_emit
    | split | dsimp only | simp only [Kept.upd] | intro _

theorem kept_State_revokePlace (x0 : State) (x1 : Nat) (h0 : Kept k x0) : Kept k (State.revokePlace x0 x1) := by
  unfold State.revokePlace
  repeat first
    | with_reducible first
      | assumption | apply kept_foldl | apply kept_foldl_snd | apply kept_foldl_third
    | split | dsimp only | simp only [Kept.upd] | simp only [Kept.boot] | intro _ | with_reducible rfl

theorem kept_State_revokedEvent (x0 : State) (x1 : Bool) (h0 : Kept k x0) : Kept k (State.revokedEvent x0 x1) := by
  unfold State.revokedEvent
  repeat first
    | with_reducible first
      | assumption | apply kept_State_emit
    | split | dsimp only | simp only [Kept.upd] | intro _

theorem kept_State_writeCarried (x0 : State) (x1 : List Byte) (h0 : Kept k x0) : Kept k (State.writeCarried x0 x1)
    := by
  unfold State.writeCarried
  repeat first
    | with_reducible first
      | assumption | apply kept_State_skipEvent | apply kept_State_emit | apply kept_foldl
      | apply kept_foldl_snd | apply kept_foldl_third
    | split | dsimp only | simp only [Kept.upd] | simp only [Kept.boot] | intro _ | with_reducible rfl

theorem kept_State_lost (s : State) (h : Kept k s) : Kept k s.lost := by
  obtain ⟨h1, h2, -⟩ := h
  refine ⟨h1, ?_, rfl⟩
  rw [memory_wf_iff] at h2 ⊢
  exact ⟨rfl, rfl, rfl, h2.2.2.2⟩

theorem kept_State_noLatches (s : State) (h : Kept k s) : Kept k s.noLatches := Kept.updBoot h rfl rfl rfl

theorem kept_execPerstNAssert (s : State) (h : Kept k s) : ∀ t, execPerstNAssert s = .next t → Kept k t := by
  intro t ht
  unfold execPerstNAssert at ht
  injection ht with ht
  have h1 := kept_State_lost s h
  revert ht
  generalize s.lost = u at h1
  intro ht
  exact ht ▸ Kept.updBoot h1 rfl rfl rfl

theorem kept_execPgoodDeassert (g : Fin 6) (s : State) (h : Kept k s) :
    ∀ t, execPgoodDeassert g s = .next t → Kept k t := by
  intro t ht
  unfold execPgoodDeassert at ht
  injection ht with ht
  subst ht
  have h1 : Kept k { s with boot := { s.boot with
      pgood := s.boot.pgood &&& ~~~(BitVec.ofNat 6 (2 ^ g.val)) } } := Kept.updBoot h rfl rfl rfl
  revert h1
  generalize ({ s with boot := { s.boot with
      pgood := s.boot.pgood &&& ~~~(BitVec.ofNat 6 (2 ^ g.val)) } } : State) = u
  intro h1
  have h2 : Kept k (if u.boot.perstLow then u else u.lost) := by
    split
    · exact h1
    · exact kept_State_lost _ h1
  revert h2
  dsimp only
  generalize (if u.boot.perstLow then u else u.lost) = v
  intro h2
  split
  · have h3 := kept_State_noLatches v h2
    revert h3
    generalize v.noLatches = w
    intro h3
    exact Kept.updBoot h3 rfl rfl rfl
  · exact h2

theorem kept_execRefclkLoss (s : State) (h : Kept k s) : ∀ t, execRefclkLoss s = .next t → Kept k t := by
  intro t ht
  unfold execRefclkLoss at ht
  injection ht with ht
  have h1 := kept_State_lost s h
  revert ht
  dsimp only
  generalize s.lost = u at h1
  intro ht
  exact ht ▸ Kept.updBoot h1 rfl rfl rfl

theorem kept_execSequencingViolation (g : BitVec 6) (s : State) (h : Kept k s) :
    ∀ t, execSequencingViolation g s = .next t → Kept k t := by
  intro t ht
  unfold execSequencingViolation at ht
  injection ht with ht
  exact ht ▸ Kept.updBoot h rfl rfl rfl

theorem kept_execThermalTrip (x : TripSensor) (s : State) (h : Kept k s) :
    ∀ t, execThermalTrip x s = .next t → Kept k t := by
  intro t ht
  unfold execThermalTrip at ht
  injection ht with ht
  have h1 := kept_State_lost s h
  revert ht
  dsimp only
  generalize s.lost = u at h1
  intro ht
  exact ht ▸ Kept.updBoot h1 rfl rfl rfl

theorem kept_execPwrFailNAssert (s : State) (h : Kept k s) : ∀ t, execPwrFailNAssert s = .next t → Kept k t := by
  intro t ht
  have h1 : Kept k { s with boot := { s.boot with pwrFail := true } } := Kept.updBoot h rfl rfl rfl
  unfold execPwrFailNAssert at ht
  dsimp only at ht
  injection ht with ht
  subst ht
  split
  · exact kept_State_emit _ _ _ _ h1
  · exact h1

theorem kept_State_nextJob (x0 : State) (h0 : Kept k x0) : Kept k (State.nextJob x0) := by
  unfold State.nextJob
  repeat first
    | with_reducible first
      | assumption | apply kept_State_sealSync
    | split | dsimp only | simp only [Kept.upd] | intro _

theorem kept_State_bar2Reopens (x0 : State) (h0 : Kept k x0) : Kept k (State.bar2Reopens x0) := by
  unfold State.bar2Reopens
  repeat first
    | with_reducible first
      | assumption
    | split | dsimp only | simp only [Kept.upd] | intro _

theorem kept_State_commitFails (x0 : State) (h0 : Kept k x0) : Kept k (State.commitFails x0) := by
  unfold State.commitFails
  repeat first
    | with_reducible first
      | assumption | apply kept_State_nextJob | apply kept_State_emit | apply kept_State_bar2Reopens
    | split | dsimp only | simp only [Kept.upd] | intro _

theorem kept_State_fwFails (x0 : State) (h0 : Kept k x0) : Kept k (State.fwFails x0) := by
  unfold State.fwFails
  repeat first
    | with_reducible first
      | assumption | apply kept_State_emit | apply kept_State_sealSync | apply kept_foldl
      | apply kept_foldl_snd | apply kept_foldl_third
    | with_reducible rfl | with_reducible exact fun h => h | with_reducible exact fun h => smapWf_put _ _ _ _ h
    | with_reducible exact fun h => smapWf_mod _ _ _ _ h | with_reducible exact fun h => smapWf_map _ _ _ h
    | with_reducible exact fun h => smapWf_drop _ _ _ _ h | exact fun h => smapWf_foldl_put h
    | exact fun h => smapWf_foldl_mod h | with_reducible exact fun _ => smapWf_nil _ | split | dsimp only
    | simp only [Kept.upd] | with_reducible apply Kept.all | intro _ | with_reducible refine And.intro ?_ ?_

theorem kept_execPwrFailNDeassert (s : State) (h : Kept k s) : ∀ t, execPwrFailNDeassert s = .next t → Kept k t := by
  intro t ht
  have h1 : Kept k { s with boot := { s.boot with pwrFail := false } } := Kept.updBoot h rfl rfl rfl
  have h2 := kept_State_emit _ srcMss 0x0561 [] h1
  unfold execPwrFailNDeassert at ht
  dsimp only at ht
  revert ht
  generalize State.emit _ srcMss 0x0561 [] = u at h2
  intro ht
  have h3 : Kept k (if u.sec.job.isSome then u.commitFails else u) := by
    split
    · exact kept_State_commitFails _ h2
    · exact h2
  revert ht
  generalize (if u.sec.job.isSome then u.commitFails else u) = v at h3
  intro ht
  split at ht
  · injection ht with ht
    subst ht
    split
    · exact kept_State_fwFails _ h3
    · exact h3
  · injection ht with ht
    exact ht ▸ h1

theorem kept_State_romRevert (x0 : State) (h0 : Kept k x0) : Kept k (State.romRevert x0) := by
  unfold State.romRevert
  repeat first
    | with_reducible first
      | assumption | apply kept_State_appendBoot
    | split | dsimp only | simp only [Kept.upd] | intro _

theorem kept_State_loadLog (x0 : State) (h0 : Kept k x0) : Kept k (State.loadLog x0) := by
  unfold State.loadLog
  repeat first
    | with_reducible first
      | assumption
    | split | dsimp only | simp only [Kept.upd] | intro _

theorem kept_State_drawKey (x0 : State) (h0 : Kept k x0) : Kept k (State.drawKey x0) := by
  unfold State.drawKey
  repeat first
    | with_reducible first
      | assumption | apply kept_State_freeByte | apply kept_foldl | apply kept_foldl_snd
      | apply kept_foldl_third
    | split | dsimp only | simp only [Kept.upd] | intro _ | with_reducible refine And.intro ?_ ?_

theorem kept_State_reportLatches (x0 : State) (h0 : Kept k x0) : Kept k (State.reportLatches x0) := by
  unfold State.reportLatches
  repeat first
    | with_reducible first
      | assumption | apply kept_State_emit | apply kept_State_noLatches
    | split | dsimp only | simp only [Kept.upd] | intro _

theorem kept_State_startFirmware (x0 : State) (x1 : Nat) (x2 : Bool) (h0 : Kept k x0) : Kept k (State.startFirmware
    x0 x1 x2) := by
  unfold State.startFirmware
  repeat first
    | with_reducible first
      | assumption | apply kept_State_loadKeyStore | apply kept_State_reportLatches | apply kept_State_drawKey
      | apply kept_State_loadLog | apply kept_State_emit | apply kept_foldl | apply kept_foldl_snd
      | apply kept_foldl_third
    | split | dsimp only | simp only [Kept.upd] | simp only [Kept.boot] | intro _ | with_reducible rfl

theorem kept_State_autoReturn (x0 : State) (h0 : Kept k x0) : Kept k (State.autoReturn x0) := by
  unfold State.autoReturn
  repeat first
    | with_reducible first
      | assumption | apply kept_State_revokedEvent | apply kept_State_revokePlace
    | split | dsimp only | simp only [Kept.upd] | intro _

theorem kept_State_takeEdition (x0 : State) (x1 : Edition) (h0 : Kept k x0) : Kept k (State.takeEdition x0 x1) := by
  unfold State.takeEdition
  repeat first
    | with_reducible first
      | assumption
    | split | dsimp only | simp only [Kept.upd] | intro _

theorem kept_State_takeRegisters (x0 : State) (h0 : Kept k x0) : Kept k (State.takeRegisters x0) := by
  unfold State.takeRegisters
  repeat first
    | with_reducible first
      | assumption
    | split | dsimp only | simp only [Kept.upd] | intro _

theorem kept_State_reportSkipped (x0 : State) (x1 : List PlaceState) (h0 : Kept k x0) : Kept k (State.reportSkipped
    x0 x1) := by
  unfold State.reportSkipped
  repeat first
    | with_reducible first
      | assumption | apply kept_State_skipEvent | apply kept_foldl | apply kept_foldl_snd
      | apply kept_foldl_third
    | split | dsimp only | simp only [Kept.upd] | intro _ | with_reducible refine And.intro ?_ ?_

theorem kept_State_selectEdition (s : State) (h : Kept k s) : Kept k s.selectEdition := by
  have h1 := kept_State_reportSkipped _ s.autoReturn.places (kept_State_autoReturn s h)
  unfold State.selectEdition
  dsimp only
  revert h1
  generalize s.autoReturn.reportSkipped s.autoReturn.places = u
  intro h1
  split
  · exact kept_State_appendBoot _ _ (kept_State_emit _ _ _ _ (kept_State_takeEdition _ _ h1))
  · have h2 := kept_State_takeEdition u recoveryEdition h1
    have hb : (u.takeEdition recoveryEdition).boot = u.boot := rfl
    apply kept_State_appendBoot
    apply kept_State_emit
    exact Kept.updBoot h2 rfl rfl rfl

theorem kept_State_plateFails (x0 : State) (x1 : Nat) (x2 : Bool) (h0 : Kept k x0) : Kept k (State.plateFails x0 x1
    x2) := by
  unfold State.plateFails
  repeat first
    | with_reducible first
      | assumption | apply kept_State_failPlate
    | split | dsimp only | simp only [Kept.upd] | intro _

theorem kept_State_halfDevice (x0 : State) (h0 : Kept k x0) : Kept k (State.halfDevice x0) := by
  unfold State.halfDevice
  repeat first
    | with_reducible first
      | assumption | apply kept_State_holdPlate
    | split | dsimp only | simp only [Kept.upd] | intro _

theorem kept_State_trainPorts (x0 : State) (h0 : Kept k x0) : Kept k (State.trainPorts x0) := by
  unfold State.trainPorts
  repeat first
    | with_reducible first
      | assumption | apply kept_State_portTo | apply kept_foldl | apply kept_foldl_snd | apply kept_foldl_third
    | split | dsimp only | simp only [Kept.upd] | intro _ | with_reducible refine And.intro ?_ ?_

theorem kept_State_powerUp (x0 : State) (x1 : Nat) (h0 : Kept k x0) : Kept k (State.powerUp x0 x1) := by
  unfold State.powerUp
  repeat first
    | with_reducible first
      | assumption | apply kept_State_emit | apply kept_foldl | apply kept_foldl_snd | apply kept_foldl_third
    | with_reducible rfl | with_reducible exact fun h => h | with_reducible exact fun h => smapWf_put _ _ _ _ h
    | with_reducible exact fun h => smapWf_mod _ _ _ _ h | with_reducible exact fun h => smapWf_map _ _ _ h
    | with_reducible exact fun h => smapWf_drop _ _ _ _ h | exact fun h => smapWf_foldl_put h
    | exact fun h => smapWf_foldl_mod h | with_reducible exact fun _ => smapWf_nil _ | split | dsimp only
    | simp only [Kept.upd] | with_reducible apply Kept.all | intro _ | with_reducible refine And.intro ?_ ?_

theorem kept_State_powerClusters (x0 : State) (h0 : Kept k x0) : Kept k (State.powerClusters x0) := by
  unfold State.powerClusters
  repeat first
    | with_reducible first
      | assumption | apply kept_State_powerUp | apply kept_foldl | apply kept_foldl_snd
      | apply kept_foldl_third
    | split | dsimp only | simp only [Kept.upd] | intro _ | with_reducible refine And.intro ?_ ?_

theorem kept_State_bringUp (x0 : State) (x1 : BootFacts) (h0 : Kept k x0) : Kept k (State.bringUp x0 x1) := by
  unfold State.bringUp
  repeat first
    | with_reducible first
      | assumption | apply kept_State_powerClusters | apply kept_State_plateFails | apply kept_State_halfDevice
      | apply kept_foldl | apply kept_foldl_snd | apply kept_foldl_third
    | split | dsimp only | simp only [Kept.upd] | simp only [Kept.boot] | intro _ | with_reducible rfl

theorem kept_State_bootFrom (x0 : State) (x1 : BootFacts) (h0 : Kept k x0) : Kept k (State.bootFrom x0 x1) := by
  unfold State.bootFrom
  repeat first
    | with_reducible first
      | assumption | apply kept_State_loadFloors | apply kept_State_romRevert | apply kept_State_startFirmware
      | apply kept_State_selectEdition | apply kept_State_bringUp | apply kept_foldl | apply kept_foldl_snd
      | apply kept_foldl_third
    | split | dsimp only | simp only [Kept.upd] | simp only [Kept.boot] | intro _ | with_reducible rfl

theorem kept_execBoot (f : BootFacts) (s : State) (h : Kept k s) : ∀ t, execBoot f s = .next t → Kept k t := by
  intro t ht
  unfold execBoot at ht
  split at ht
  · injection ht with ht
    subst ht
    apply kept_State_bootFrom
    exact Kept.updBoot h rfl rfl rfl
  · injection ht with ht
    exact ht ▸ h

theorem kept_State_scrubbed (s : State) (h : Kept k s) : Kept k s.scrubbed := by
  unfold State.scrubbed
  apply Kept.all h rfl rfl rfl
  · intro hm
    rw [memory_wf_iff] at hm ⊢
    exact ⟨rfl, rfl, rfl, hm.2.2.2⟩
  all_goals first
    | with_reducible exact fun h => h
    | with_reducible exact fun _ => smapWf_nil _

theorem kept_scrubCompleteEffect (x0 : ScrubJob) (x1 : State) (h1 : Kept k x1) : Kept k (scrubCompleteEffect x0 x1)
    := by
  unfold scrubCompleteEffect
  repeat first
    | with_reducible first
      | assumption | apply kept_State_emit | apply kept_State_scrubbed | apply kept_State_bar2Reopens
      | apply kept_State_nextJob | apply kept_State_trainPorts
    | split | dsimp only | simp only [Kept.upd] | intro _

theorem kept_execScrubComplete (x0 : State) (h0 : Kept k x0) : ∀ t, (execScrubComplete x0) = .next t → Kept k t :=
    by
  intro t h
  unfold execScrubComplete at h
  try dsimp only at h
  repeat (split at h)
  all_goals first
    | (cases h; done)
    | (injection h with h; subst h)
  repeat first
    | with_reducible first
      | assumption | apply kept_scrubCompleteEffect | apply kept_foldl | apply kept_foldl_snd
      | apply kept_foldl_third
    | split | dsimp only | simp only [Kept.upd] | intro _

theorem kept_bootReadyEffect (s : State) (h : Kept k s) : Kept k (bootReadyEffect s) := by
  unfold bootReadyEffect
  dsimp only
  apply kept_State_emit
  refine Kept.updBoot (kept_State_takeRegisters _ ?_) rfl rfl rfl
  have h1 := fun a b => kept_State_raiseFloors _ a b
    (kept_State_appendBoot s (readyEntry (currentOf s.boot.flash) s) h)
  revert h1
  generalize s.appendBoot (readyEntry (currentOf s.boot.flash) s) = u
  intro h1
  have h2 := h1 (if u.boot.recovery then 0 else u.edition.floor.toNat) u.boot.fwSvnFloor.toNat
  revert h2
  generalize u.raiseFloors _ _ = v
  intro h2
  split
  · exact kept_State_emit _ _ _ _ h2
  · exact h2

theorem kept_execBootReady (x0 : State) (h0 : Kept k x0) : ∀ t, (execBootReady x0) = .next t → Kept k t := by
  intro t h
  unfold execBootReady at h
  try dsimp only at h
  repeat (split at h)
  all_goals first
    | (cases h; done)
    | (injection h with h; subst h)
  repeat first
    | with_reducible first
      | assumption | apply kept_bootReadyEffect | apply kept_foldl | apply kept_foldl_snd
      | apply kept_foldl_third
    | split | dsimp only | simp only [Kept.upd] | intro _

theorem kept_execWatchdogExpiry (s : State) (h : Kept k s) : ∀ t, execWatchdogExpiry s = .next t → Kept k t := by
  intro t ht
  unfold execWatchdogExpiry at ht
  split at ht
  · injection ht with ht
    exact ht ▸ kept_State_emit _ _ _ _ (Kept.upd.mpr h)
  · injection ht with ht
    exact ht ▸ Kept.updBoot (kept_State_lost s h) rfl rfl rfl
  · injection ht with ht
    exact ht ▸ h

theorem kept_execPllLockTimeout (x0 : Fin 2) (x1 : State) (h1 : Kept k x1) : ∀ t, (execPllLockTimeout x0 x1) = .next
    t → Kept k t := by
  intro t h
  unfold execPllLockTimeout at h
  try dsimp only at h
  repeat (split at h)
  all_goals first
    | (cases h; done)
    | (injection h with h; subst h)
  repeat first
    | with_reducible first
      | assumption | apply kept_State_failPlate | apply kept_foldl | apply kept_foldl_snd
      | apply kept_foldl_third
    | split | dsimp only | simp only [Kept.upd] | intro _

theorem kept_State_mirrorAll (x0 : State) (x1 : List LogEntry) (h0 : Kept k x0) : Kept k (State.mirrorAll x0 x1) :=
    by
  unfold State.mirrorAll
  repeat first
    | with_reducible first
      | assumption | apply kept_State_mirrorOne | apply kept_foldl | apply kept_foldl_snd
      | apply kept_foldl_third
    | split | dsimp only | simp only [Kept.upd] | intro _ | with_reducible refine And.intro ?_ ?_

theorem kept_State_retireSector (x0 : State) (h0 : Kept k x0) : Kept k (State.retireSector x0) := by
  unfold State.retireSector
  repeat first
    | with_reducible first
      | assumption | apply kept_State_emit
    | split | dsimp only | simp only [Kept.upd] | intro _

theorem kept_logDegrade (x0 : List Nat) (x1 : LogEntry) (x2 : State) (h2 : Kept k x2) : Kept k (logDegrade x0 x1 x2)
    := by
  unfold logDegrade
  repeat first
    | with_reducible first
      | assumption | apply kept_State_mssAlert | apply kept_State_emit | apply kept_State_mirrorAll
    | split | dsimp only | simp only [Kept.upd] | intro _

theorem kept_backupFails (x0 : State) (h0 : Kept k x0) : Kept k (backupFails x0) := by
  unfold backupFails
  repeat first
    | with_reducible first
      | assumption | apply kept_State_emit
    | split | dsimp only | simp only [Kept.upd] | intro _

theorem kept_mirrorRound (x0 : MirrorFacts) (x1 : State) (h1 : Kept k x1) : Kept k (mirrorRound x0 x1) := by
  unfold mirrorRound
  repeat first
    | with_reducible first
      | assumption | apply kept_backupFails | apply kept_State_mirrorAll | apply kept_logDegrade
    | split | dsimp only | simp only [Kept.upd] | intro _

theorem kept_State_mirrorTime (x0 : State) (h0 : Kept k x0) : Kept k (State.mirrorTime x0) := by
  unfold State.mirrorTime
  repeat first
    | with_reducible first
      | assumption | apply kept_State_advanceRef
    | split | dsimp only | simp only [Kept.upd] | intro _

theorem kept_logMirrorEffect (x0 : MirrorFacts) (x1 : State) (h1 : Kept k x1) : Kept k (logMirrorEffect x0 x1) := by
  unfold logMirrorEffect
  repeat first
    | with_reducible first
      | assumption | apply kept_State_mirrorTime | apply kept_State_retireSector | apply kept_mirrorRound
    | split | dsimp only | simp only [Kept.upd] | intro _

theorem kept_execLogMirror (x0 : MirrorFacts) (x1 : State) (h1 : Kept k x1) : ∀ t, (execLogMirror x0 x1) = .next t →
    Kept k t := by
  intro t h
  unfold execLogMirror at h
  try dsimp only at h
  repeat (split at h)
  all_goals first
    | (cases h; done)
    | (injection h with h; subst h)
  repeat first
    | with_reducible first
      | assumption | apply kept_logMirrorEffect | apply kept_foldl | apply kept_foldl_snd
      | apply kept_foldl_third
    | split | dsimp only | simp only [Kept.upd] | intro _

theorem kept_State_setWatch (x0 : State) (x1 : Nat) (x2 : Watch) (h0 : Kept k x0) : Kept k (State.setWatch x0 x1 x2)
    := by
  unfold State.setWatch
  repeat first
    | with_reducible first
      | assumption | apply kept_foldl | apply kept_foldl_snd | apply kept_foldl_third
    | with_reducible rfl | with_reducible exact fun h => h | with_reducible exact fun h => smapWf_put _ _ _ _ h
    | with_reducible exact fun h => smapWf_mod _ _ _ _ h | with_reducible exact fun h => smapWf_map _ _ _ h
    | with_reducible exact fun h => smapWf_drop _ _ _ _ h | exact fun h => smapWf_foldl_put h
    | exact fun h => smapWf_foldl_mod h | with_reducible exact fun _ => smapWf_nil _ | split | dsimp only
    | simp only [Kept.upd] | with_reducible apply Kept.all | intro _ | with_reducible refine And.intro ?_ ?_

theorem kept_State_armWatch (x0 : State) (x1 : Nat) (x2 : Watch) (h0 : Kept k x0) : Kept k (State.armWatch x0 x1 x2)
    := by
  unfold State.armWatch
  repeat first
    | with_reducible first
      | assumption | apply kept_State_signal | apply kept_State_setWatch
    | split | dsimp only | simp only [Kept.upd] | intro _

theorem kept_watchWordEffect (x0 : Nat) (x1 : DWord) (x2 : State) (h2 : Kept k x2) : Kept k (watchWordEffect x0 x1
    x2) := by
  unfold watchWordEffect
  repeat first
    | with_reducible first
      | assumption | apply kept_State_refuse | apply kept_State_setWatch | apply kept_State_armWatch
    | split | dsimp only | simp only [Kept.upd] | intro _

theorem kept_watchValueEffect (x0 : Nat) (x1 : DWord) (x2 : State) (h2 : Kept k x2) : Kept k (watchValueEffect x0 x1
    x2) := by
  unfold watchValueEffect
  repeat first
    | with_reducible first
      | assumption | apply kept_State_refuse | apply kept_State_setWatch
    | split | dsimp only | simp only [Kept.upd] | intro _

theorem kept_execWatchArm (x0 : BitVec 8) (x1 : DWord) (x2 : State) (h2 : Kept k x2) : ∀ t, (execWatchArm x0 x1 x2)
    = .next t → Kept k t := by
  unfold execWatchArm
  repeat first
    | with_reducible first
      | assumption | apply kept_hostWr | apply kept_watchWordEffect
    | split | dsimp only | simp only [Kept.upd] | intro _

theorem kept_execWatchDisarm (x0 : BitVec 8) (x1 : DWord) (x2 : State) (h2 : Kept k x2) : ∀ t, (execWatchDisarm x0
    x1 x2) = .next t → Kept k t := by
  unfold execWatchDisarm
  repeat first
    | with_reducible first
      | assumption | apply kept_hostWr | apply kept_watchWordEffect
    | split | dsimp only | simp only [Kept.upd] | intro _

theorem kept_namedRingsEffect (x0 : DWord) (x1 : State) (h1 : Kept k x1) : Kept k (namedRingsEffect x0 x1) := by
  unfold namedRingsEffect
  repeat first
    | with_reducible first
      | assumption | apply kept_State_refuse
    | split | dsimp only | simp only [Kept.upd] | intro _

theorem kept_execNamedRings (x0 : DWord) (x1 : State) (h1 : Kept k x1) : ∀ t, (execNamedRings x0 x1) = .next t →
    Kept k t := by
  unfold execNamedRings
  repeat first
    | with_reducible first
      | assumption | apply kept_hostWr | apply kept_namedRingsEffect
    | split | dsimp only | simp only [Kept.upd] | intro _

theorem kept_bar2ApertureEffect (x0 : DWord) (x1 : State) (h1 : Kept k x1) : Kept k (bar2ApertureEffect x0 x1) := by
  unfold bar2ApertureEffect
  repeat first
    | with_reducible first
      | assumption | apply kept_State_refuse
    | split | dsimp only | simp only [Kept.upd] | intro _

theorem kept_execBar2Aperture (x0 : DWord) (x1 : State) (h1 : Kept k x1) : ∀ t, (execBar2Aperture x0 x1) = .next t →
    Kept k t := by
  unfold execBar2Aperture
  repeat first
    | with_reducible first
      | assumption | apply kept_hostWr | apply kept_bar2ApertureEffect
    | split | dsimp only | simp only [Kept.upd] | intro _

theorem kept_gearFloorEffect (x0 : DWord) (x1 : State) (h1 : Kept k x1) : Kept k (gearFloorEffect x0 x1) := by
  unfold gearFloorEffect
  repeat first
    | with_reducible first
      | assumption | apply kept_State_refuse | apply kept_State_requestGear
    | split | dsimp only | simp only [Kept.upd] | intro _

theorem kept_execGearFloor (x0 : DWord) (x1 : State) (h1 : Kept k x1) : ∀ t, (execGearFloor x0 x1) = .next t → Kept
    k t := by
  unfold execGearFloor
  repeat first
    | with_reducible first
      | assumption | apply kept_hostWr | apply kept_gearFloorEffect
    | split | dsimp only | simp only [Kept.upd] | intro _

theorem kept_generatorCounterEffect (x0 : Nat) (x1 : DWord) (x2 : State) (h2 : Kept k x2) : Kept k
    (generatorCounterEffect x0 x1 x2) := by
  unfold generatorCounterEffect
  repeat first
    | with_reducible first
      | assumption | apply kept_State_refuse | apply kept_foldl | apply kept_foldl_snd | apply kept_foldl_third
    | with_reducible rfl | with_reducible exact fun h => h | with_reducible exact fun h => smapWf_put _ _ _ _ h
    | with_reducible exact fun h => smapWf_mod _ _ _ _ h | with_reducible exact fun h => smapWf_map _ _ _ h
    | with_reducible exact fun h => smapWf_drop _ _ _ _ h | exact fun h => smapWf_foldl_put h
    | exact fun h => smapWf_foldl_mod h | with_reducible exact fun _ => smapWf_nil _ | split | dsimp only
    | simp only [Kept.upd] | with_reducible apply Kept.all | intro _ | with_reducible refine And.intro ?_ ?_

theorem kept_execGeneratorCounterWrite (x0 : Fin 2320) (x1 : DWord) (x2 : State) (h2 : Kept k x2) : ∀ t,
    (execGeneratorCounterWrite x0 x1 x2) = .next t → Kept k t := by
  unfold execGeneratorCounterWrite
  repeat first
    | with_reducible first
      | assumption | apply kept_hostWr | apply kept_generatorCounterEffect
    | split | dsimp only | simp only [Kept.upd] | intro _

theorem kept_gaugeSettingEffect (x0 : Nat) (x1 : DWord) (x2 : State) (h2 : Kept k x2) : Kept k (gaugeSettingEffect
    x0 x1 x2) := by
  unfold gaugeSettingEffect
  repeat first
    | with_reducible first
      | assumption | apply kept_State_refuse | apply kept_foldl | apply kept_foldl_snd | apply kept_foldl_third
    | with_reducible rfl | with_reducible exact fun h => h | with_reducible exact fun h => smapWf_put _ _ _ _ h
    | with_reducible exact fun h => smapWf_mod _ _ _ _ h | with_reducible exact fun h => smapWf_map _ _ _ h
    | with_reducible exact fun h => smapWf_drop _ _ _ _ h | exact fun h => smapWf_foldl_put h
    | exact fun h => smapWf_foldl_mod h | with_reducible exact fun _ => smapWf_nil _ | split | dsimp only
    | simp only [Kept.upd] | with_reducible apply Kept.all | intro _ | with_reducible refine And.intro ?_ ?_

theorem kept_execGaugeSettingWrite (x0 : BitVec 8) (x1 : DWord) (x2 : State) (h2 : Kept k x2) : ∀ t,
    (execGaugeSettingWrite x0 x1 x2) = .next t → Kept k t := by
  unfold execGaugeSettingWrite
  repeat first
    | with_reducible first
      | assumption | apply kept_hostWr | apply kept_gaugeSettingEffect
    | split | dsimp only | simp only [Kept.upd] | intro _

theorem kept_refusedClearEffect (x0 : DWord) (x1 : State) (h1 : Kept k x1) : Kept k (refusedClearEffect x0 x1) := by
  unfold refusedClearEffect
  repeat first
    | with_reducible first
      | assumption
    | split | dsimp only | simp only [Kept.upd] | intro _

theorem kept_execRefusedClear (x0 : DWord) (x1 : State) (h1 : Kept k x1) : ∀ t, (execRefusedClear x0 x1) = .next t →
    Kept k t := by
  unfold execRefusedClear
  repeat first
    | with_reducible first
      | assumption | apply kept_hostWr | apply kept_refusedClearEffect
    | split | dsimp only | simp only [Kept.upd] | intro _

theorem kept_gateAlarmWord (x0 : DWord) (x1 : State) (h1 : Kept k x1) : Kept k (gateAlarmWord x0 x1) := by
  unfold gateAlarmWord
  repeat first
    | with_reducible first
      | assumption
    | split | dsimp only | simp only [Kept.upd] | intro _

theorem kept_syncLoadWord (x0 : DWord) (x1 : State) (h1 : Kept k x1) : Kept k (syncLoadWord x0 x1) := by
  unfold syncLoadWord
  repeat first
    | with_reducible first
      | assumption
    | split | dsimp only | simp only [Kept.upd] | intro _

theorem kept_baseStepWord (x0 : DWord) (x1 : State) (h1 : Kept k x1) : Kept k (baseStepWord x0 x1) := by
  unfold baseStepWord
  repeat first
    | with_reducible first
      | assumption | apply kept_State_refuse
    | split | dsimp only | simp only [Kept.upd] | intro _

theorem kept_nextMapWord (x0 : DWord) (x1 : State) (h1 : Kept k x1) : Kept k (nextMapWord x0 x1) := by
  unfold nextMapWord
  repeat first
    | with_reducible first
      | assumption
    | split | dsimp only | simp only [Kept.upd] | intro _

theorem kept_remoteValueWord (x0 : DWord) (x1 : State) (h1 : Kept k x1) : Kept k (remoteValueWord x0 x1) := by
  unfold remoteValueWord
  repeat first
    | with_reducible first
      | assumption
    | split | dsimp only | simp only [Kept.upd] | intro _

theorem kept_loadAddrWord (x0 : DWord) (x1 : State) (h1 : Kept k x1) : Kept k (loadAddrWord x0 x1) := by
  unfold loadAddrWord
  repeat first
    | with_reducible first
      | assumption | apply kept_State_refuse
    | split | dsimp only | simp only [Kept.upd] | intro _

theorem kept_loadSizeWord (x0 : DWord) (x1 : State) (h1 : Kept k x1) : Kept k (loadSizeWord x0 x1) := by
  unfold loadSizeWord
  repeat first
    | with_reducible first
      | assumption
    | split | dsimp only | simp only [Kept.upd] | intro _

theorem kept_abortDoneWord (x0 : DWord) (x1 : State) (h1 : Kept k x1) : Kept k (abortDoneWord x0 x1) := by
  unfold abortDoneWord
  repeat first
    | with_reducible first
      | assumption
    | split | dsimp only | simp only [Kept.upd] | intro _

theorem kept_capStepWord (x0 : DWord) (x1 : State) (h1 : Kept k x1) : Kept k (capStepWord x0 x1) := by
  unfold capStepWord
  repeat first
    | with_reducible first
      | assumption | apply kept_State_refuse
    | split | dsimp only | simp only [Kept.upd] | intro _

theorem kept_State_setMsix (x0 : State) (x1 : Nat) (x2 : MsixEntry) (h0 : Kept k x0) : Kept k (State.setMsix x0 x1
    x2) := by
  unfold State.setMsix
  repeat first
    | with_reducible first
      | assumption | apply kept_State_signal | apply kept_foldl | apply kept_foldl_snd | apply kept_foldl_third
    | with_reducible rfl | with_reducible exact fun h => h | with_reducible exact fun h => smapWf_put _ _ _ _ h
    | with_reducible exact fun h => smapWf_mod _ _ _ _ h | with_reducible exact fun h => smapWf_map _ _ _ h
    | with_reducible exact fun h => smapWf_drop _ _ _ _ h | exact fun h => smapWf_foldl_put h
    | exact fun h => smapWf_foldl_mod h | with_reducible exact fun _ => smapWf_nil _ | split | dsimp only
    | simp only [Kept.upd] | with_reducible apply Kept.all | intro _ | with_reducible refine And.intro ?_ ?_

theorem kept_msixDwordEffect (x0 : Nat) (x1 : Nat) (x2 : Word) (x3 : State) (h3 : Kept k x3) : Kept k
    (msixDwordEffect x0 x1 x2 x3) := by
  unfold msixDwordEffect
  repeat first
    | with_reducible first
      | assumption | apply kept_State_setMsix
    | split | dsimp only | simp only [Kept.upd] | intro _

theorem kept_triggered {v : DWord} {f : State → State} {s : State} (hf : ∀ s, Kept k s → Kept k (f s))
    (h : Kept k s) : Kept k (triggered v f s) := by
  unfold triggered
  split
  · exact hf _ h
  · exact h

theorem kept_controlWord {o : Nat} {v : DWord} {f g : State → State} {s : State}
    (hf : ∀ s, Kept k s → Kept k (f s)) (hg : ∀ s, Kept k s → Kept k (g s)) (h : Kept k s) :
    Kept k (controlWord o v f g s) := by
  unfold controlWord
  split
  · exact kept_State_refuse _ _ h
  · exact hf _ h
  · exact hg _ h
  · exact h

theorem kept_singleWord (x0 : Nat) (x1 : DWord) (x2 : State) (h2 : Kept k x2) : Kept k (singleWord x0 x1 x2) := by
  unfold singleWord
  repeat first
    | with_reducible first
      | assumption | apply kept_refusedClearEffect | apply kept_gateAlarmWord | apply kept_gearFloorEffect
      | apply kept_triggered | apply kept_faultClearEffect | apply kept_counterClearEffect
      | apply kept_syncLoadWord | apply kept_syncFireEffect | apply kept_launchAtEffect
      | apply kept_baseStepWord | apply kept_nextMapWord | apply kept_roleCommitEffect
      | apply kept_remoteValueWord | apply kept_remoteSignalEffect | apply kept_loadAddrWord
      | apply kept_loadSizeWord | apply kept_loadTriggerEffect | apply kept_abortEffect
      | apply kept_abortDoneWord | apply kept_namedRingsEffect | apply kept_bar2ApertureEffect
      | apply kept_debugEnEffect | apply kept_capStepWord | apply kept_captureWordEffect
      | apply kept_winBaseEffect
    | split | dsimp only | simp only [Kept.upd] | intro _

theorem kept_ite {c : Prop} {_ : Decidable c} {a b : State} (ha : Kept k a) (hb : Kept k b) : Kept k (if c then a else b) := by
  split <;> assumption

theorem kept_wordWrite (o : Nat) (v : DWord) (s : State) (h : Kept k s) : Kept k (wordWrite o v s) := by
  unfold wordWrite
  refine kept_ite
    (kept_controlWord (fun s hs => kept_portEnableEffect _ _ hs) (fun s hs => kept_portDisableEffect _ _ hs) h) ?_
  refine kept_ite
    (kept_controlWord (fun s hs => kept_clusterEnableEffect _ _ hs) (fun s hs => kept_clusterDisableEffect _ _ hs) h) ?_
  refine kept_ite (kept_ite (kept_gaugeSettingEffect _ _ _ h) h) ?_
  refine kept_ite (kept_windowWrite _ _ _ h) ?_
  refine kept_ite (kept_ringContextWriteEffect _ _ _ _ h) ?_
  refine kept_ite (kept_doorbellEffect _ _ _ h) ?_
  refine kept_ite
    (kept_controlWord (fun s hs => kept_ringEnableEffect _ _ hs) (fun s hs => kept_ringDisableEffect _ _ hs) h) ?_
  refine kept_ite (kept_State_updateMark _ _ _ h) ?_
  refine kept_ite (kept_State_updateMark _ _ _ h) ?_
  refine kept_ite ?_ ?_
  · split
    · exact kept_watchWordEffect _ _ _ h
    · exact kept_watchValueEffect _ _ _ h
    · exact h
  refine kept_ite (kept_generatorCounterEffect _ _ _ h) ?_
  exact kept_ite (kept_msixDwordEffect _ _ _ _ (kept_msixDwordEffect _ _ _ _ h)) (kept_singleWord _ _ _ h)

theorem kept_halfWrite (x0 : Nat) (x1 : DWord) (x2 : Option HeldHalf) (x3 : State) (h3 : Kept k x3) : Kept k
    (halfWrite x0 x1 x2 x3) := by
  unfold halfWrite
  repeat first
    | with_reducible first
      | assumption | apply kept_windowWrite | apply kept_msixDwordEffect | apply kept_State_refuse
      | apply kept_wordWrite
    | split | dsimp only | simp only [Kept.upd] | intro _

theorem kept_registerWriteEffect (x0 : Nat) (x1 : Nat) (x2 : DWord) (x3 : State) (h3 : Kept k x3) : Kept k
    (registerWriteEffect x0 x1 x2 x3) := by
  unfold registerWriteEffect
  repeat first
    | with_reducible first
      | assumption | apply kept_wordWrite | apply kept_halfWrite
    | split | dsimp only | simp only [Kept.upd] | intro _

theorem kept_execRegisterWrite (x0 : BitVec 26) (x1 : Nat) (x2 : DWord) (x3 : State) (h3 : Kept k x3) : ∀ t,
    (execRegisterWrite x0 x1 x2 x3) = .next t → Kept k t := by
  intro t h
  unfold execRegisterWrite at h
  try dsimp only at h
  repeat (split at h)
  all_goals first
    | (cases h; done)
    | (injection h with h; subst h)
  repeat first
    | with_reducible first
      | assumption | apply kept_registerWriteEffect | apply kept_State_unsupported | apply kept_foldl
      | apply kept_foldl_snd | apply kept_foldl_third
    | split | dsimp only | simp only [Kept.upd] | intro _

theorem kept_State_ringOff (x0 : State) (x1 : Nat) (h0 : Kept k x0) : Kept k (State.ringOff x0 x1) := by
  unfold State.ringOff
  repeat first
    | with_reducible first
      | assumption | apply kept_State_ringTo | apply kept_State_forgetReady | apply kept_State_setRing
    | split | dsimp only | simp only [Kept.upd] | intro _

theorem kept_flrEffect (x0 : State) (h0 : Kept k x0) : Kept k (flrEffect x0) := by
  unfold flrEffect
  repeat first
    | with_reducible first
      | assumption | apply kept_abortEffect | apply kept_State_ringOff | apply kept_State_emit
      | apply kept_foldl | apply kept_foldl_snd | apply kept_foldl_third
    | with_reducible rfl | with_reducible exact fun h => h | with_reducible exact fun h => smapWf_put _ _ _ _ h
    | with_reducible exact fun h => smapWf_mod _ _ _ _ h | with_reducible exact fun h => smapWf_map _ _ _ h
    | with_reducible exact fun h => smapWf_drop _ _ _ _ h | exact fun h => smapWf_foldl_put h
    | exact fun h => smapWf_foldl_mod h | with_reducible exact fun _ => smapWf_nil _ | split | dsimp only
    | simp only [Kept.upd] | with_reducible apply Kept.all | intro _ | with_reducible refine And.intro ?_ ?_

theorem kept_execFlr (x0 : State) (h0 : Kept k x0) : ∀ t, (execFlr x0) = .next t → Kept k t := by
  intro t h
  unfold execFlr at h
  try dsimp only at h
  repeat (split at h)
  all_goals first
    | (cases h; done)
    | (injection h with h; subst h)
  repeat first
    | with_reducible first
      | assumption | apply kept_flrEffect | apply kept_foldl | apply kept_foldl_snd | apply kept_foldl_third
    | split | dsimp only | simp only [Kept.upd] | intro _

theorem kept_State_bar0Read (x0 : Nat) (x1 : Nat) (x2 : State) (h2 : Kept k x2) : Kept k (State.bar0Read x0 x1 x2)
    := by
  unfold State.bar0Read
  repeat first
    | with_reducible first
      | assumption | apply kept_State_unsupported | apply kept_State_returned
    | split | dsimp only | simp only [Kept.upd] | intro _

theorem kept_State_setSensor (x0 : State) (x1 : Nat) (x2 : Sensor) (h0 : Kept k x0) : Kept k (State.setSensor x0 x1
    x2) := by
  unfold State.setSensor
  repeat first
    | with_reducible first
      | assumption
    | split | dsimp only | simp only [Kept.upd] | intro _

theorem kept_State_takeSample (x0 : State) (x1 : SensorId) (x2 : SensorReading) (h0 : Kept k x0) : Kept k
    (State.takeSample x0 x1 x2) := by
  unfold State.takeSample
  repeat first
    | with_reducible first
      | assumption | apply kept_State_setSensor | apply kept_State_emit
    | split | dsimp only | simp only [Kept.upd] | intro _

theorem kept_State_critical (x0 : State) (x1 : Nat) (x2 : Nat) (x3 : Int) (x4 : Int) (h0 : Kept k x0) : Kept k
    (State.critical x0 x1 x2 x3 x4) := by
  unfold State.critical
  repeat first
    | with_reducible first
      | assumption | apply kept_State_raiseAsync | apply kept_State_chooseGear
    | split | dsimp only | simp only [Kept.upd] | intro _

theorem kept_State_setBand (x0 : State) (x1 : Nat) (x2 : RefreshBand) (h0 : Kept k x0) : Kept k (State.setBand x0 x1
    x2) := by
  unfold State.setBand
  repeat first
    | with_reducible first
      | assumption
    | split | dsimp only | simp only [Kept.upd] | intro _

theorem kept_State_bandSample (x0 : State) (x1 : Nat) (x2 : Int) (h0 : Kept k x0) : Kept k (State.bandSample x0 x1
    x2) := by
  unfold State.bandSample
  repeat first
    | with_reducible first
      | assumption | apply kept_State_setBand | apply kept_State_emit
    | split | dsimp only | simp only [Kept.upd] | intro _

theorem kept_State_powerSample (x0 : State) (h0 : Kept k x0) : Kept k (State.powerSample x0) := by
  unfold State.powerSample
  repeat first
    | with_reducible first
      | assumption
    | split | dsimp only | simp only [Kept.upd] | intro _

theorem kept_State_railSample (x0 : State) (x1 : Nat) (x2 : Int) (x3 : Bool) (h0 : Kept k x0) : Kept k
    (State.railSample x0 x1 x2 x3) := by
  unfold State.railSample
  repeat first
    | with_reducible first
      | assumption | apply kept_State_powerSample | apply kept_State_failPlate
    | split | dsimp only | simp only [Kept.upd] | intro _

theorem kept_sensorSampleEffect (x0 : SensorId) (x1 : SensorReading) (x2 : State) (h2 : Kept k x2) : Kept k
    (sensorSampleEffect x0 x1 x2) := by
  unfold sensorSampleEffect
  repeat first
    | with_reducible first
      | assumption | apply kept_State_takeSample | apply kept_State_critical | apply kept_State_bandSample
      | apply kept_State_railSample
    | split | dsimp only | simp only [Kept.upd] | intro _

theorem kept_State_trackCalm (x0 : State) (h0 : Kept k x0) : Kept k (State.trackCalm x0) := by
  unfold State.trackCalm
  repeat first
    | with_reducible first
      | assumption
    | split | dsimp only | simp only [Kept.upd] | intro _

theorem kept_State_trackPolicy (x0 : State) (h0 : Kept k x0) : Kept k (State.trackPolicy x0) := by
  unfold State.trackPolicy
  repeat first
    | with_reducible first
      | assumption | apply kept_State_trackCalm
    | split | dsimp only | simp only [Kept.upd] | intro _

theorem kept_execSensorSample (x0 : SensorId) (x1 : SensorReading) (x2 : State) (h2 : Kept k x2) : ∀ t,
    (execSensorSample x0 x1 x2) = .next t → Kept k t := by
  intro t h
  unfold execSensorSample at h
  try dsimp only at h
  repeat (split at h)
  all_goals first
    | (cases h; done)
    | (injection h with h; subst h)
  repeat first
    | with_reducible first
      | assumption | apply kept_State_trackPolicy | apply kept_sensorSampleEffect | apply kept_foldl
      | apply kept_foldl_snd | apply kept_foldl_third
    | split | dsimp only | simp only [Kept.upd] | intro _

theorem kept_gearTickEffect (x0 : State) (h0 : Kept k x0) : Kept k (gearTickEffect x0) := by
  unfold gearTickEffect
  repeat first
    | with_reducible first
      | assumption | apply kept_State_trackCalm | apply kept_State_advanceTo | apply kept_State_chooseGear
    | split | dsimp only | simp only [Kept.upd] | intro _

theorem kept_execGearPolicyTick (x0 : State) (h0 : Kept k x0) : ∀ t, (execGearPolicyTick x0) = .next t → Kept k t :=
    by
  intro t h
  unfold execGearPolicyTick at h
  try dsimp only at h
  repeat (split at h)
  all_goals first
    | (cases h; done)
    | (injection h with h; subst h)
  repeat first
    | with_reducible first
      | assumption | apply kept_gearTickEffect | apply kept_foldl | apply kept_foldl_snd
      | apply kept_foldl_third
    | split | dsimp only | simp only [Kept.upd] | intro _

theorem kept_execTelemetryWindow (x0 : State) (h0 : Kept k x0) : ∀ t, (execTelemetryWindow x0) = .next t → Kept k t
    := by
  intro t h
  unfold execTelemetryWindow at h
  try dsimp only at h
  repeat (split at h)
  all_goals first
    | (cases h; done)
    | (injection h with h; subst h)
  repeat first
    | with_reducible first
      | assumption | apply kept_State_advanceTo | apply kept_foldl | apply kept_foldl_snd
      | apply kept_foldl_third
    | split | dsimp only | simp only [Kept.upd] | intro _

theorem kept_State_mctp (x0 : State) (x1 : List Byte) (h0 : Kept k x0) : Kept k (State.mctp x0 x1) := by
  unfold State.mctp
  repeat first
    | with_reducible first
      | assumption
    | split | dsimp only | simp only [Kept.upd] | intro _

theorem kept_State_mctpRefused (x0 : State) (h0 : Kept k x0) : Kept k (State.mctpRefused x0) := by
  unfold State.mctpRefused
  repeat first
    | with_reducible first
      | assumption | apply kept_State_mctp
    | split | dsimp only | simp only [Kept.upd] | intro _

theorem kept_State_mctpOk (x0 : State) (x1 : List Byte) (h0 : Kept k x0) : Kept k (State.mctpOk x0 x1) := by
  unfold State.mctpOk
  repeat first
    | with_reducible first
      | assumption | apply kept_State_mctp
    | split | dsimp only | simp only [Kept.upd] | intro _

theorem kept_State_touchMgmt (x0 : State) (x1 : MgmtReq) (h0 : Kept k x0) : Kept k (State.touchMgmt x0 x1) := by
  unfold State.touchMgmt
  repeat first
    | with_reducible first
      | assumption
    | split | dsimp only | simp only [Kept.upd] | intro _

/-- A management request keeps what its effect keeps. -/
theorem kept_mgmtRequest {r : MgmtReq} {f : State → State} {s : State} (hf : ∀ s, Kept k s → Kept k (f s))
    (h : Kept k s) : ∀ t, mgmtRequest r f s = .next t → Kept k t := by
  intro t ht
  unfold mgmtRequest at ht
  split at ht
  · injection ht with ht
    subst ht
    split
    · exact hf _ (kept_State_touchMgmt _ _ h)
    · exact kept_State_mctpRefused _ h
  · injection ht with ht
    exact ht ▸ h

theorem kept_telemetryRequest (x0 : TelemetryReq) (x1 : State → List Byte) (x2 : State) (h2 : Kept k x2) : ∀ t,
    (telemetryRequest x0 x1 x2) = .next t → Kept k t := by
  intro t h
  unfold telemetryRequest at h
  try dsimp only at h
  repeat (split at h)
  all_goals first
    | (cases h; done)
    | (injection h with h; subst h)
  repeat first
    | with_reducible first
      | assumption | apply kept_State_mctp | apply kept_State_mctpOk | apply kept_foldl | apply kept_foldl_snd
      | apply kept_foldl_third
    | split | dsimp only | simp only [Kept.upd] | intro _

theorem kept_execSensorRead (x0 : TelemetryReq) (x1 : SensorId) (x2 : State) (h2 : Kept k x2) : ∀ t, (execSensorRead
    x0 x1 x2) = .next t → Kept k t := by
  unfold execSensorRead
  repeat first
    | with_reducible first
      | assumption | apply kept_telemetryRequest
    | split | dsimp only | simp only [Kept.upd] | intro _

theorem kept_execGetStatus (x0 : TelemetryReq) (x1 : State) (h1 : Kept k x1) : ∀ t, (execGetStatus x0 x1) = .next t
    → Kept k t := by
  unfold execGetStatus
  repeat first
    | with_reducible first
      | assumption | apply kept_telemetryRequest
    | split | dsimp only | simp only [Kept.upd] | intro _

theorem kept_execLogRead (x0 : MgmtReq) (x1 : DWord) (x2 : State) (h2 : Kept k x2) : ∀ t, (execLogRead x0 x1 x2) =
    .next t → Kept k t := by
  unfold execLogRead
  repeat first
    | with_reducible first
      | assumption | apply kept_mgmtRequest | apply kept_State_mctpOk
    | split | dsimp only | simp only [Kept.upd] | intro _

theorem kept_setPowerCapEffect (x0 : BitVec 16) (x1 : State) (h1 : Kept k x1) : Kept k (setPowerCapEffect x0 x1) :=
    by
  unfold setPowerCapEffect
  repeat first
    | with_reducible first
      | assumption | apply kept_State_mctpOk | apply kept_State_decide_ | apply kept_State_mctpRefused
    | split | dsimp only | simp only [Kept.upd] | intro _

theorem kept_execSetPowerCap (x0 : MgmtReq) (x1 : BitVec 16) (x2 : State) (h2 : Kept k x2) : ∀ t, (execSetPowerCap
    x0 x1 x2) = .next t → Kept k t := by
  unfold execSetPowerCap
  repeat first
    | with_reducible first
      | assumption | apply kept_mgmtRequest | apply kept_setPowerCapEffect
    | split | dsimp only | simp only [Kept.upd] | intro _

theorem kept_editionRevertEffect (x0 : State) (h0 : Kept k x0) : Kept k (editionRevertEffect x0) := by
  unfold editionRevertEffect
  repeat first
    | with_reducible first
      | assumption | apply kept_State_mctpOk | apply kept_State_revokedEvent | apply kept_State_revokePlace
      | apply kept_State_mctpRefused
    | split | dsimp only | simp only [Kept.upd] | intro _

theorem kept_execEditionRevert (x0 : MgmtReq) (x1 : State) (h1 : Kept k x1) : ∀ t, (execEditionRevert x0 x1) = .next
    t → Kept k t := by
  unfold execEditionRevert
  repeat first
    | with_reducible first
      | assumption | apply kept_mgmtRequest | apply kept_editionRevertEffect
    | split | dsimp only | simp only [Kept.upd] | intro _

theorem kept_cperAckEffect (x0 : DWord) (x1 : State) (h1 : Kept k x1) : Kept k (cperAckEffect x0 x1) := by
  unfold cperAckEffect
  repeat first
    | with_reducible first
      | assumption | apply kept_State_mctpOk
    | split | dsimp only | simp only [Kept.upd] | intro _

theorem kept_execCperAck (x0 : MgmtReq) (x1 : DWord) (x2 : State) (h2 : Kept k x2) : ∀ t, (execCperAck x0 x1 x2) =
    .next t → Kept k t := by
  unfold execCperAck
  repeat first
    | with_reducible first
      | assumption | apply kept_mgmtRequest | apply kept_cperAckEffect
    | split | dsimp only | simp only [Kept.upd] | intro _

theorem kept_State_doe (x0 : State) (x1 : List Byte) (h0 : Kept k x0) : Kept k (State.doe x0 x1) := by
  unfold State.doe
  repeat first
    | with_reducible first
      | assumption
    | split | dsimp only | simp only [Kept.upd] | intro _

theorem kept_State_touchDoe (x0 : State) (x1 : BitVec 32) (h0 : Kept k x0) : Kept k (State.touchDoe x0 x1) := by
  unfold State.touchDoe
  repeat first
    | with_reducible first
      | assumption
    | split | dsimp only | simp only [Kept.upd] | intro _

theorem kept_State_respond (x0 : State) (x1 : TenantReq) (x2 : Nat) (x3 : List Byte) (h0 : Kept k x0) : Kept k
    (State.respond x0 x1 x2 x3) := by
  unfold State.respond
  repeat first
    | with_reducible first
      | assumption
    | split | dsimp only | simp only [Kept.upd] | intro _

/-- A tenant command keeps what its effect keeps. -/
theorem kept_tenantCommand {r : TenantReq} {op : Nat} {ok : State → Bool} {f : State → State} {p : State → List Byte}
    {s : State} (hf : ∀ s, Kept k s → Kept k (f s)) (h : Kept k s) :
    ∀ t, tenantCommand r op ok f p s = .next t → Kept k t := by
  intro t ht
  unfold tenantCommand at ht
  split at ht
  · injection ht with ht
    subst ht
    split
    · dsimp only
      split
      · split
        · exact kept_State_respond _ _ _ _ (hf _ (kept_State_touchDoe _ _ h))
        · exact kept_State_respond _ _ _ _ (kept_State_touchDoe _ _ h)
      · exact kept_State_doe _ _ (kept_State_touchDoe _ _ h)
    · exact kept_State_doe _ _ h
  · injection ht with ht
    exact ht ▸ h

theorem kept_tenantResponseEffect (x0 : DueResponse) (x1 : List DueResponse) (x2 : State) (h2 : Kept k x2) : Kept k
    (tenantResponseEffect x0 x1 x2) := by
  unfold tenantResponseEffect
  repeat first
    | with_reducible first
      | assumption | apply kept_State_doe | apply kept_State_advanceRef | apply kept_State_securityRefusal
    | split | dsimp only | simp only [Kept.upd] | intro _

theorem kept_execTenantResponse (x0 : State) (h0 : Kept k x0) : ∀ t, (execTenantResponse x0) = .next t → Kept k t :=
    by
  intro t h
  unfold execTenantResponse at h
  try dsimp only at h
  repeat (split at h)
  all_goals first
    | (cases h; done)
    | (injection h with h; subst h)
  repeat first
    | with_reducible first
      | assumption | apply kept_tenantResponseEffect | apply kept_foldl | apply kept_foldl_snd
      | apply kept_foldl_third
    | split | dsimp only | simp only [Kept.upd] | intro _

theorem kept_State_discardCartoon (x0 : State) (h0 : Kept k x0) : Kept k (State.discardCartoon x0) := by
  unfold State.discardCartoon
  repeat first
    | with_reducible first
      | assumption | apply kept_State_skipOut
    | split | dsimp only | simp only [Kept.upd] | intro _

theorem kept_State_addJob (x0 : State) (x1 : CommitJob) (h0 : Kept k x0) : Kept k (State.addJob x0 x1) := by
  unfold State.addJob
  repeat first
    | with_reducible first
      | assumption | apply kept_State_nextJob
    | split | dsimp only | simp only [Kept.upd] | intro _

theorem kept_State_beginChange (x0 : State) (x1 : CommitJob) (h0 : Kept k x0) : Kept k (State.beginChange x0 x1) :=
    by
  unfold State.beginChange
  repeat first
    | with_reducible first
      | assumption | apply kept_State_discardCartoon | apply kept_State_addJob
    | split | dsimp only | simp only [Kept.upd] | intro _

theorem kept_execTenantBegin (x0 : TenantReq) (x1 : State) (h1 : Kept k x1) : ∀ t, (execTenantBegin x0 x1) = .next t
    → Kept k t := by
  unfold execTenantBegin
  repeat first
    | with_reducible first
      | assumption | apply kept_tenantCommand | apply kept_State_beginChange
    | split | dsimp only | simp only [Kept.upd] | intro _

theorem kept_execTenantEnd (x0 : TenantReq) (x1 : State) (h1 : Kept k x1) : ∀ t, (execTenantEnd x0 x1) = .next t →
    Kept k t := by
  unfold execTenantEnd
  repeat first
    | with_reducible first
      | assumption | apply kept_tenantCommand | apply kept_State_beginChange
    | split | dsimp only | simp only [Kept.upd] | intro _

theorem kept_execRekey (x0 : TenantReq) (x1 : State) (h1 : Kept k x1) : ∀ t, (execRekey x0 x1) = .next t → Kept k t
    := by
  unfold execRekey
  repeat first
    | with_reducible first
      | assumption | apply kept_tenantCommand | apply kept_State_beginChange
    | split | dsimp only | simp only [Kept.upd] | intro _

theorem kept_policySetEffect (x0 : TenantReq) (x1 : State) (h1 : Kept k x1) : Kept k (policySetEffect x0 x1) := by
  unfold policySetEffect
  repeat first
    | with_reducible first
      | assumption | apply kept_State_discardCartoon | apply kept_State_addJob
    | split | dsimp only | simp only [Kept.upd] | intro _

theorem kept_execPolicySet (x0 : TenantReq) (x1 : State) (h1 : Kept k x1) : ∀ t, (execPolicySet x0 x1) = .next t →
    Kept k t := by
  unfold execPolicySet
  repeat first
    | with_reducible first
      | assumption | apply kept_tenantCommand | apply kept_policySetEffect
    | split | dsimp only | simp only [Kept.upd] | intro _

theorem kept_State_putSlot (x0 : State) (x1 : Nat) (x2 : List Byte) (h0 : Kept k x0) : Kept k (State.putSlot x0 x1
    x2) := by
  unfold State.putSlot
  repeat first
    | with_reducible first
      | assumption
    | split | dsimp only | simp only [Kept.upd] | intro _

theorem kept_State_putCell (x0 : State) (x1 : Nat) (x2 : DWord) (h0 : Kept k x0) : Kept k (State.putCell x0 x1 x2)
    := by
  unfold State.putCell
  repeat first
    | with_reducible first
      | assumption
    | split | dsimp only | simp only [Kept.upd] | intro _

theorem kept_State_programCommit (x0 : State) (x1 : CommitJob) (h0 : Kept k x0) : Kept k (State.programCommit x0 x1)
    := by
  unfold State.programCommit
  repeat first
    | with_reducible first
      | assumption | apply kept_State_putCell | apply kept_State_putSlot
    | split | dsimp only | simp only [Kept.upd] | intro _

theorem kept_State_commitInForce (x0 : State) (x1 : CommitJob) (h0 : Kept k x0) : Kept k (State.commitInForce x0 x1)
    := by
  unfold State.commitInForce
  repeat first
    | with_reducible first
      | assumption | apply kept_State_sealSync
    | split | dsimp only | simp only [Kept.upd] | intro _

theorem kept_State_startScrub (x0 : State) (x1 : BitVec 16) (h0 : Kept k x0) : Kept k (State.startScrub x0 x1) := by
  unfold State.startScrub
  repeat first
    | with_reducible first
      | assumption
    | split | dsimp only | simp only [Kept.upd] | intro _

theorem kept_State_setTenantSession (x0 : State) (x1 : Option (BitVec 32)) (h0 : Kept k x0) : Kept k
    (State.setTenantSession x0 x1) := by
  unfold State.setTenantSession
  repeat first
    | with_reducible first
      | assumption
    | split | dsimp only | simp only [Kept.upd] | intro _

theorem kept_State_importFails (x0 : State) (h0 : Kept k x0) : Kept k (State.importFails x0) := by
  unfold State.importFails
  repeat first
    | with_reducible first
      | assumption | apply kept_State_emit | apply kept_State_sealSync
    | split | dsimp only | simp only [Kept.upd] | intro _

theorem kept_State_endTenantSession (x0 : State) (h0 : Kept k x0) : Kept k (State.endTenantSession x0) := by
  unfold State.endTenantSession
  repeat first
    | with_reducible first
      | assumption | apply kept_State_importFails | apply kept_State_setTenantSession
    | split | dsimp only | simp only [Kept.upd] | intro _

theorem kept_commitDone (x0 : CommitJob) (x1 : State) (h1 : Kept k x1) : Kept k (commitDone x0 x1) := by
  unfold commitDone
  repeat first
    | with_reducible first
      | assumption | apply kept_State_commitInForce | apply kept_State_programCommit
      | apply kept_State_sealSegment | apply kept_State_startScrub | apply kept_State_leaveDebug
      | apply kept_State_setTenantSession | apply kept_State_endTenantSession | apply kept_State_nextJob
      | apply kept_State_emit
    | split | dsimp only | simp only [Kept.upd] | intro _

theorem kept_commitCut (x0 : Nat) (x1 : Bool) (x2 : CommitJob) (x3 : State) (h3 : Kept k x3) : Kept k (commitCut x0
    x1 x2 x3) := by
  unfold commitCut
  repeat first
    | with_reducible first
      | assumption | apply kept_State_putSlot | apply kept_State_putCell
    | split | dsimp only | simp only [Kept.upd] | intro _

theorem kept_keyStoreEffect (x0 : CommitOutcome) (x1 : CommitJob) (x2 : State) (h2 : Kept k x2) : Kept k
    (keyStoreEffect x0 x1 x2) := by
  unfold keyStoreEffect
  repeat first
    | with_reducible first
      | assumption | apply kept_commitDone | apply kept_State_commitFails | apply kept_State_putSlot
      | apply kept_commitCut
    | split | dsimp only | simp only [Kept.upd] | intro _

theorem kept_execKeyStoreCommit (x0 : CommitOutcome) (x1 : State) (h1 : Kept k x1) : ∀ t, (execKeyStoreCommit x0 x1)
    = .next t → Kept k t := by
  intro t h
  unfold execKeyStoreCommit at h
  try dsimp only at h
  repeat (split at h)
  all_goals first
    | (cases h; done)
    | (injection h with h; subst h)
  repeat first
    | with_reducible first
      | assumption | apply kept_keyStoreEffect | apply kept_foldl | apply kept_foldl_snd
      | apply kept_foldl_third
    | split | dsimp only | simp only [Kept.upd] | intro _

theorem kept_importEffect (x0 : TenantReq) (x1 : State) (h1 : Kept k x1) : Kept k (importEffect x0 x1) := by
  unfold importEffect
  repeat first
    | with_reducible first
      | assumption | apply kept_State_sealSync
    | split | dsimp only | simp only [Kept.upd] | intro _

theorem kept_execImportBegin (x0 : TenantReq) (x1 : State) (h1 : Kept k x1) : ∀ t, (execImportBegin x0 x1) = .next t
    → Kept k t := by
  unfold execImportBegin
  repeat first
    | with_reducible first
      | assumption | apply kept_tenantCommand | apply kept_importEffect
    | split | dsimp only | simp only [Kept.upd] | intro _

theorem kept_importSegmentEffect (j : ImportJob) (s : State) (h : Kept k s) : Kept k (importSegmentEffect j s) := by
  have h1 := kept_State_sealSegment s .tenantImport h
  unfold importSegmentEffect
  dsimp only
  split
  · exact kept_State_importFails _ h1
  · split
    · apply kept_State_emit
      apply kept_State_sealSync
      exact Kept.upd.mpr (kept_State_placeBytes _ _ _ _ _ (Kept.upd.mpr h1))
    · exact kept_State_placeBytes _ _ _ _ _ (Kept.upd.mpr h1)

theorem kept_execImportSegment (x0 : Bool) (x1 : State) (h1 : Kept k x1) : ∀ t, (execImportSegment x0 x1) = .next t
    → Kept k t := by
  intro t h
  unfold execImportSegment at h
  try dsimp only at h
  repeat (split at h)
  all_goals first
    | (cases h; done)
    | (injection h with h; subst h)
  repeat first
    | with_reducible first
      | assumption | apply kept_State_importFails | apply kept_importSegmentEffect | apply kept_foldl
      | apply kept_foldl_snd | apply kept_foldl_third
    | split | dsimp only | simp only [Kept.upd] | intro _

theorem kept_execStatus (r : TenantReq) (s : State) (h : Kept k s) : ∀ t, execStatus r s = .next t → Kept k t := by
  unfold execStatus
  exact kept_tenantCommand (fun s hs => hs) h

theorem kept_execBind (x0 : TenantReq) (x1 : State) (h1 : Kept k x1) : ∀ t, (execBind x0 x1) = .next t → Kept k t :=
    by
  unfold execBind
  repeat first
    | with_reducible first
      | assumption | apply kept_tenantCommand | apply kept_State_setTenantSession
    | split | dsimp only | simp only [Kept.upd] | intro _

theorem kept_State_answer (x0 : State) (x1 : Chan) (x2 : List Byte) (h0 : Kept k x0) : Kept k (State.answer x0 x1
    x2) := by
  unfold State.answer
  repeat first
    | with_reducible first
      | assumption | apply kept_State_doe | apply kept_State_mctp
    | split | dsimp only | simp only [Kept.upd] | intro _

theorem kept_State_answerOk (x0 : State) (x1 : Chan) (x2 : List Byte) (h0 : Kept k x0) : Kept k (State.answerOk x0
    x1 x2) := by
  unfold State.answerOk
  repeat first
    | with_reducible first
      | assumption | apply kept_State_answer
    | split | dsimp only | simp only [Kept.upd] | intro _

theorem kept_State_answerError (x0 : State) (x1 : Chan) (x2 : Byte) (h0 : Kept k x0) : Kept k (State.answerError x0
    x1 x2) := by
  unfold State.answerError
  repeat first
    | with_reducible first
      | assumption | apply kept_State_answer
    | split | dsimp only | simp only [Kept.upd] | intro _

theorem kept_State_setSpdm (x0 : State) (x1 : Chan) (x2 : Spdm) (h0 : Kept k x0) : Kept k (State.setSpdm x0 x1 x2)
    := by
  unfold State.setSpdm
  repeat first
    | with_reducible first
      | assumption
    | split | dsimp only | simp only [Kept.upd] | intro _

theorem kept_State_setSessions (x0 : State) (x1 : Chan) (x2 : List Session) (h0 : Kept k x0) : Kept k
    (State.setSessions x0 x1 x2) := by
  unfold State.setSessions
  repeat first
    | with_reducible first
      | assumption
    | split | dsimp only | simp only [Kept.upd] | intro _

/-- An SPDM request keeps what its effect keeps. -/
theorem kept_spdmRequest {c : Chan} {f : State → State} {s : State} (hf : ∀ s, Kept k s → Kept k (f s))
    (h : Kept k s) : ∀ t, spdmRequest c f s = .next t → Kept k t := by
  intro t ht
  unfold spdmRequest at ht
  split at ht
  · injection ht with ht
    exact ht ▸ hf _ h
  · injection ht with ht
    exact ht ▸ h

theorem kept_negotiated {c : Chan} {f : State → State} {s : State} (hf : ∀ s, Kept k s → Kept k (f s))
    (h : Kept k s) : ∀ t, negotiated c f s = .next t → Kept k t := by
  unfold negotiated
  refine kept_spdmRequest (fun s hs => ?_) h
  split
  · exact hf _ hs
  · exact kept_State_answerError _ _ _ hs

/-- A request that needs a negotiated connection keeps what its effect keeps. -/
theorem kept_negotiatedIn {c : Chan} {o : Option (BitVec 32)} {f : State → State} {s : State}
    (hf : ∀ s, Kept k s → Kept k (f s)) (h : Kept k s) : ∀ t, negotiatedIn c o f s = .next t → Kept k t := by
  unfold negotiatedIn
  refine kept_negotiated (fun s hs => ?_) h
  split
  · exact hf _ hs
  · split
    · exact hf _ (kept_State_setSessions _ _ _ hs)
    · exact kept_State_answerError _ _ _ hs

theorem kept_execDoeDiscovery (x0 : BitVec 8) (x1 : State) (h1 : Kept k x1) : ∀ t, (execDoeDiscovery x0 x1) = .next
    t → Kept k t := by
  unfold execDoeDiscovery
  repeat first
    | with_reducible first
      | assumption | apply kept_spdmRequest | apply kept_State_answerOk
    | split | dsimp only | simp only [Kept.upd] | intro _

theorem kept_execGetVersion (c : Chan) (s : State) (h : Kept k s) : ∀ t, execGetVersion c s = .next t → Kept k t := by
  unfold execGetVersion
  exact kept_spdmRequest (fun s hs => kept_State_answerOk _ _ _ (kept_State_setSpdm _ _ _ hs)) h

theorem kept_execGetCapabilities (c : Chan) (s : State) (h : Kept k s) :
    ∀ t, execGetCapabilities c s = .next t → Kept k t := by
  unfold execGetCapabilities
  refine kept_spdmRequest (fun s hs => ?_) h
  split
  · exact kept_State_answerOk _ _ _ (kept_State_setSpdm _ _ _ hs)
  · exact kept_State_answerError _ _ _ hs

theorem kept_negotiateEffect (x0 : Chan) (x1 : AlgOffer) (x2 : State) (h2 : Kept k x2) : Kept k (negotiateEffect x0
    x1 x2) := by
  unfold negotiateEffect
  repeat first
    | with_reducible first
      | assumption | apply kept_State_answerError | apply kept_State_answerOk | apply kept_State_setSpdm
    | split | dsimp only | simp only [Kept.upd] | intro _

theorem kept_execNegotiateAlgorithms (x0 : Chan) (x1 : AlgOffer) (x2 : State) (h2 : Kept k x2) : ∀ t,
    (execNegotiateAlgorithms x0 x1 x2) = .next t → Kept k t := by
  unfold execNegotiateAlgorithms
  repeat first
    | with_reducible first
      | assumption | apply kept_spdmRequest | apply kept_negotiateEffect
    | split | dsimp only | simp only [Kept.upd] | intro _

theorem kept_execGetDigests (x0 : Chan) (x1 : Option (BitVec 32)) (x2 : State) (h2 : Kept k x2) : ∀ t,
    (execGetDigests x0 x1 x2) = .next t → Kept k t := by
  unfold execGetDigests
  repeat first
    | with_reducible first
      | assumption | apply kept_negotiatedIn | apply kept_State_answerOk
    | split | dsimp only | simp only [Kept.upd] | intro _

theorem kept_getCertificateEffect (x0 : Chan) (x1 : Nat) (x2 : Nat) (x3 : Nat) (x4 : State) (h4 : Kept k x4) : Kept
    k (getCertificateEffect x0 x1 x2 x3 x4) := by
  unfold getCertificateEffect
  repeat first
    | with_reducible first
      | assumption | apply kept_State_answerError | apply kept_State_answerOk
    | split | dsimp only | simp only [Kept.upd] | intro _

theorem kept_execGetCertificate (x0 : Chan) (x1 : Option (BitVec 32)) (x2 : BitVec 8) (x3 : BitVec 16) (x4 : BitVec
    16) (x5 : State) (h5 : Kept k x5) : ∀ t, (execGetCertificate x0 x1 x2 x3 x4 x5) = .next t → Kept k t := by
  unfold execGetCertificate
  repeat first
    | with_reducible first
      | assumption | apply kept_negotiatedIn | apply kept_getCertificateEffect
    | split | dsimp only | simp only [Kept.upd] | intro _

theorem kept_State_drawNonce (x0 : State) (h0 : Kept k x0) : Kept k (State.drawNonce x0).2 := by
  unfold State.drawNonce
  repeat first
    | with_reducible first
      | assumption
    | split | dsimp only | simp only [Kept.upd] | intro _

theorem kept_challengeEffect (x0 : Chan) (x1 : Nat) (x2 : BitVec 256) (x3 : State) (h3 : Kept k x3) : Kept k
    (challengeEffect x0 x1 x2 x3) := by
  unfold challengeEffect
  repeat first
    | with_reducible first
      | assumption | apply kept_State_answerError | apply kept_State_drawNonce | apply kept_State_answerOk
    | split | dsimp only | simp only [Kept.upd] | intro _

theorem kept_execChallenge (x0 : Chan) (x1 : BitVec 8) (x2 : BitVec 256) (x3 : State) (h3 : Kept k x3) : ∀ t,
    (execChallenge x0 x1 x2 x3) = .next t → Kept k t := by
  unfold execChallenge
  repeat first
    | with_reducible first
      | assumption | apply kept_negotiated | apply kept_challengeEffect
    | split | dsimp only | simp only [Kept.upd] | intro _

theorem kept_getMeasurementsEffect (x0 : Chan) (x1 : Nat) (x2 : Bool) (x3 : BitVec 256) (x4 : State) (h4 : Kept k
    x4) : Kept k (getMeasurementsEffect x0 x1 x2 x3 x4) := by
  unfold getMeasurementsEffect
  repeat first
    | with_reducible first
      | assumption | apply kept_State_answerError | apply kept_State_drawNonce | apply kept_State_answerOk
    | split | dsimp only | simp only [Kept.upd] | intro _

theorem kept_execGetMeasurements (x0 : Chan) (x1 : Option (BitVec 32)) (x2 : BitVec 8) (x3 : Bool) (x4 : BitVec 256)
    (x5 : State) (h5 : Kept k x5) : ∀ t, (execGetMeasurements x0 x1 x2 x3 x4 x5) = .next t → Kept k t := by
  unfold execGetMeasurements
  repeat first
    | with_reducible first
      | assumption | apply kept_negotiatedIn | apply kept_getMeasurementsEffect
    | split | dsimp only | simp only [Kept.upd] | intro _

theorem kept_keyExchangeEffect (x0 : Chan) (x1 : BitVec 384) (x2 : State) (h2 : Kept k x2) : Kept k
    (keyExchangeEffect x0 x1 x2) := by
  unfold keyExchangeEffect
  repeat first
    | with_reducible first
      | assumption | apply kept_State_answerError | apply kept_State_setSessions | apply kept_State_drawNonce
      | apply kept_State_answerOk
    | split | dsimp only | simp only [Kept.upd] | intro _

theorem kept_execKeyExchange (x0 : Chan) (x1 : BitVec 384) (x2 : State) (h2 : Kept k x2) : ∀ t, (execKeyExchange x0
    x1 x2) = .next t → Kept k t := by
  unfold execKeyExchange
  repeat first
    | with_reducible first
      | assumption | apply kept_negotiated | apply kept_keyExchangeEffect
    | split | dsimp only | simp only [Kept.upd] | intro _

theorem kept_State_dropSession (x0 : State) (x1 : Chan) (x2 : BitVec 32) (h0 : Kept k x0) : Kept k
    (State.dropSession x0 x1 x2) := by
  unfold State.dropSession
  repeat first
    | with_reducible first
      | assumption | apply kept_State_setSessions | apply kept_State_endTenantSession
    | split | dsimp only | simp only [Kept.upd] | intro _

theorem kept_finishEffect (x0 : Chan) (x1 : BitVec 32) (x2 : Bool) (x3 : Option (BitVec 384)) (x4 : BitVec 384) (x5
    : State) (h5 : Kept k x5) : Kept k (finishEffect x0 x1 x2 x3 x4 x5) := by
  unfold finishEffect
  repeat first
    | with_reducible first
      | assumption | apply kept_State_answerError | apply kept_State_dropSession | apply kept_State_emit
      | apply kept_State_answerOk | apply kept_State_sendCpers | apply kept_State_setSessions
    | split | dsimp only | simp only [Kept.upd] | intro _

theorem kept_execFinishSession (x0 : Chan) (x1 : BitVec 32) (x2 : Bool) (x3 : Option (BitVec 384)) (x4 : BitVec 384)
    (x5 : State) (h5 : Kept k x5) : ∀ t, (execFinishSession x0 x1 x2 x3 x4 x5) = .next t → Kept k t := by
  unfold execFinishSession
  repeat first
    | with_reducible first
      | assumption | apply kept_negotiated | apply kept_finishEffect
    | split | dsimp only | simp only [Kept.upd] | intro _

theorem kept_inSession {c : Chan} {i : BitVec 32} {f : State → State} {s : State}
    (hf : ∀ s, Kept k s → Kept k (f s)) (h : Kept k s) : ∀ t, inSession c i f s = .next t → Kept k t := by
  unfold inSession
  refine kept_spdmRequest (fun s hs => ?_) h
  split
  · exact hf _ (kept_State_setSessions _ _ _ hs)
  · exact kept_State_answerError _ _ _ hs

theorem kept_execHeartbeat (x0 : Chan) (x1 : BitVec 32) (x2 : State) (h2 : Kept k x2) : ∀ t, (execHeartbeat x0 x1
    x2) = .next t → Kept k t := by
  unfold execHeartbeat
  repeat first
    | with_reducible first
      | assumption | apply kept_inSession | apply kept_State_answerOk
    | split | dsimp only | simp only [Kept.upd] | intro _

theorem kept_execKeyUpdate (c : Chan) (i : BitVec 32) (s : State) (h : Kept k s) :
    ∀ t, execKeyUpdate c i s = .next t → Kept k t := by
  unfold execKeyUpdate
  exact kept_inSession (fun s hs => kept_State_answerOk _ _ _ (kept_State_setSessions _ _ _ hs)) h

theorem kept_execEndSession (c : Chan) (i : BitVec 32) (s : State) (h : Kept k s) :
    ∀ t, execEndSession c i s = .next t → Kept k t := by
  unfold execEndSession
  exact kept_inSession (fun s hs => kept_State_answerOk _ _ _ (kept_State_dropSession _ _ _ hs)) h

theorem kept_execSessionTimeout (x0 : Chan) (x1 : BitVec 32) (x2 : State) (h2 : Kept k x2) : ∀ t,
    (execSessionTimeout x0 x1 x2) = .next t → Kept k t := by
  intro t h
  unfold execSessionTimeout at h
  try dsimp only at h
  repeat (split at h)
  all_goals first
    | (cases h; done)
    | (injection h with h; subst h)
  repeat first
    | with_reducible first
      | assumption | apply kept_State_dropSession | apply kept_State_advanceRef | apply kept_foldl
      | apply kept_foldl_snd | apply kept_foldl_third
    | split | dsimp only | simp only [Kept.upd] | intro _

theorem kept_State_fwTo (x0 : State) (x1 : FwState) (h0 : Kept k x0) : Kept k (State.fwTo x0 x1) := by
  unfold State.fwTo
  repeat first
    | with_reducible first
      | assumption
    | split | dsimp only | simp only [Kept.upd] | intro _

theorem kept_State_fwStopped (x0 : State) (h0 : Kept k x0) : Kept k (State.fwStopped x0) := by
  unfold State.fwStopped
  repeat first
    | with_reducible first
      | assumption
    | split | dsimp only | simp only [Kept.upd] | intro _

theorem kept_fwRequest {r : MgmtReq} {ok : State → Bool} {f : State → State} {s : State}
    (hf : ∀ s, Kept k s → Kept k (f s)) (h : Kept k s) : ∀ t, fwRequest r ok f s = .next t → Kept k t := by
  unfold fwRequest
  refine kept_mgmtRequest (fun s hs => ?_) h
  split
  · exact hf _ hs
  · exact kept_State_mctpRefused _ hs

theorem kept_execQueryDeviceIdentifiers (x0 : MgmtReq) (x1 : State) (h1 : Kept k x1) : ∀ t,
    (execQueryDeviceIdentifiers x0 x1) = .next t → Kept k t := by
  unfold execQueryDeviceIdentifiers
  repeat first
    | with_reducible first
      | assumption | apply kept_mgmtRequest | apply kept_State_mctpOk
    | split | dsimp only | simp only [Kept.upd] | intro _

theorem kept_execGetFirmwareParameters (x0 : MgmtReq) (x1 : State) (h1 : Kept k x1) : ∀ t,
    (execGetFirmwareParameters x0 x1) = .next t → Kept k t := by
  unfold execGetFirmwareParameters
  repeat first
    | with_reducible first
      | assumption | apply kept_mgmtRequest | apply kept_State_mctpOk
    | split | dsimp only | simp only [Kept.upd] | intro _

theorem kept_execPldmGetStatus (x0 : MgmtReq) (x1 : State) (h1 : Kept k x1) : ∀ t, (execPldmGetStatus x0 x1) = .next
    t → Kept k t := by
  unfold execPldmGetStatus
  repeat first
    | with_reducible first
      | assumption | apply kept_mgmtRequest | apply kept_State_mctpOk
    | split | dsimp only | simp only [Kept.upd] | intro _

theorem kept_execRequestUpdate (r : MgmtReq) (n : BitVec 16) (s : State) (h : Kept k s) :
    ∀ t, execRequestUpdate r n s = .next t → Kept k t := by
  unfold execRequestUpdate
  exact kept_fwRequest (fun s hs => kept_State_mctpOk _ _ (kept_State_fwTo _ _ hs)) h

theorem kept_execPassComponentTable (r : MgmtReq) (a b : BitVec 16) (s : State) (h : Kept k s) :
    ∀ t, execPassComponentTable r a b s = .next t → Kept k t := by
  unfold execPassComponentTable
  exact kept_fwRequest (fun s hs => kept_State_mctpOk _ _ (kept_State_fwTo _ _ hs)) h

theorem kept_updateComponentEffect (x0 : BitVec 32) (x1 : State) (h1 : Kept k x1) : Kept k (updateComponentEffect x0
    x1) := by
  unfold updateComponentEffect
  repeat first
    | with_reducible first
      | assumption | apply kept_State_mctpRefused | apply kept_State_fwStopped | apply kept_State_mctpOk
      | apply kept_State_sealSync | apply kept_foldl | apply kept_foldl_snd | apply kept_foldl_third
    | split | dsimp only | simp only [Kept.upd] | simp only [Kept.boot] | intro _ | with_reducible rfl

theorem kept_execUpdateComponent (x0 : MgmtReq) (x1 : BitVec 16) (x2 : BitVec 16) (x3 : BitVec 32) (x4 : State) (h4
    : Kept k x4) : ∀ t, (execUpdateComponent x0 x1 x2 x3 x4) = .next t → Kept k t := by
  unfold execUpdateComponent
  repeat first
    | with_reducible first
      | assumption | apply kept_fwRequest | apply kept_updateComponentEffect
    | split | dsimp only | simp only [Kept.upd] | intro _

theorem kept_firmwareDataEffect (bs : List Byte) (b : Bool) (s : State) (h : Kept k s) :
    Kept k (firmwareDataEffect bs b s) := by
  have h1 := kept_State_sealSegment s .mss h
  unfold firmwareDataEffect
  dsimp only
  split
  · exact kept_State_fwStopped _ h
  · split
    · exact kept_State_fwFails _ h
    · split
      · exact kept_State_fwFails _ (Kept.updBoot h1 rfl rfl rfl)
      · exact Kept.updBoot h1 rfl rfl rfl

theorem kept_execFirmwareData (x0 : BitVec 32) (x1 : List Byte) (x2 : Bool) (x3 : State) (h3 : Kept k x3) : ∀ t,
    (execFirmwareData x0 x1 x2 x3) = .next t → Kept k t := by
  intro t h
  unfold execFirmwareData at h
  try dsimp only at h
  repeat (split at h)
  all_goals first
    | (cases h; done)
    | (injection h with h; subst h)
  repeat first
    | with_reducible first
      | assumption | apply kept_firmwareDataEffect | apply kept_foldl | apply kept_foldl_snd
      | apply kept_foldl_third
    | split | dsimp only | simp only [Kept.upd] | intro _

theorem kept_execTransferComplete (r : MgmtReq) (s : State) (h : Kept k s) :
    ∀ t, execTransferComplete r s = .next t → Kept k t := by
  unfold execTransferComplete
  exact kept_fwRequest (fun s hs => kept_State_mctpOk _ _ (kept_State_fwTo _ _ hs)) h

theorem kept_execVerifyComplete (r : MgmtReq) (s : State) (h : Kept k s) :
    ∀ t, execVerifyComplete r s = .next t → Kept k t := by
  unfold execVerifyComplete
  exact kept_fwRequest (fun s hs => kept_State_mctpOk _ _ (kept_State_fwTo _ _ hs)) h

theorem kept_applyCompleteEffect (x0 : State) (h0 : Kept k x0) : Kept k (applyCompleteEffect x0) := by
  unfold applyCompleteEffect
  repeat first
    | with_reducible first
      | assumption | apply kept_State_mctpRefused | apply kept_State_fwStopped | apply kept_State_mssAlert
      | apply kept_State_emit | apply kept_State_sealSync | apply kept_State_fwTo | apply kept_State_mctpOk
      | apply kept_State_writeCarried | apply kept_foldl | apply kept_foldl_snd | apply kept_foldl_third
    | split | dsimp only | simp only [Kept.upd] | simp only [Kept.boot] | intro _ | with_reducible rfl

theorem kept_execApplyComplete (x0 : MgmtReq) (x1 : State) (h1 : Kept k x1) : ∀ t, (execApplyComplete x0 x1) = .next
    t → Kept k t := by
  unfold execApplyComplete
  repeat first
    | with_reducible first
      | assumption | apply kept_fwRequest | apply kept_applyCompleteEffect
    | split | dsimp only | simp only [Kept.upd] | intro _

theorem kept_activateFirmwareEffect (x0 : State) (h0 : Kept k x0) : Kept k (activateFirmwareEffect x0) := by
  unfold activateFirmwareEffect
  repeat first
    | with_reducible first
      | assumption | apply kept_State_mctpRefused | apply kept_State_fwStopped | apply kept_State_appendBoot
      | apply kept_State_mctpOk
    | split | dsimp only | simp only [Kept.upd] | intro _

theorem kept_execActivateFirmware (x0 : MgmtReq) (x1 : State) (h1 : Kept k x1) : ∀ t, (execActivateFirmware x0 x1) =
    .next t → Kept k t := by
  unfold execActivateFirmware
  repeat first
    | with_reducible first
      | assumption | apply kept_fwRequest | apply kept_activateFirmwareEffect
    | split | dsimp only | simp only [Kept.upd] | intro _

theorem kept_State_fwCancelled (x0 : State) (x1 : FwState) (h0 : Kept k x0) : Kept k (State.fwCancelled x0 x1) := by
  unfold State.fwCancelled
  repeat first
    | with_reducible first
      | assumption | apply kept_State_mctpOk | apply kept_State_emit | apply kept_State_sealSync
    | split | dsimp only | simp only [Kept.upd] | intro _

theorem kept_execCancelUpdateComponent (x0 : MgmtReq) (x1 : State) (h1 : Kept k x1) : ∀ t,
    (execCancelUpdateComponent x0 x1) = .next t → Kept k t := by
  unfold execCancelUpdateComponent
  repeat first
    | with_reducible first
      | assumption | apply kept_fwRequest | apply kept_State_fwCancelled
    | split | dsimp only | simp only [Kept.upd] | intro _

theorem kept_cancelUpdateEffect (x0 : State) (h0 : Kept k x0) : Kept k (cancelUpdateEffect x0) := by
  unfold cancelUpdateEffect
  repeat first
    | with_reducible first
      | assumption | apply kept_State_mctpRefused | apply kept_State_fwCancelled | apply kept_foldl
      | apply kept_foldl_snd | apply kept_foldl_third
    | split | dsimp only | simp only [Kept.upd] | simp only [Kept.boot] | intro _ | with_reducible rfl

theorem kept_execCancelUpdate (x0 : MgmtReq) (x1 : State) (h1 : Kept k x1) : ∀ t, (execCancelUpdate x0 x1) = .next t
    → Kept k t := by
  unfold execCancelUpdate
  repeat first
    | with_reducible first
      | assumption | apply kept_fwRequest | apply kept_cancelUpdateEffect
    | split | dsimp only | simp only [Kept.upd] | intro _

theorem kept_State_grainFails (x0 : State) (h0 : Kept k x0) : Kept k (State.grainFails x0) := by
  unfold State.grainFails
  repeat first
    | with_reducible first
      | assumption | apply kept_State_emit
    | split | dsimp only | simp only [Kept.upd] | intro _

theorem kept_execSeedReady (l : List Byte) (s : State) (h : Kept k s) : ∀ t, execSeedReady l s = .next t → Kept k t := by
  intro t ht
  unfold execSeedReady at ht
  split at ht
  · split at ht
    · injection ht with ht
      exact ht ▸ Kept.upd.mpr h
    · injection ht with ht
      exact ht ▸ kept_State_grainFails _ h
  · injection ht with ht
    exact ht ▸ h

theorem kept_execGrainHealthFailure (s : State) (h : Kept k s) :
    ∀ t, execGrainHealthFailure s = .next t → Kept k t := by
  intro t ht
  unfold execGrainHealthFailure at ht
  injection ht with ht
  exact ht ▸ kept_State_emit _ _ _ _ (Kept.upd.mpr h)

theorem kept_execGrainRestart (l : List Byte) (s : State) (h : Kept k s) :
    ∀ t, execGrainRestart l s = .next t → Kept k t := by
  intro t ht
  unfold execGrainRestart at ht
  split at ht
  · split at ht
    · dsimp only at ht
      split at ht
      · injection ht with ht
        exact ht ▸ kept_State_emit _ _ _ _ (Kept.upd.mpr h)
      · injection ht with ht
        exact ht ▸ Kept.upd.mpr h
    · injection ht with ht
      exact ht ▸ kept_State_grainFails _ h
  · injection ht with ht
    exact ht ▸ h

theorem kept_State_jtagTo (x0 : State) (x1 : JtagInstr) (x2 : Word) (h0 : Kept k x0) : Kept k (State.jtagTo x0 x1
    x2) := by
  unfold State.jtagTo
  repeat first
    | with_reducible first
      | assumption | apply kept_foldl | apply kept_foldl_snd | apply kept_foldl_third
    | split | dsimp only | simp only [Kept.upd] | simp only [Kept.boot] | intro _ | with_reducible rfl

theorem kept_execBypass (x0 : State) (h0 : Kept k x0) : ∀ t, (execBypass x0) = .next t → Kept k t := by
  intro t h
  unfold execBypass at h
  try dsimp only at h
  all_goals first
    | (cases h; done)
    | (injection h with h; subst h)
  repeat first
    | with_reducible first
      | assumption | apply kept_State_jtagTo | apply kept_foldl | apply kept_foldl_snd | apply kept_foldl_third
    | split | dsimp only | simp only [Kept.upd] | intro _

theorem kept_execIdcode (x0 : State) (h0 : Kept k x0) : ∀ t, (execIdcode x0) = .next t → Kept k t := by
  intro t h
  unfold execIdcode at h
  try dsimp only at h
  all_goals first
    | (cases h; done)
    | (injection h with h; subst h)
  repeat first
    | with_reducible first
      | assumption | apply kept_State_jtagTo | apply kept_foldl | apply kept_foldl_snd | apply kept_foldl_third
    | split | dsimp only | simp only [Kept.upd] | intro _

theorem kept_execSamplePreload (cells : List Bool) (s : State) (h : Kept k s) :
    ∀ t, execSamplePreload cells s = .next t → Kept k t := by
  intro t ht
  have h1 := kept_State_jtagTo s .sample s.boot.jtagData h
  unfold execSamplePreload at ht
  injection ht with ht
  revert ht
  generalize s.jtagTo .sample s.boot.jtagData = u at h1
  intro ht
  exact ht ▸ Kept.updBoot h1 rfl rfl rfl

theorem kept_execExtest (x0 : State) (h0 : Kept k x0) : ∀ t, (execExtest x0) = .next t → Kept k t := by
  intro t h
  unfold execExtest at h
  try dsimp only at h
  repeat (split at h)
  all_goals first
    | (cases h; done)
    | (injection h with h; subst h)
  repeat first
    | with_reducible first
      | assumption | apply kept_State_jtagTo | apply kept_foldl | apply kept_foldl_snd | apply kept_foldl_third
    | split | dsimp only | simp only [Kept.upd] | intro _

theorem kept_execClamp (x0 : State) (h0 : Kept k x0) : ∀ t, (execClamp x0) = .next t → Kept k t := by
  intro t h
  unfold execClamp at h
  try dsimp only at h
  all_goals first
    | (cases h; done)
    | (injection h with h; subst h)
  repeat first
    | with_reducible first
      | assumption | apply kept_State_jtagTo | apply kept_foldl | apply kept_foldl_snd | apply kept_foldl_third
    | split | dsimp only | simp only [Kept.upd] | intro _

theorem kept_execHighz (x0 : State) (h0 : Kept k x0) : ∀ t, (execHighz x0) = .next t → Kept k t := by
  intro t h
  unfold execHighz at h
  try dsimp only at h
  all_goals first
    | (cases h; done)
    | (injection h with h; subst h)
  repeat first
    | with_reducible first
      | assumption | apply kept_State_jtagTo | apply kept_foldl | apply kept_foldl_snd | apply kept_foldl_third
    | split | dsimp only | simp only [Kept.upd] | intro _

theorem kept_execEndpointIdAssignment (x0 : BitVec 8) (x1 : State) (h1 : Kept k x1) : ∀ t, (execEndpointIdAssignment
    x0 x1) = .next t → Kept k t := by
  intro t h
  unfold execEndpointIdAssignment at h
  try dsimp only at h
  repeat (split at h)
  all_goals first
    | (cases h; done)
    | (injection h with h; subst h)
  repeat first
    | with_reducible first
      | assumption | apply kept_foldl | apply kept_foldl_snd | apply kept_foldl_third
    | split | dsimp only | simp only [Kept.upd] | intro _

theorem kept_execDynamicAddressAssignment (x0 : BitVec 7) (x1 : State) (h1 : Kept k x1) : ∀ t,
    (execDynamicAddressAssignment x0 x1) = .next t → Kept k t := by
  intro t h
  unfold execDynamicAddressAssignment at h
  try dsimp only at h
  repeat (split at h)
  all_goals first
    | (cases h; done)
    | (injection h with h; subst h)
  repeat first
    | with_reducible first
      | assumption | apply kept_foldl | apply kept_foldl_snd | apply kept_foldl_third
    | split | dsimp only | simp only [Kept.upd] | intro _

theorem kept_State_setIdeKey (x0 : State) (x1 : Nat) (x2 : IdeKey) (h0 : Kept k x0) : Kept k (State.setIdeKey x0 x1
    x2) := by
  unfold State.setIdeKey
  repeat first
    | with_reducible first
      | assumption
    | split | dsimp only | simp only [Kept.upd] | intro _

theorem kept_execQuery (x0 : BitVec 32) (x1 : State) (h1 : Kept k x1) : ∀ t, (execQuery x0 x1) = .next t → Kept k t
    := by
  unfold execQuery
  repeat first
    | with_reducible first
      | assumption | apply kept_inSession | apply kept_State_answerOk
    | split | dsimp only | simp only [Kept.upd] | intro _

theorem kept_keyProgEffect (x0 : IdeKeyLoc) (x1 : BitVec 256) (x2 : State) (h2 : Kept k x2) : Kept k (keyProgEffect
    x0 x1 x2) := by
  unfold keyProgEffect
  repeat first
    | with_reducible first
      | assumption | apply kept_State_answerOk | apply kept_State_setIdeKey | apply kept_State_answerError
    | split | dsimp only | simp only [Kept.upd] | intro _

theorem kept_execKeyProg (x0 : BitVec 32) (x1 : IdeKeyLoc) (x2 : BitVec 256) (x3 : State) (h3 : Kept k x3) : ∀ t,
    (execKeyProg x0 x1 x2 x3) = .next t → Kept k t := by
  unfold execKeyProg
  repeat first
    | with_reducible first
      | assumption | apply kept_inSession | apply kept_keyProgEffect
    | split | dsimp only | simp only [Kept.upd] | intro _

theorem kept_State_setStream (x0 : State) (x1 : Nat) (x2 : IdeStream) (h0 : Kept k x0) : Kept k (State.setStream x0
    x1 x2) := by
  unfold State.setStream
  repeat first
    | with_reducible first
      | assumption
    | split | dsimp only | simp only [Kept.upd] | intro _

theorem kept_kSetGoEffect (x0 : IdeKeyLoc) (x1 : IdeStream) (x2 : State) (h2 : Kept k x2) : Kept k (kSetGoEffect x0
    x1 x2) := by
  unfold kSetGoEffect
  repeat first
    | with_reducible first
      | assumption | apply kept_State_answerOk | apply kept_State_setStream | apply kept_State_setIdeKey
      | apply kept_State_answerError
    | split | dsimp only | simp only [Kept.upd] | intro _

theorem kept_execKSetGo (x0 : BitVec 32) (x1 : IdeKeyLoc) (x2 : IdeStream) (x3 : State) (h3 : Kept k x3) : ∀ t,
    (execKSetGo x0 x1 x2 x3) = .next t → Kept k t := by
  unfold execKSetGo
  repeat first
    | with_reducible first
      | assumption | apply kept_inSession | apply kept_kSetGoEffect
    | split | dsimp only | simp only [Kept.upd] | intro _

theorem kept_kSetStopEffect (x0 : IdeKeyLoc) (x1 : State) (h1 : Kept k x1) : Kept k (kSetStopEffect x0 x1) := by
  unfold kSetStopEffect
  repeat first
    | with_reducible first
      | assumption | apply kept_State_answerOk | apply kept_State_setIdeKey | apply kept_State_answerError
    | split | dsimp only | simp only [Kept.upd] | intro _

theorem kept_execKSetStop (x0 : BitVec 32) (x1 : IdeKeyLoc) (x2 : State) (h2 : Kept k x2) : ∀ t, (execKSetStop x0 x1
    x2) = .next t → Kept k t := by
  unfold execKSetStop
  repeat first
    | with_reducible first
      | assumption | apply kept_inSession | apply kept_kSetStopEffect
    | split | dsimp only | simp only [Kept.upd] | intro _

theorem kept_State_tdiTo (x0 : State) (x1 : TdiState) (h0 : Kept k x0) : Kept k (State.tdiTo x0 x1) := by
  unfold State.tdiTo
  repeat first
    | with_reducible first
      | assumption
    | split | dsimp only | simp only [Kept.upd] | intro _

theorem kept_execGetTdispVersion (x0 : BitVec 32) (x1 : State) (h1 : Kept k x1) : ∀ t, (execGetTdispVersion x0 x1) =
    .next t → Kept k t := by
  unfold execGetTdispVersion
  repeat first
    | with_reducible first
      | assumption | apply kept_inSession | apply kept_State_answerOk
    | split | dsimp only | simp only [Kept.upd] | intro _

theorem kept_execGetTdispCapabilities (x0 : BitVec 32) (x1 : State) (h1 : Kept k x1) : ∀ t,
    (execGetTdispCapabilities x0 x1) = .next t → Kept k t := by
  unfold execGetTdispCapabilities
  repeat first
    | with_reducible first
      | assumption | apply kept_inSession | apply kept_State_answerOk
    | split | dsimp only | simp only [Kept.upd] | intro _

theorem kept_tdiMove (x0 : TdiState) (x1 : TdiState) (x2 : State) (h2 : Kept k x2) : Kept k (tdiMove x0 x1 x2) := by
  unfold tdiMove
  repeat first
    | with_reducible first
      | assumption | apply kept_State_answerOk | apply kept_State_tdiTo | apply kept_State_answerError
    | split | dsimp only | simp only [Kept.upd] | intro _

theorem kept_execLockInterfaceRequest (x0 : BitVec 32) (x1 : State) (h1 : Kept k x1) : ∀ t,
    (execLockInterfaceRequest x0 x1) = .next t → Kept k t := by
  unfold execLockInterfaceRequest
  repeat first
    | with_reducible first
      | assumption | apply kept_inSession | apply kept_tdiMove
    | split | dsimp only | simp only [Kept.upd] | intro _

theorem kept_execStartInterfaceRequest (x0 : BitVec 32) (x1 : State) (h1 : Kept k x1) : ∀ t,
    (execStartInterfaceRequest x0 x1) = .next t → Kept k t := by
  unfold execStartInterfaceRequest
  repeat first
    | with_reducible first
      | assumption | apply kept_inSession | apply kept_tdiMove
    | split | dsimp only | simp only [Kept.upd] | intro _

theorem kept_execStopInterfaceRequest (i : BitVec 32) (s : State) (h : Kept k s) :
    ∀ t, execStopInterfaceRequest i s = .next t → Kept k t := by
  unfold execStopInterfaceRequest
  exact kept_inSession (fun s hs => kept_State_answerOk _ _ _ (kept_State_tdiTo _ _ hs)) h

theorem kept_execGetDeviceInterfaceReport (x0 : BitVec 32) (x1 : State) (h1 : Kept k x1) : ∀ t,
    (execGetDeviceInterfaceReport x0 x1) = .next t → Kept k t := by
  unfold execGetDeviceInterfaceReport
  repeat first
    | with_reducible first
      | assumption | apply kept_inSession | apply kept_State_answerOk
    | split | dsimp only | simp only [Kept.upd] | intro _

theorem kept_execGetDeviceInterfaceState (x0 : BitVec 32) (x1 : State) (h1 : Kept k x1) : ∀ t,
    (execGetDeviceInterfaceState x0 x1) = .next t → Kept k t := by
  unfold execGetDeviceInterfaceState
  repeat first
    | with_reducible first
      | assumption | apply kept_inSession | apply kept_State_answerOk
    | split | dsimp only | simp only [Kept.upd] | intro _



end Sys2Proof.Laws
end

