-- ==== Sys2Proof/Laws/State.lean ====
section
/-! SUPPORT. What the updates of one field leave: every other field of the state, by name. -/

namespace Sys2Proof.Machine

/-! ### State.setPort -/

@[simp] theorem State.setPort_pending (s : State) (k : Nat) (x : Port) : (s.setPort k x).pending = s.pending := rfl
@[simp] theorem State.setPort_boardTime (s : State) (k : Nat) (x : Port) : (s.setPort k x).boardTime = s.boardTime := rfl
@[simp] theorem State.setPort_timeValid (s : State) (k : Nat) (x : Port) : (s.setPort k x).timeValid = s.timeValid := rfl
@[simp] theorem State.setPort_refclk (s : State) (k : Nat) (x : Port) : (s.setPort k x).refclk = s.refclk := rfl
@[simp] theorem State.setPort_syncEnds (s : State) (k : Nat) (x : Port) : (s.setPort k x).syncEnds = s.syncEnds := rfl
@[simp] theorem State.setPort_mem (s : State) (k : Nat) (x : Port) : (s.setPort k x).mem = s.mem := rfl
@[simp] theorem State.setPort_engines (s : State) (k : Nat) (x : Port) : (s.setPort k x).engines = s.engines := rfl
@[simp] theorem State.setPort_counts (s : State) (k : Nat) (x : Port) : (s.setPort k x).counts = s.counts := rfl
@[simp] theorem State.setPort_remaps (s : State) (k : Nat) (x : Port) : (s.setPort k x).remaps = s.remaps := rfl
@[simp] theorem State.setPort_nextRemaps (s : State) (k : Nat) (x : Port) : (s.setPort k x).nextRemaps = s.nextRemaps := rfl
@[simp] theorem State.setPort_gates (s : State) (k : Nat) (x : Port) : (s.setPort k x).gates = s.gates := rfl
@[simp] theorem State.setPort_clusterCounts (s : State) (k : Nat) (x : Port) : (s.setPort k x).clusterCounts = s.clusterCounts := rfl
@[simp] theorem State.setPort_stackCounts (s : State) (k : Nat) (x : Port) : (s.setPort k x).stackCounts = s.stackCounts := rfl
@[simp] theorem State.setPort_lanes (s : State) (k : Nat) (x : Port) : (s.setPort k x).lanes = s.lanes := rfl
@[simp] theorem State.setPort_picks (s : State) (k : Nat) (x : Port) : (s.setPort k x).picks = s.picks := rfl
@[simp] theorem State.setPort_windows (s : State) (k : Nat) (x : Port) : (s.setPort k x).windows = s.windows := rfl
@[simp] theorem State.setPort_stipples (s : State) (k : Nat) (x : Port) : (s.setPort k x).stipples = s.stipples := rfl
@[simp] theorem State.setPort_busy (s : State) (k : Nat) (x : Port) : (s.setPort k x).busy = s.busy := rfl
@[simp] theorem State.setPort_nextIssue (s : State) (k : Nat) (x : Port) : (s.setPort k x).nextIssue = s.nextIssue := rfl
@[simp] theorem State.setPort_taken (s : State) (k : Nat) (x : Port) : (s.setPort k x).taken = s.taken := rfl
@[simp] theorem State.setPort_clock (s : State) (k : Nat) (x : Port) : (s.setPort k x).clock = s.clock := rfl
@[simp] theorem State.setPort_works (s : State) (k : Nat) (x : Port) : (s.setPort k x).works = s.works := rfl
@[simp] theorem State.setPort_writes (s : State) (k : Nat) (x : Port) : (s.setPort k x).writes = s.writes := rfl
@[simp] theorem State.setPort_deferred (s : State) (k : Nat) (x : Port) : (s.setPort k x).deferred = s.deferred := rfl
@[simp] theorem State.setPort_tailEvents (s : State) (k : Nat) (x : Port) : (s.setPort k x).tailEvents = s.tailEvents := rfl
@[simp] theorem State.setPort_reports (s : State) (k : Nat) (x : Port) : (s.setPort k x).reports = s.reports := rfl
@[simp] theorem State.setPort_partials (s : State) (k : Nat) (x : Port) : (s.setPort k x).partials = s.partials := rfl
@[simp] theorem State.setPort_charges (s : State) (k : Nat) (x : Port) : (s.setPort k x).charges = s.charges := rfl
@[simp] theorem State.setPort_norm (s : State) (k : Nat) (x : Port) : (s.setPort k x).norm = s.norm := rfl
@[simp] theorem State.setPort_clip (s : State) (k : Nat) (x : Port) : (s.setPort k x).clip = s.clip := rfl
@[simp] theorem State.setPort_segE (s : State) (k : Nat) (x : Port) : (s.setPort k x).segE = s.segE := rfl
@[simp] theorem State.setPort_segMax (s : State) (k : Nat) (x : Port) : (s.setPort k x).segMax = s.segMax := rfl
@[simp] theorem State.setPort_markUpdates (s : State) (k : Nat) (x : Port) : (s.setPort k x).markUpdates = s.markUpdates := rfl
@[simp] theorem State.setPort_remoteMarks (s : State) (k : Nat) (x : Port) : (s.setPort k x).remoteMarks = s.remoteMarks := rfl
@[simp] theorem State.setPort_marks (s : State) (k : Nat) (x : Port) : (s.setPort k x).marks = s.marks := rfl
@[simp] theorem State.setPort_watches (s : State) (k : Nat) (x : Port) : (s.setPort k x).watches = s.watches := rfl
@[simp] theorem State.setPort_seq (s : State) (k : Nat) (x : Port) : (s.setPort k x).seq = s.seq := rfl
@[simp] theorem State.setPort_links (s : State) (k : Nat) (x : Port) : (s.setPort k x).links = s.links := rfl
@[simp] theorem State.setPort_recvs (s : State) (k : Nat) (x : Port) : (s.setPort k x).recvs = s.recvs := rfl
@[simp] theorem State.setPort_seam (s : State) (k : Nat) (x : Port) : (s.setPort k x).seam = s.seam := rfl
@[simp] theorem State.setPort_seamRetraining (s : State) (k : Nat) (x : Port) : (s.setPort k x).seamRetraining = s.seamRetraining := rfl
@[simp] theorem State.setPort_sourceSeq (s : State) (k : Nat) (x : Port) : (s.setPort k x).sourceSeq = s.sourceSeq := rfl
@[simp] theorem State.setPort_opened (s : State) (k : Nat) (x : Port) : (s.setPort k x).opened = s.opened := rfl
@[simp] theorem State.setPort_closed (s : State) (k : Nat) (x : Port) : (s.setPort k x).closed = s.closed := rfl
@[simp] theorem State.setPort_written (s : State) (k : Nat) (x : Port) : (s.setPort k x).written = s.written := rfl
@[simp] theorem State.setPort_rings (s : State) (k : Nat) (x : Port) : (s.setPort k x).rings = s.rings := rfl
@[simp] theorem State.setPort_msix (s : State) (k : Nat) (x : Port) : (s.setPort k x).msix = s.msix := rfl
@[simp] theorem State.setPort_msixPending (s : State) (k : Nat) (x : Port) : (s.setPort k x).msixPending = s.msixPending := rfl
@[simp] theorem State.setPort_gauges (s : State) (k : Nat) (x : Port) : (s.setPort k x).gauges = s.gauges := rfl
@[simp] theorem State.setPort_regs (s : State) (k : Nat) (x : Port) : (s.setPort k x).regs = s.regs := rfl
@[simp] theorem State.setPort_edition (s : State) (k : Nat) (x : Port) : (s.setPort k x).edition = s.edition := rfl
@[simp] theorem State.setPort_grain (s : State) (k : Nat) (x : Port) : (s.setPort k x).grain = s.grain := rfl
@[simp] theorem State.setPort_sec (s : State) (k : Nat) (x : Port) : (s.setPort k x).sec = s.sec := rfl
@[simp] theorem State.setPort_mss (s : State) (k : Nat) (x : Port) : (s.setPort k x).mss = s.mss := rfl
@[simp] theorem State.setPort_boot (s : State) (k : Nat) (x : Port) : (s.setPort k x).boot = s.boot := rfl
@[simp] theorem State.setPort_freeCount (s : State) (k : Nat) (x : Port) : (s.setPort k x).freeCount = s.freeCount := rfl

/-! ### State.setRing -/

@[simp] theorem State.setRing_pending (s : State) (n : Nat) (x : Ring) : (s.setRing n x).pending = s.pending := rfl
@[simp] theorem State.setRing_boardTime (s : State) (n : Nat) (x : Ring) : (s.setRing n x).boardTime = s.boardTime := rfl
@[simp] theorem State.setRing_timeValid (s : State) (n : Nat) (x : Ring) : (s.setRing n x).timeValid = s.timeValid := rfl
@[simp] theorem State.setRing_refclk (s : State) (n : Nat) (x : Ring) : (s.setRing n x).refclk = s.refclk := rfl
@[simp] theorem State.setRing_syncEnds (s : State) (n : Nat) (x : Ring) : (s.setRing n x).syncEnds = s.syncEnds := rfl
@[simp] theorem State.setRing_mem (s : State) (n : Nat) (x : Ring) : (s.setRing n x).mem = s.mem := rfl
@[simp] theorem State.setRing_engines (s : State) (n : Nat) (x : Ring) : (s.setRing n x).engines = s.engines := rfl
@[simp] theorem State.setRing_counts (s : State) (n : Nat) (x : Ring) : (s.setRing n x).counts = s.counts := rfl
@[simp] theorem State.setRing_remaps (s : State) (n : Nat) (x : Ring) : (s.setRing n x).remaps = s.remaps := rfl
@[simp] theorem State.setRing_nextRemaps (s : State) (n : Nat) (x : Ring) : (s.setRing n x).nextRemaps = s.nextRemaps := rfl
@[simp] theorem State.setRing_gates (s : State) (n : Nat) (x : Ring) : (s.setRing n x).gates = s.gates := rfl
@[simp] theorem State.setRing_clusterCounts (s : State) (n : Nat) (x : Ring) : (s.setRing n x).clusterCounts = s.clusterCounts := rfl
@[simp] theorem State.setRing_stackCounts (s : State) (n : Nat) (x : Ring) : (s.setRing n x).stackCounts = s.stackCounts := rfl
@[simp] theorem State.setRing_lanes (s : State) (n : Nat) (x : Ring) : (s.setRing n x).lanes = s.lanes := rfl
@[simp] theorem State.setRing_picks (s : State) (n : Nat) (x : Ring) : (s.setRing n x).picks = s.picks := rfl
@[simp] theorem State.setRing_windows (s : State) (n : Nat) (x : Ring) : (s.setRing n x).windows = s.windows := rfl
@[simp] theorem State.setRing_stipples (s : State) (n : Nat) (x : Ring) : (s.setRing n x).stipples = s.stipples := rfl
@[simp] theorem State.setRing_busy (s : State) (n : Nat) (x : Ring) : (s.setRing n x).busy = s.busy := rfl
@[simp] theorem State.setRing_nextIssue (s : State) (n : Nat) (x : Ring) : (s.setRing n x).nextIssue = s.nextIssue := rfl
@[simp] theorem State.setRing_taken (s : State) (n : Nat) (x : Ring) : (s.setRing n x).taken = s.taken := rfl
@[simp] theorem State.setRing_clock (s : State) (n : Nat) (x : Ring) : (s.setRing n x).clock = s.clock := rfl
@[simp] theorem State.setRing_works (s : State) (n : Nat) (x : Ring) : (s.setRing n x).works = s.works := rfl
@[simp] theorem State.setRing_writes (s : State) (n : Nat) (x : Ring) : (s.setRing n x).writes = s.writes := rfl
@[simp] theorem State.setRing_deferred (s : State) (n : Nat) (x : Ring) : (s.setRing n x).deferred = s.deferred := rfl
@[simp] theorem State.setRing_tailEvents (s : State) (n : Nat) (x : Ring) : (s.setRing n x).tailEvents = s.tailEvents := rfl
@[simp] theorem State.setRing_reports (s : State) (n : Nat) (x : Ring) : (s.setRing n x).reports = s.reports := rfl
@[simp] theorem State.setRing_partials (s : State) (n : Nat) (x : Ring) : (s.setRing n x).partials = s.partials := rfl
@[simp] theorem State.setRing_charges (s : State) (n : Nat) (x : Ring) : (s.setRing n x).charges = s.charges := rfl
@[simp] theorem State.setRing_norm (s : State) (n : Nat) (x : Ring) : (s.setRing n x).norm = s.norm := rfl
@[simp] theorem State.setRing_clip (s : State) (n : Nat) (x : Ring) : (s.setRing n x).clip = s.clip := rfl
@[simp] theorem State.setRing_segE (s : State) (n : Nat) (x : Ring) : (s.setRing n x).segE = s.segE := rfl
@[simp] theorem State.setRing_segMax (s : State) (n : Nat) (x : Ring) : (s.setRing n x).segMax = s.segMax := rfl
@[simp] theorem State.setRing_markUpdates (s : State) (n : Nat) (x : Ring) : (s.setRing n x).markUpdates = s.markUpdates := rfl
@[simp] theorem State.setRing_remoteMarks (s : State) (n : Nat) (x : Ring) : (s.setRing n x).remoteMarks = s.remoteMarks := rfl
@[simp] theorem State.setRing_marks (s : State) (n : Nat) (x : Ring) : (s.setRing n x).marks = s.marks := rfl
@[simp] theorem State.setRing_watches (s : State) (n : Nat) (x : Ring) : (s.setRing n x).watches = s.watches := rfl
@[simp] theorem State.setRing_seq (s : State) (n : Nat) (x : Ring) : (s.setRing n x).seq = s.seq := rfl
@[simp] theorem State.setRing_links (s : State) (n : Nat) (x : Ring) : (s.setRing n x).links = s.links := rfl
@[simp] theorem State.setRing_recvs (s : State) (n : Nat) (x : Ring) : (s.setRing n x).recvs = s.recvs := rfl
@[simp] theorem State.setRing_ports (s : State) (n : Nat) (x : Ring) : (s.setRing n x).ports = s.ports := rfl
@[simp] theorem State.setRing_seam (s : State) (n : Nat) (x : Ring) : (s.setRing n x).seam = s.seam := rfl
@[simp] theorem State.setRing_seamRetraining (s : State) (n : Nat) (x : Ring) : (s.setRing n x).seamRetraining = s.seamRetraining := rfl
@[simp] theorem State.setRing_sourceSeq (s : State) (n : Nat) (x : Ring) : (s.setRing n x).sourceSeq = s.sourceSeq := rfl
@[simp] theorem State.setRing_opened (s : State) (n : Nat) (x : Ring) : (s.setRing n x).opened = s.opened := rfl
@[simp] theorem State.setRing_closed (s : State) (n : Nat) (x : Ring) : (s.setRing n x).closed = s.closed := rfl
@[simp] theorem State.setRing_written (s : State) (n : Nat) (x : Ring) : (s.setRing n x).written = s.written := rfl
@[simp] theorem State.setRing_msix (s : State) (n : Nat) (x : Ring) : (s.setRing n x).msix = s.msix := rfl
@[simp] theorem State.setRing_msixPending (s : State) (n : Nat) (x : Ring) : (s.setRing n x).msixPending = s.msixPending := rfl
@[simp] theorem State.setRing_gauges (s : State) (n : Nat) (x : Ring) : (s.setRing n x).gauges = s.gauges := rfl
@[simp] theorem State.setRing_regs (s : State) (n : Nat) (x : Ring) : (s.setRing n x).regs = s.regs := rfl
@[simp] theorem State.setRing_edition (s : State) (n : Nat) (x : Ring) : (s.setRing n x).edition = s.edition := rfl
@[simp] theorem State.setRing_grain (s : State) (n : Nat) (x : Ring) : (s.setRing n x).grain = s.grain := rfl
@[simp] theorem State.setRing_sec (s : State) (n : Nat) (x : Ring) : (s.setRing n x).sec = s.sec := rfl
@[simp] theorem State.setRing_mss (s : State) (n : Nat) (x : Ring) : (s.setRing n x).mss = s.mss := rfl
@[simp] theorem State.setRing_boot (s : State) (n : Nat) (x : Ring) : (s.setRing n x).boot = s.boot := rfl
@[simp] theorem State.setRing_freeCount (s : State) (n : Nat) (x : Ring) : (s.setRing n x).freeCount = s.freeCount := rfl

/-! ### State.setLink -/

@[simp] theorem State.setLink_pending (s : State) (l : LinkRef) (x : Link) : (s.setLink l x).pending = s.pending := rfl
@[simp] theorem State.setLink_boardTime (s : State) (l : LinkRef) (x : Link) : (s.setLink l x).boardTime = s.boardTime := rfl
@[simp] theorem State.setLink_timeValid (s : State) (l : LinkRef) (x : Link) : (s.setLink l x).timeValid = s.timeValid := rfl
@[simp] theorem State.setLink_refclk (s : State) (l : LinkRef) (x : Link) : (s.setLink l x).refclk = s.refclk := rfl
@[simp] theorem State.setLink_syncEnds (s : State) (l : LinkRef) (x : Link) : (s.setLink l x).syncEnds = s.syncEnds := rfl
@[simp] theorem State.setLink_mem (s : State) (l : LinkRef) (x : Link) : (s.setLink l x).mem = s.mem := rfl
@[simp] theorem State.setLink_engines (s : State) (l : LinkRef) (x : Link) : (s.setLink l x).engines = s.engines := rfl
@[simp] theorem State.setLink_counts (s : State) (l : LinkRef) (x : Link) : (s.setLink l x).counts = s.counts := rfl
@[simp] theorem State.setLink_remaps (s : State) (l : LinkRef) (x : Link) : (s.setLink l x).remaps = s.remaps := rfl
@[simp] theorem State.setLink_nextRemaps (s : State) (l : LinkRef) (x : Link) : (s.setLink l x).nextRemaps = s.nextRemaps := rfl
@[simp] theorem State.setLink_gates (s : State) (l : LinkRef) (x : Link) : (s.setLink l x).gates = s.gates := rfl
@[simp] theorem State.setLink_clusterCounts (s : State) (l : LinkRef) (x : Link) : (s.setLink l x).clusterCounts = s.clusterCounts := rfl
@[simp] theorem State.setLink_stackCounts (s : State) (l : LinkRef) (x : Link) : (s.setLink l x).stackCounts = s.stackCounts := rfl
@[simp] theorem State.setLink_lanes (s : State) (l : LinkRef) (x : Link) : (s.setLink l x).lanes = s.lanes := rfl
@[simp] theorem State.setLink_picks (s : State) (l : LinkRef) (x : Link) : (s.setLink l x).picks = s.picks := rfl
@[simp] theorem State.setLink_windows (s : State) (l : LinkRef) (x : Link) : (s.setLink l x).windows = s.windows := rfl
@[simp] theorem State.setLink_stipples (s : State) (l : LinkRef) (x : Link) : (s.setLink l x).stipples = s.stipples := rfl
@[simp] theorem State.setLink_busy (s : State) (l : LinkRef) (x : Link) : (s.setLink l x).busy = s.busy := rfl
@[simp] theorem State.setLink_nextIssue (s : State) (l : LinkRef) (x : Link) : (s.setLink l x).nextIssue = s.nextIssue := rfl
@[simp] theorem State.setLink_taken (s : State) (l : LinkRef) (x : Link) : (s.setLink l x).taken = s.taken := rfl
@[simp] theorem State.setLink_clock (s : State) (l : LinkRef) (x : Link) : (s.setLink l x).clock = s.clock := rfl
@[simp] theorem State.setLink_works (s : State) (l : LinkRef) (x : Link) : (s.setLink l x).works = s.works := rfl
@[simp] theorem State.setLink_writes (s : State) (l : LinkRef) (x : Link) : (s.setLink l x).writes = s.writes := rfl
@[simp] theorem State.setLink_deferred (s : State) (l : LinkRef) (x : Link) : (s.setLink l x).deferred = s.deferred := rfl
@[simp] theorem State.setLink_tailEvents (s : State) (l : LinkRef) (x : Link) : (s.setLink l x).tailEvents = s.tailEvents := rfl
@[simp] theorem State.setLink_reports (s : State) (l : LinkRef) (x : Link) : (s.setLink l x).reports = s.reports := rfl
@[simp] theorem State.setLink_partials (s : State) (l : LinkRef) (x : Link) : (s.setLink l x).partials = s.partials := rfl
@[simp] theorem State.setLink_charges (s : State) (l : LinkRef) (x : Link) : (s.setLink l x).charges = s.charges := rfl
@[simp] theorem State.setLink_norm (s : State) (l : LinkRef) (x : Link) : (s.setLink l x).norm = s.norm := rfl
@[simp] theorem State.setLink_clip (s : State) (l : LinkRef) (x : Link) : (s.setLink l x).clip = s.clip := rfl
@[simp] theorem State.setLink_segE (s : State) (l : LinkRef) (x : Link) : (s.setLink l x).segE = s.segE := rfl
@[simp] theorem State.setLink_segMax (s : State) (l : LinkRef) (x : Link) : (s.setLink l x).segMax = s.segMax := rfl
@[simp] theorem State.setLink_markUpdates (s : State) (l : LinkRef) (x : Link) : (s.setLink l x).markUpdates = s.markUpdates := rfl
@[simp] theorem State.setLink_remoteMarks (s : State) (l : LinkRef) (x : Link) : (s.setLink l x).remoteMarks = s.remoteMarks := rfl
@[simp] theorem State.setLink_marks (s : State) (l : LinkRef) (x : Link) : (s.setLink l x).marks = s.marks := rfl
@[simp] theorem State.setLink_watches (s : State) (l : LinkRef) (x : Link) : (s.setLink l x).watches = s.watches := rfl
@[simp] theorem State.setLink_seq (s : State) (l : LinkRef) (x : Link) : (s.setLink l x).seq = s.seq := rfl
@[simp] theorem State.setLink_recvs (s : State) (l : LinkRef) (x : Link) : (s.setLink l x).recvs = s.recvs := rfl
@[simp] theorem State.setLink_ports (s : State) (l : LinkRef) (x : Link) : (s.setLink l x).ports = s.ports := rfl
@[simp] theorem State.setLink_seam (s : State) (l : LinkRef) (x : Link) : (s.setLink l x).seam = s.seam := rfl
@[simp] theorem State.setLink_seamRetraining (s : State) (l : LinkRef) (x : Link) : (s.setLink l x).seamRetraining = s.seamRetraining := rfl
@[simp] theorem State.setLink_sourceSeq (s : State) (l : LinkRef) (x : Link) : (s.setLink l x).sourceSeq = s.sourceSeq := rfl
@[simp] theorem State.setLink_opened (s : State) (l : LinkRef) (x : Link) : (s.setLink l x).opened = s.opened := rfl
@[simp] theorem State.setLink_closed (s : State) (l : LinkRef) (x : Link) : (s.setLink l x).closed = s.closed := rfl
@[simp] theorem State.setLink_written (s : State) (l : LinkRef) (x : Link) : (s.setLink l x).written = s.written := rfl
@[simp] theorem State.setLink_rings (s : State) (l : LinkRef) (x : Link) : (s.setLink l x).rings = s.rings := rfl
@[simp] theorem State.setLink_msix (s : State) (l : LinkRef) (x : Link) : (s.setLink l x).msix = s.msix := rfl
@[simp] theorem State.setLink_msixPending (s : State) (l : LinkRef) (x : Link) : (s.setLink l x).msixPending = s.msixPending := rfl
@[simp] theorem State.setLink_gauges (s : State) (l : LinkRef) (x : Link) : (s.setLink l x).gauges = s.gauges := rfl
@[simp] theorem State.setLink_regs (s : State) (l : LinkRef) (x : Link) : (s.setLink l x).regs = s.regs := rfl
@[simp] theorem State.setLink_edition (s : State) (l : LinkRef) (x : Link) : (s.setLink l x).edition = s.edition := rfl
@[simp] theorem State.setLink_grain (s : State) (l : LinkRef) (x : Link) : (s.setLink l x).grain = s.grain := rfl
@[simp] theorem State.setLink_sec (s : State) (l : LinkRef) (x : Link) : (s.setLink l x).sec = s.sec := rfl
@[simp] theorem State.setLink_mss (s : State) (l : LinkRef) (x : Link) : (s.setLink l x).mss = s.mss := rfl
@[simp] theorem State.setLink_boot (s : State) (l : LinkRef) (x : Link) : (s.setLink l x).boot = s.boot := rfl
@[simp] theorem State.setLink_freeCount (s : State) (l : LinkRef) (x : Link) : (s.setLink l x).freeCount = s.freeCount := rfl

/-! ### State.setStipple -/

@[simp] theorem State.setStipple_pending (s : State) (c : ClusterLoc) (x : Stipple) : (s.setStipple c x).pending = s.pending := rfl
@[simp] theorem State.setStipple_boardTime (s : State) (c : ClusterLoc) (x : Stipple) : (s.setStipple c x).boardTime = s.boardTime := rfl
@[simp] theorem State.setStipple_timeValid (s : State) (c : ClusterLoc) (x : Stipple) : (s.setStipple c x).timeValid = s.timeValid := rfl
@[simp] theorem State.setStipple_refclk (s : State) (c : ClusterLoc) (x : Stipple) : (s.setStipple c x).refclk = s.refclk := rfl
@[simp] theorem State.setStipple_syncEnds (s : State) (c : ClusterLoc) (x : Stipple) : (s.setStipple c x).syncEnds = s.syncEnds := rfl
@[simp] theorem State.setStipple_mem (s : State) (c : ClusterLoc) (x : Stipple) : (s.setStipple c x).mem = s.mem := rfl
@[simp] theorem State.setStipple_engines (s : State) (c : ClusterLoc) (x : Stipple) : (s.setStipple c x).engines = s.engines := rfl
@[simp] theorem State.setStipple_counts (s : State) (c : ClusterLoc) (x : Stipple) : (s.setStipple c x).counts = s.counts := rfl
@[simp] theorem State.setStipple_remaps (s : State) (c : ClusterLoc) (x : Stipple) : (s.setStipple c x).remaps = s.remaps := rfl
@[simp] theorem State.setStipple_nextRemaps (s : State) (c : ClusterLoc) (x : Stipple) : (s.setStipple c x).nextRemaps = s.nextRemaps := rfl
@[simp] theorem State.setStipple_gates (s : State) (c : ClusterLoc) (x : Stipple) : (s.setStipple c x).gates = s.gates := rfl
@[simp] theorem State.setStipple_clusterCounts (s : State) (c : ClusterLoc) (x : Stipple) : (s.setStipple c x).clusterCounts = s.clusterCounts := rfl
@[simp] theorem State.setStipple_stackCounts (s : State) (c : ClusterLoc) (x : Stipple) : (s.setStipple c x).stackCounts = s.stackCounts := rfl
@[simp] theorem State.setStipple_lanes (s : State) (c : ClusterLoc) (x : Stipple) : (s.setStipple c x).lanes = s.lanes := rfl
@[simp] theorem State.setStipple_picks (s : State) (c : ClusterLoc) (x : Stipple) : (s.setStipple c x).picks = s.picks := rfl
@[simp] theorem State.setStipple_windows (s : State) (c : ClusterLoc) (x : Stipple) : (s.setStipple c x).windows = s.windows := rfl
@[simp] theorem State.setStipple_busy (s : State) (c : ClusterLoc) (x : Stipple) : (s.setStipple c x).busy = s.busy := rfl
@[simp] theorem State.setStipple_nextIssue (s : State) (c : ClusterLoc) (x : Stipple) : (s.setStipple c x).nextIssue = s.nextIssue := rfl
@[simp] theorem State.setStipple_taken (s : State) (c : ClusterLoc) (x : Stipple) : (s.setStipple c x).taken = s.taken := rfl
@[simp] theorem State.setStipple_clock (s : State) (c : ClusterLoc) (x : Stipple) : (s.setStipple c x).clock = s.clock := rfl
@[simp] theorem State.setStipple_works (s : State) (c : ClusterLoc) (x : Stipple) : (s.setStipple c x).works = s.works := rfl
@[simp] theorem State.setStipple_writes (s : State) (c : ClusterLoc) (x : Stipple) : (s.setStipple c x).writes = s.writes := rfl
@[simp] theorem State.setStipple_deferred (s : State) (c : ClusterLoc) (x : Stipple) : (s.setStipple c x).deferred = s.deferred := rfl
@[simp] theorem State.setStipple_tailEvents (s : State) (c : ClusterLoc) (x : Stipple) : (s.setStipple c x).tailEvents = s.tailEvents := rfl
@[simp] theorem State.setStipple_reports (s : State) (c : ClusterLoc) (x : Stipple) : (s.setStipple c x).reports = s.reports := rfl
@[simp] theorem State.setStipple_partials (s : State) (c : ClusterLoc) (x : Stipple) : (s.setStipple c x).partials = s.partials := rfl
@[simp] theorem State.setStipple_charges (s : State) (c : ClusterLoc) (x : Stipple) : (s.setStipple c x).charges = s.charges := rfl
@[simp] theorem State.setStipple_norm (s : State) (c : ClusterLoc) (x : Stipple) : (s.setStipple c x).norm = s.norm := rfl
@[simp] theorem State.setStipple_clip (s : State) (c : ClusterLoc) (x : Stipple) : (s.setStipple c x).clip = s.clip := rfl
@[simp] theorem State.setStipple_segE (s : State) (c : ClusterLoc) (x : Stipple) : (s.setStipple c x).segE = s.segE := rfl
@[simp] theorem State.setStipple_segMax (s : State) (c : ClusterLoc) (x : Stipple) : (s.setStipple c x).segMax = s.segMax := rfl
@[simp] theorem State.setStipple_markUpdates (s : State) (c : ClusterLoc) (x : Stipple) : (s.setStipple c x).markUpdates = s.markUpdates := rfl
@[simp] theorem State.setStipple_remoteMarks (s : State) (c : ClusterLoc) (x : Stipple) : (s.setStipple c x).remoteMarks = s.remoteMarks := rfl
@[simp] theorem State.setStipple_marks (s : State) (c : ClusterLoc) (x : Stipple) : (s.setStipple c x).marks = s.marks := rfl
@[simp] theorem State.setStipple_watches (s : State) (c : ClusterLoc) (x : Stipple) : (s.setStipple c x).watches = s.watches := rfl
@[simp] theorem State.setStipple_seq (s : State) (c : ClusterLoc) (x : Stipple) : (s.setStipple c x).seq = s.seq := rfl
@[simp] theorem State.setStipple_links (s : State) (c : ClusterLoc) (x : Stipple) : (s.setStipple c x).links = s.links := rfl
@[simp] theorem State.setStipple_recvs (s : State) (c : ClusterLoc) (x : Stipple) : (s.setStipple c x).recvs = s.recvs := rfl
@[simp] theorem State.setStipple_ports (s : State) (c : ClusterLoc) (x : Stipple) : (s.setStipple c x).ports = s.ports := rfl
@[simp] theorem State.setStipple_seam (s : State) (c : ClusterLoc) (x : Stipple) : (s.setStipple c x).seam = s.seam := rfl
@[simp] theorem State.setStipple_seamRetraining (s : State) (c : ClusterLoc) (x : Stipple) : (s.setStipple c x).seamRetraining = s.seamRetraining := rfl
@[simp] theorem State.setStipple_sourceSeq (s : State) (c : ClusterLoc) (x : Stipple) : (s.setStipple c x).sourceSeq = s.sourceSeq := rfl
@[simp] theorem State.setStipple_opened (s : State) (c : ClusterLoc) (x : Stipple) : (s.setStipple c x).opened = s.opened := rfl
@[simp] theorem State.setStipple_closed (s : State) (c : ClusterLoc) (x : Stipple) : (s.setStipple c x).closed = s.closed := rfl
@[simp] theorem State.setStipple_written (s : State) (c : ClusterLoc) (x : Stipple) : (s.setStipple c x).written = s.written := rfl
@[simp] theorem State.setStipple_rings (s : State) (c : ClusterLoc) (x : Stipple) : (s.setStipple c x).rings = s.rings := rfl
@[simp] theorem State.setStipple_msix (s : State) (c : ClusterLoc) (x : Stipple) : (s.setStipple c x).msix = s.msix := rfl
@[simp] theorem State.setStipple_msixPending (s : State) (c : ClusterLoc) (x : Stipple) : (s.setStipple c x).msixPending = s.msixPending := rfl
@[simp] theorem State.setStipple_gauges (s : State) (c : ClusterLoc) (x : Stipple) : (s.setStipple c x).gauges = s.gauges := rfl
@[simp] theorem State.setStipple_regs (s : State) (c : ClusterLoc) (x : Stipple) : (s.setStipple c x).regs = s.regs := rfl
@[simp] theorem State.setStipple_edition (s : State) (c : ClusterLoc) (x : Stipple) : (s.setStipple c x).edition = s.edition := rfl
@[simp] theorem State.setStipple_grain (s : State) (c : ClusterLoc) (x : Stipple) : (s.setStipple c x).grain = s.grain := rfl
@[simp] theorem State.setStipple_sec (s : State) (c : ClusterLoc) (x : Stipple) : (s.setStipple c x).sec = s.sec := rfl
@[simp] theorem State.setStipple_mss (s : State) (c : ClusterLoc) (x : Stipple) : (s.setStipple c x).mss = s.mss := rfl
@[simp] theorem State.setStipple_boot (s : State) (c : ClusterLoc) (x : Stipple) : (s.setStipple c x).boot = s.boot := rfl
@[simp] theorem State.setStipple_freeCount (s : State) (c : ClusterLoc) (x : Stipple) : (s.setStipple c x).freeCount = s.freeCount := rfl

/-! ### State.setBusy -/

@[simp] theorem State.setBusy_pending (s : State) (c n : Nat) : (s.setBusy c n).pending = s.pending := rfl
@[simp] theorem State.setBusy_boardTime (s : State) (c n : Nat) : (s.setBusy c n).boardTime = s.boardTime := rfl
@[simp] theorem State.setBusy_timeValid (s : State) (c n : Nat) : (s.setBusy c n).timeValid = s.timeValid := rfl
@[simp] theorem State.setBusy_refclk (s : State) (c n : Nat) : (s.setBusy c n).refclk = s.refclk := rfl
@[simp] theorem State.setBusy_syncEnds (s : State) (c n : Nat) : (s.setBusy c n).syncEnds = s.syncEnds := rfl
@[simp] theorem State.setBusy_mem (s : State) (c n : Nat) : (s.setBusy c n).mem = s.mem := rfl
@[simp] theorem State.setBusy_engines (s : State) (c n : Nat) : (s.setBusy c n).engines = s.engines := rfl
@[simp] theorem State.setBusy_counts (s : State) (c n : Nat) : (s.setBusy c n).counts = s.counts := rfl
@[simp] theorem State.setBusy_remaps (s : State) (c n : Nat) : (s.setBusy c n).remaps = s.remaps := rfl
@[simp] theorem State.setBusy_nextRemaps (s : State) (c n : Nat) : (s.setBusy c n).nextRemaps = s.nextRemaps := rfl
@[simp] theorem State.setBusy_gates (s : State) (c n : Nat) : (s.setBusy c n).gates = s.gates := rfl
@[simp] theorem State.setBusy_clusterCounts (s : State) (c n : Nat) : (s.setBusy c n).clusterCounts = s.clusterCounts := rfl
@[simp] theorem State.setBusy_stackCounts (s : State) (c n : Nat) : (s.setBusy c n).stackCounts = s.stackCounts := rfl
@[simp] theorem State.setBusy_lanes (s : State) (c n : Nat) : (s.setBusy c n).lanes = s.lanes := rfl
@[simp] theorem State.setBusy_picks (s : State) (c n : Nat) : (s.setBusy c n).picks = s.picks := rfl
@[simp] theorem State.setBusy_windows (s : State) (c n : Nat) : (s.setBusy c n).windows = s.windows := rfl
@[simp] theorem State.setBusy_stipples (s : State) (c n : Nat) : (s.setBusy c n).stipples = s.stipples := rfl
@[simp] theorem State.setBusy_nextIssue (s : State) (c n : Nat) : (s.setBusy c n).nextIssue = s.nextIssue := rfl
@[simp] theorem State.setBusy_taken (s : State) (c n : Nat) : (s.setBusy c n).taken = s.taken := rfl
@[simp] theorem State.setBusy_clock (s : State) (c n : Nat) : (s.setBusy c n).clock = s.clock := rfl
@[simp] theorem State.setBusy_works (s : State) (c n : Nat) : (s.setBusy c n).works = s.works := rfl
@[simp] theorem State.setBusy_writes (s : State) (c n : Nat) : (s.setBusy c n).writes = s.writes := rfl
@[simp] theorem State.setBusy_deferred (s : State) (c n : Nat) : (s.setBusy c n).deferred = s.deferred := rfl
@[simp] theorem State.setBusy_tailEvents (s : State) (c n : Nat) : (s.setBusy c n).tailEvents = s.tailEvents := rfl
@[simp] theorem State.setBusy_reports (s : State) (c n : Nat) : (s.setBusy c n).reports = s.reports := rfl
@[simp] theorem State.setBusy_partials (s : State) (c n : Nat) : (s.setBusy c n).partials = s.partials := rfl
@[simp] theorem State.setBusy_charges (s : State) (c n : Nat) : (s.setBusy c n).charges = s.charges := rfl
@[simp] theorem State.setBusy_norm (s : State) (c n : Nat) : (s.setBusy c n).norm = s.norm := rfl
@[simp] theorem State.setBusy_clip (s : State) (c n : Nat) : (s.setBusy c n).clip = s.clip := rfl
@[simp] theorem State.setBusy_segE (s : State) (c n : Nat) : (s.setBusy c n).segE = s.segE := rfl
@[simp] theorem State.setBusy_segMax (s : State) (c n : Nat) : (s.setBusy c n).segMax = s.segMax := rfl
@[simp] theorem State.setBusy_markUpdates (s : State) (c n : Nat) : (s.setBusy c n).markUpdates = s.markUpdates := rfl
@[simp] theorem State.setBusy_remoteMarks (s : State) (c n : Nat) : (s.setBusy c n).remoteMarks = s.remoteMarks := rfl
@[simp] theorem State.setBusy_marks (s : State) (c n : Nat) : (s.setBusy c n).marks = s.marks := rfl
@[simp] theorem State.setBusy_watches (s : State) (c n : Nat) : (s.setBusy c n).watches = s.watches := rfl
@[simp] theorem State.setBusy_seq (s : State) (c n : Nat) : (s.setBusy c n).seq = s.seq := rfl
@[simp] theorem State.setBusy_links (s : State) (c n : Nat) : (s.setBusy c n).links = s.links := rfl
@[simp] theorem State.setBusy_recvs (s : State) (c n : Nat) : (s.setBusy c n).recvs = s.recvs := rfl
@[simp] theorem State.setBusy_ports (s : State) (c n : Nat) : (s.setBusy c n).ports = s.ports := rfl
@[simp] theorem State.setBusy_seam (s : State) (c n : Nat) : (s.setBusy c n).seam = s.seam := rfl
@[simp] theorem State.setBusy_seamRetraining (s : State) (c n : Nat) : (s.setBusy c n).seamRetraining = s.seamRetraining := rfl
@[simp] theorem State.setBusy_sourceSeq (s : State) (c n : Nat) : (s.setBusy c n).sourceSeq = s.sourceSeq := rfl
@[simp] theorem State.setBusy_opened (s : State) (c n : Nat) : (s.setBusy c n).opened = s.opened := rfl
@[simp] theorem State.setBusy_closed (s : State) (c n : Nat) : (s.setBusy c n).closed = s.closed := rfl
@[simp] theorem State.setBusy_written (s : State) (c n : Nat) : (s.setBusy c n).written = s.written := rfl
@[simp] theorem State.setBusy_rings (s : State) (c n : Nat) : (s.setBusy c n).rings = s.rings := rfl
@[simp] theorem State.setBusy_msix (s : State) (c n : Nat) : (s.setBusy c n).msix = s.msix := rfl
@[simp] theorem State.setBusy_msixPending (s : State) (c n : Nat) : (s.setBusy c n).msixPending = s.msixPending := rfl
@[simp] theorem State.setBusy_gauges (s : State) (c n : Nat) : (s.setBusy c n).gauges = s.gauges := rfl
@[simp] theorem State.setBusy_regs (s : State) (c n : Nat) : (s.setBusy c n).regs = s.regs := rfl
@[simp] theorem State.setBusy_edition (s : State) (c n : Nat) : (s.setBusy c n).edition = s.edition := rfl
@[simp] theorem State.setBusy_grain (s : State) (c n : Nat) : (s.setBusy c n).grain = s.grain := rfl
@[simp] theorem State.setBusy_sec (s : State) (c n : Nat) : (s.setBusy c n).sec = s.sec := rfl
@[simp] theorem State.setBusy_mss (s : State) (c n : Nat) : (s.setBusy c n).mss = s.mss := rfl
@[simp] theorem State.setBusy_boot (s : State) (c n : Nat) : (s.setBusy c n).boot = s.boot := rfl
@[simp] theorem State.setBusy_freeCount (s : State) (c n : Nat) : (s.setBusy c n).freeCount = s.freeCount := rfl

/-! ### State.setWatch -/

@[simp] theorem State.setWatch_pending (s : State) (n : Nat) (x : Watch) : (s.setWatch n x).pending = s.pending := rfl
@[simp] theorem State.setWatch_boardTime (s : State) (n : Nat) (x : Watch) : (s.setWatch n x).boardTime = s.boardTime := rfl
@[simp] theorem State.setWatch_timeValid (s : State) (n : Nat) (x : Watch) : (s.setWatch n x).timeValid = s.timeValid := rfl
@[simp] theorem State.setWatch_refclk (s : State) (n : Nat) (x : Watch) : (s.setWatch n x).refclk = s.refclk := rfl
@[simp] theorem State.setWatch_syncEnds (s : State) (n : Nat) (x : Watch) : (s.setWatch n x).syncEnds = s.syncEnds := rfl
@[simp] theorem State.setWatch_mem (s : State) (n : Nat) (x : Watch) : (s.setWatch n x).mem = s.mem := rfl
@[simp] theorem State.setWatch_engines (s : State) (n : Nat) (x : Watch) : (s.setWatch n x).engines = s.engines := rfl
@[simp] theorem State.setWatch_counts (s : State) (n : Nat) (x : Watch) : (s.setWatch n x).counts = s.counts := rfl
@[simp] theorem State.setWatch_remaps (s : State) (n : Nat) (x : Watch) : (s.setWatch n x).remaps = s.remaps := rfl
@[simp] theorem State.setWatch_nextRemaps (s : State) (n : Nat) (x : Watch) : (s.setWatch n x).nextRemaps = s.nextRemaps := rfl
@[simp] theorem State.setWatch_gates (s : State) (n : Nat) (x : Watch) : (s.setWatch n x).gates = s.gates := rfl
@[simp] theorem State.setWatch_clusterCounts (s : State) (n : Nat) (x : Watch) : (s.setWatch n x).clusterCounts = s.clusterCounts := rfl
@[simp] theorem State.setWatch_stackCounts (s : State) (n : Nat) (x : Watch) : (s.setWatch n x).stackCounts = s.stackCounts := rfl
@[simp] theorem State.setWatch_lanes (s : State) (n : Nat) (x : Watch) : (s.setWatch n x).lanes = s.lanes := rfl
@[simp] theorem State.setWatch_picks (s : State) (n : Nat) (x : Watch) : (s.setWatch n x).picks = s.picks := rfl
@[simp] theorem State.setWatch_windows (s : State) (n : Nat) (x : Watch) : (s.setWatch n x).windows = s.windows := rfl
@[simp] theorem State.setWatch_stipples (s : State) (n : Nat) (x : Watch) : (s.setWatch n x).stipples = s.stipples := rfl
@[simp] theorem State.setWatch_busy (s : State) (n : Nat) (x : Watch) : (s.setWatch n x).busy = s.busy := rfl
@[simp] theorem State.setWatch_nextIssue (s : State) (n : Nat) (x : Watch) : (s.setWatch n x).nextIssue = s.nextIssue := rfl
@[simp] theorem State.setWatch_taken (s : State) (n : Nat) (x : Watch) : (s.setWatch n x).taken = s.taken := rfl
@[simp] theorem State.setWatch_clock (s : State) (n : Nat) (x : Watch) : (s.setWatch n x).clock = s.clock := rfl
@[simp] theorem State.setWatch_works (s : State) (n : Nat) (x : Watch) : (s.setWatch n x).works = s.works := rfl
@[simp] theorem State.setWatch_writes (s : State) (n : Nat) (x : Watch) : (s.setWatch n x).writes = s.writes := rfl
@[simp] theorem State.setWatch_deferred (s : State) (n : Nat) (x : Watch) : (s.setWatch n x).deferred = s.deferred := rfl
@[simp] theorem State.setWatch_tailEvents (s : State) (n : Nat) (x : Watch) : (s.setWatch n x).tailEvents = s.tailEvents := rfl
@[simp] theorem State.setWatch_reports (s : State) (n : Nat) (x : Watch) : (s.setWatch n x).reports = s.reports := rfl
@[simp] theorem State.setWatch_partials (s : State) (n : Nat) (x : Watch) : (s.setWatch n x).partials = s.partials := rfl
@[simp] theorem State.setWatch_charges (s : State) (n : Nat) (x : Watch) : (s.setWatch n x).charges = s.charges := rfl
@[simp] theorem State.setWatch_norm (s : State) (n : Nat) (x : Watch) : (s.setWatch n x).norm = s.norm := rfl
@[simp] theorem State.setWatch_clip (s : State) (n : Nat) (x : Watch) : (s.setWatch n x).clip = s.clip := rfl
@[simp] theorem State.setWatch_segE (s : State) (n : Nat) (x : Watch) : (s.setWatch n x).segE = s.segE := rfl
@[simp] theorem State.setWatch_segMax (s : State) (n : Nat) (x : Watch) : (s.setWatch n x).segMax = s.segMax := rfl
@[simp] theorem State.setWatch_markUpdates (s : State) (n : Nat) (x : Watch) : (s.setWatch n x).markUpdates = s.markUpdates := rfl
@[simp] theorem State.setWatch_remoteMarks (s : State) (n : Nat) (x : Watch) : (s.setWatch n x).remoteMarks = s.remoteMarks := rfl
@[simp] theorem State.setWatch_marks (s : State) (n : Nat) (x : Watch) : (s.setWatch n x).marks = s.marks := rfl
@[simp] theorem State.setWatch_seq (s : State) (n : Nat) (x : Watch) : (s.setWatch n x).seq = s.seq := rfl
@[simp] theorem State.setWatch_links (s : State) (n : Nat) (x : Watch) : (s.setWatch n x).links = s.links := rfl
@[simp] theorem State.setWatch_recvs (s : State) (n : Nat) (x : Watch) : (s.setWatch n x).recvs = s.recvs := rfl
@[simp] theorem State.setWatch_ports (s : State) (n : Nat) (x : Watch) : (s.setWatch n x).ports = s.ports := rfl
@[simp] theorem State.setWatch_seam (s : State) (n : Nat) (x : Watch) : (s.setWatch n x).seam = s.seam := rfl
@[simp] theorem State.setWatch_seamRetraining (s : State) (n : Nat) (x : Watch) : (s.setWatch n x).seamRetraining = s.seamRetraining := rfl
@[simp] theorem State.setWatch_sourceSeq (s : State) (n : Nat) (x : Watch) : (s.setWatch n x).sourceSeq = s.sourceSeq := rfl
@[simp] theorem State.setWatch_opened (s : State) (n : Nat) (x : Watch) : (s.setWatch n x).opened = s.opened := rfl
@[simp] theorem State.setWatch_closed (s : State) (n : Nat) (x : Watch) : (s.setWatch n x).closed = s.closed := rfl
@[simp] theorem State.setWatch_written (s : State) (n : Nat) (x : Watch) : (s.setWatch n x).written = s.written := rfl
@[simp] theorem State.setWatch_rings (s : State) (n : Nat) (x : Watch) : (s.setWatch n x).rings = s.rings := rfl
@[simp] theorem State.setWatch_msix (s : State) (n : Nat) (x : Watch) : (s.setWatch n x).msix = s.msix := rfl
@[simp] theorem State.setWatch_msixPending (s : State) (n : Nat) (x : Watch) : (s.setWatch n x).msixPending = s.msixPending := rfl
@[simp] theorem State.setWatch_gauges (s : State) (n : Nat) (x : Watch) : (s.setWatch n x).gauges = s.gauges := rfl
@[simp] theorem State.setWatch_regs (s : State) (n : Nat) (x : Watch) : (s.setWatch n x).regs = s.regs := rfl
@[simp] theorem State.setWatch_edition (s : State) (n : Nat) (x : Watch) : (s.setWatch n x).edition = s.edition := rfl
@[simp] theorem State.setWatch_grain (s : State) (n : Nat) (x : Watch) : (s.setWatch n x).grain = s.grain := rfl
@[simp] theorem State.setWatch_sec (s : State) (n : Nat) (x : Watch) : (s.setWatch n x).sec = s.sec := rfl
@[simp] theorem State.setWatch_mss (s : State) (n : Nat) (x : Watch) : (s.setWatch n x).mss = s.mss := rfl
@[simp] theorem State.setWatch_boot (s : State) (n : Nat) (x : Watch) : (s.setWatch n x).boot = s.boot := rfl
@[simp] theorem State.setWatch_freeCount (s : State) (n : Nat) (x : Watch) : (s.setWatch n x).freeCount = s.freeCount := rfl

/-! ### State.setSensor -/

@[simp] theorem State.setSensor_pending (s : State) (n : Nat) (x : Sensor) : (s.setSensor n x).pending = s.pending := rfl
@[simp] theorem State.setSensor_boardTime (s : State) (n : Nat) (x : Sensor) : (s.setSensor n x).boardTime = s.boardTime := rfl
@[simp] theorem State.setSensor_timeValid (s : State) (n : Nat) (x : Sensor) : (s.setSensor n x).timeValid = s.timeValid := rfl
@[simp] theorem State.setSensor_refclk (s : State) (n : Nat) (x : Sensor) : (s.setSensor n x).refclk = s.refclk := rfl
@[simp] theorem State.setSensor_syncEnds (s : State) (n : Nat) (x : Sensor) : (s.setSensor n x).syncEnds = s.syncEnds := rfl
@[simp] theorem State.setSensor_mem (s : State) (n : Nat) (x : Sensor) : (s.setSensor n x).mem = s.mem := rfl
@[simp] theorem State.setSensor_engines (s : State) (n : Nat) (x : Sensor) : (s.setSensor n x).engines = s.engines := rfl
@[simp] theorem State.setSensor_counts (s : State) (n : Nat) (x : Sensor) : (s.setSensor n x).counts = s.counts := rfl
@[simp] theorem State.setSensor_remaps (s : State) (n : Nat) (x : Sensor) : (s.setSensor n x).remaps = s.remaps := rfl
@[simp] theorem State.setSensor_nextRemaps (s : State) (n : Nat) (x : Sensor) : (s.setSensor n x).nextRemaps = s.nextRemaps := rfl
@[simp] theorem State.setSensor_gates (s : State) (n : Nat) (x : Sensor) : (s.setSensor n x).gates = s.gates := rfl
@[simp] theorem State.setSensor_clusterCounts (s : State) (n : Nat) (x : Sensor) : (s.setSensor n x).clusterCounts = s.clusterCounts := rfl
@[simp] theorem State.setSensor_stackCounts (s : State) (n : Nat) (x : Sensor) : (s.setSensor n x).stackCounts = s.stackCounts := rfl
@[simp] theorem State.setSensor_lanes (s : State) (n : Nat) (x : Sensor) : (s.setSensor n x).lanes = s.lanes := rfl
@[simp] theorem State.setSensor_picks (s : State) (n : Nat) (x : Sensor) : (s.setSensor n x).picks = s.picks := rfl
@[simp] theorem State.setSensor_windows (s : State) (n : Nat) (x : Sensor) : (s.setSensor n x).windows = s.windows := rfl
@[simp] theorem State.setSensor_stipples (s : State) (n : Nat) (x : Sensor) : (s.setSensor n x).stipples = s.stipples := rfl
@[simp] theorem State.setSensor_busy (s : State) (n : Nat) (x : Sensor) : (s.setSensor n x).busy = s.busy := rfl
@[simp] theorem State.setSensor_nextIssue (s : State) (n : Nat) (x : Sensor) : (s.setSensor n x).nextIssue = s.nextIssue := rfl
@[simp] theorem State.setSensor_taken (s : State) (n : Nat) (x : Sensor) : (s.setSensor n x).taken = s.taken := rfl
@[simp] theorem State.setSensor_clock (s : State) (n : Nat) (x : Sensor) : (s.setSensor n x).clock = s.clock := rfl
@[simp] theorem State.setSensor_works (s : State) (n : Nat) (x : Sensor) : (s.setSensor n x).works = s.works := rfl
@[simp] theorem State.setSensor_writes (s : State) (n : Nat) (x : Sensor) : (s.setSensor n x).writes = s.writes := rfl
@[simp] theorem State.setSensor_deferred (s : State) (n : Nat) (x : Sensor) : (s.setSensor n x).deferred = s.deferred := rfl
@[simp] theorem State.setSensor_tailEvents (s : State) (n : Nat) (x : Sensor) : (s.setSensor n x).tailEvents = s.tailEvents := rfl
@[simp] theorem State.setSensor_reports (s : State) (n : Nat) (x : Sensor) : (s.setSensor n x).reports = s.reports := rfl
@[simp] theorem State.setSensor_partials (s : State) (n : Nat) (x : Sensor) : (s.setSensor n x).partials = s.partials := rfl
@[simp] theorem State.setSensor_charges (s : State) (n : Nat) (x : Sensor) : (s.setSensor n x).charges = s.charges := rfl
@[simp] theorem State.setSensor_norm (s : State) (n : Nat) (x : Sensor) : (s.setSensor n x).norm = s.norm := rfl
@[simp] theorem State.setSensor_clip (s : State) (n : Nat) (x : Sensor) : (s.setSensor n x).clip = s.clip := rfl
@[simp] theorem State.setSensor_segE (s : State) (n : Nat) (x : Sensor) : (s.setSensor n x).segE = s.segE := rfl
@[simp] theorem State.setSensor_segMax (s : State) (n : Nat) (x : Sensor) : (s.setSensor n x).segMax = s.segMax := rfl
@[simp] theorem State.setSensor_markUpdates (s : State) (n : Nat) (x : Sensor) : (s.setSensor n x).markUpdates = s.markUpdates := rfl
@[simp] theorem State.setSensor_remoteMarks (s : State) (n : Nat) (x : Sensor) : (s.setSensor n x).remoteMarks = s.remoteMarks := rfl
@[simp] theorem State.setSensor_marks (s : State) (n : Nat) (x : Sensor) : (s.setSensor n x).marks = s.marks := rfl
@[simp] theorem State.setSensor_watches (s : State) (n : Nat) (x : Sensor) : (s.setSensor n x).watches = s.watches := rfl
@[simp] theorem State.setSensor_seq (s : State) (n : Nat) (x : Sensor) : (s.setSensor n x).seq = s.seq := rfl
@[simp] theorem State.setSensor_links (s : State) (n : Nat) (x : Sensor) : (s.setSensor n x).links = s.links := rfl
@[simp] theorem State.setSensor_recvs (s : State) (n : Nat) (x : Sensor) : (s.setSensor n x).recvs = s.recvs := rfl
@[simp] theorem State.setSensor_ports (s : State) (n : Nat) (x : Sensor) : (s.setSensor n x).ports = s.ports := rfl
@[simp] theorem State.setSensor_seam (s : State) (n : Nat) (x : Sensor) : (s.setSensor n x).seam = s.seam := rfl
@[simp] theorem State.setSensor_seamRetraining (s : State) (n : Nat) (x : Sensor) : (s.setSensor n x).seamRetraining = s.seamRetraining := rfl
@[simp] theorem State.setSensor_sourceSeq (s : State) (n : Nat) (x : Sensor) : (s.setSensor n x).sourceSeq = s.sourceSeq := rfl
@[simp] theorem State.setSensor_opened (s : State) (n : Nat) (x : Sensor) : (s.setSensor n x).opened = s.opened := rfl
@[simp] theorem State.setSensor_closed (s : State) (n : Nat) (x : Sensor) : (s.setSensor n x).closed = s.closed := rfl
@[simp] theorem State.setSensor_written (s : State) (n : Nat) (x : Sensor) : (s.setSensor n x).written = s.written := rfl
@[simp] theorem State.setSensor_rings (s : State) (n : Nat) (x : Sensor) : (s.setSensor n x).rings = s.rings := rfl
@[simp] theorem State.setSensor_msix (s : State) (n : Nat) (x : Sensor) : (s.setSensor n x).msix = s.msix := rfl
@[simp] theorem State.setSensor_msixPending (s : State) (n : Nat) (x : Sensor) : (s.setSensor n x).msixPending = s.msixPending := rfl
@[simp] theorem State.setSensor_gauges (s : State) (n : Nat) (x : Sensor) : (s.setSensor n x).gauges = s.gauges := rfl
@[simp] theorem State.setSensor_regs (s : State) (n : Nat) (x : Sensor) : (s.setSensor n x).regs = s.regs := rfl
@[simp] theorem State.setSensor_edition (s : State) (n : Nat) (x : Sensor) : (s.setSensor n x).edition = s.edition := rfl
@[simp] theorem State.setSensor_grain (s : State) (n : Nat) (x : Sensor) : (s.setSensor n x).grain = s.grain := rfl
@[simp] theorem State.setSensor_sec (s : State) (n : Nat) (x : Sensor) : (s.setSensor n x).sec = s.sec := rfl
@[simp] theorem State.setSensor_boot (s : State) (n : Nat) (x : Sensor) : (s.setSensor n x).boot = s.boot := rfl
@[simp] theorem State.setSensor_freeCount (s : State) (n : Nat) (x : Sensor) : (s.setSensor n x).freeCount = s.freeCount := rfl

/-! ### State.setBand -/

@[simp] theorem State.setBand_pending (s : State) (n : Nat) (x : RefreshBand) : (s.setBand n x).pending = s.pending := rfl
@[simp] theorem State.setBand_boardTime (s : State) (n : Nat) (x : RefreshBand) : (s.setBand n x).boardTime = s.boardTime := rfl
@[simp] theorem State.setBand_timeValid (s : State) (n : Nat) (x : RefreshBand) : (s.setBand n x).timeValid = s.timeValid := rfl
@[simp] theorem State.setBand_refclk (s : State) (n : Nat) (x : RefreshBand) : (s.setBand n x).refclk = s.refclk := rfl
@[simp] theorem State.setBand_syncEnds (s : State) (n : Nat) (x : RefreshBand) : (s.setBand n x).syncEnds = s.syncEnds := rfl
@[simp] theorem State.setBand_mem (s : State) (n : Nat) (x : RefreshBand) : (s.setBand n x).mem = s.mem := rfl
@[simp] theorem State.setBand_engines (s : State) (n : Nat) (x : RefreshBand) : (s.setBand n x).engines = s.engines := rfl
@[simp] theorem State.setBand_counts (s : State) (n : Nat) (x : RefreshBand) : (s.setBand n x).counts = s.counts := rfl
@[simp] theorem State.setBand_remaps (s : State) (n : Nat) (x : RefreshBand) : (s.setBand n x).remaps = s.remaps := rfl
@[simp] theorem State.setBand_nextRemaps (s : State) (n : Nat) (x : RefreshBand) : (s.setBand n x).nextRemaps = s.nextRemaps := rfl
@[simp] theorem State.setBand_gates (s : State) (n : Nat) (x : RefreshBand) : (s.setBand n x).gates = s.gates := rfl
@[simp] theorem State.setBand_clusterCounts (s : State) (n : Nat) (x : RefreshBand) : (s.setBand n x).clusterCounts = s.clusterCounts := rfl
@[simp] theorem State.setBand_stackCounts (s : State) (n : Nat) (x : RefreshBand) : (s.setBand n x).stackCounts = s.stackCounts := rfl
@[simp] theorem State.setBand_lanes (s : State) (n : Nat) (x : RefreshBand) : (s.setBand n x).lanes = s.lanes := rfl
@[simp] theorem State.setBand_picks (s : State) (n : Nat) (x : RefreshBand) : (s.setBand n x).picks = s.picks := rfl
@[simp] theorem State.setBand_windows (s : State) (n : Nat) (x : RefreshBand) : (s.setBand n x).windows = s.windows := rfl
@[simp] theorem State.setBand_stipples (s : State) (n : Nat) (x : RefreshBand) : (s.setBand n x).stipples = s.stipples := rfl
@[simp] theorem State.setBand_busy (s : State) (n : Nat) (x : RefreshBand) : (s.setBand n x).busy = s.busy := rfl
@[simp] theorem State.setBand_nextIssue (s : State) (n : Nat) (x : RefreshBand) : (s.setBand n x).nextIssue = s.nextIssue := rfl
@[simp] theorem State.setBand_taken (s : State) (n : Nat) (x : RefreshBand) : (s.setBand n x).taken = s.taken := rfl
@[simp] theorem State.setBand_clock (s : State) (n : Nat) (x : RefreshBand) : (s.setBand n x).clock = s.clock := rfl
@[simp] theorem State.setBand_works (s : State) (n : Nat) (x : RefreshBand) : (s.setBand n x).works = s.works := rfl
@[simp] theorem State.setBand_writes (s : State) (n : Nat) (x : RefreshBand) : (s.setBand n x).writes = s.writes := rfl
@[simp] theorem State.setBand_deferred (s : State) (n : Nat) (x : RefreshBand) : (s.setBand n x).deferred = s.deferred := rfl
@[simp] theorem State.setBand_tailEvents (s : State) (n : Nat) (x : RefreshBand) : (s.setBand n x).tailEvents = s.tailEvents := rfl
@[simp] theorem State.setBand_reports (s : State) (n : Nat) (x : RefreshBand) : (s.setBand n x).reports = s.reports := rfl
@[simp] theorem State.setBand_partials (s : State) (n : Nat) (x : RefreshBand) : (s.setBand n x).partials = s.partials := rfl
@[simp] theorem State.setBand_charges (s : State) (n : Nat) (x : RefreshBand) : (s.setBand n x).charges = s.charges := rfl
@[simp] theorem State.setBand_norm (s : State) (n : Nat) (x : RefreshBand) : (s.setBand n x).norm = s.norm := rfl
@[simp] theorem State.setBand_clip (s : State) (n : Nat) (x : RefreshBand) : (s.setBand n x).clip = s.clip := rfl
@[simp] theorem State.setBand_segE (s : State) (n : Nat) (x : RefreshBand) : (s.setBand n x).segE = s.segE := rfl
@[simp] theorem State.setBand_segMax (s : State) (n : Nat) (x : RefreshBand) : (s.setBand n x).segMax = s.segMax := rfl
@[simp] theorem State.setBand_markUpdates (s : State) (n : Nat) (x : RefreshBand) : (s.setBand n x).markUpdates = s.markUpdates := rfl
@[simp] theorem State.setBand_remoteMarks (s : State) (n : Nat) (x : RefreshBand) : (s.setBand n x).remoteMarks = s.remoteMarks := rfl
@[simp] theorem State.setBand_marks (s : State) (n : Nat) (x : RefreshBand) : (s.setBand n x).marks = s.marks := rfl
@[simp] theorem State.setBand_watches (s : State) (n : Nat) (x : RefreshBand) : (s.setBand n x).watches = s.watches := rfl
@[simp] theorem State.setBand_seq (s : State) (n : Nat) (x : RefreshBand) : (s.setBand n x).seq = s.seq := rfl
@[simp] theorem State.setBand_links (s : State) (n : Nat) (x : RefreshBand) : (s.setBand n x).links = s.links := rfl
@[simp] theorem State.setBand_recvs (s : State) (n : Nat) (x : RefreshBand) : (s.setBand n x).recvs = s.recvs := rfl
@[simp] theorem State.setBand_ports (s : State) (n : Nat) (x : RefreshBand) : (s.setBand n x).ports = s.ports := rfl
@[simp] theorem State.setBand_seam (s : State) (n : Nat) (x : RefreshBand) : (s.setBand n x).seam = s.seam := rfl
@[simp] theorem State.setBand_seamRetraining (s : State) (n : Nat) (x : RefreshBand) : (s.setBand n x).seamRetraining = s.seamRetraining := rfl
@[simp] theorem State.setBand_sourceSeq (s : State) (n : Nat) (x : RefreshBand) : (s.setBand n x).sourceSeq = s.sourceSeq := rfl
@[simp] theorem State.setBand_opened (s : State) (n : Nat) (x : RefreshBand) : (s.setBand n x).opened = s.opened := rfl
@[simp] theorem State.setBand_closed (s : State) (n : Nat) (x : RefreshBand) : (s.setBand n x).closed = s.closed := rfl
@[simp] theorem State.setBand_written (s : State) (n : Nat) (x : RefreshBand) : (s.setBand n x).written = s.written := rfl
@[simp] theorem State.setBand_rings (s : State) (n : Nat) (x : RefreshBand) : (s.setBand n x).rings = s.rings := rfl
@[simp] theorem State.setBand_msix (s : State) (n : Nat) (x : RefreshBand) : (s.setBand n x).msix = s.msix := rfl
@[simp] theorem State.setBand_msixPending (s : State) (n : Nat) (x : RefreshBand) : (s.setBand n x).msixPending = s.msixPending := rfl
@[simp] theorem State.setBand_gauges (s : State) (n : Nat) (x : RefreshBand) : (s.setBand n x).gauges = s.gauges := rfl
@[simp] theorem State.setBand_regs (s : State) (n : Nat) (x : RefreshBand) : (s.setBand n x).regs = s.regs := rfl
@[simp] theorem State.setBand_edition (s : State) (n : Nat) (x : RefreshBand) : (s.setBand n x).edition = s.edition := rfl
@[simp] theorem State.setBand_grain (s : State) (n : Nat) (x : RefreshBand) : (s.setBand n x).grain = s.grain := rfl
@[simp] theorem State.setBand_sec (s : State) (n : Nat) (x : RefreshBand) : (s.setBand n x).sec = s.sec := rfl
@[simp] theorem State.setBand_boot (s : State) (n : Nat) (x : RefreshBand) : (s.setBand n x).boot = s.boot := rfl
@[simp] theorem State.setBand_freeCount (s : State) (n : Nat) (x : RefreshBand) : (s.setBand n x).freeCount = s.freeCount := rfl

/-! ### State.setIdeKey -/

@[simp] theorem State.setIdeKey_pending (s : State) (n : Nat) (x : IdeKey) : (s.setIdeKey n x).pending = s.pending := rfl
@[simp] theorem State.setIdeKey_boardTime (s : State) (n : Nat) (x : IdeKey) : (s.setIdeKey n x).boardTime = s.boardTime := rfl
@[simp] theorem State.setIdeKey_timeValid (s : State) (n : Nat) (x : IdeKey) : (s.setIdeKey n x).timeValid = s.timeValid := rfl
@[simp] theorem State.setIdeKey_refclk (s : State) (n : Nat) (x : IdeKey) : (s.setIdeKey n x).refclk = s.refclk := rfl
@[simp] theorem State.setIdeKey_syncEnds (s : State) (n : Nat) (x : IdeKey) : (s.setIdeKey n x).syncEnds = s.syncEnds := rfl
@[simp] theorem State.setIdeKey_mem (s : State) (n : Nat) (x : IdeKey) : (s.setIdeKey n x).mem = s.mem := rfl
@[simp] theorem State.setIdeKey_engines (s : State) (n : Nat) (x : IdeKey) : (s.setIdeKey n x).engines = s.engines := rfl
@[simp] theorem State.setIdeKey_counts (s : State) (n : Nat) (x : IdeKey) : (s.setIdeKey n x).counts = s.counts := rfl
@[simp] theorem State.setIdeKey_remaps (s : State) (n : Nat) (x : IdeKey) : (s.setIdeKey n x).remaps = s.remaps := rfl
@[simp] theorem State.setIdeKey_nextRemaps (s : State) (n : Nat) (x : IdeKey) : (s.setIdeKey n x).nextRemaps = s.nextRemaps := rfl
@[simp] theorem State.setIdeKey_gates (s : State) (n : Nat) (x : IdeKey) : (s.setIdeKey n x).gates = s.gates := rfl
@[simp] theorem State.setIdeKey_clusterCounts (s : State) (n : Nat) (x : IdeKey) : (s.setIdeKey n x).clusterCounts = s.clusterCounts := rfl
@[simp] theorem State.setIdeKey_stackCounts (s : State) (n : Nat) (x : IdeKey) : (s.setIdeKey n x).stackCounts = s.stackCounts := rfl
@[simp] theorem State.setIdeKey_lanes (s : State) (n : Nat) (x : IdeKey) : (s.setIdeKey n x).lanes = s.lanes := rfl
@[simp] theorem State.setIdeKey_picks (s : State) (n : Nat) (x : IdeKey) : (s.setIdeKey n x).picks = s.picks := rfl
@[simp] theorem State.setIdeKey_windows (s : State) (n : Nat) (x : IdeKey) : (s.setIdeKey n x).windows = s.windows := rfl
@[simp] theorem State.setIdeKey_stipples (s : State) (n : Nat) (x : IdeKey) : (s.setIdeKey n x).stipples = s.stipples := rfl
@[simp] theorem State.setIdeKey_busy (s : State) (n : Nat) (x : IdeKey) : (s.setIdeKey n x).busy = s.busy := rfl
@[simp] theorem State.setIdeKey_nextIssue (s : State) (n : Nat) (x : IdeKey) : (s.setIdeKey n x).nextIssue = s.nextIssue := rfl
@[simp] theorem State.setIdeKey_taken (s : State) (n : Nat) (x : IdeKey) : (s.setIdeKey n x).taken = s.taken := rfl
@[simp] theorem State.setIdeKey_clock (s : State) (n : Nat) (x : IdeKey) : (s.setIdeKey n x).clock = s.clock := rfl
@[simp] theorem State.setIdeKey_works (s : State) (n : Nat) (x : IdeKey) : (s.setIdeKey n x).works = s.works := rfl
@[simp] theorem State.setIdeKey_writes (s : State) (n : Nat) (x : IdeKey) : (s.setIdeKey n x).writes = s.writes := rfl
@[simp] theorem State.setIdeKey_deferred (s : State) (n : Nat) (x : IdeKey) : (s.setIdeKey n x).deferred = s.deferred := rfl
@[simp] theorem State.setIdeKey_tailEvents (s : State) (n : Nat) (x : IdeKey) : (s.setIdeKey n x).tailEvents = s.tailEvents := rfl
@[simp] theorem State.setIdeKey_reports (s : State) (n : Nat) (x : IdeKey) : (s.setIdeKey n x).reports = s.reports := rfl
@[simp] theorem State.setIdeKey_partials (s : State) (n : Nat) (x : IdeKey) : (s.setIdeKey n x).partials = s.partials := rfl
@[simp] theorem State.setIdeKey_charges (s : State) (n : Nat) (x : IdeKey) : (s.setIdeKey n x).charges = s.charges := rfl
@[simp] theorem State.setIdeKey_norm (s : State) (n : Nat) (x : IdeKey) : (s.setIdeKey n x).norm = s.norm := rfl
@[simp] theorem State.setIdeKey_clip (s : State) (n : Nat) (x : IdeKey) : (s.setIdeKey n x).clip = s.clip := rfl
@[simp] theorem State.setIdeKey_segE (s : State) (n : Nat) (x : IdeKey) : (s.setIdeKey n x).segE = s.segE := rfl
@[simp] theorem State.setIdeKey_segMax (s : State) (n : Nat) (x : IdeKey) : (s.setIdeKey n x).segMax = s.segMax := rfl
@[simp] theorem State.setIdeKey_markUpdates (s : State) (n : Nat) (x : IdeKey) : (s.setIdeKey n x).markUpdates = s.markUpdates := rfl
@[simp] theorem State.setIdeKey_remoteMarks (s : State) (n : Nat) (x : IdeKey) : (s.setIdeKey n x).remoteMarks = s.remoteMarks := rfl
@[simp] theorem State.setIdeKey_marks (s : State) (n : Nat) (x : IdeKey) : (s.setIdeKey n x).marks = s.marks := rfl
@[simp] theorem State.setIdeKey_watches (s : State) (n : Nat) (x : IdeKey) : (s.setIdeKey n x).watches = s.watches := rfl
@[simp] theorem State.setIdeKey_seq (s : State) (n : Nat) (x : IdeKey) : (s.setIdeKey n x).seq = s.seq := rfl
@[simp] theorem State.setIdeKey_links (s : State) (n : Nat) (x : IdeKey) : (s.setIdeKey n x).links = s.links := rfl
@[simp] theorem State.setIdeKey_recvs (s : State) (n : Nat) (x : IdeKey) : (s.setIdeKey n x).recvs = s.recvs := rfl
@[simp] theorem State.setIdeKey_ports (s : State) (n : Nat) (x : IdeKey) : (s.setIdeKey n x).ports = s.ports := rfl
@[simp] theorem State.setIdeKey_seam (s : State) (n : Nat) (x : IdeKey) : (s.setIdeKey n x).seam = s.seam := rfl
@[simp] theorem State.setIdeKey_seamRetraining (s : State) (n : Nat) (x : IdeKey) : (s.setIdeKey n x).seamRetraining = s.seamRetraining := rfl
@[simp] theorem State.setIdeKey_sourceSeq (s : State) (n : Nat) (x : IdeKey) : (s.setIdeKey n x).sourceSeq = s.sourceSeq := rfl
@[simp] theorem State.setIdeKey_opened (s : State) (n : Nat) (x : IdeKey) : (s.setIdeKey n x).opened = s.opened := rfl
@[simp] theorem State.setIdeKey_closed (s : State) (n : Nat) (x : IdeKey) : (s.setIdeKey n x).closed = s.closed := rfl
@[simp] theorem State.setIdeKey_written (s : State) (n : Nat) (x : IdeKey) : (s.setIdeKey n x).written = s.written := rfl
@[simp] theorem State.setIdeKey_rings (s : State) (n : Nat) (x : IdeKey) : (s.setIdeKey n x).rings = s.rings := rfl
@[simp] theorem State.setIdeKey_msix (s : State) (n : Nat) (x : IdeKey) : (s.setIdeKey n x).msix = s.msix := rfl
@[simp] theorem State.setIdeKey_msixPending (s : State) (n : Nat) (x : IdeKey) : (s.setIdeKey n x).msixPending = s.msixPending := rfl
@[simp] theorem State.setIdeKey_gauges (s : State) (n : Nat) (x : IdeKey) : (s.setIdeKey n x).gauges = s.gauges := rfl
@[simp] theorem State.setIdeKey_regs (s : State) (n : Nat) (x : IdeKey) : (s.setIdeKey n x).regs = s.regs := rfl
@[simp] theorem State.setIdeKey_edition (s : State) (n : Nat) (x : IdeKey) : (s.setIdeKey n x).edition = s.edition := rfl
@[simp] theorem State.setIdeKey_grain (s : State) (n : Nat) (x : IdeKey) : (s.setIdeKey n x).grain = s.grain := rfl
@[simp] theorem State.setIdeKey_mss (s : State) (n : Nat) (x : IdeKey) : (s.setIdeKey n x).mss = s.mss := rfl
@[simp] theorem State.setIdeKey_boot (s : State) (n : Nat) (x : IdeKey) : (s.setIdeKey n x).boot = s.boot := rfl
@[simp] theorem State.setIdeKey_freeCount (s : State) (n : Nat) (x : IdeKey) : (s.setIdeKey n x).freeCount = s.freeCount := rfl

/-! ### State.setTenantSession -/

@[simp] theorem State.setTenantSession_pending (s : State) (x : Option (BitVec 32)) : (s.setTenantSession x).pending = s.pending := rfl
@[simp] theorem State.setTenantSession_boardTime (s : State) (x : Option (BitVec 32)) : (s.setTenantSession x).boardTime = s.boardTime := rfl
@[simp] theorem State.setTenantSession_timeValid (s : State) (x : Option (BitVec 32)) : (s.setTenantSession x).timeValid = s.timeValid := rfl
@[simp] theorem State.setTenantSession_refclk (s : State) (x : Option (BitVec 32)) : (s.setTenantSession x).refclk = s.refclk := rfl
@[simp] theorem State.setTenantSession_syncEnds (s : State) (x : Option (BitVec 32)) : (s.setTenantSession x).syncEnds = s.syncEnds := rfl
@[simp] theorem State.setTenantSession_mem (s : State) (x : Option (BitVec 32)) : (s.setTenantSession x).mem = s.mem := rfl
@[simp] theorem State.setTenantSession_engines (s : State) (x : Option (BitVec 32)) : (s.setTenantSession x).engines = s.engines := rfl
@[simp] theorem State.setTenantSession_counts (s : State) (x : Option (BitVec 32)) : (s.setTenantSession x).counts = s.counts := rfl
@[simp] theorem State.setTenantSession_remaps (s : State) (x : Option (BitVec 32)) : (s.setTenantSession x).remaps = s.remaps := rfl
@[simp] theorem State.setTenantSession_nextRemaps (s : State) (x : Option (BitVec 32)) : (s.setTenantSession x).nextRemaps = s.nextRemaps := rfl
@[simp] theorem State.setTenantSession_gates (s : State) (x : Option (BitVec 32)) : (s.setTenantSession x).gates = s.gates := rfl
@[simp] theorem State.setTenantSession_clusterCounts (s : State) (x : Option (BitVec 32)) : (s.setTenantSession x).clusterCounts = s.clusterCounts := rfl
@[simp] theorem State.setTenantSession_stackCounts (s : State) (x : Option (BitVec 32)) : (s.setTenantSession x).stackCounts = s.stackCounts := rfl
@[simp] theorem State.setTenantSession_lanes (s : State) (x : Option (BitVec 32)) : (s.setTenantSession x).lanes = s.lanes := rfl
@[simp] theorem State.setTenantSession_picks (s : State) (x : Option (BitVec 32)) : (s.setTenantSession x).picks = s.picks := rfl
@[simp] theorem State.setTenantSession_windows (s : State) (x : Option (BitVec 32)) : (s.setTenantSession x).windows = s.windows := rfl
@[simp] theorem State.setTenantSession_stipples (s : State) (x : Option (BitVec 32)) : (s.setTenantSession x).stipples = s.stipples := rfl
@[simp] theorem State.setTenantSession_busy (s : State) (x : Option (BitVec 32)) : (s.setTenantSession x).busy = s.busy := rfl
@[simp] theorem State.setTenantSession_nextIssue (s : State) (x : Option (BitVec 32)) : (s.setTenantSession x).nextIssue = s.nextIssue := rfl
@[simp] theorem State.setTenantSession_taken (s : State) (x : Option (BitVec 32)) : (s.setTenantSession x).taken = s.taken := rfl
@[simp] theorem State.setTenantSession_clock (s : State) (x : Option (BitVec 32)) : (s.setTenantSession x).clock = s.clock := rfl
@[simp] theorem State.setTenantSession_works (s : State) (x : Option (BitVec 32)) : (s.setTenantSession x).works = s.works := rfl
@[simp] theorem State.setTenantSession_writes (s : State) (x : Option (BitVec 32)) : (s.setTenantSession x).writes = s.writes := rfl
@[simp] theorem State.setTenantSession_deferred (s : State) (x : Option (BitVec 32)) : (s.setTenantSession x).deferred = s.deferred := rfl
@[simp] theorem State.setTenantSession_tailEvents (s : State) (x : Option (BitVec 32)) : (s.setTenantSession x).tailEvents = s.tailEvents := rfl
@[simp] theorem State.setTenantSession_reports (s : State) (x : Option (BitVec 32)) : (s.setTenantSession x).reports = s.reports := rfl
@[simp] theorem State.setTenantSession_partials (s : State) (x : Option (BitVec 32)) : (s.setTenantSession x).partials = s.partials := rfl
@[simp] theorem State.setTenantSession_charges (s : State) (x : Option (BitVec 32)) : (s.setTenantSession x).charges = s.charges := rfl
@[simp] theorem State.setTenantSession_norm (s : State) (x : Option (BitVec 32)) : (s.setTenantSession x).norm = s.norm := rfl
@[simp] theorem State.setTenantSession_clip (s : State) (x : Option (BitVec 32)) : (s.setTenantSession x).clip = s.clip := rfl
@[simp] theorem State.setTenantSession_segE (s : State) (x : Option (BitVec 32)) : (s.setTenantSession x).segE = s.segE := rfl
@[simp] theorem State.setTenantSession_segMax (s : State) (x : Option (BitVec 32)) : (s.setTenantSession x).segMax = s.segMax := rfl
@[simp] theorem State.setTenantSession_markUpdates (s : State) (x : Option (BitVec 32)) : (s.setTenantSession x).markUpdates = s.markUpdates := rfl
@[simp] theorem State.setTenantSession_remoteMarks (s : State) (x : Option (BitVec 32)) : (s.setTenantSession x).remoteMarks = s.remoteMarks := rfl
@[simp] theorem State.setTenantSession_marks (s : State) (x : Option (BitVec 32)) : (s.setTenantSession x).marks = s.marks := rfl
@[simp] theorem State.setTenantSession_watches (s : State) (x : Option (BitVec 32)) : (s.setTenantSession x).watches = s.watches := rfl
@[simp] theorem State.setTenantSession_seq (s : State) (x : Option (BitVec 32)) : (s.setTenantSession x).seq = s.seq := rfl
@[simp] theorem State.setTenantSession_links (s : State) (x : Option (BitVec 32)) : (s.setTenantSession x).links = s.links := rfl
@[simp] theorem State.setTenantSession_recvs (s : State) (x : Option (BitVec 32)) : (s.setTenantSession x).recvs = s.recvs := rfl
@[simp] theorem State.setTenantSession_ports (s : State) (x : Option (BitVec 32)) : (s.setTenantSession x).ports = s.ports := rfl
@[simp] theorem State.setTenantSession_seam (s : State) (x : Option (BitVec 32)) : (s.setTenantSession x).seam = s.seam := rfl
@[simp] theorem State.setTenantSession_seamRetraining (s : State) (x : Option (BitVec 32)) : (s.setTenantSession x).seamRetraining = s.seamRetraining := rfl
@[simp] theorem State.setTenantSession_sourceSeq (s : State) (x : Option (BitVec 32)) : (s.setTenantSession x).sourceSeq = s.sourceSeq := rfl
@[simp] theorem State.setTenantSession_opened (s : State) (x : Option (BitVec 32)) : (s.setTenantSession x).opened = s.opened := rfl
@[simp] theorem State.setTenantSession_closed (s : State) (x : Option (BitVec 32)) : (s.setTenantSession x).closed = s.closed := rfl
@[simp] theorem State.setTenantSession_written (s : State) (x : Option (BitVec 32)) : (s.setTenantSession x).written = s.written := rfl
@[simp] theorem State.setTenantSession_rings (s : State) (x : Option (BitVec 32)) : (s.setTenantSession x).rings = s.rings := rfl
@[simp] theorem State.setTenantSession_msix (s : State) (x : Option (BitVec 32)) : (s.setTenantSession x).msix = s.msix := rfl
@[simp] theorem State.setTenantSession_msixPending (s : State) (x : Option (BitVec 32)) : (s.setTenantSession x).msixPending = s.msixPending := rfl
@[simp] theorem State.setTenantSession_gauges (s : State) (x : Option (BitVec 32)) : (s.setTenantSession x).gauges = s.gauges := rfl
@[simp] theorem State.setTenantSession_regs (s : State) (x : Option (BitVec 32)) : (s.setTenantSession x).regs = s.regs := rfl
@[simp] theorem State.setTenantSession_edition (s : State) (x : Option (BitVec 32)) : (s.setTenantSession x).edition = s.edition := rfl
@[simp] theorem State.setTenantSession_grain (s : State) (x : Option (BitVec 32)) : (s.setTenantSession x).grain = s.grain := rfl
@[simp] theorem State.setTenantSession_mss (s : State) (x : Option (BitVec 32)) : (s.setTenantSession x).mss = s.mss := rfl
@[simp] theorem State.setTenantSession_boot (s : State) (x : Option (BitVec 32)) : (s.setTenantSession x).boot = s.boot := rfl
@[simp] theorem State.setTenantSession_freeCount (s : State) (x : Option (BitVec 32)) : (s.setTenantSession x).freeCount = s.freeCount := rfl

/-! ### State.doe -/

@[simp] theorem State.doe_pending (s : State) (b : List Byte) : (s.doe b).pending = s.pending := rfl
@[simp] theorem State.doe_boardTime (s : State) (b : List Byte) : (s.doe b).boardTime = s.boardTime := rfl
@[simp] theorem State.doe_timeValid (s : State) (b : List Byte) : (s.doe b).timeValid = s.timeValid := rfl
@[simp] theorem State.doe_refclk (s : State) (b : List Byte) : (s.doe b).refclk = s.refclk := rfl
@[simp] theorem State.doe_syncEnds (s : State) (b : List Byte) : (s.doe b).syncEnds = s.syncEnds := rfl
@[simp] theorem State.doe_mem (s : State) (b : List Byte) : (s.doe b).mem = s.mem := rfl
@[simp] theorem State.doe_engines (s : State) (b : List Byte) : (s.doe b).engines = s.engines := rfl
@[simp] theorem State.doe_counts (s : State) (b : List Byte) : (s.doe b).counts = s.counts := rfl
@[simp] theorem State.doe_remaps (s : State) (b : List Byte) : (s.doe b).remaps = s.remaps := rfl
@[simp] theorem State.doe_nextRemaps (s : State) (b : List Byte) : (s.doe b).nextRemaps = s.nextRemaps := rfl
@[simp] theorem State.doe_gates (s : State) (b : List Byte) : (s.doe b).gates = s.gates := rfl
@[simp] theorem State.doe_clusterCounts (s : State) (b : List Byte) : (s.doe b).clusterCounts = s.clusterCounts := rfl
@[simp] theorem State.doe_stackCounts (s : State) (b : List Byte) : (s.doe b).stackCounts = s.stackCounts := rfl
@[simp] theorem State.doe_lanes (s : State) (b : List Byte) : (s.doe b).lanes = s.lanes := rfl
@[simp] theorem State.doe_picks (s : State) (b : List Byte) : (s.doe b).picks = s.picks := rfl
@[simp] theorem State.doe_windows (s : State) (b : List Byte) : (s.doe b).windows = s.windows := rfl
@[simp] theorem State.doe_stipples (s : State) (b : List Byte) : (s.doe b).stipples = s.stipples := rfl
@[simp] theorem State.doe_busy (s : State) (b : List Byte) : (s.doe b).busy = s.busy := rfl
@[simp] theorem State.doe_nextIssue (s : State) (b : List Byte) : (s.doe b).nextIssue = s.nextIssue := rfl
@[simp] theorem State.doe_taken (s : State) (b : List Byte) : (s.doe b).taken = s.taken := rfl
@[simp] theorem State.doe_clock (s : State) (b : List Byte) : (s.doe b).clock = s.clock := rfl
@[simp] theorem State.doe_works (s : State) (b : List Byte) : (s.doe b).works = s.works := rfl
@[simp] theorem State.doe_writes (s : State) (b : List Byte) : (s.doe b).writes = s.writes := rfl
@[simp] theorem State.doe_deferred (s : State) (b : List Byte) : (s.doe b).deferred = s.deferred := rfl
@[simp] theorem State.doe_tailEvents (s : State) (b : List Byte) : (s.doe b).tailEvents = s.tailEvents := rfl
@[simp] theorem State.doe_reports (s : State) (b : List Byte) : (s.doe b).reports = s.reports := rfl
@[simp] theorem State.doe_partials (s : State) (b : List Byte) : (s.doe b).partials = s.partials := rfl
@[simp] theorem State.doe_charges (s : State) (b : List Byte) : (s.doe b).charges = s.charges := rfl
@[simp] theorem State.doe_norm (s : State) (b : List Byte) : (s.doe b).norm = s.norm := rfl
@[simp] theorem State.doe_clip (s : State) (b : List Byte) : (s.doe b).clip = s.clip := rfl
@[simp] theorem State.doe_segE (s : State) (b : List Byte) : (s.doe b).segE = s.segE := rfl
@[simp] theorem State.doe_segMax (s : State) (b : List Byte) : (s.doe b).segMax = s.segMax := rfl
@[simp] theorem State.doe_markUpdates (s : State) (b : List Byte) : (s.doe b).markUpdates = s.markUpdates := rfl
@[simp] theorem State.doe_remoteMarks (s : State) (b : List Byte) : (s.doe b).remoteMarks = s.remoteMarks := rfl
@[simp] theorem State.doe_marks (s : State) (b : List Byte) : (s.doe b).marks = s.marks := rfl
@[simp] theorem State.doe_watches (s : State) (b : List Byte) : (s.doe b).watches = s.watches := rfl
@[simp] theorem State.doe_seq (s : State) (b : List Byte) : (s.doe b).seq = s.seq := rfl
@[simp] theorem State.doe_links (s : State) (b : List Byte) : (s.doe b).links = s.links := rfl
@[simp] theorem State.doe_recvs (s : State) (b : List Byte) : (s.doe b).recvs = s.recvs := rfl
@[simp] theorem State.doe_ports (s : State) (b : List Byte) : (s.doe b).ports = s.ports := rfl
@[simp] theorem State.doe_seam (s : State) (b : List Byte) : (s.doe b).seam = s.seam := rfl
@[simp] theorem State.doe_seamRetraining (s : State) (b : List Byte) : (s.doe b).seamRetraining = s.seamRetraining := rfl
@[simp] theorem State.doe_sourceSeq (s : State) (b : List Byte) : (s.doe b).sourceSeq = s.sourceSeq := rfl
@[simp] theorem State.doe_opened (s : State) (b : List Byte) : (s.doe b).opened = s.opened := rfl
@[simp] theorem State.doe_closed (s : State) (b : List Byte) : (s.doe b).closed = s.closed := rfl
@[simp] theorem State.doe_written (s : State) (b : List Byte) : (s.doe b).written = s.written := rfl
@[simp] theorem State.doe_rings (s : State) (b : List Byte) : (s.doe b).rings = s.rings := rfl
@[simp] theorem State.doe_msix (s : State) (b : List Byte) : (s.doe b).msix = s.msix := rfl
@[simp] theorem State.doe_msixPending (s : State) (b : List Byte) : (s.doe b).msixPending = s.msixPending := rfl
@[simp] theorem State.doe_gauges (s : State) (b : List Byte) : (s.doe b).gauges = s.gauges := rfl
@[simp] theorem State.doe_regs (s : State) (b : List Byte) : (s.doe b).regs = s.regs := rfl
@[simp] theorem State.doe_edition (s : State) (b : List Byte) : (s.doe b).edition = s.edition := rfl
@[simp] theorem State.doe_grain (s : State) (b : List Byte) : (s.doe b).grain = s.grain := rfl
@[simp] theorem State.doe_mss (s : State) (b : List Byte) : (s.doe b).mss = s.mss := rfl
@[simp] theorem State.doe_boot (s : State) (b : List Byte) : (s.doe b).boot = s.boot := rfl
@[simp] theorem State.doe_freeCount (s : State) (b : List Byte) : (s.doe b).freeCount = s.freeCount := rfl

/-! ### State.mctp -/

@[simp] theorem State.mctp_pending (s : State) (b : List Byte) : (s.mctp b).pending = s.pending := rfl
@[simp] theorem State.mctp_boardTime (s : State) (b : List Byte) : (s.mctp b).boardTime = s.boardTime := rfl
@[simp] theorem State.mctp_timeValid (s : State) (b : List Byte) : (s.mctp b).timeValid = s.timeValid := rfl
@[simp] theorem State.mctp_refclk (s : State) (b : List Byte) : (s.mctp b).refclk = s.refclk := rfl
@[simp] theorem State.mctp_syncEnds (s : State) (b : List Byte) : (s.mctp b).syncEnds = s.syncEnds := rfl
@[simp] theorem State.mctp_mem (s : State) (b : List Byte) : (s.mctp b).mem = s.mem := rfl
@[simp] theorem State.mctp_engines (s : State) (b : List Byte) : (s.mctp b).engines = s.engines := rfl
@[simp] theorem State.mctp_counts (s : State) (b : List Byte) : (s.mctp b).counts = s.counts := rfl
@[simp] theorem State.mctp_remaps (s : State) (b : List Byte) : (s.mctp b).remaps = s.remaps := rfl
@[simp] theorem State.mctp_nextRemaps (s : State) (b : List Byte) : (s.mctp b).nextRemaps = s.nextRemaps := rfl
@[simp] theorem State.mctp_gates (s : State) (b : List Byte) : (s.mctp b).gates = s.gates := rfl
@[simp] theorem State.mctp_clusterCounts (s : State) (b : List Byte) : (s.mctp b).clusterCounts = s.clusterCounts := rfl
@[simp] theorem State.mctp_stackCounts (s : State) (b : List Byte) : (s.mctp b).stackCounts = s.stackCounts := rfl
@[simp] theorem State.mctp_lanes (s : State) (b : List Byte) : (s.mctp b).lanes = s.lanes := rfl
@[simp] theorem State.mctp_picks (s : State) (b : List Byte) : (s.mctp b).picks = s.picks := rfl
@[simp] theorem State.mctp_windows (s : State) (b : List Byte) : (s.mctp b).windows = s.windows := rfl
@[simp] theorem State.mctp_stipples (s : State) (b : List Byte) : (s.mctp b).stipples = s.stipples := rfl
@[simp] theorem State.mctp_busy (s : State) (b : List Byte) : (s.mctp b).busy = s.busy := rfl
@[simp] theorem State.mctp_nextIssue (s : State) (b : List Byte) : (s.mctp b).nextIssue = s.nextIssue := rfl
@[simp] theorem State.mctp_taken (s : State) (b : List Byte) : (s.mctp b).taken = s.taken := rfl
@[simp] theorem State.mctp_clock (s : State) (b : List Byte) : (s.mctp b).clock = s.clock := rfl
@[simp] theorem State.mctp_works (s : State) (b : List Byte) : (s.mctp b).works = s.works := rfl
@[simp] theorem State.mctp_writes (s : State) (b : List Byte) : (s.mctp b).writes = s.writes := rfl
@[simp] theorem State.mctp_deferred (s : State) (b : List Byte) : (s.mctp b).deferred = s.deferred := rfl
@[simp] theorem State.mctp_tailEvents (s : State) (b : List Byte) : (s.mctp b).tailEvents = s.tailEvents := rfl
@[simp] theorem State.mctp_reports (s : State) (b : List Byte) : (s.mctp b).reports = s.reports := rfl
@[simp] theorem State.mctp_partials (s : State) (b : List Byte) : (s.mctp b).partials = s.partials := rfl
@[simp] theorem State.mctp_charges (s : State) (b : List Byte) : (s.mctp b).charges = s.charges := rfl
@[simp] theorem State.mctp_norm (s : State) (b : List Byte) : (s.mctp b).norm = s.norm := rfl
@[simp] theorem State.mctp_clip (s : State) (b : List Byte) : (s.mctp b).clip = s.clip := rfl
@[simp] theorem State.mctp_segE (s : State) (b : List Byte) : (s.mctp b).segE = s.segE := rfl
@[simp] theorem State.mctp_segMax (s : State) (b : List Byte) : (s.mctp b).segMax = s.segMax := rfl
@[simp] theorem State.mctp_markUpdates (s : State) (b : List Byte) : (s.mctp b).markUpdates = s.markUpdates := rfl
@[simp] theorem State.mctp_remoteMarks (s : State) (b : List Byte) : (s.mctp b).remoteMarks = s.remoteMarks := rfl
@[simp] theorem State.mctp_marks (s : State) (b : List Byte) : (s.mctp b).marks = s.marks := rfl
@[simp] theorem State.mctp_watches (s : State) (b : List Byte) : (s.mctp b).watches = s.watches := rfl
@[simp] theorem State.mctp_seq (s : State) (b : List Byte) : (s.mctp b).seq = s.seq := rfl
@[simp] theorem State.mctp_links (s : State) (b : List Byte) : (s.mctp b).links = s.links := rfl
@[simp] theorem State.mctp_recvs (s : State) (b : List Byte) : (s.mctp b).recvs = s.recvs := rfl
@[simp] theorem State.mctp_ports (s : State) (b : List Byte) : (s.mctp b).ports = s.ports := rfl
@[simp] theorem State.mctp_seam (s : State) (b : List Byte) : (s.mctp b).seam = s.seam := rfl
@[simp] theorem State.mctp_seamRetraining (s : State) (b : List Byte) : (s.mctp b).seamRetraining = s.seamRetraining := rfl
@[simp] theorem State.mctp_sourceSeq (s : State) (b : List Byte) : (s.mctp b).sourceSeq = s.sourceSeq := rfl
@[simp] theorem State.mctp_opened (s : State) (b : List Byte) : (s.mctp b).opened = s.opened := rfl
@[simp] theorem State.mctp_closed (s : State) (b : List Byte) : (s.mctp b).closed = s.closed := rfl
@[simp] theorem State.mctp_written (s : State) (b : List Byte) : (s.mctp b).written = s.written := rfl
@[simp] theorem State.mctp_rings (s : State) (b : List Byte) : (s.mctp b).rings = s.rings := rfl
@[simp] theorem State.mctp_msix (s : State) (b : List Byte) : (s.mctp b).msix = s.msix := rfl
@[simp] theorem State.mctp_msixPending (s : State) (b : List Byte) : (s.mctp b).msixPending = s.msixPending := rfl
@[simp] theorem State.mctp_gauges (s : State) (b : List Byte) : (s.mctp b).gauges = s.gauges := rfl
@[simp] theorem State.mctp_regs (s : State) (b : List Byte) : (s.mctp b).regs = s.regs := rfl
@[simp] theorem State.mctp_edition (s : State) (b : List Byte) : (s.mctp b).edition = s.edition := rfl
@[simp] theorem State.mctp_grain (s : State) (b : List Byte) : (s.mctp b).grain = s.grain := rfl
@[simp] theorem State.mctp_mss (s : State) (b : List Byte) : (s.mctp b).mss = s.mss := rfl
@[simp] theorem State.mctp_boot (s : State) (b : List Byte) : (s.mctp b).boot = s.boot := rfl
@[simp] theorem State.mctp_freeCount (s : State) (b : List Byte) : (s.mctp b).freeCount = s.freeCount := rfl

/-! ### State.refuse -/

@[simp] theorem State.refuse_pending (s : State) (n : Nat) : (s.refuse n).pending = s.pending := rfl
@[simp] theorem State.refuse_boardTime (s : State) (n : Nat) : (s.refuse n).boardTime = s.boardTime := rfl
@[simp] theorem State.refuse_timeValid (s : State) (n : Nat) : (s.refuse n).timeValid = s.timeValid := rfl
@[simp] theorem State.refuse_refclk (s : State) (n : Nat) : (s.refuse n).refclk = s.refclk := rfl
@[simp] theorem State.refuse_syncEnds (s : State) (n : Nat) : (s.refuse n).syncEnds = s.syncEnds := rfl
@[simp] theorem State.refuse_mem (s : State) (n : Nat) : (s.refuse n).mem = s.mem := rfl
@[simp] theorem State.refuse_engines (s : State) (n : Nat) : (s.refuse n).engines = s.engines := rfl
@[simp] theorem State.refuse_counts (s : State) (n : Nat) : (s.refuse n).counts = s.counts := rfl
@[simp] theorem State.refuse_remaps (s : State) (n : Nat) : (s.refuse n).remaps = s.remaps := rfl
@[simp] theorem State.refuse_nextRemaps (s : State) (n : Nat) : (s.refuse n).nextRemaps = s.nextRemaps := rfl
@[simp] theorem State.refuse_gates (s : State) (n : Nat) : (s.refuse n).gates = s.gates := rfl
@[simp] theorem State.refuse_clusterCounts (s : State) (n : Nat) : (s.refuse n).clusterCounts = s.clusterCounts := rfl
@[simp] theorem State.refuse_stackCounts (s : State) (n : Nat) : (s.refuse n).stackCounts = s.stackCounts := rfl
@[simp] theorem State.refuse_lanes (s : State) (n : Nat) : (s.refuse n).lanes = s.lanes := rfl
@[simp] theorem State.refuse_picks (s : State) (n : Nat) : (s.refuse n).picks = s.picks := rfl
@[simp] theorem State.refuse_windows (s : State) (n : Nat) : (s.refuse n).windows = s.windows := rfl
@[simp] theorem State.refuse_stipples (s : State) (n : Nat) : (s.refuse n).stipples = s.stipples := rfl
@[simp] theorem State.refuse_busy (s : State) (n : Nat) : (s.refuse n).busy = s.busy := rfl
@[simp] theorem State.refuse_nextIssue (s : State) (n : Nat) : (s.refuse n).nextIssue = s.nextIssue := rfl
@[simp] theorem State.refuse_taken (s : State) (n : Nat) : (s.refuse n).taken = s.taken := rfl
@[simp] theorem State.refuse_clock (s : State) (n : Nat) : (s.refuse n).clock = s.clock := rfl
@[simp] theorem State.refuse_works (s : State) (n : Nat) : (s.refuse n).works = s.works := rfl
@[simp] theorem State.refuse_writes (s : State) (n : Nat) : (s.refuse n).writes = s.writes := rfl
@[simp] theorem State.refuse_deferred (s : State) (n : Nat) : (s.refuse n).deferred = s.deferred := rfl
@[simp] theorem State.refuse_tailEvents (s : State) (n : Nat) : (s.refuse n).tailEvents = s.tailEvents := rfl
@[simp] theorem State.refuse_reports (s : State) (n : Nat) : (s.refuse n).reports = s.reports := rfl
@[simp] theorem State.refuse_partials (s : State) (n : Nat) : (s.refuse n).partials = s.partials := rfl
@[simp] theorem State.refuse_charges (s : State) (n : Nat) : (s.refuse n).charges = s.charges := rfl
@[simp] theorem State.refuse_norm (s : State) (n : Nat) : (s.refuse n).norm = s.norm := rfl
@[simp] theorem State.refuse_clip (s : State) (n : Nat) : (s.refuse n).clip = s.clip := rfl
@[simp] theorem State.refuse_segE (s : State) (n : Nat) : (s.refuse n).segE = s.segE := rfl
@[simp] theorem State.refuse_segMax (s : State) (n : Nat) : (s.refuse n).segMax = s.segMax := rfl
@[simp] theorem State.refuse_markUpdates (s : State) (n : Nat) : (s.refuse n).markUpdates = s.markUpdates := rfl
@[simp] theorem State.refuse_remoteMarks (s : State) (n : Nat) : (s.refuse n).remoteMarks = s.remoteMarks := rfl
@[simp] theorem State.refuse_marks (s : State) (n : Nat) : (s.refuse n).marks = s.marks := rfl
@[simp] theorem State.refuse_watches (s : State) (n : Nat) : (s.refuse n).watches = s.watches := rfl
@[simp] theorem State.refuse_seq (s : State) (n : Nat) : (s.refuse n).seq = s.seq := rfl
@[simp] theorem State.refuse_links (s : State) (n : Nat) : (s.refuse n).links = s.links := rfl
@[simp] theorem State.refuse_recvs (s : State) (n : Nat) : (s.refuse n).recvs = s.recvs := rfl
@[simp] theorem State.refuse_ports (s : State) (n : Nat) : (s.refuse n).ports = s.ports := rfl
@[simp] theorem State.refuse_seam (s : State) (n : Nat) : (s.refuse n).seam = s.seam := rfl
@[simp] theorem State.refuse_seamRetraining (s : State) (n : Nat) : (s.refuse n).seamRetraining = s.seamRetraining := rfl
@[simp] theorem State.refuse_sourceSeq (s : State) (n : Nat) : (s.refuse n).sourceSeq = s.sourceSeq := rfl
@[simp] theorem State.refuse_opened (s : State) (n : Nat) : (s.refuse n).opened = s.opened := rfl
@[simp] theorem State.refuse_closed (s : State) (n : Nat) : (s.refuse n).closed = s.closed := rfl
@[simp] theorem State.refuse_written (s : State) (n : Nat) : (s.refuse n).written = s.written := rfl
@[simp] theorem State.refuse_rings (s : State) (n : Nat) : (s.refuse n).rings = s.rings := rfl
@[simp] theorem State.refuse_msix (s : State) (n : Nat) : (s.refuse n).msix = s.msix := rfl
@[simp] theorem State.refuse_msixPending (s : State) (n : Nat) : (s.refuse n).msixPending = s.msixPending := rfl
@[simp] theorem State.refuse_gauges (s : State) (n : Nat) : (s.refuse n).gauges = s.gauges := rfl
@[simp] theorem State.refuse_edition (s : State) (n : Nat) : (s.refuse n).edition = s.edition := rfl
@[simp] theorem State.refuse_grain (s : State) (n : Nat) : (s.refuse n).grain = s.grain := rfl
@[simp] theorem State.refuse_sec (s : State) (n : Nat) : (s.refuse n).sec = s.sec := rfl
@[simp] theorem State.refuse_mss (s : State) (n : Nat) : (s.refuse n).mss = s.mss := rfl
@[simp] theorem State.refuse_boot (s : State) (n : Nat) : (s.refuse n).boot = s.boot := rfl
@[simp] theorem State.refuse_freeCount (s : State) (n : Nat) : (s.refuse n).freeCount = s.freeCount := rfl

/-! ### State.halfGone -/

@[simp] theorem State.halfGone_pending (s : State) : (s.halfGone).pending = s.pending := rfl
@[simp] theorem State.halfGone_boardTime (s : State) : (s.halfGone).boardTime = s.boardTime := rfl
@[simp] theorem State.halfGone_timeValid (s : State) : (s.halfGone).timeValid = s.timeValid := rfl
@[simp] theorem State.halfGone_refclk (s : State) : (s.halfGone).refclk = s.refclk := rfl
@[simp] theorem State.halfGone_syncEnds (s : State) : (s.halfGone).syncEnds = s.syncEnds := rfl
@[simp] theorem State.halfGone_mem (s : State) : (s.halfGone).mem = s.mem := rfl
@[simp] theorem State.halfGone_engines (s : State) : (s.halfGone).engines = s.engines := rfl
@[simp] theorem State.halfGone_counts (s : State) : (s.halfGone).counts = s.counts := rfl
@[simp] theorem State.halfGone_remaps (s : State) : (s.halfGone).remaps = s.remaps := rfl
@[simp] theorem State.halfGone_nextRemaps (s : State) : (s.halfGone).nextRemaps = s.nextRemaps := rfl
@[simp] theorem State.halfGone_gates (s : State) : (s.halfGone).gates = s.gates := rfl
@[simp] theorem State.halfGone_clusterCounts (s : State) : (s.halfGone).clusterCounts = s.clusterCounts := rfl
@[simp] theorem State.halfGone_stackCounts (s : State) : (s.halfGone).stackCounts = s.stackCounts := rfl
@[simp] theorem State.halfGone_lanes (s : State) : (s.halfGone).lanes = s.lanes := rfl
@[simp] theorem State.halfGone_picks (s : State) : (s.halfGone).picks = s.picks := rfl
@[simp] theorem State.halfGone_windows (s : State) : (s.halfGone).windows = s.windows := rfl
@[simp] theorem State.halfGone_stipples (s : State) : (s.halfGone).stipples = s.stipples := rfl
@[simp] theorem State.halfGone_busy (s : State) : (s.halfGone).busy = s.busy := rfl
@[simp] theorem State.halfGone_nextIssue (s : State) : (s.halfGone).nextIssue = s.nextIssue := rfl
@[simp] theorem State.halfGone_taken (s : State) : (s.halfGone).taken = s.taken := rfl
@[simp] theorem State.halfGone_clock (s : State) : (s.halfGone).clock = s.clock := rfl
@[simp] theorem State.halfGone_works (s : State) : (s.halfGone).works = s.works := rfl
@[simp] theorem State.halfGone_writes (s : State) : (s.halfGone).writes = s.writes := rfl
@[simp] theorem State.halfGone_deferred (s : State) : (s.halfGone).deferred = s.deferred := rfl
@[simp] theorem State.halfGone_tailEvents (s : State) : (s.halfGone).tailEvents = s.tailEvents := rfl
@[simp] theorem State.halfGone_reports (s : State) : (s.halfGone).reports = s.reports := rfl
@[simp] theorem State.halfGone_partials (s : State) : (s.halfGone).partials = s.partials := rfl
@[simp] theorem State.halfGone_charges (s : State) : (s.halfGone).charges = s.charges := rfl
@[simp] theorem State.halfGone_norm (s : State) : (s.halfGone).norm = s.norm := rfl
@[simp] theorem State.halfGone_clip (s : State) : (s.halfGone).clip = s.clip := rfl
@[simp] theorem State.halfGone_segE (s : State) : (s.halfGone).segE = s.segE := rfl
@[simp] theorem State.halfGone_segMax (s : State) : (s.halfGone).segMax = s.segMax := rfl
@[simp] theorem State.halfGone_markUpdates (s : State) : (s.halfGone).markUpdates = s.markUpdates := rfl
@[simp] theorem State.halfGone_remoteMarks (s : State) : (s.halfGone).remoteMarks = s.remoteMarks := rfl
@[simp] theorem State.halfGone_marks (s : State) : (s.halfGone).marks = s.marks := rfl
@[simp] theorem State.halfGone_watches (s : State) : (s.halfGone).watches = s.watches := rfl
@[simp] theorem State.halfGone_seq (s : State) : (s.halfGone).seq = s.seq := rfl
@[simp] theorem State.halfGone_links (s : State) : (s.halfGone).links = s.links := rfl
@[simp] theorem State.halfGone_recvs (s : State) : (s.halfGone).recvs = s.recvs := rfl
@[simp] theorem State.halfGone_ports (s : State) : (s.halfGone).ports = s.ports := rfl
@[simp] theorem State.halfGone_seam (s : State) : (s.halfGone).seam = s.seam := rfl
@[simp] theorem State.halfGone_seamRetraining (s : State) : (s.halfGone).seamRetraining = s.seamRetraining := rfl
@[simp] theorem State.halfGone_sourceSeq (s : State) : (s.halfGone).sourceSeq = s.sourceSeq := rfl
@[simp] theorem State.halfGone_opened (s : State) : (s.halfGone).opened = s.opened := rfl
@[simp] theorem State.halfGone_closed (s : State) : (s.halfGone).closed = s.closed := rfl
@[simp] theorem State.halfGone_written (s : State) : (s.halfGone).written = s.written := rfl
@[simp] theorem State.halfGone_rings (s : State) : (s.halfGone).rings = s.rings := rfl
@[simp] theorem State.halfGone_msix (s : State) : (s.halfGone).msix = s.msix := rfl
@[simp] theorem State.halfGone_msixPending (s : State) : (s.halfGone).msixPending = s.msixPending := rfl
@[simp] theorem State.halfGone_gauges (s : State) : (s.halfGone).gauges = s.gauges := rfl
@[simp] theorem State.halfGone_edition (s : State) : (s.halfGone).edition = s.edition := rfl
@[simp] theorem State.halfGone_grain (s : State) : (s.halfGone).grain = s.grain := rfl
@[simp] theorem State.halfGone_sec (s : State) : (s.halfGone).sec = s.sec := rfl
@[simp] theorem State.halfGone_mss (s : State) : (s.halfGone).mss = s.mss := rfl
@[simp] theorem State.halfGone_boot (s : State) : (s.halfGone).boot = s.boot := rfl
@[simp] theorem State.halfGone_freeCount (s : State) : (s.halfGone).freeCount = s.freeCount := rfl

/-! ### State.issued -/

@[simp] theorem State.issued_pending (s : State) (st : StationRef) (i : Issue) : (s.issued st i).pending = s.pending := rfl
@[simp] theorem State.issued_boardTime (s : State) (st : StationRef) (i : Issue) : (s.issued st i).boardTime = s.boardTime := rfl
@[simp] theorem State.issued_timeValid (s : State) (st : StationRef) (i : Issue) : (s.issued st i).timeValid = s.timeValid := rfl
@[simp] theorem State.issued_refclk (s : State) (st : StationRef) (i : Issue) : (s.issued st i).refclk = s.refclk := rfl
@[simp] theorem State.issued_syncEnds (s : State) (st : StationRef) (i : Issue) : (s.issued st i).syncEnds = s.syncEnds := rfl
@[simp] theorem State.issued_mem (s : State) (st : StationRef) (i : Issue) : (s.issued st i).mem = s.mem := rfl
@[simp] theorem State.issued_engines (s : State) (st : StationRef) (i : Issue) : (s.issued st i).engines = s.engines := rfl
@[simp] theorem State.issued_counts (s : State) (st : StationRef) (i : Issue) : (s.issued st i).counts = s.counts := rfl
@[simp] theorem State.issued_remaps (s : State) (st : StationRef) (i : Issue) : (s.issued st i).remaps = s.remaps := rfl
@[simp] theorem State.issued_nextRemaps (s : State) (st : StationRef) (i : Issue) : (s.issued st i).nextRemaps = s.nextRemaps := rfl
@[simp] theorem State.issued_gates (s : State) (st : StationRef) (i : Issue) : (s.issued st i).gates = s.gates := rfl
@[simp] theorem State.issued_clusterCounts (s : State) (st : StationRef) (i : Issue) : (s.issued st i).clusterCounts = s.clusterCounts := rfl
@[simp] theorem State.issued_stackCounts (s : State) (st : StationRef) (i : Issue) : (s.issued st i).stackCounts = s.stackCounts := rfl
@[simp] theorem State.issued_lanes (s : State) (st : StationRef) (i : Issue) : (s.issued st i).lanes = s.lanes := rfl
@[simp] theorem State.issued_picks (s : State) (st : StationRef) (i : Issue) : (s.issued st i).picks = s.picks := rfl
@[simp] theorem State.issued_windows (s : State) (st : StationRef) (i : Issue) : (s.issued st i).windows = s.windows := rfl
@[simp] theorem State.issued_stipples (s : State) (st : StationRef) (i : Issue) : (s.issued st i).stipples = s.stipples := rfl
@[simp] theorem State.issued_busy (s : State) (st : StationRef) (i : Issue) : (s.issued st i).busy = s.busy := rfl
@[simp] theorem State.issued_clock (s : State) (st : StationRef) (i : Issue) : (s.issued st i).clock = s.clock := rfl
@[simp] theorem State.issued_works (s : State) (st : StationRef) (i : Issue) : (s.issued st i).works = s.works := rfl
@[simp] theorem State.issued_writes (s : State) (st : StationRef) (i : Issue) : (s.issued st i).writes = s.writes := rfl
@[simp] theorem State.issued_deferred (s : State) (st : StationRef) (i : Issue) : (s.issued st i).deferred = s.deferred := rfl
@[simp] theorem State.issued_tailEvents (s : State) (st : StationRef) (i : Issue) : (s.issued st i).tailEvents = s.tailEvents := rfl
@[simp] theorem State.issued_reports (s : State) (st : StationRef) (i : Issue) : (s.issued st i).reports = s.reports := rfl
@[simp] theorem State.issued_partials (s : State) (st : StationRef) (i : Issue) : (s.issued st i).partials = s.partials := rfl
@[simp] theorem State.issued_charges (s : State) (st : StationRef) (i : Issue) : (s.issued st i).charges = s.charges := rfl
@[simp] theorem State.issued_norm (s : State) (st : StationRef) (i : Issue) : (s.issued st i).norm = s.norm := rfl
@[simp] theorem State.issued_clip (s : State) (st : StationRef) (i : Issue) : (s.issued st i).clip = s.clip := rfl
@[simp] theorem State.issued_segE (s : State) (st : StationRef) (i : Issue) : (s.issued st i).segE = s.segE := rfl
@[simp] theorem State.issued_segMax (s : State) (st : StationRef) (i : Issue) : (s.issued st i).segMax = s.segMax := rfl
@[simp] theorem State.issued_markUpdates (s : State) (st : StationRef) (i : Issue) : (s.issued st i).markUpdates = s.markUpdates := rfl
@[simp] theorem State.issued_remoteMarks (s : State) (st : StationRef) (i : Issue) : (s.issued st i).remoteMarks = s.remoteMarks := rfl
@[simp] theorem State.issued_marks (s : State) (st : StationRef) (i : Issue) : (s.issued st i).marks = s.marks := rfl
@[simp] theorem State.issued_watches (s : State) (st : StationRef) (i : Issue) : (s.issued st i).watches = s.watches := rfl
@[simp] theorem State.issued_seq (s : State) (st : StationRef) (i : Issue) : (s.issued st i).seq = s.seq := rfl
@[simp] theorem State.issued_links (s : State) (st : StationRef) (i : Issue) : (s.issued st i).links = s.links := rfl
@[simp] theorem State.issued_recvs (s : State) (st : StationRef) (i : Issue) : (s.issued st i).recvs = s.recvs := rfl
@[simp] theorem State.issued_ports (s : State) (st : StationRef) (i : Issue) : (s.issued st i).ports = s.ports := rfl
@[simp] theorem State.issued_seam (s : State) (st : StationRef) (i : Issue) : (s.issued st i).seam = s.seam := rfl
@[simp] theorem State.issued_seamRetraining (s : State) (st : StationRef) (i : Issue) : (s.issued st i).seamRetraining = s.seamRetraining := rfl
@[simp] theorem State.issued_sourceSeq (s : State) (st : StationRef) (i : Issue) : (s.issued st i).sourceSeq = s.sourceSeq := rfl
@[simp] theorem State.issued_opened (s : State) (st : StationRef) (i : Issue) : (s.issued st i).opened = s.opened := rfl
@[simp] theorem State.issued_closed (s : State) (st : StationRef) (i : Issue) : (s.issued st i).closed = s.closed := rfl
@[simp] theorem State.issued_written (s : State) (st : StationRef) (i : Issue) : (s.issued st i).written = s.written := rfl
@[simp] theorem State.issued_rings (s : State) (st : StationRef) (i : Issue) : (s.issued st i).rings = s.rings := rfl
@[simp] theorem State.issued_msix (s : State) (st : StationRef) (i : Issue) : (s.issued st i).msix = s.msix := rfl
@[simp] theorem State.issued_msixPending (s : State) (st : StationRef) (i : Issue) : (s.issued st i).msixPending = s.msixPending := rfl
@[simp] theorem State.issued_gauges (s : State) (st : StationRef) (i : Issue) : (s.issued st i).gauges = s.gauges := rfl
@[simp] theorem State.issued_regs (s : State) (st : StationRef) (i : Issue) : (s.issued st i).regs = s.regs := rfl
@[simp] theorem State.issued_edition (s : State) (st : StationRef) (i : Issue) : (s.issued st i).edition = s.edition := rfl
@[simp] theorem State.issued_grain (s : State) (st : StationRef) (i : Issue) : (s.issued st i).grain = s.grain := rfl
@[simp] theorem State.issued_sec (s : State) (st : StationRef) (i : Issue) : (s.issued st i).sec = s.sec := rfl
@[simp] theorem State.issued_mss (s : State) (st : StationRef) (i : Issue) : (s.issued st i).mss = s.mss := rfl
@[simp] theorem State.issued_boot (s : State) (st : StationRef) (i : Issue) : (s.issued st i).boot = s.boot := rfl
@[simp] theorem State.issued_freeCount (s : State) (st : StationRef) (i : Issue) : (s.issued st i).freeCount = s.freeCount := rfl

/-! ### State.advanceTo -/

@[simp] theorem State.advanceTo_pending (s : State) (t : Nat) : (s.advanceTo t).pending = s.pending := by
  unfold State.advanceTo; split <;> rfl
@[simp] theorem State.advanceTo_timeValid (s : State) (t : Nat) : (s.advanceTo t).timeValid = s.timeValid := by
  unfold State.advanceTo; split <;> rfl
@[simp] theorem State.advanceTo_syncEnds (s : State) (t : Nat) : (s.advanceTo t).syncEnds = s.syncEnds := by
  unfold State.advanceTo; split <;> rfl
@[simp] theorem State.advanceTo_mem (s : State) (t : Nat) : (s.advanceTo t).mem = s.mem := by
  unfold State.advanceTo; split <;> rfl
@[simp] theorem State.advanceTo_engines (s : State) (t : Nat) : (s.advanceTo t).engines = s.engines := by
  unfold State.advanceTo; split <;> rfl
@[simp] theorem State.advanceTo_counts (s : State) (t : Nat) : (s.advanceTo t).counts = s.counts := by
  unfold State.advanceTo; split <;> rfl
@[simp] theorem State.advanceTo_remaps (s : State) (t : Nat) : (s.advanceTo t).remaps = s.remaps := by
  unfold State.advanceTo; split <;> rfl
@[simp] theorem State.advanceTo_nextRemaps (s : State) (t : Nat) : (s.advanceTo t).nextRemaps = s.nextRemaps := by
  unfold State.advanceTo; split <;> rfl
@[simp] theorem State.advanceTo_gates (s : State) (t : Nat) : (s.advanceTo t).gates = s.gates := by
  unfold State.advanceTo; split <;> rfl
@[simp] theorem State.advanceTo_clusterCounts (s : State) (t : Nat) : (s.advanceTo t).clusterCounts = s.clusterCounts := by
  unfold State.advanceTo; split <;> rfl
@[simp] theorem State.advanceTo_stackCounts (s : State) (t : Nat) : (s.advanceTo t).stackCounts = s.stackCounts := by
  unfold State.advanceTo; split <;> rfl
@[simp] theorem State.advanceTo_lanes (s : State) (t : Nat) : (s.advanceTo t).lanes = s.lanes := by
  unfold State.advanceTo; split <;> rfl
@[simp] theorem State.advanceTo_picks (s : State) (t : Nat) : (s.advanceTo t).picks = s.picks := by
  unfold State.advanceTo; split <;> rfl
@[simp] theorem State.advanceTo_windows (s : State) (t : Nat) : (s.advanceTo t).windows = s.windows := by
  unfold State.advanceTo; split <;> rfl
@[simp] theorem State.advanceTo_stipples (s : State) (t : Nat) : (s.advanceTo t).stipples = s.stipples := by
  unfold State.advanceTo; split <;> rfl
@[simp] theorem State.advanceTo_busy (s : State) (t : Nat) : (s.advanceTo t).busy = s.busy := by
  unfold State.advanceTo; split <;> rfl
@[simp] theorem State.advanceTo_nextIssue (s : State) (t : Nat) : (s.advanceTo t).nextIssue = s.nextIssue := by
  unfold State.advanceTo; split <;> rfl
@[simp] theorem State.advanceTo_taken (s : State) (t : Nat) : (s.advanceTo t).taken = s.taken := by
  unfold State.advanceTo; split <;> rfl
@[simp] theorem State.advanceTo_clock (s : State) (t : Nat) : (s.advanceTo t).clock = s.clock := by
  unfold State.advanceTo; split <;> rfl
@[simp] theorem State.advanceTo_works (s : State) (t : Nat) : (s.advanceTo t).works = s.works := by
  unfold State.advanceTo; split <;> rfl
@[simp] theorem State.advanceTo_writes (s : State) (t : Nat) : (s.advanceTo t).writes = s.writes := by
  unfold State.advanceTo; split <;> rfl
@[simp] theorem State.advanceTo_deferred (s : State) (t : Nat) : (s.advanceTo t).deferred = s.deferred := by
  unfold State.advanceTo; split <;> rfl
@[simp] theorem State.advanceTo_tailEvents (s : State) (t : Nat) : (s.advanceTo t).tailEvents = s.tailEvents := by
  unfold State.advanceTo; split <;> rfl
@[simp] theorem State.advanceTo_reports (s : State) (t : Nat) : (s.advanceTo t).reports = s.reports := by
  unfold State.advanceTo; split <;> rfl
@[simp] theorem State.advanceTo_partials (s : State) (t : Nat) : (s.advanceTo t).partials = s.partials := by
  unfold State.advanceTo; split <;> rfl
@[simp] theorem State.advanceTo_charges (s : State) (t : Nat) : (s.advanceTo t).charges = s.charges := by
  unfold State.advanceTo; split <;> rfl
@[simp] theorem State.advanceTo_norm (s : State) (t : Nat) : (s.advanceTo t).norm = s.norm := by
  unfold State.advanceTo; split <;> rfl
@[simp] theorem State.advanceTo_clip (s : State) (t : Nat) : (s.advanceTo t).clip = s.clip := by
  unfold State.advanceTo; split <;> rfl
@[simp] theorem State.advanceTo_segE (s : State) (t : Nat) : (s.advanceTo t).segE = s.segE := by
  unfold State.advanceTo; split <;> rfl
@[simp] theorem State.advanceTo_segMax (s : State) (t : Nat) : (s.advanceTo t).segMax = s.segMax := by
  unfold State.advanceTo; split <;> rfl
@[simp] theorem State.advanceTo_markUpdates (s : State) (t : Nat) : (s.advanceTo t).markUpdates = s.markUpdates := by
  unfold State.advanceTo; split <;> rfl
@[simp] theorem State.advanceTo_remoteMarks (s : State) (t : Nat) : (s.advanceTo t).remoteMarks = s.remoteMarks := by
  unfold State.advanceTo; split <;> rfl
@[simp] theorem State.advanceTo_marks (s : State) (t : Nat) : (s.advanceTo t).marks = s.marks := by
  unfold State.advanceTo; split <;> rfl
@[simp] theorem State.advanceTo_watches (s : State) (t : Nat) : (s.advanceTo t).watches = s.watches := by
  unfold State.advanceTo; split <;> rfl
@[simp] theorem State.advanceTo_seq (s : State) (t : Nat) : (s.advanceTo t).seq = s.seq := by
  unfold State.advanceTo; split <;> rfl
@[simp] theorem State.advanceTo_links (s : State) (t : Nat) : (s.advanceTo t).links = s.links := by
  unfold State.advanceTo; split <;> rfl
@[simp] theorem State.advanceTo_recvs (s : State) (t : Nat) : (s.advanceTo t).recvs = s.recvs := by
  unfold State.advanceTo; split <;> rfl
@[simp] theorem State.advanceTo_ports (s : State) (t : Nat) : (s.advanceTo t).ports = s.ports := by
  unfold State.advanceTo; split <;> rfl
@[simp] theorem State.advanceTo_seam (s : State) (t : Nat) : (s.advanceTo t).seam = s.seam := by
  unfold State.advanceTo; split <;> rfl
@[simp] theorem State.advanceTo_seamRetraining (s : State) (t : Nat) : (s.advanceTo t).seamRetraining = s.seamRetraining := by
  unfold State.advanceTo; split <;> rfl
@[simp] theorem State.advanceTo_sourceSeq (s : State) (t : Nat) : (s.advanceTo t).sourceSeq = s.sourceSeq := by
  unfold State.advanceTo; split <;> rfl
@[simp] theorem State.advanceTo_opened (s : State) (t : Nat) : (s.advanceTo t).opened = s.opened := by
  unfold State.advanceTo; split <;> rfl
@[simp] theorem State.advanceTo_closed (s : State) (t : Nat) : (s.advanceTo t).closed = s.closed := by
  unfold State.advanceTo; split <;> rfl
@[simp] theorem State.advanceTo_written (s : State) (t : Nat) : (s.advanceTo t).written = s.written := by
  unfold State.advanceTo; split <;> rfl
@[simp] theorem State.advanceTo_rings (s : State) (t : Nat) : (s.advanceTo t).rings = s.rings := by
  unfold State.advanceTo; split <;> rfl
@[simp] theorem State.advanceTo_msix (s : State) (t : Nat) : (s.advanceTo t).msix = s.msix := by
  unfold State.advanceTo; split <;> rfl
@[simp] theorem State.advanceTo_msixPending (s : State) (t : Nat) : (s.advanceTo t).msixPending = s.msixPending := by
  unfold State.advanceTo; split <;> rfl
@[simp] theorem State.advanceTo_gauges (s : State) (t : Nat) : (s.advanceTo t).gauges = s.gauges := by
  unfold State.advanceTo; split <;> rfl
@[simp] theorem State.advanceTo_regs (s : State) (t : Nat) : (s.advanceTo t).regs = s.regs := by
  unfold State.advanceTo; split <;> rfl
@[simp] theorem State.advanceTo_edition (s : State) (t : Nat) : (s.advanceTo t).edition = s.edition := by
  unfold State.advanceTo; split <;> rfl
@[simp] theorem State.advanceTo_grain (s : State) (t : Nat) : (s.advanceTo t).grain = s.grain := by
  unfold State.advanceTo; split <;> rfl
@[simp] theorem State.advanceTo_sec (s : State) (t : Nat) : (s.advanceTo t).sec = s.sec := by
  unfold State.advanceTo; split <;> rfl
@[simp] theorem State.advanceTo_mss (s : State) (t : Nat) : (s.advanceTo t).mss = s.mss := by
  unfold State.advanceTo; split <;> rfl
@[simp] theorem State.advanceTo_boot (s : State) (t : Nat) : (s.advanceTo t).boot = s.boot := by
  unfold State.advanceTo; split <;> rfl
@[simp] theorem State.advanceTo_freeCount (s : State) (t : Nat) : (s.advanceTo t).freeCount = s.freeCount := by
  unfold State.advanceTo; split <;> rfl

/-! ### State.emit -/

@[simp] theorem State.emit_pending (s : State) (src code : Nat) (l : List (Nat × Nat)) : (s.emit src code l).pending = s.pending := by
  have h := Laws.sameButEvents_emit s src code l; unfold State.sameButEvents at h; rw [h]
@[simp] theorem State.emit_boardTime (s : State) (src code : Nat) (l : List (Nat × Nat)) : (s.emit src code l).boardTime = s.boardTime := by
  have h := Laws.sameButEvents_emit s src code l; unfold State.sameButEvents at h; rw [h]
@[simp] theorem State.emit_timeValid (s : State) (src code : Nat) (l : List (Nat × Nat)) : (s.emit src code l).timeValid = s.timeValid := by
  have h := Laws.sameButEvents_emit s src code l; unfold State.sameButEvents at h; rw [h]
@[simp] theorem State.emit_refclk (s : State) (src code : Nat) (l : List (Nat × Nat)) : (s.emit src code l).refclk = s.refclk := by
  have h := Laws.sameButEvents_emit s src code l; unfold State.sameButEvents at h; rw [h]
@[simp] theorem State.emit_syncEnds (s : State) (src code : Nat) (l : List (Nat × Nat)) : (s.emit src code l).syncEnds = s.syncEnds := by
  have h := Laws.sameButEvents_emit s src code l; unfold State.sameButEvents at h; rw [h]
@[simp] theorem State.emit_mem (s : State) (src code : Nat) (l : List (Nat × Nat)) : (s.emit src code l).mem = s.mem := by
  have h := Laws.sameButEvents_emit s src code l; unfold State.sameButEvents at h; rw [h]
@[simp] theorem State.emit_engines (s : State) (src code : Nat) (l : List (Nat × Nat)) : (s.emit src code l).engines = s.engines := by
  have h := Laws.sameButEvents_emit s src code l; unfold State.sameButEvents at h; rw [h]
@[simp] theorem State.emit_counts (s : State) (src code : Nat) (l : List (Nat × Nat)) : (s.emit src code l).counts = s.counts := by
  have h := Laws.sameButEvents_emit s src code l; unfold State.sameButEvents at h; rw [h]
@[simp] theorem State.emit_remaps (s : State) (src code : Nat) (l : List (Nat × Nat)) : (s.emit src code l).remaps = s.remaps := by
  have h := Laws.sameButEvents_emit s src code l; unfold State.sameButEvents at h; rw [h]
@[simp] theorem State.emit_nextRemaps (s : State) (src code : Nat) (l : List (Nat × Nat)) : (s.emit src code l).nextRemaps = s.nextRemaps := by
  have h := Laws.sameButEvents_emit s src code l; unfold State.sameButEvents at h; rw [h]
@[simp] theorem State.emit_gates (s : State) (src code : Nat) (l : List (Nat × Nat)) : (s.emit src code l).gates = s.gates := by
  have h := Laws.sameButEvents_emit s src code l; unfold State.sameButEvents at h; rw [h]
@[simp] theorem State.emit_clusterCounts (s : State) (src code : Nat) (l : List (Nat × Nat)) : (s.emit src code l).clusterCounts = s.clusterCounts := by
  have h := Laws.sameButEvents_emit s src code l; unfold State.sameButEvents at h; rw [h]
@[simp] theorem State.emit_stackCounts (s : State) (src code : Nat) (l : List (Nat × Nat)) : (s.emit src code l).stackCounts = s.stackCounts := by
  have h := Laws.sameButEvents_emit s src code l; unfold State.sameButEvents at h; rw [h]
@[simp] theorem State.emit_lanes (s : State) (src code : Nat) (l : List (Nat × Nat)) : (s.emit src code l).lanes = s.lanes := by
  have h := Laws.sameButEvents_emit s src code l; unfold State.sameButEvents at h; rw [h]
@[simp] theorem State.emit_picks (s : State) (src code : Nat) (l : List (Nat × Nat)) : (s.emit src code l).picks = s.picks := by
  have h := Laws.sameButEvents_emit s src code l; unfold State.sameButEvents at h; rw [h]
@[simp] theorem State.emit_windows (s : State) (src code : Nat) (l : List (Nat × Nat)) : (s.emit src code l).windows = s.windows := by
  have h := Laws.sameButEvents_emit s src code l; unfold State.sameButEvents at h; rw [h]
@[simp] theorem State.emit_stipples (s : State) (src code : Nat) (l : List (Nat × Nat)) : (s.emit src code l).stipples = s.stipples := by
  have h := Laws.sameButEvents_emit s src code l; unfold State.sameButEvents at h; rw [h]
@[simp] theorem State.emit_busy (s : State) (src code : Nat) (l : List (Nat × Nat)) : (s.emit src code l).busy = s.busy := by
  have h := Laws.sameButEvents_emit s src code l; unfold State.sameButEvents at h; rw [h]
@[simp] theorem State.emit_nextIssue (s : State) (src code : Nat) (l : List (Nat × Nat)) : (s.emit src code l).nextIssue = s.nextIssue := by
  have h := Laws.sameButEvents_emit s src code l; unfold State.sameButEvents at h; rw [h]
@[simp] theorem State.emit_taken (s : State) (src code : Nat) (l : List (Nat × Nat)) : (s.emit src code l).taken = s.taken := by
  have h := Laws.sameButEvents_emit s src code l; unfold State.sameButEvents at h; rw [h]
@[simp] theorem State.emit_clock (s : State) (src code : Nat) (l : List (Nat × Nat)) : (s.emit src code l).clock = s.clock := by
  have h := Laws.sameButEvents_emit s src code l; unfold State.sameButEvents at h; rw [h]
@[simp] theorem State.emit_works (s : State) (src code : Nat) (l : List (Nat × Nat)) : (s.emit src code l).works = s.works := by
  have h := Laws.sameButEvents_emit s src code l; unfold State.sameButEvents at h; rw [h]
@[simp] theorem State.emit_writes (s : State) (src code : Nat) (l : List (Nat × Nat)) : (s.emit src code l).writes = s.writes := by
  have h := Laws.sameButEvents_emit s src code l; unfold State.sameButEvents at h; rw [h]
@[simp] theorem State.emit_deferred (s : State) (src code : Nat) (l : List (Nat × Nat)) : (s.emit src code l).deferred = s.deferred := by
  have h := Laws.sameButEvents_emit s src code l; unfold State.sameButEvents at h; rw [h]
@[simp] theorem State.emit_tailEvents (s : State) (src code : Nat) (l : List (Nat × Nat)) : (s.emit src code l).tailEvents = s.tailEvents := by
  have h := Laws.sameButEvents_emit s src code l; unfold State.sameButEvents at h; rw [h]
@[simp] theorem State.emit_reports (s : State) (src code : Nat) (l : List (Nat × Nat)) : (s.emit src code l).reports = s.reports := by
  have h := Laws.sameButEvents_emit s src code l; unfold State.sameButEvents at h; rw [h]
@[simp] theorem State.emit_partials (s : State) (src code : Nat) (l : List (Nat × Nat)) : (s.emit src code l).partials = s.partials := by
  have h := Laws.sameButEvents_emit s src code l; unfold State.sameButEvents at h; rw [h]
@[simp] theorem State.emit_charges (s : State) (src code : Nat) (l : List (Nat × Nat)) : (s.emit src code l).charges = s.charges := by
  have h := Laws.sameButEvents_emit s src code l; unfold State.sameButEvents at h; rw [h]
@[simp] theorem State.emit_norm (s : State) (src code : Nat) (l : List (Nat × Nat)) : (s.emit src code l).norm = s.norm := by
  have h := Laws.sameButEvents_emit s src code l; unfold State.sameButEvents at h; rw [h]
@[simp] theorem State.emit_clip (s : State) (src code : Nat) (l : List (Nat × Nat)) : (s.emit src code l).clip = s.clip := by
  have h := Laws.sameButEvents_emit s src code l; unfold State.sameButEvents at h; rw [h]
@[simp] theorem State.emit_segE (s : State) (src code : Nat) (l : List (Nat × Nat)) : (s.emit src code l).segE = s.segE := by
  have h := Laws.sameButEvents_emit s src code l; unfold State.sameButEvents at h; rw [h]
@[simp] theorem State.emit_segMax (s : State) (src code : Nat) (l : List (Nat × Nat)) : (s.emit src code l).segMax = s.segMax := by
  have h := Laws.sameButEvents_emit s src code l; unfold State.sameButEvents at h; rw [h]
@[simp] theorem State.emit_markUpdates (s : State) (src code : Nat) (l : List (Nat × Nat)) : (s.emit src code l).markUpdates = s.markUpdates := by
  have h := Laws.sameButEvents_emit s src code l; unfold State.sameButEvents at h; rw [h]
@[simp] theorem State.emit_remoteMarks (s : State) (src code : Nat) (l : List (Nat × Nat)) : (s.emit src code l).remoteMarks = s.remoteMarks := by
  have h := Laws.sameButEvents_emit s src code l; unfold State.sameButEvents at h; rw [h]
@[simp] theorem State.emit_marks (s : State) (src code : Nat) (l : List (Nat × Nat)) : (s.emit src code l).marks = s.marks := by
  have h := Laws.sameButEvents_emit s src code l; unfold State.sameButEvents at h; rw [h]
@[simp] theorem State.emit_watches (s : State) (src code : Nat) (l : List (Nat × Nat)) : (s.emit src code l).watches = s.watches := by
  have h := Laws.sameButEvents_emit s src code l; unfold State.sameButEvents at h; rw [h]
@[simp] theorem State.emit_links (s : State) (src code : Nat) (l : List (Nat × Nat)) : (s.emit src code l).links = s.links := by
  have h := Laws.sameButEvents_emit s src code l; unfold State.sameButEvents at h; rw [h]
@[simp] theorem State.emit_recvs (s : State) (src code : Nat) (l : List (Nat × Nat)) : (s.emit src code l).recvs = s.recvs := by
  have h := Laws.sameButEvents_emit s src code l; unfold State.sameButEvents at h; rw [h]
@[simp] theorem State.emit_ports (s : State) (src code : Nat) (l : List (Nat × Nat)) : (s.emit src code l).ports = s.ports := by
  have h := Laws.sameButEvents_emit s src code l; unfold State.sameButEvents at h; rw [h]
@[simp] theorem State.emit_seam (s : State) (src code : Nat) (l : List (Nat × Nat)) : (s.emit src code l).seam = s.seam := by
  have h := Laws.sameButEvents_emit s src code l; unfold State.sameButEvents at h; rw [h]
@[simp] theorem State.emit_seamRetraining (s : State) (src code : Nat) (l : List (Nat × Nat)) : (s.emit src code l).seamRetraining = s.seamRetraining := by
  have h := Laws.sameButEvents_emit s src code l; unfold State.sameButEvents at h; rw [h]
@[simp] theorem State.emit_written (s : State) (src code : Nat) (l : List (Nat × Nat)) : (s.emit src code l).written = s.written := by
  have h := Laws.sameButEvents_emit s src code l; unfold State.sameButEvents at h; rw [h]
@[simp] theorem State.emit_rings (s : State) (src code : Nat) (l : List (Nat × Nat)) : (s.emit src code l).rings = s.rings := by
  have h := Laws.sameButEvents_emit s src code l; unfold State.sameButEvents at h; rw [h]
@[simp] theorem State.emit_msix (s : State) (src code : Nat) (l : List (Nat × Nat)) : (s.emit src code l).msix = s.msix := by
  have h := Laws.sameButEvents_emit s src code l; unfold State.sameButEvents at h; rw [h]
@[simp] theorem State.emit_msixPending (s : State) (src code : Nat) (l : List (Nat × Nat)) : (s.emit src code l).msixPending = s.msixPending := by
  have h := Laws.sameButEvents_emit s src code l; unfold State.sameButEvents at h; rw [h]
@[simp] theorem State.emit_gauges (s : State) (src code : Nat) (l : List (Nat × Nat)) : (s.emit src code l).gauges = s.gauges := by
  have h := Laws.sameButEvents_emit s src code l; unfold State.sameButEvents at h; rw [h]
@[simp] theorem State.emit_regs (s : State) (src code : Nat) (l : List (Nat × Nat)) : (s.emit src code l).regs = s.regs := by
  have h := Laws.sameButEvents_emit s src code l; unfold State.sameButEvents at h; rw [h]
@[simp] theorem State.emit_edition (s : State) (src code : Nat) (l : List (Nat × Nat)) : (s.emit src code l).edition = s.edition := by
  have h := Laws.sameButEvents_emit s src code l; unfold State.sameButEvents at h; rw [h]
@[simp] theorem State.emit_grain (s : State) (src code : Nat) (l : List (Nat × Nat)) : (s.emit src code l).grain = s.grain := by
  have h := Laws.sameButEvents_emit s src code l; unfold State.sameButEvents at h; rw [h]
@[simp] theorem State.emit_sec (s : State) (src code : Nat) (l : List (Nat × Nat)) : (s.emit src code l).sec = s.sec := by
  have h := Laws.sameButEvents_emit s src code l; unfold State.sameButEvents at h; rw [h]
@[simp] theorem State.emit_freeCount (s : State) (src code : Nat) (l : List (Nat × Nat)) : (s.emit src code l).freeCount = s.freeCount := by
  have h := Laws.sameButEvents_emit s src code l; unfold State.sameButEvents at h; rw [h]

end Sys2Proof.Machine
end

