-- ==== Sys2Proof/Laws/Requests.lean ====
section
/-! SUPPORT. Requests on the management network and on the DOE mailbox: what each shared form of them answers. -/

namespace Sys2Proof.Laws

open Sys2Proof Sys2Proof.Machine

theorem mssRuns_iff (s : State) : s.mssRuns = true ↔ s.boot.phase = .booting ∨ s.boot.phase = .ready := by
  simp [State.mssRuns]

theorem quiet_iff (s : State) : s.quiet = true ↔ s.seq.state = .idle ∨ s.seq.state = .loaded ∨ s.seq.state = .faulted := by
  simp [State.quiet, or_assoc]

theorem busyRun_iff (s : State) :
    s.busyRun = true ↔ s.seq.state = .armed ∨ s.seq.state = .running ∨ s.seq.state = .waiting := by
  simp [State.busyRun, or_assoc]

/-- A device is quiet or busy, never both. -/
theorem quiet_not_busy (s : State) : s.quiet = !s.busyRun := by
  unfold State.quiet State.busyRun; cases s.seq.state <;> rfl

theorem sessionOpen_iff (l : List Session) (id : BitVec 32) :
    sessionOpen l id = true ↔ ∃ x ∈ l, x.id = id ∧ x.open_ = true := by
  simp [sessionOpen]

/-- A message leaves a session open. -/
theorem sessionOpen_touch (l : List Session) (id : BitVec 32) (n : DWord) :
    sessionOpen (touchSession l id n) id = sessionOpen l id := by
  simp only [sessionOpen, touchSession, List.any_map]
  congr 1; funext x; simp only [Function.comp]; split <;> simp_all

/-! ### Management -/

theorem mgmtRequest_in {r : MgmtReq} {id : BitVec 32} {f : State → State} {s : State} (h : s.mssRuns = true)
    (hp : r.pcie = false) (hr : r.session = some id) (ho : sessionOpen s.mss.sessions id = true) :
    mgmtRequest r f s = .next (f (s.touchMgmt r)) := by
  have : s.managed r = true := by simp [State.managed, hp, hr, ho]
  simp [mgmtRequest, h, this]

theorem mgmtRequest_out {r : MgmtReq} {f : State → State} {s : State} (h : s.mssRuns = true) (hm : s.managed r = false) :
    mgmtRequest r f s = .next s.mctpRefused := by
  simp [mgmtRequest, h, hm]

theorem mgmtRequest_off {r : MgmtReq} {f : State → State} {s : State} (h : s.mssRuns = false) :
    mgmtRequest r f s = .next s := by
  simp [mgmtRequest, h]

theorem fwRequest_eq (r : MgmtReq) (ok : State → Bool) (f : State → State) (s : State) :
    fwRequest r ok f s = mgmtRequest r (fun s => if ok s then f s else s.mctpRefused) s := rfl

/-! ### SPDM -/

theorem answers_doe (s : State) : s.answers .doe = true ↔ s.boot.phase = .ready := by simp [State.answers]

theorem answers_mctp (s : State) : s.answers .mctp = s.mssRuns := rfl

theorem spdmRequest_up {c : Chan} {f : State → State} {s : State} (h : s.answers c = true) :
    spdmRequest c f s = .next (f s) := by
  simp [spdmRequest, h]

theorem spdmRequest_off {c : Chan} {f : State → State} {s : State} (h : s.answers c = false) :
    spdmRequest c f s = .next s := by
  simp [spdmRequest, h]

theorem negotiated_up {c : Chan} {f : State → State} {s : State} (h : s.answers c = true)
    (ha : (s.spdm c).algorithms = true) : negotiated c f s = .next (f s) := by
  simp [negotiated, spdmRequest, h, ha]

theorem negotiated_early {c : Chan} {f : State → State} {s : State} (h : s.answers c = true)
    (ha : (s.spdm c).algorithms = false) : negotiated c f s = .next (s.answerError c errUnexpected) := by
  simp [negotiated, spdmRequest, h, ha]

theorem inSession_in {c : Chan} {id : BitVec 32} {f : State → State} {s : State} (h : s.answers c = true)
    (ho : sessionOpen (s.sessionsOf c) id = true) :
    inSession c id f s = .next (f (s.setSessions c (touchSession (s.sessionsOf c) id s.refclk))) := by
  simp [inSession, spdmRequest, h, ho]

theorem inSession_out {c : Chan} {id : BitVec 32} {f : State → State} {s : State} (h : s.answers c = true)
    (ho : sessionOpen (s.sessionsOf c) id = false) :
    inSession c id f s = .next (s.answerError c errUnexpected) := by
  simp [inSession, spdmRequest, h, ho]

/-! ### Tenant commands -/

theorem tenantCommand_in {r : TenantReq} {op : Nat} {ok : State → Bool} {f : State → State} {p : State → List Byte}
    {s : State} (h : s.boot.phase = .ready) (ho : sessionOpen s.sec.sessions r.session = true)
    (hv : r.vendor = Config.pciVendor) :
    tenantCommand r op ok f p s = .next (if opcodeNames r op && ok (s.touchDoe r.session) then
      (f (s.touchDoe r.session)).respond r 0 (p (s.touchDoe r.session)) else (s.touchDoe r.session).respond r 1 []) := by
  unfold tenantCommand; rw [if_pos h]; simp only [State.doeSession, ho, if_true, if_pos hv]

theorem tenantCommand_vendor {r : TenantReq} {op : Nat} {ok : State → Bool} {f : State → State} {p : State → List Byte}
    {s : State} (h : s.boot.phase = .ready) (ho : sessionOpen s.sec.sessions r.session = true)
    (hv : r.vendor ≠ Config.pciVendor) :
    tenantCommand r op ok f p s = .next ((s.touchDoe r.session).doe [ansError, errUnsupported]) := by
  unfold tenantCommand; rw [if_pos h]; simp only [State.doeSession, ho, if_true, if_neg hv]

theorem tenantCommand_out {r : TenantReq} {op : Nat} {ok : State → Bool} {f : State → State} {p : State → List Byte}
    {s : State} (h : s.boot.phase = .ready) (ho : sessionOpen s.sec.sessions r.session = false) :
    tenantCommand r op ok f p s = .next (s.doe [ansError, errUnsupported]) := by
  unfold tenantCommand; rw [if_pos h]; simp [State.doeSession, ho]

end Sys2Proof.Laws
end

