-- ==== Sys2Proof/Laws/Shared.lean ====
section
/-! SUPPORT. What each shared operation does, said once: host writes, station commands, management requests. -/

namespace Sys2Proof.Laws
open Sys2Proof Sys2Proof.Machine

/-- A host write of a device that answers has its effect on a state whose waiting half is gone; of any other it has
none. -/
theorem hostWr_eq (f : State → State) (s : State) :
    hostWr f s = if s.hostAnswers then .next (f s.halfGone) else .next s := rfl

theorem hostWr_ready {f : State → State} {s : State} (h : s.hostAnswers) : hostWr f s = .next (f s.halfGone) := by
  rw [hostWr_eq, if_pos h]

/-- A station command that may issue and that nothing refuses has its effect. -/
theorem stationStep_next {s : State} {st : StationRef} {i : Issue} {bad : State → Option Nat} {effect : State → State}
    (h : s.mayIssue st i) (hb : (s.beforeIssue st i).accepts (bad (s.beforeIssue st i))) :
    stationStep s st i bad effect = .next (effect (s.atIssue st i)) := by
  obtain ⟨h1, h2, h3⟩ := h
  unfold State.accepts at hb
  unfold stationStep State.atIssue State.beforeIssue at *
  simp only [h1, h2, h3, hb, Bool.not_true, Bool.false_eq_true, if_false, List.isEmpty_nil]

/-- Everything that a station command can do: nothing, where the stroke does not come to it; a refusal by the load check's
reasons; a poisoned word that is skipped; or its effect. -/
theorem stationStep_cases {s : State} {st : StationRef} {i : Issue} {bad : State → Option Nat} {effect : State → State} :
    (s.comesTo i = false ∧ stationStep s st i bad effect = .next s) ∨
    (∃ n, s.comesTo i = true ∧ s.issueError st i = some n ∧ stationStep s st i bad effect = .refused (.loadCheck n)) ∨
    (s.comesTo i = true ∧ s.issueError st i = none ∧
      ∃ p, ((s.runTo i.cycle.toNat).wordRead st i.cycle.toNat).poison = p ∧ p ≠ [] ∧
        stationStep s st i bad effect = .next ((s.runTo i.cycle.toNat).skipWord st i p)) ∨
    (s.mayIssue st i ∧ ∃ n, (s.beforeIssue st i).refuses (bad (s.beforeIssue st i)) = some n ∧
      stationStep s st i bad effect = .refused (.loadCheck n)) ∨
    (s.mayIssue st i ∧ (s.beforeIssue st i).refuses (bad (s.beforeIssue st i)) = none ∧
      stationStep s st i bad effect = .next (effect (s.atIssue st i))) := by
  unfold stationStep State.mayIssue State.atIssue State.beforeIssue
  cases h1 : s.comesTo i with
  | false => exact .inl ⟨rfl, rfl⟩
  | true =>
    cases h2 : s.issueError st i with
    | some n => exact .inr (.inl ⟨n, rfl, rfl, rfl⟩)
    | none =>
      generalize s.runTo i.cycle.toNat = u
      dsimp only
      cases h3 : (u.wordRead st i.cycle.toNat).poison with
      | cons w r => exact .inr (.inr (.inl ⟨rfl, rfl, w :: r, rfl, by simp, rfl⟩))
      | nil =>
        generalize u.wordCorrected st i.cycle.toNat = v
        cases h4 : v.refuses (bad v) with
        | some n => exact .inr (.inr (.inr (.inl ⟨⟨rfl, rfl, rfl⟩, n, rfl, by simp⟩)))
        | none => exact .inr (.inr (.inr (.inr ⟨⟨rfl, rfl, rfl⟩, rfl, by simp⟩)))

/-! ### Sending -/

theorem sends_refl (s : State) : s.sends s := rfl

theorem sends_trans {s t u : State} (h : s.sends t) (g : t.sends u) : s.sends u := by
  unfold State.sends at *
  rw [g, h]

theorem sends_setLink (s : State) (l : LinkRef) (x : Link) : s.sends (s.setLink l x) := rfl

theorem sends_foldl {β : Type} {f : State → β → State} (hf : ∀ (s : State) b, s.sends (f s b)) (s : State)
    (l : List β) : s.sends (l.foldl f s) := by
  induction l generalizing s with
  | nil => exact sends_refl s
  | cons b r ih => exact sends_trans (hf s b) (ih _)

theorem sends_pumpData (n : Nat) (k : Fin 16) (s : State) : s.sends (pumpData n k s) := by
  induction n generalizing s with
  | zero => exact sends_refl s
  | succ n ih =>
    unfold pumpData
    dsimp only
    split
    · exact sends_refl s
    · split
      · split
        · exact sends_trans (sends_setLink s _ _) (ih _)
        · exact sends_refl s
      · exact sends_refl s

theorem sends_pumpCtrl (n : Nat) (k : Fin 16) (s : State) : s.sends (pumpCtrl n k s) := by
  induction n generalizing s with
  | zero => exact sends_refl s
  | succ n ih =>
    unfold pumpCtrl
    dsimp only
    split
    · exact sends_refl s
    · split
      · exact sends_trans (sends_setLink s _ _) (ih _)
      · exact sends_refl s

theorem sends_pumpLink (s : State) (k : Fin 16) : s.sends (s.pumpLink k) :=
  sends_trans (sends_pumpData _ k s) (sends_pumpCtrl _ k _)

theorem sends_sendCtrl (s : State) (k : Fin 16) (dest ctype : Nat) (p : List Byte) :
    s.sends (s.sendCtrl k dest ctype p) := by
  unfold State.sendCtrl
  split
  · exact sends_trans (sends_setLink s _ _) (sends_pumpLink _ _)
  · exact sends_refl s

theorem sends_sendToRole (s : State) (r ctype : Nat) (p : List Byte) : s.sends (s.sendToRole r ctype p) := by
  unfold State.sendToRole
  split
  · exact sends_sendCtrl s _ _ _ _
  · exact sends_refl s

theorem sends_sendToAll (s : State) (ctype : Nat) (p : List Byte) : s.sends (s.sendToAll ctype p) :=
  sends_foldl (fun s _ => sends_sendToRole s _ _ _) s _

theorem sends_sendStop (s : State) (code : Nat) : s.sends (s.sendStop code) := sends_sendToAll s _ _

theorem sends_sendCheck (s : State) (k : Fin 16) : s.sends (s.sendCheck k) := sends_sendCtrl s _ _ _ _

theorem sends_sendChecks (s : State) : s.sends s.sendChecks := by
  refine sends_foldl (fun s k => ?_) s _
  split
  · exact sends_sendCheck s k
  · exact sends_refl s

theorem sends_sendGate (s : State) (n r : Nat) : s.sends (s.sendGate n r) := sends_sendToAll s _ _

end Sys2Proof.Laws
end

