-- ==== Sys2Proof/Laws/Stations.lean ====
section
/-! SUPPORT. Station commands: the one shape of their meanings, what refuses them, and the frame of their words. -/

namespace Sys2Proof.Laws

open Sys2Proof Sys2Proof.Machine

/-- A command that no check faults is accepted. -/
theorem accepts_firstBad {s : State} {l : List (Bool × Nat)} (h : firstBad l = none) : s.accepts (firstBad l) := by
  unfold State.accepts State.refuses; rw [h, ite_self]

/-- A check that fails refuses the command by its reason, but in a stroke that has skipped a command, or whose constant
data has been written. -/
theorem stationStep_bad {s : State} {st : StationRef} {i : Issue} {bad : State → Option Nat} {effect : State → State}
    {n : Nat} (h : s.mayIssue st i) (hb : bad (s.beforeIssue st i) = some n)
    (hn : (s.beforeIssue st i).checksAll) :
    stationStep s st i bad effect = .refused (.loadCheck n) := by
  obtain ⟨h1, h2, h3⟩ := h
  unfold stationStep State.beforeIssue State.checksAll at *
  simp [h1, h2, h3, State.refuses, hb, hn]

/-- Every station command is one step of its station, at its issue. -/
theorem station_form {c : Instr} {st : StationRef} {i : Issue} (hst : stationOf c = some (st, i)) :
    ∃ bad eff, ∀ s, exec c s = stationStep s st i bad eff := by
    cases c <;> simp only [stationOf, Option.some.injEq, Prod.mk.injEq, reduceCtorEq] at hst
    all_goals (obtain ⟨rfl, rfl⟩ := hst; apply Exists.intro; apply Exists.intro; intro s; simp only [exec, execLoadA, execLoadS, execLoadDiag, loadStep, execLoadMeta, execLoadW, execPass, execSwap, execDrain, execParam, execWrite, execMarkWait, execMarkSignal, execMarkRemote, execBurnish, execTopb, execSetwin, execSample, execFill, execClear, execAccum, execGather, execFold, execCopy, execUpdate, execNorm, execSend, execRecv, execFxexp, execFxset, execFxadd, execFxout]; rfl)

/-! ### Command words -/

/-- Bits that lie in the low part of two joined words. -/
theorem extract_low {m n : Nat} (x : BitVec m) (y : BitVec n) (i k : Nat) (h : i + k ≤ n) :
    (x ++ y).extractLsb' i k = y.extractLsb' i k := by
  ext j hj
  have : i + j < n := by omega
  simp [BitVec.getLsbD_append, this]

/-- Bits that lie in the high part. -/
theorem extract_high {m n : Nat} (x : BitVec m) (y : BitVec n) (i k : Nat) (h : n ≤ i) :
    (x ++ y).extractLsb' i k = x.extractLsb' (i - n) k := by
  ext j hj
  have h1 : ¬ i + j < n := by omega
  have h2 : i + j - n = i - n + j := by omega
  simp [BitVec.getLsbD_append, h1, h2]

theorem extract_whole {m : Nat} (x : BitVec m) : x.extractLsb' 0 m = x := by
  ext j hj
  simp

theorem frameWord_issue (b : BitVec 90) (o : BitVec 6) (i : Issue) : wordIssue (frameWord b o i) = i := by
  unfold wordIssue frameWord
  rw [extract_low _ _ _ _ (by decide), extract_whole, extract_high _ _ _ _ (by decide), extract_low _ _ _ _ (by decide),
    extract_whole]

theorem frameWord_opcode (b : BitVec 90) (o : BitVec 6) (i : Issue) : wordOpcode (frameWord b o i) = o := by
  unfold wordOpcode frameWord
  rw [extract_high _ _ _ _ (by decide), extract_high _ _ _ _ (by decide), extract_low _ _ _ _ (by decide), extract_whole]

/-- The operand field of a command word. -/
theorem frameWord_operands (b : BitVec 90) (o : BitVec 6) (i : Issue) (n k : Nat) (h : 38 ≤ n) :
    (frameWord b o i).extractLsb' n k = b.extractLsb' (n - 38) k := by
  unfold frameWord
  rw [extract_high _ _ _ _ (by omega), extract_high _ _ _ _ (by omega), extract_high _ _ _ _ (by omega)]
  congr 1

end Sys2Proof.Laws
end

