-- ==== Sys2Proof/WellFormed.lean ====
section
/-! DEFINITION. Well-formed commands. Most fields cannot leave their width; what is left are the lengths of lists, the
two kinds of flit, and the few codes that a field can hold and the spec does not define. -/

namespace Sys2Proof

/-- Payload bytes of a flit (R257). -/
def flitBytes : Nat := 250

/-- Symbols of a frame: four codewords of 272 (R254). -/
def frameSymbols : Nat := 1088

/-- The KIND of a control flit (R257). -/
def controlHeader (h : FlitHeader) : Bool := h.kind == 2

/-- Bytes that an access of the host takes. -/
def HostAccess.length : HostAccess → Nat
  | .read n => n
  | .write d => d.length

/-- An access of the host moves at least one byte and at most 4 KiB, the largest request of PCIe. -/
def accessOk (a : HostAccess) : Bool := decide (0 < a.length) && decide (a.length ≤ 4096)

/-- The well-formed commands. -/
def Instr.wf : Instr → Bool
  | .loadA _ _ _ => true
  | .loadW _ _ _ => true
  | .loadMeta _ _ _ => true
  | .loadS _ _ _ => true
  | .loadDiag _ _ _ => true
  | .pass _ _ _ => true
  | .swap _ _ => true
  | .drain _ _ _ => true
  | .param _ _ _ => true
  | .write _ _ _ => true
  | .markWait _ _ a => decide (a.cmp.toNat < 3)
  | .markSignal _ _ _ => true
  | .markRemote _ _ _ => true
  | .burnish _ _ _ => true
  | .topb _ _ _ => true
  | .setwin _ _ _ => true
  | .sample _ _ _ => true
  | .fill _ _ _ => true
  | .clear _ _ _ => true
  | .accum _ _ _ => true
  | .gather _ _ _ => true
  | .stippleInsert _ => true
  | .fold _ _ _ => true
  | .copy _ _ _ => true
  | .update _ _ _ => true
  | .norm _ _ _ => true
  | .send _ _ _ => true
  | .recv _ _ _ => true
  | .fxexp _ _ _ => true
  | .fxset _ _ _ => true
  | .fxadd _ _ _ => true
  | .fxout _ _ _ => true
  | .strokeStart => true
  | .strokeTail .. => true
  | .stepBegin => true
  | .gateAlarm => true
  | .closingRefresh => true
  | .refreshSlot _ _ => true
  | .strokeCloseSend => true
  | .strokeClose _ h _ => controlHeader h
  | .dataFlit _ h payload => h.kind == 1 && decide (payload.length = flitBytes)
  | .frame _ _ symbols => decide (symbols.length = frameSymbols)
  | .replaySend _ => true
  | .replayTimeout _ _ _ => true
  | .gateNotice _ h _ _ => controlHeader h
  | .stopNotice _ h _ => controlHeader h
  | .remoteMark _ h mark _ => controlHeader h && decide (mark.toNat < 4096)
  | .normTotal _ h m => controlHeader h && decide (m.slots.length ≤ 10)
  | .exponentMaxima _ h maxima => controlHeader h && decide (maxima.length ≤ 64)
  | .roleStaleReport _ h _ => controlHeader h
  | .boardTimeCheckSend _ => true
  | .boardTimeCheck _ h _ _ => controlHeader h
  | .laneLossOfLock _ _ => true
  | .laneSwap _ _ _ => true
  | .spareLaneRestore _ _ => true
  | .laneWindow _ corrected _ => decide (corrected.length = 8)
  | .portEnable _ => true
  | .portDisable _ => true
  | .portTrained _ _ => true
  | .portTrainingTimeout _ => true
  | .portDrainEnd _ => true
  | .seamLossOfLock _ _ => true
  | .seamRetrained => true
  | .seamRetrainTimeout => true
  | .launchAt _ => true
  | .launchCheck .. => true
  | .launch => true
  | .abort => true
  | .abortComplete .. => true
  | .faultClear => true
  | .counterClear => true
  | .roleCommit => true
  | .syncFire => true
  | .syncIn => true
  | .remoteSignal _ _ => true
  | .remoteSignalSend => true
  | .loadTrigger => true
  | .loadCheck _ => true
  | .ringContextWrite _ _ _ => true
  | .ringEnable _ => true
  | .ringDisable _ => true
  | .ringDrainEnd .. => true
  | .doorbell _ _ => true
  | .inCopyDone .. => true
  | .outDescriptor .. => true
  | .recordWrite .. => true
  | .recordsLost _ => true
  | .coalesceTimeout _ => true
  | .markWrite _ _ => true
  | .markAdd _ _ => true
  | .watchArm _ _ => true
  | .watchDisarm _ _ => true
  | .clusterEnable _ => true
  | .clusterDisable _ => true
  | .clusterDrainEnd _ => true
  | .clusterPowered _ => true
  | .debugEn _ => true
  | .capArmed _ => true
  | .capDisarm _ => true
  | .debugRefusalReport => true
  | .storeWindowAccess offset a => accessOk a && decide (offset.toNat + a.length ≤ 2 ^ 16)
  | .winBase _ => true
  | .bar2Access offset a => accessOk a && decide (offset.toNat + a.length ≤ 2 ^ 36)
  | .bar2Aperture _ => true
  | .namedRings _ => true
  | .gearFloor _ => true
  | .generatorCounterWrite _ _ => true
  | .gaugeSettingWrite _ _ => true
  | .refusedClear _ => true
  | .registerWrite offset bytes _ => (bytes == 4 || bytes == 8) && offset.toNat % bytes == 0
  | .flr => true
  | .perstNAssert => true
  | .boot _ => true
  | .bootReady => true
  | .watchdogExpiry => true
  | .pgoodDeassert _ => true
  | .pwrFailNAssert => true
  | .pwrFailNDeassert => true
  | .refclkLoss => true
  | .thermalTrip _ => true
  | .scrubComplete => true
  | .seedReady samples => decide (samples.length = 1024)
  | .grainHealthFailure => true
  | .grainRestart samples => decide (samples.length = 1024)
  | .checkStroke _ => true
  | .sensorSample _ _ => true
  | .gearPolicyTick => true
  | .telemetryWindow => true
  | .logMirror _ => true
  | .sensorRead _ _ => true
  | .getStatus _ => true
  | .logRead _ _ => true
  | .setPowerCap _ _ => true
  | .editionRevert _ => true
  | .cperAck _ _ => true
  | .queryDeviceIdentifiers _ => true
  | .getFirmwareParameters _ => true
  | .requestUpdate _ _ => true
  | .passComponentTable _ _ _ => true
  | .updateComponent _ _ _ _ => true
  | .firmwareData _ block _ => decide (0 < block.length) && decide (block.length ≤ 1024)
  | .transferComplete _ => true
  | .verifyComplete _ => true
  | .applyComplete _ => true
  | .activateFirmware _ => true
  | .pldmGetStatus _ => true
  | .cancelUpdateComponent _ => true
  | .cancelUpdate _ => true
  | .doeDiscovery _ => true
  | .getVersion _ => true
  | .getCapabilities _ => true
  | .negotiateAlgorithms _ _ => true
  | .getDigests _ _ => true
  | .getCertificate _ _ _ _ _ => true
  | .challenge _ _ _ => true
  | .getMeasurements _ _ _ _ _ => true
  | .keyExchange _ _ => true
  | .finishSession _ _ _ _ _ => true
  | .heartbeat _ _ => true
  | .keyUpdate _ _ => true
  | .endSession _ _ => true
  | .sessionTimeout _ _ => true
  | .tenantBegin r => decide (r.payload.length < 2 ^ 16)
  | .tenantEnd r => decide (r.payload.length < 2 ^ 16)
  | .rekey r => decide (r.payload.length < 2 ^ 16)
  | .policySet r => decide (r.payload.length < 2 ^ 16)
  | .importBegin r => decide (r.payload.length < 2 ^ 16)
  | .importSegment _ => true
  | .status r => decide (r.payload.length < 2 ^ 16)
  | .bind r => decide (r.payload.length < 2 ^ 16)
  | .tenantResponse => true
  | .keyStoreCommit _ => true
  | .query _ => true
  | .keyProg _ _ _ => true
  | .kSetGo _ _ _ => true
  | .kSetStop _ _ => true
  | .getTdispVersion _ => true
  | .getTdispCapabilities _ => true
  | .lockInterfaceRequest _ => true
  | .getDeviceInterfaceReport _ => true
  | .getDeviceInterfaceState _ => true
  | .startInterfaceRequest _ => true
  | .stopInterfaceRequest _ => true
  | .bypass => true
  | .idcode => true
  | .samplePreload _ => true
  | .extest => true
  | .clamp => true
  | .highz => true
  | .pllLockTimeout _ => true
  | .sequencingViolation _ => true
  | .endpointIdAssignment _ => true
  | .dynamicAddressAssignment _ => true

end Sys2Proof
end

