-- ==== Sys2Proof/Tests/Slice0.lean ====
section
/-! SUPPORT. Tests: ill-formed commands are told apart, worked values of the spec, and for every statement of
`Obligations.lean` states and operands that meet its hypotheses, clause by clause. -/

namespace Sys2Proof.Tests

open Sys2Proof Sys2Proof.Machine

set_option Elab.async false

/-! ### Helpers -/

/-- A command goes on to a next state with a property. -/
def nextIs (o : Out) (p : State → Bool) : Bool := match o with | .next t => p t | _ => false

/-- A record of a state has this code. -/
def hasCode (s : State) (c : BitVec 16) : Bool := s.closed.any fun r => r.code == c

/-- A command does nothing. -/
def still (c : Instr) (s : State) : Bool := nextIs (exec c s) (fun t => t == s)

/-- A command is refused, with this refusal; by the load check with this reason. -/
def claims (o : Out) (x : Refusal) : Bool := match o with | .refused r => decide (r = x) | _ => false
def unheld (o : Out) (n : Nat) : Bool := claims o (.loadCheck n)

def aVariant : Variant := ⟨0, false, false, false, 0, 0, 0, []⟩
def aCartoon : Cartoon := { noCartoon with groupSize := 1, plateMask := 3, quanta := 8, variants := [aVariant] }

/-- The ready device with a field of its sequencer set. -/
def seqd (f : Seq → Seq) : State := { State.reset with seq := f Seq.reset }
def inPhase (st : RunState) (p : Phase) : State :=
  seqd fun q => { q with state := st, phase := p, cartoon := some aCartoon, curStep := 0, curStroke := 0, strokesRun := 1 }

/-- In the first stroke of a step of 8 quanta. -/
def stroke : State := inPhase .running .inStroke

def withMem (s : State) (a n x : Nat) : State := { s with mem := s.mem.put a (leBytes n x) }
def e0 : EngineLoc := ⟨0, 0, 1⟩
def c0 : ClusterLoc := ⟨0, 0⟩
def i0 : Issue := ⟨100, 0⟩

/-! ### Well-formedness: one ill-formed command for each check -/

def aHeader (kind : BitVec 2) : FlitHeader := ⟨0, 1, kind, 0, 0, 0, 0⟩

theorem test_wf_cmp : Instr.wf (.markWait (.etch e0) i0 ⟨0, 3, 0⟩) = false ∧ Instr.wf (.markWait (.etch e0) i0 ⟨0, 2, 0⟩) = true := by
  decide
theorem test_wf_control : ∀ k : BitVec 2, k ≠ 2 → Instr.wf (.strokeClose (.kazin 0) (aHeader k) ⟨0, 0, 0⟩) = false
    ∧ Instr.wf (.gateNotice 0 (aHeader k) 0 0) = false ∧ Instr.wf (.stopNotice 0 (aHeader k) ⟨0, 0, 0, 0⟩) = false
    ∧ Instr.wf (.roleStaleReport 0 (aHeader k) ⟨0, 0, 0, 0, 0, 0, 0, 0, 0, 0, 0⟩) = false
    ∧ Instr.wf (.remoteMark 0 (aHeader k) 0 0) = false ∧ Instr.wf (.exponentMaxima 0 (aHeader k) []) = false
    ∧ Instr.wf (.normTotal 0 (aHeader k) ⟨0, 0, 0, 0, []⟩) = false
    ∧ Instr.wf (.boardTimeCheck 0 (aHeader k) ⟨0, 0, 0, 0, 0, 0, 0, 0, 0, 0, 0, 0, 0, 0, 0⟩ 0) = false := by decide
theorem test_wf_data : Instr.wf (.dataFlit (.kazin 0) (aHeader 2) (List.replicate 250 0)) = false
    ∧ Instr.wf (.dataFlit (.kazin 0) (aHeader 1) (List.replicate 249 0)) = false
    ∧ Instr.wf (.dataFlit (.kazin 0) (aHeader 1) (List.replicate 250 0)) = true := by decide +kernel
theorem test_wf_frame : Instr.wf (.frame (.kazin 0) 0 []) = false := by decide
theorem test_wf_marks : Instr.wf (.remoteMark 0 (aHeader 2) 4096 0) = false ∧ Instr.wf (.remoteMark 0 (aHeader 2) 4095 0) = true := by
  decide
theorem test_wf_lists : Instr.wf (.normTotal 0 (aHeader 2) ⟨0, 0, 0, 0, List.replicate 11 0⟩) = false
    ∧ Instr.wf (.exponentMaxima 0 (aHeader 2) (List.replicate 65 0)) = false ∧ Instr.wf (.laneWindow 0 [] 0) = false
    ∧ Instr.wf (.seedReady []) = false ∧ Instr.wf (.grainRestart []) = false := by decide
theorem test_wf_access : Instr.wf (.storeWindowAccess 0xFFFC (.read 8)) = false ∧ Instr.wf (.storeWindowAccess 0 (.read 0)) = false
    ∧ Instr.wf (.bar2Access 0 (.read 4097)) = false ∧ Instr.wf (.bar2Access 0xF_FFFF_FFFF (.read 2)) = false := by decide
theorem test_wf_register : Instr.wf (.registerWrite 4 8 0) = false ∧ Instr.wf (.registerWrite 0 2 0) = false := by decide
theorem test_wf_firmware : Instr.wf (.firmwareData 0 [] true) = false ∧ Instr.wf (.firmwareData 0 (List.replicate 1025 0) true) = false := by
  decide +kernel
theorem test_wf_tenant (l : List Byte) (h : 2 ^ 16 ≤ l.length) : Instr.wf (.tenantBegin ⟨0, 0, 0, 0, 0, 0, l⟩) = false
    ∧ Instr.wf (.tenantEnd ⟨0, 0, 0, 0, 0, 0, l⟩) = false ∧ Instr.wf (.rekey ⟨0, 0, 0, 0, 0, 0, l⟩) = false ∧ Instr.wf (.policySet ⟨0, 0, 0, 0, 0, 0, l⟩) = false
    ∧ Instr.wf (.importBegin ⟨0, 0, 0, 0, 0, 0, l⟩) = false ∧ Instr.wf (.status ⟨0, 0, 0, 0, 0, 0, l⟩) = false ∧ Instr.wf (.bind ⟨0, 0, 0, 0, 0, 0, l⟩) = false := by
  simp [Instr.wf]; omega

/-! ### Command words, written out from the field tables (R49, R81, R84, R91) -/

/-- ISSUE_CYCLE 3 at bit 0, STROKE 2 at bit 22, OPCODE 1 at bit 32, FORM 4 at 38, START 2 at 42, ACC_BASE 7 at 56. -/
theorem test_word_pass : readCommand (.etch e0)
    (BitVec.ofNat 128 (3 + 2 <<< 22 + 1 <<< 32 + 4 <<< 38 + 2 <<< 42 + 1 <<< 44 + 1 <<< 46 + 5 <<< 47 + 7 <<< 56))
    = some (.pass e0 ⟨3, 2⟩ ⟨4, 0, 2, 1, 1, 5, 7⟩) := by decide
/-- OPCODE 61, MARK 5 at 38, CMP 1 at 50, VALUE 9 at 52. -/
theorem test_word_markWait : readCommand (.store e0) (BitVec.ofNat 128 (1 + 61 <<< 32 + 5 <<< 38 + 1 <<< 50 + 9 <<< 52))
    = some (.markWait (.store e0) ⟨1, 0⟩ ⟨5, 1, 9⟩) := by decide
/-- OPCODE 0, and an opcode that the station does not have. -/
theorem test_word_unknown : readCommand (.etch e0) 0 = none ∧ readCommand (.etch e0) (BitVec.ofNat 128 (3 <<< 32)) = none := by decide

/-! ### The machine -/

theorem witness_StepRuns : State.reset.pending = [] ∧ State.reset.boardTime.toNat + 10 < 2 ^ 64
    ∧ nextIs (step State.reset) (fun t => t.boardTime == 10 && t.refclk == 1) = true
    ∧ nextIs (step { State.reset with pending := [.bypass, .idcode] }) (fun t => t.pending == [.idcode]) = true := by decide
theorem witness_StepKeeps : State.reset.mem.wf = true ∧ State.reset.canonical = true
    ∧ nextIs (step { State.reset with pending := [.markWrite 5 7] }) (fun t => t.pending.isEmpty && t.canonical) = true := by decide
theorem witness_CommandWordRoundTrip : commandWord (.swap e0 i0) = some (.etch e0, BitVec.ofNat 128 (100 + 2 <<< 32))
    ∧ readCommand (.etch e0) (BitVec.ofNat 128 (100 + 2 <<< 32)) = some (.swap e0 i0)
    ∧ wordClean (.etch e0) (BitVec.ofNat 128 (100 + 2 <<< 32)) = true
    ∧ wordClean (.etch e0) (BitVec.ofNat 128 (100 + 2 <<< 32 + 1 <<< 127)) = false
    ∧ commandWord .bypass = none := by decide

/-! ### Stations -/

def mayIssueB (s : State) (st : StationRef) (i : Issue) : Bool :=
  s.comesTo i && decide (s.issueError st i = none) && ((s.runTo i.cycle.toNat).wordRead st i.cycle.toNat).poison.isEmpty

/-- The state at cycle 100 of the stroke, for a command of that cycle. -/
def at100 : State := stroke.runTo 100
/-- A stroke in which plate E alone takes part. -/
def onePlate : State := { stroke with seq := { stroke.seq with cartoon := some { aCartoon with plateMask := 1 } } }

/-- The first word of L1's etch stream lies at 0 of the loaded half, and is poisoned. -/
def poisoned : State :=
  let c := { aCartoon with streams := [⟨srcStation (.etch e0), 0, 0, 1⟩] }
  let s := { stroke with seq := { stroke.seq with cartoon := some c } }
  { s with mem := { s.mem with marks := [(s.cartBase 0 / 8, .poison)] } }

theorem witness_StationWords : stationOf (.swap e0 i0) = some (.etch e0, i0) ∧ State.reset.seq.phase ≠ .inStroke
    ∧ still (.swap e0 i0) State.reset = true ∧ still (.swap e0 ⟨100, 1⟩) stroke = true
    ∧ stroke.comesTo ⟨39816, 0⟩ = true ∧ at100.clock = 100 ∧ still (.swap e0 ⟨99, 0⟩) at100 = true
    ∧ unheld (exec (.swap ⟨1, 0, 1⟩ i0) onePlate) 5 = true ∧ nextIs (exec (.swap e0 i0) onePlate) (fun _ => true) = true
    ∧ stroke.tailStart = 5040 * 8 - 504 ∧ unheld (exec (.swap e0 ⟨39816, 0⟩) stroke) 12 = true
    ∧ nextIs (exec (.swap e0 ⟨39815, 0⟩) stroke) (fun _ => true) = true
    ∧ unheld (exec (.swap e0 i0) { stroke with nextIssue := [(srcStation (.etch e0), 101)] }) 11 = true
    ∧ poisoned.issueError (.etch e0) i0 = none ∧ ((poisoned.runTo 100).wordRead (.etch e0) 100).poison = [poisoned.cartBase 0 / 8] := by decide +kernel
/-- `ResetState` has no hypotheses; these are some of its values. -/
theorem witness_ResetState : State.reset.regs.gateAlarm = 10_000_000 ∧ State.reset.boot.plates = 3 := by decide

def loadArgs (rowLen : BitVec 3) : LoadArgs := ⟨1, 8, 0, 3, 0, rowLen, 1, 0⟩
def metaArgs : LoadMetaArgs := ⟨1, 0, 0, 0, 8, 1⟩

theorem witness_EngineLoads_loads : mayIssueB stroke (.fetch e0) i0 = true ∧ mayIssueB stroke (.finish e0) i0 = true
    ∧ (loadArgs 4).space.toNat < 3 ∧ (loadArgs 4).rowLen.toNat < 6
    ∧ (∀ o ∈ (loadArgs 4).offsets, at100.spaceOk (.fetch e0) 1 o (loadArgs 4).len = true)
    ∧ operandLen 5 0 = some 2
    ∧ (∀ o ∈ (loadArgs 2).offsets, at100.spaceOk (.fetch e0) 1 o (loadArgs 2).len = true)
    ∧ at100.checksAll := by unfold State.checksAll; decide +kernel

/-- A row of 128 bytes from the cluster store is read in its issue cycle and is there L cycles later (R75). -/
theorem test_loadA : nextIs (exec (.loadA e0 i0 (loadArgs 4)) stroke) (fun t => t.works.length == 1) = true := by decide +kernel
theorem test_loadS : nextIs (exec (.loadS e0 i0 (loadArgs 4)) stroke) (fun t => t.works.length == 1) = true
    ∧ unheld (exec (.loadS e0 i0 (loadArgs 2)) stroke) 13 = true := by decide +kernel
theorem test_loadDiag : nextIs (exec (.loadDiag e0 i0 (loadArgs 2)) stroke) (fun t => t.works.length == 1) = true
    ∧ unheld (exec (.loadDiag e0 i0 (loadArgs 4)) stroke) 13 = true := by decide +kernel

theorem witness_EngineLoads_meta : metaArgs.space.toNat < 3 ∧ metaArgs.slot.toNat < 9
    ∧ (∀ o ∈ metaArgs.offs 0 (metaRows 0 false false), at100.spaceOk (.fetch e0) 1 o 8 = true)
    ∧ (stroke.atIssue (.fetch e0) i0).shadowed e0 = false
    ∧ nextIs (exec (.loadMeta e0 i0 metaArgs) stroke) (fun t => (t.engine e0).metas.length == 1) = true := by decide +kernel
theorem witness_EngineLoads_param : at100.spaceOk (.finish e0) 1 0 512 = true
    ∧ nextIs (exec (.param e0 i0 ⟨1, 0⟩) stroke) (fun t => t.works.length == 1) = true := by decide +kernel

def loadWArgs : LoadWArgs := ⟨1, 0, 1, 1, 0, 0, 16⟩
def passDiag : PassArgs := ⟨5, 0, 0, 1, 0, 0, 0⟩
def drainArgs : DrainArgs := ⟨0, 3, 0, 0, 0, 0, 0, 0, 0, 0, 0, 0, 0, 0⟩

theorem witness_EngineCommands : loadWArgs.mode = 0 ∧ at100.accepts (loadWBad at100 e0 100 loadWArgs)
    ∧ mayIssueB stroke (.etch e0) i0 = true
    ∧ at100.accepts (swapBad (at100.engine e0) 100) ∧ at100.accepts (passRefused e0 100 passDiag at100)
    ∧ (at100.engine e0).passes = [] ∧ operandEntries (at100.engine e0) passDiag = none ∧ at100.canonical = true
    ∧ at100.accepts (drainBad (at100.engine e0) 100 drainArgs) ∧ mayIssueB stroke (.store e0) i0 = true
    ∧ at100.accepts (writeBad at100 e0 100 ⟨1, 0, 3, 0, 4, 0⟩) := by
  unfold State.accepts; decide +kernel
/-- BF16 rows of the cluster store: the window opens 32 cycles after the issue and lasts 32 (R78). -/
theorem test_loadW : nextIs (exec (.loadW e0 i0 loadWArgs) stroke) (fun t =>
    (t.engine e0).loads.map (fun l => (l.first, l.last)) == [(100 + latency 1, 100 + latency 1 + 31)]) = true := by decide +kernel
theorem test_swap : nextIs (exec (.swap e0 i0) stroke) (fun t => (t.engine e0).nextPass == 101) = true := by decide +kernel
theorem test_pass : nextIs (exec (.pass e0 i0 passDiag) stroke) (fun t => (t.engine e0).passes.length == 1) = true := by decide +kernel
theorem test_drain : nextIs (exec (.drain e0 i0 drainArgs) stroke) (fun t => (t.engine e0).drains.length == 1) = true := by decide +kernel
theorem test_write : nextIs (exec (.write e0 i0 ⟨1, 0, 3, 0, 4, 0⟩) stroke) (fun t => (t.engine e0).writes.length == 1) = true := by
  decide +kernel

/-- A mark that another command of the same stroke has set for cycle 164. -/
def clashing : State := { stroke with markUpdates := [⟨164, 5, true, 1⟩] }
/-- A watch on mark 5 for values of at least 9. -/
def watching : State := { stroke with watches := [(0, { Watch.reset with mark := 5, cmp := 0, armed := true })] }

theorem witness_StationMarks : mayIssueB stroke (.etch e0) i0 = true
    ∧ (0 : DWord).toNat ≤ (at100.markValue 5 99).toNat ∧ at100.markValue 5 99 = 0 ∧ (at100.markValue 5 99).toNat < (1 : DWord).toNat
    ∧ mayIssueB clashing (.etch e0) i0 = true
    ∧ (∃ m ∈ (clashing.runTo 100).markUpdates, m.mark = 5 ∧ m.cycle = 164 ∧ m.set = true)
    ∧ (∀ m ∈ at100.markUpdates, ¬ (m.mark = 5 ∧ m.cycle = 164)) ∧ at100.watches = []
    ∧ watchHolds (Watch.mk 5 0 0 true false 0) 5 0 = true
    ∧ at100.wiredTo 0 1 = false := by decide +kernel
/-- At least 0 holds of mark 5, exactly 1 does not, and less than 1 holds (R91). -/
theorem test_markWait : nextIs (exec (.markWait (.etch e0) i0 ⟨5, 0, 0⟩) stroke) (fun t => t.seq.faults.isEmpty) = true
    ∧ nextIs (exec (.markWait (.etch e0) i0 ⟨5, 1, 1⟩) stroke) (fun t => t.seq.faults.map (·.code) == [0x0104]) = true
    ∧ nextIs (exec (.markWait (.etch e0) i0 ⟨5, 2, 1⟩) stroke) (fun t => t.seq.faults.isEmpty) = true
    ∧ unheld (exec (.markWait (.etch e0) i0 ⟨5, 3, 1⟩) stroke) 13 = true := by decide +kernel
/-- The update is visible 64 cycles after the issue (R92). -/
theorem test_markSignal : nextIs (exec (.markSignal (.etch e0) i0 ⟨5, 1, 7⟩) stroke) (fun t =>
      t.markValue 5 163 == 0 && t.markValue 5 164 == 7) = true
    ∧ unheld (exec (.markSignal (.etch e0) i0 ⟨5, 0, 7⟩) clashing) 16 = true
    ∧ nextIs (exec (.markSignal (.etch e0) i0 ⟨6, 0, 7⟩) clashing) (fun _ => true) = true := by decide +kernel

/-- Two devices: role 0 in slot 0, role 1 in slot 1, joined by K0; K0 is UP. -/
def joined : State :=
  let c := { aCartoon with groupSize := 2 }
  { stroke with
    seq := { stroke.seq with cartoon := some c },
    regs := { stroke.regs with roleMap := 0x98, roleEpoch := 1 },
    edition := { stroke.edition with lanes := ⟨1, 1, 0⟩ :: List.replicate 15 ⟨0, 0, 0⟩ },
    ports := [(0, { Port.reset with state := .up })] }

theorem witness_StationMarks_remote : mayIssueB joined (.etch e0) i0 = true ∧ (joined.runTo 100).wiredTo 0 1 = true := by decide +kernel
theorem test_markRemote : nextIs (exec (.markRemote (.etch e0) i0 ⟨5, 1, 0, 7⟩) joined) (fun t => (t.link (.kazin 0)).txCtrl == 1) = true
    ∧ unheld (exec (.markRemote (.etch e0) i0 ⟨5, 1, 0, 7⟩) stroke) 13 = true := by decide +kernel

/-! ### Burnisher and Counterproof -/

/-- A layer descriptor at 0 of the cluster store: SCORE 2 (no mask yet), 8 block columns, 16 block rows, G at 0. -/
def burnDesc : Nat := 2 + 8 <<< 8 + 16 <<< 100
def clStore : Nat := 0x80_0000_0000
def burning : State := withMem stroke clStore 64 burnDesc
def burnArgs : BurnishArgs := ⟨1, 0, 0, 0, 0⟩

/-- The word at `a` of a state's memory has been poisoned since the load check. -/
def poisonAt (s : State) (a : Nat) : State := { s with seq := { s.seq with loose := true }, mem := { s.mem with marks := smapPut .unwritten s.mem.marks (a / 8) .poison } }

/-- What the descriptor read of a command at cycle 100 finds. -/
def descOf (s : State) (st : StationRef) (space off n : Nat) : ReadData × State := s.descRead st 100 space off n
def works1 (o : Out) : Bool := nextIs o (fun t => t.works.length == 1)
/-- No work follows a descriptor job, and the fault of its poison waits. -/
def poisonStops (t : State) : Bool := t.works.isEmpty && t.seq.faults.map (·.code) == [0x0210]

theorem witness_BurnisherAndCounterproof : mayIssueB burning (.burnisher c0) i0 = true
    ∧ (burning.runTo 100).accepts (burnishBad (burning.runTo 100) c0 100 burnArgs)
    ∧ (descOf burning (.burnisher c0) 1 0 64).1.poison = [] ∧ 0 < (layerDesc burnDesc).bcols
    ∧ burnNamed (descOf burning (.burnisher c0) 1 0 64).2 c0 burnArgs (layerDesc (ofLe (descOf burning (.burnisher c0) 1 0 64).1.bytes)) = none
    ∧ (descOf (poisonAt burning clStore) (.burnisher c0) 1 0 64).1.poison ≠ []
    ∧ burnNamed burning c0 burnArgs (layerDesc (burnDesc + 1)) ≠ none
    ∧ (burning.runTo 100).checksAll ∧ (0 : BitVec 2) ≠ 1 ∧ (3 : BitVec 2) ≠ 2 := by
  unfold State.accepts State.checksAll; decide +kernel
theorem test_burnish : works1 (exec (.burnish c0 i0 burnArgs) burning) = true
    ∧ unheld (exec (.burnish c0 i0 { burnArgs with space := 0 }) burning) 13 = true
    ∧ unheld (exec (.burnish c0 i0 { burnArgs with space := 3 }) burning) 13 = true := by decide +kernel
/-- The first block's words are in 1,286 cycles after its place in the pace (R147). -/
theorem test_burnish_descriptor : (doJob 420 100 (.burnDesc c0 burnArgs) burning).works.map (·.due) = [burnAt 100 burnArgs 0 + 1286]
    ∧ poisonStops (doJob 420 100 (.burnDesc c0 burnArgs) (poisonAt burning clStore)) = true := by decide +kernel

/-- A copy of one E4M3 tile from 0x100 to 0x1_0000 of the cluster store, row-major with pitches of 32 bytes. -/
def copyD : Nat := 1 + 1 <<< 2 + 1 <<< 32 + 1 <<< 48 + 0x20 <<< 64 + 4 <<< 100 + 0x2000 <<< 128 + 4 <<< 164
def copying : State := withMem stroke clStore 64 copyD
def copyArgs : CopyArgs := ⟨1, 0, 0, 0⟩

theorem witness_Copy : mayIssueB copying (.counterproof c0) i0 = true
    ∧ (copying.runTo 100).accepts (copyBad (copying.runTo 100) c0 100 copyArgs)
    ∧ (descOf copying (.counterproof c0) 1 0 64).1.poison = []
    ∧ copyDescBad (descOf copying (.counterproof c0) 1 0 64).2 c0 copyArgs (copyDesc (ofLe (descOf copying (.counterproof c0) 1 0 64).1.bytes)) = none
    ∧ (descOf (poisonAt copying clStore) (.counterproof c0) 1 0 64).1.poison ≠ []
    ∧ copyDescBad stroke c0 copyArgs (copyDesc 0) ≠ none := by unfold State.accepts; decide +kernel
theorem test_copy : works1 (exec (.copy c0 i0 copyArgs) copying) = true
    ∧ unheld (exec (.copy c0 i0 { copyArgs with space := 0 }) copying) 13 = true := by decide +kernel
theorem test_copy_descriptor : (doJob 420 100 (.copyDesc c0 copyArgs) copying).works.length = 1
    ∧ poisonStops (doJob 420 100 (.copyDesc c0 copyArgs) (poisonAt copying clStore)) = true := by decide +kernel

/-! ### The Selector -/

def x0 : SelectorLoc := ⟨0, 0⟩
/-- 1,024 blocks of FP32 scores at 0x1000 of plate E, B 4, pitch 4,096 bytes, picks from 0. -/
def topbD : Nat := 0x200 + 1023 <<< 40 + 3 <<< 56 + 512 <<< 64
def topping : State := withMem stroke 0x10_0000 64 topbD
def topbArgs : TopbArgs := ⟨0x2_0000, 0, 0⟩
/-- A window: slots of 10,240 bytes at 10,240,000 for a target of one block at 0. -/
def winD : Nat := 1280000 + 1280 <<< 80
def windowing : State := withMem stroke 0x10_0000 32 winD
/-- Logits of one FP32 value, temperature 1, top-p 1, k 1, pitch 8. -/
def sampleD : Nat := 0x3F80_0000 <<< 32 + 0x3F80_0000 <<< 64 + 0x4000 <<< 128 + 1 <<< 192 + 0x8000 <<< 224
def sampling : State := withMem stroke 0x10_0000 64 sampleD
def sampleArgs : SampleArgs := ⟨0x2_0000, 0, 0⟩
/-- A fill in BF16: MODE 1, DIST 1, pitch 64 bytes, scale 1. -/
def fillD : Nat := 1 + 1 <<< 2 + 2 <<< 4 + 8 <<< 8 + 0x3F80_0000 <<< 32 + 0x8000 <<< 128
def filling : State := withMem stroke 0x10_0000 64 fillD

theorem witness_SelectorCommands : mayIssueB topping (.selector x0) i0 = true
    ∧ (topping.runTo 100).accepts (topbBad (topping.runTo 100) x0 100 topbArgs)
    ∧ (windowing.runTo 100).accepts (setwinBad (windowing.runTo 100) x0 100 ⟨0, 1, 0x2_0000⟩)
    ∧ (sampling.runTo 100).accepts (samplingBad (sampling.runTo 100) x0 100 sampleArgs) ∧ sampleD % 4 = 0 ∧ fillD % 4 ≠ 0 := by
  unfold State.accepts; decide +kernel
theorem witness_SelectorCommands_descriptors : (descOf topping (.selector x0) 2 0x10_0000 64).1.poison = []
    ∧ topbDescBad (descOf topping (.selector x0) 2 0x10_0000 64).2 x0 topbArgs topbD = none
    ∧ topbDescBad stroke x0 topbArgs 0 ≠ none ∧ winBad 0 0 ≠ none ∧ samplingDescBad stroke x0 sampleArgs 2 ≠ none
    ∧ (descOf (poisonAt topping 0x10_0000) (.selector x0) 2 0x10_0000 64).1.poison ≠ []
    ∧ (descOf windowing (.selector x0) 2 0x10_0000 32).1.poison = [] ∧ winBad 0 winD = none
    ∧ (descOf sampling (.selector x0) 2 0x10_0000 64).1.poison = [] ∧ samplingDescBad sampling x0 sampleArgs sampleD = none
    ∧ samplingDescBad filling x0 sampleArgs fillD = none := by decide +kernel
theorem test_topb : works1 (exec (.topb x0 i0 topbArgs) topping) = true
    ∧ (doJob 1380 100 (.topbDesc x0 topbArgs) topping).works.map (·.due) = [topbWrite 100 (topbDesc topbD) 0]
    ∧ poisonStops (doJob 1380 100 (.topbDesc x0 topbArgs) (poisonAt topping 0x10_0000)) = true := by decide +kernel
/-- The change is in force 1,344 cycles after the issue (R166). -/
theorem test_setwin : works1 (exec (.setwin x0 i0 ⟨0, 1, 0x2_0000⟩) windowing) = true
    ∧ nextIs (exec (.setwin x0 i0 ⟨0, 0, 0⟩) stroke) (fun t => (smapGet .empty t.windows 0).next == [(1444, none)]) = true := by
  decide +kernel
theorem test_setwin_descriptor : (smapGet .empty (doJob 1380 100 (.setwinDesc x0 ⟨0, 1, 0x2_0000⟩) windowing).windows 0).next
      = [(1444, some (winDesc winD))]
    ∧ (doJob 1380 100 (.setwinDesc x0 ⟨0, 1, 0x2_0000⟩) (poisonAt windowing 0x10_0000)).windows = [] := by decide +kernel
theorem test_sample : works1 (exec (.sample x0 i0 sampleArgs) sampling) = true
    ∧ (doJob 1380 100 (.sampleDesc x0 sampleArgs) sampling).works.map (·.due) = [sampleWrite 100 (sampleDesc sampleD) 0] := by
  decide +kernel
theorem test_fill : (filling.runTo 100).accepts (samplingBad (filling.runTo 100) x0 100 sampleArgs)
    ∧ works1 (exec (.fill x0 i0 sampleArgs) filling) = true
    ∧ (doJob 1380 100 (.sampleDesc x0 sampleArgs) filling).works.map (·.due) = [1390] := by
  unfold State.accepts; decide +kernel

/-! ### The Stipple -/

/-- Key 17 falls in set 259 (R169). -/
theorem test_stipple_set : stSet 17 = 259 ∧ (stWays 17).head? = some 2072 := by decide

/-- An operation descriptor: one record each of spill and output at 0x20_0000 and 0x30_0000, count at 0x40_0000. -/
def stD : Nat := 0x4_0000 + 1 <<< 36 + 0x6_0000 <<< 64 + 1 <<< 100 + 0x8_0000 <<< 128
def clearing : State := withMem stroke clStore 64 stD
def stippling (x : Stipple) : State := { stroke with stipples := [(0, x)] }
def anOp : StOp := stOp stD
/-- An open operation, whose descriptor has been read; one whose descriptor was not legal. -/
def busySt : State := stippling { Stipple.empty with open_ := true, op := some anOp }
def lostOp : State := stippling { Stipple.empty with open_ := true }
def aSlot (k : Nat) : Option StSlot := some ⟨BitVec.ofNat 32 k, [], []⟩
def stFull : SMap (Option StSlot) := (List.range 8).map fun w => (2072 + w, aSlot (1000 + w))
/-- A closed run of key 17 waits, at a Stipple with these slots and this many records spilled. -/
def runs17 (slots : SMap (Option StSlot)) (spilled : Nat) : State :=
  stippling { Stipple.empty with slots := slots, open_ := true, op := some anOp, spilled := spilled, runs := [⟨17, [], 10, 0, none⟩] }

theorem witness_StippleCommands : mayIssueB clearing (.stipple c0) i0 = true
    ∧ (clearing.runTo 100).accepts (clearBad (clearing.runTo 100) c0 100 ⟨1, 0⟩)
    ∧ (busySt.runTo 100).accepts (accumBad (busySt.runTo 100) c0 100 ⟨1, 0, 0x1000, 0, 0⟩)
    ∧ (busySt.runTo 100).accepts (foldBad (busySt.runTo 100) c0 100 ⟨5000⟩)
    ∧ (busySt.runTo 100).accepts (gatherBad (busySt.runTo 100) c0 100 ⟨0x2_0000, 0, 5000⟩)
    ∧ (stroke.runTo 100).checksAll ∧ ((stroke.runTo 100).stipple c0).open_ = false
    ∧ ((busySt.runTo 100).stipple c0).open_ = true ∧ ((busySt.atIssue (.stipple c0) i0).stipple c0).op = some anOp
    ∧ ((lostOp.atIssue (.stipple c0) i0).stipple c0).op = none
    ∧ (lostOp.runTo 100).accepts (foldBad (lostOp.runTo 100) c0 100 ⟨5000⟩) := by
  unfold State.accepts State.checksAll; decide +kernel
theorem witness_StippleCommands_descriptor : (descOf clearing (.stipple c0) 1 0 64).1.poison = []
    ∧ stOpBad (descOf clearing (.stipple c0) 1 0 64).2 0 stD = none ∧ stOpBad stroke 0 (1 <<< 60) ≠ none
    ∧ (descOf (poisonAt clearing clStore) (.stipple c0) 1 0 64).1.poison ≠ [] := by decide +kernel
theorem witness_StippleCommands_insert : (runs17 [] 0).canonical = true ∧ ((runs17 [] 0).stipple c0).runs = [⟨17, [], 10, 0, none⟩]
    ∧ (stroke.stipple c0).runs = [] ∧ stPlace [] 17 = some (2072, none) ∧ stPlace stFull 17 = none ∧ anOp.spillCap = 1 := by decide +kernel
theorem test_clear : nextIs (exec (.clear c0 i0 ⟨1, 0⟩) clearing) (fun t => (t.stipple c0).open_ && t.works.map (·.due) == [140, 612]) = true
    ∧ unheld (exec (.clear c0 i0 ⟨1, 0⟩) busySt) 13 = true
    ∧ ((doJob 420 100 (.clearDesc c0 ⟨1, 0⟩) clearing).stipple c0).op = some anOp
    ∧ ((doJob 420 100 (.clearDesc c0 ⟨1, 0⟩) (poisonAt clearing clStore)).stipple c0).op = none := by decide +kernel
theorem test_accum : works1 (exec (.accum c0 i0 ⟨1, 0, 0x1000, 0, 0⟩) busySt) = true
    ∧ unheld (exec (.accum c0 i0 ⟨1, 0, 0x1000, 0, 0⟩) stroke) 13 = true := by decide +kernel
theorem test_gather : works1 (exec (.gather c0 i0 ⟨0x2_0000, 0, 5000⟩) busySt) = true
    ∧ nextIs (exec (.gather c0 i0 ⟨0x2_0000, 0, 0⟩) busySt) (fun t => t.seq.faults.map (·.code) == [0x0102]) = true
    ∧ unheld (exec (.gather c0 i0 ⟨0x2_0000, 0, 5000⟩) stroke) 13 = true := by decide +kernel
theorem test_fold : nextIs (exec (.fold c0 i0 ⟨5000⟩) busySt) (fun t => t.works.map (·.due) == [101] && !(t.stipple c0).open_) = true
    ∧ unheld (exec (.fold c0 i0 ⟨5000⟩) stroke) 13 = true := by decide +kernel
/-- A run of key 17 takes way 0 of its set; with the set full it spills; with the spill region full it is fault 0x0120. -/
theorem test_stippleInsert : nextIs (exec (.stippleInsert c0) (runs17 [] 0)) (fun t =>
      (t.stipple c0).slots.map (·.1) == [2072] && (t.stipple c0).runs.isEmpty) = true
    ∧ nextIs (exec (.stippleInsert c0) (runs17 stFull 0)) (fun t => (t.stipple c0).spilled == 1) = true
    ∧ nextIs (exec (.stippleInsert c0) (runs17 stFull 1)) (fun t => t.seq.faults.map (·.code) == [0x0120]) = true
    ∧ still (.stippleInsert c0) stroke = true := by decide +kernel


/-! ### Update units and relays -/

def n0 : UnitLoc := ⟨0, 0⟩
/-- One hyper-parameter set, MAX_NORM 1. -/
def params : List Byte := leBytes 128 (1 + 0x3F80_0000 <<< 32)
def training : State :=
  { stroke with seq := { stroke.seq with cartoon := some { aCartoon with variants := [{ aVariant with params := params }] } } }
/-- A descriptor of 16 elements with its planes in plate E. -/
def updD : Nat := 16 <<< 32 + 0x1_0000 <<< 128 + 0x2_0000 <<< 192 + 0x3_0000 <<< 256 + 0x4_0000 <<< 320 + 0x5_0000 <<< 384
def updating : State := withMem training 0x10_0000 64 updD
def updArgs : UpdateArgs := ⟨0x2_0000, 0, 0, 0⟩
def aNorm (l : List (Nat × Word)) : NormJob := { mode := 0, scope := 0, cycle := 100, partials := l, stage := 0, expMax := none }
def training2 : State :=
  { stroke with seq := { stroke.seq with cartoon := some { aCartoon with
      variants := [{ aVariant with strokesM1 := 1, params := params }] } } }
def nearAll : State := { training2 with norm := some { aNorm ((List.range 9).map fun i => (i + 1, 0)) with scope := 1 } }
def nearNorm : State := { training with norm := some (aNorm ((List.range 9).map fun i => (i + 1, 0))) }

theorem witness_UpdateUnits : mayIssueB updating (.updateUnit n0) i0 = true
    ∧ (updating.runTo 100).accepts (updateBad (updating.runTo 100) n0 100 updArgs)
    ∧ (training.runTo 100).accepts (normBad (training.runTo 100) n0 100 ⟨0, 0⟩) ∧ training.norm = none ∧ 1 < training.normUnits
    ∧ mayIssueB nearNorm (.updateUnit n0) i0 = true
    ∧ (nearNorm.runTo 100).accepts (normBad (nearNorm.runTo 100) n0 100 ⟨0, 0⟩) ∧ nearNorm.normUnits ≤ 9 + 1
    ∧ (nearAll.runTo 100).accepts (normBad (nearAll.runTo 100) n0 100 ⟨0, 1⟩)
    ∧ (nearAll.atIssue (.updateUnit n0) i0).norm.map (fun j => (j.scope, j.partials.length)) = some (1, 9)
    ∧ (stroke.runTo 100).paramBlock = [] ∧ (stroke.runTo 100).checksAll := by unfold State.accepts State.checksAll; decide +kernel
theorem witness_UpdateUnits_descriptor : (descOf updating (.updateUnit n0) 2 0x10_0000 64).1.poison = []
    ∧ updateDescBad (descOf updating (.updateUnit n0) 2 0x10_0000 64).2 n0 (updateDesc updD) = none
    ∧ updateDescBad training n0 (updateDesc 0) ≠ none
    ∧ (descOf (poisonAt updating 0x10_0000) (.updateUnit n0) 2 0x10_0000 64).1.poison ≠ [] := by decide +kernel
theorem test_update : nextIs (exec (.update n0 i0 updArgs) updating) (fun t => t.works.map (·.due) == [1380]) = true
    ∧ (doJob 1380 100 (.updateDesc n0 updArgs none false) updating).works.map (·.due) = [100 + 2561]
    ∧ poisonStops (doJob 1380 100 (.updateDesc n0 updArgs none false) (poisonAt updating 0x10_0000)) = true := by decide +kernel
theorem test_norm : nextIs (exec (.norm n0 i0 ⟨0, 0⟩) training) (fun t => (t.norm.map (·.partials.length)) == some 1) = true
    ∧ nextIs (exec (.norm n0 i0 ⟨0, 0⟩) { training with norm := some (aNorm [(1, 0)]) }) (fun t => (t.norm.map (·.partials.length)) == some 2) = true
    ∧ nextIs (exec (.norm n0 i0 ⟨0, 0⟩) nearNorm) (fun t => (t.norm.map (·.partials.length)) == some 10) = true
    ∧ nextIs (exec (.norm n0 i0 ⟨0, 1⟩) nearAll) (fun t => t.works.map (·.due) == [164]) = true
    ∧ unheld (exec (.norm n0 i0 ⟨0, 0⟩) stroke) 13 = true := by decide +kernel

def r0 : RelayLoc := .seam 0
def sendArgs : SendArgs := ⟨0, 0, 0, 0, 0, 0, 0⟩
def recvArgs : RecvArgs := ⟨0x2000, 0, 0, 0, 0, 10⟩

theorem witness_RelayCommands : mayIssueB stroke (.relay r0) i0 = true ∧ at100.accepts (sendBad at100 r0 100 sendArgs)
    ∧ at100.accepts (recvBad at100 r0 100 recvArgs) ∧ (∀ l ∈ recvLinks r0 recvArgs, (stroke.link l).rxBuffer = [])
    ∧ at100.accepts (fxexpBad at100 r0 100 ⟨0, 255, 0, 0⟩) ∧ at100.accepts (fxBad at100 r0 100 true ⟨0, 0x2000, 0, 0⟩)
    ∧ at100.accepts (fxBad at100 r0 100 false ⟨0, 0x8000, 0, 0⟩) ∧ mayIssueB stroke (.relay (.kazin 0)) i0 = true
    ∧ at100.skipped = false ∧ at100.wiredTo 0 0 = false := by unfold State.accepts; decide +kernel
theorem test_send : nextIs (exec (.send r0 i0 sendArgs) stroke) (fun t => t.works.length == 1) = true
    ∧ unheld (exec (.send (.kazin 0) i0 sendArgs) stroke) 13 = true := by decide +kernel
theorem test_recv : nextIs (exec (.recv r0 i0 recvArgs) stroke) (fun t => t.recvs.map (·.cycle) == [100]) = true := by decide +kernel
theorem test_fxexp : nextIs (exec (.fxexp r0 i0 ⟨0, 255, 0, 0⟩) stroke) (fun t => t.works.map (·.due) == [1380]) = true
    ∧ unheld (exec (.fxexp r0 i0 ⟨0, 256, 0, 0⟩) stroke) 13 = true := by decide +kernel
theorem test_fxset : nextIs (exec (.fxset r0 i0 ⟨0, 0x2000, 0, 0⟩) stroke) (fun t => t.works.map (·.due) == [1384]) = true := by decide +kernel
theorem test_fxadd : nextIs (exec (.fxadd r0 i0 ⟨0, 0x2000, 0, 0⟩) stroke) (fun t => t.works.map (·.due) == [1384]) = true := by decide +kernel
theorem test_fxout : nextIs (exec (.fxout r0 i0 ⟨0, 0x8000, 0, 0⟩) stroke) (fun t => t.works.map (·.due) == [1384]) = true := by decide +kernel

/-! ### The step sequencer -/

def due : State := inPhase .running .strokeDue
def stepDue : State := inPhase .running .stepDue
def waiting : State :=
  let v := { aVariant with gate := true }
  { stepDue with seq := { stepDue.seq with state := .waiting, cartoon := some { aCartoon with variants := [v] }, prevEnd := 10_000 } }
def ready0 (n : DWord) (s : State) : State := { s with seq := { s.seq with ready := [(0, some n)] } }

theorem witness_StrokeStarts : due.seq.phase = .strokeDue ∧ due.canonical = true ∧ due.norm = none ∧ stroke.seq.phase ≠ .strokeDue
    ∧ ({ due with norm := some { (aNorm []) with stage := 2 } } : State).norm.map (·.stage) = some 2 := by
  decide +kernel
theorem test_strokeStart : nextIs (exec .strokeStart due) (fun t => t.seq.phase == .inStroke && t.seq.strokesRun == 2) = true
    ∧ still .strokeStart stroke = true := by decide +kernel

/-- A device with plate E alone: no Seam message is awaited at the tail. -/
def single : State :=
  { stroke with boot := { Boot.reset with plates := 1 },
                seq := { stroke.seq with cartoon := some { aCartoon with plateMask := 1 } } }
def tailOf (s : State) : State := s.tailCollect.applyRemaps.flipLinks.tailMarks
def longer : State :=
  let c := { aCartoon with plateMask := 1, variants := [{ aVariant with strokesM1 := 1 }] }
  { single with seq := { single.seq with cartoon := some c } }
def faulty : State := { single with seq := { single.seq with faults := [⟨0x0104, 100, 0, 0, 0, 0, false⟩] } }
/-- A probe step of a device with XCHECK 1. -/
def probed : State :=
  let c := { aCartoon with plateMask := 1, variants := [{ aVariant with probe := true }] }
  { single with seq := { single.seq with cartoon := some c }, edition := { single.edition with xcheck := true } }
def abortedFault : State := { faulty with seq := { faulty.seq with abortAt := some 0 } }

theorem witness_StrokeTails : single.seq.phase = .inStroke ∧ (tailOf single).strokeEnds = .complete
    ∧ (tailOf longer).strokeEnds = .goesOn ∧ due.seq.phase ≠ .inStroke
    ∧ (match (tailOf faulty).strokeEnds with | .faulted c _ _ _ => c == 0x0104 | _ => false) = true
    ∧ (tailOf faulty).seq.abortAt = none ∧ (tailOf abortedFault).seq.abortAt.isSome = true
    ∧ (match (tailOf abortedFault).strokeEnds with | .faulted .. => true | _ => false) = true
    ∧ (tailOf probed).strokeEnds = .complete ∧ (tailOf probed).edition.xcheck = true ∧ ((tailOf probed).variantOf 0).probe = true := by
  decide +kernel
theorem test_strokeTail : nextIs (exec (.strokeTail false) longer) (fun t => t.seq.phase == .strokeDue && t.seq.strokeInStep == 1) = true
    ∧ nextIs (exec (.strokeTail false) single) (fun t => t.seq.nextStep == 1 && t.seq.stepsDone == 1) = true := by decide +kernel
theorem test_strokeTail_fault : nextIs (exec (.strokeTail false) faulty) (fun t => t.seq.state == .faulted && t.seq.faultStep == some 0) = true
    ∧ still (.strokeTail false) due = true := by decide +kernel

/-- A gated step starts at the first multiple of 1,000 at least 4,000 counts past the latest readiness (R39). -/
theorem test_startCount : (ready0 10_001 waiting).groupSize = 1 ∧ (ready0 10_001 waiting).readyOf 0 0 = some 10_001
    ∧ (ready0 10_001 waiting).startCount 0 = some 15_000 ∧ (ready0 11_000 waiting).startCount 0 = some 15_000 := by decide +kernel
/-- A cartoon whose step draws from a seed that the device does not have. -/
def seedless : State :=
  let c := { aCartoon with variants := [{ aVariant with seedSel := 1 }] }
  { stepDue with seq := { stepDue.seq with cartoon := some c }, regs := { stepDue.regs with seedReplay := true } }
theorem witness_StepBegins : stepDue.seq.phase = .stepDue ∧ (stepDue.variantOf 0).gate = false ∧ stepDue.startCount 0 = some 0
    ∧ (stepDue.advanceTo 0).beginFault = none ∧ (waiting.variantOf 0).gate = true ∧ (0 : Nat) < waiting.groupSize
    ∧ waiting.readyOf 0 0 = none ∧ stroke.seq.phase ≠ .stepDue ∧ ((ready0 10_001 waiting).advanceTo 15_000).beginFault = none
    ∧ (ready0 10_001 waiting).seq.prevEnd.toNat < 15_000 ∧ seedless.startCount 0 = some 0
    ∧ (seedless.advanceTo 0).beginFault.isSome = true ∧ seedless.seq.abortAt = none := by decide +kernel
theorem test_stepBegin : nextIs (exec .stepBegin stepDue) (fun t => t.seq.phase == .strokeDue && t.seq.state == .running) = true
    ∧ nextIs (exec .stepBegin (ready0 10_001 waiting)) (fun t => t.boardTime == 15_000 && hasCode t 0x0106) = true
    ∧ still .stepBegin waiting = true ∧ nextIs (exec .stepBegin seedless) (fun t => t.seq.state == .faulted) = true := by
  decide +kernel

def alarming : State := { waiting with regs := { waiting.regs with gateAlarm := 0 } }
theorem witness_WaitsAndRefreshes : alarming.seq.state = .waiting ∧ alarming.seq.alarmed = false ∧ alarming.startCount 0 = none
    ∧ (ready0 10_001 waiting).seq.closing = false ∧ (ready0 10_001 waiting).boardTime.toNat + 2000 ≤ 15_000
    ∧ (ready0 10_001 { waiting with boardTime := 13_001 }).startCount 0 = some 15_000
    ∧ waiting.startCount 0 = none ∧ stroke.seq.phase ≠ .stepDue
    ∧ 2520 * 15 + 252 * 9 + 251 < 5040 * stroke.quanta ∧ ¬ (2520 * 16 + 252 * 0 + 251 < 5040 * stroke.quanta) := by decide +kernel
theorem test_gateAlarm : nextIs (exec .gateAlarm alarming) (fun t => t.boardTime == 10_001 && hasCode t 0x0107) = true
    ∧ still .gateAlarm stepDue = true := by decide +kernel
theorem test_closingRefresh : nextIs (exec .closingRefresh (ready0 10_001 waiting)) (fun t =>
      t.boardTime == 13_000 && t.seq.closing && t.mss.bandInForce.isEmpty) = true
    ∧ still .closingRefresh (ready0 10_001 { waiting with boardTime := 13_001 }) = true
    ∧ still .closingRefresh waiting = true := by decide +kernel
/-- The refresh slots of stack 9 in a stroke of 8 quanta are numbered 0 to 15 (R30). -/
theorem test_refreshSlot : nextIs (exec (.refreshSlot 9 15) { stroke with mss := { stroke.mss with bands := [(9, ⟨true, none⟩)] } })
      (fun t => t.mss.bandInForce == [(9, true)]) = true ∧ nextIs (exec (.refreshSlot 9 15) stroke) (fun t => t.seq.refreshDone == [(9, 15)]) = true
    ∧ still (.refreshSlot 0 16) stroke = true := by decide +kernel

def checking : State := inPhase .running .checkDue
/-- Cluster E.00 is tested; engine 8 is its spare. -/
def checking0 : State := { checking with seq := { checking.seq with checkClusters := [0] } }
def results (odd : Option (Fin 9)) : List EngineResult :=
  (List.finRange 9).map fun f => ⟨c0, f, if odd = some f then 1 else 0⟩
def twoOff : List EngineResult := (List.finRange 9).map fun f => ⟨c0, f, if f = 3 then 1 else if f = 4 then 2 else 0⟩
theorem witness_CheckStrokes : checking0.seq.phase = .checkDue ∧ checking0.seq.abortAt = none ∧ checking0.canonical = true
    ∧ liveEngines (checking0.remap (clusterAt 0)) ≠ []
    ∧ (∀ f ∈ liveEngines (checking0.remap (clusterAt 0)), ∀ g ∈ liveEngines (checking0.remap (clusterAt 0)),
      resultOf (results none) (clusterAt 0) f = resultOf (results none) (clusterAt 0) g)
    ∧ checking0.seq.checkClusters = [clusterIdx c0] ∧ checking0.nextRemaps = [] ∧ checking0.edition.spareAuto = true
    ∧ (checking0.remap c0).spare = some 8 ∧ (3 : Fin 9) ∈ (checking0.remap c0).lmap
    ∧ 3 ≤ (liveEngines (checking0.remap c0)).length
    ∧ (∀ g ∈ liveEngines (checking0.remap c0), resultOf (results (some 3)) c0 g = 0 ↔ g ≠ 3) ∧ stroke.seq.phase ≠ .checkDue
    ∧ checking0.seq.faults = [] ∧ checking0.seq.stopBy = none ∧ checking0.seq.staleReports = [] ∧ checking0.seq.checkFault = false
    ∧ checking0.busyRun = true ∧ bitAt checking0.mss.plateFailed.toNat c0.plate.val = false
    ∧ findCluster twoOff c0 (checking0.remap c0) = some [3, 4] ∧ checking0.limitDone = false
    ∧ (([3, 4] : List (Fin 9)).filter fun f => (checking0.remap c0).lmap.contains f).length = 2 := by
  decide +kernel
/-- The engine that differs is retired, and the spare takes its place (R445). -/
theorem test_checkStroke : nextIs (exec (.checkStroke (results none)) checking0) (fun t => t.seq.phase == .stepDue) = true
    ∧ nextIs (exec (.checkStroke (results (some 3))) checking0) (fun t => (t.remap c0).spare == none && (t.remap c0).retired == 8) = true
    ∧ nextIs (exec (.checkStroke twoOff) checking0) (fun t => t.seq.state == .faulted && hasCode t 0x050A) = true
    ∧ still (.checkStroke []) stroke = true := by decide +kernel

/-! ### Gates, ports, lanes and the Seam -/

def gated (st : GateState) (p : Bool) : State := { State.reset with gates := smapPut .reset [] 0 ⟨st, p⟩ }
theorem witness_ClusterGateWrites : State.reset.boot.phase = .ready ∧ (State.reset.gate c0).state = .on ∧ ((gated .off false).gate c0).state = .off
    ∧ ((gated .draining true).gate c0).state = .draining ∧ ((gated .draining true).gate c0).pending = true
    ∧ ((gated .powering false).gate c0).state = .powering ∧ State.reset.seq.state = .idle ∧ stroke.seq.state ≠ .idle := by decide +kernel
theorem witness_ClusterGateEvents : ((gated .draining true).gate c0).state = .draining ∧ (State.reset.gate c0).state ≠ .draining
    ∧ ((gated .powering false).gate c0).state = .powering ∧ (State.reset.gate c0).state ≠ .powering := by decide +kernel
theorem test_clusterEnable : nextIs (exec (.clusterEnable c0) (gated .off false)) (fun t => (t.gate c0).state == .powering && hasCode t 0x010A) = true
    ∧ nextIs (exec (.clusterEnable c0) (gated .draining false)) (fun t => (t.gate c0).pending) = true
    ∧ nextIs (exec (.clusterEnable c0) State.reset) (fun t => (t.gate c0).state == .on) = true := by decide +kernel
theorem test_clusterDisable : nextIs (exec (.clusterDisable c0) State.reset) (fun t => (t.gate c0).state == .draining) = true
    ∧ nextIs (exec (.clusterDisable ⟨1, 35⟩) stroke) (fun t => t.regs.refused && t.regs.refusedAt == 0x4338) = true
    ∧ nextIs (exec (.clusterDisable c0) (gated .off false)) (fun t => (t.gate c0).state == .off) = true := by decide +kernel
theorem test_clusterDrainEnd : nextIs (exec (.clusterDrainEnd c0) (gated .draining false)) (fun t => (t.gate c0).state == .off) = true
    ∧ nextIs (exec (.clusterDrainEnd c0) (gated .draining true)) (fun t => (t.gate c0).state == .powering) = true
    ∧ still (.clusterDrainEnd c0) State.reset = true := by decide +kernel
theorem test_clusterPowered : nextIs (exec (.clusterPowered c0) (withMem (gated .powering false) clStore 8 5)) (fun t =>
      (t.gate c0).state == .on && byteAt t.mem clStore == 0) = true ∧ still (.clusterPowered c0) State.reset = true := by
  decide +kernel

/-- K0 is wired to slot 1's K0, and slot 1 holds role 1. -/
def wired (st : PortState) (p : Bool) : State :=
  { State.reset with
    ports := smapPut .reset [] 0 { Port.reset with state := st, pending := p },
    edition := { Edition.default with lanes := ⟨1, 1, 0⟩ :: List.replicate 15 ⟨0, 0, 0⟩ },
    regs := { Regs.reset with roleMap := 0x98 } }
def wiredRun (st : PortState) : State := { wired st false with seq := stroke.seq }
theorem witness_PortWrites : ((wired .off false).lane 0).use = 1 ∧ (wired .off false).plateOffered 0 = true ∧ ((wired .off false).port 0).state = .off
    ∧ (mapRole (wired .off false).regs.roleMap 1).isSome = true ∧ (wiredRun .up).busyRun = true ∧ (State.reset.lane 0).use = 0
    ∧ mapRole (wired .training false).regs.roleMap 1 = some 1 ∧ ((wired .draining true).port 0).pending = true := by decide +kernel
theorem witness_PortEvents : ((wired .training false).port 0).state = .training ∧ ((wired .draining true).port 0).state = .draining
    ∧ (PeerId.mk 1 (some 1) 0).slot = ((wired .training false).lane 0).peerSlot ∧ (PeerId.mk 1 (some 1) 0).port = ((wired .training false).lane 0).peerPort
    ∧ mapRole (wired .training false).regs.roleMap 1 = some 1 ∧ (PeerId.mk 2 (some 1) 0).slot ≠ ((wired .training false).lane 0).peerSlot
    ∧ (State.reset.port 0).state = .off := by decide +kernel
theorem test_portEnable : nextIs (exec (.portEnable 0) (wired .off false)) (fun t => (t.port 0).state == .training && hasCode t 0x0305) = true
    ∧ nextIs (exec (.portEnable 0) (wired .failed false)) (fun t => (t.port 0).state == .training) = true
    ∧ nextIs (exec (.portEnable 0) (wired .draining false)) (fun t => (t.port 0).pending) = true
    ∧ nextIs (exec (.portEnable 0) State.reset) (fun t => (t.port 0).state == .off) = true := by decide +kernel
theorem test_portDisable : nextIs (exec (.portDisable 0) (wiredRun .up)) (fun t => t.regs.refusedAt == 0x4000 && t.regs.refused) = true
    ∧ nextIs (exec (.portDisable 0) (wired .up false)) (fun t => (t.port 0).state == .draining) = true
    ∧ nextIs (exec (.portDisable 0) (wired .training false)) (fun t => (t.port 0).state == .off) = true
    ∧ nextIs (exec (.portDisable 0) (wired .draining true)) (fun t => (t.port 0).pending == false) = true := by decide +kernel
theorem test_portTrained : nextIs (exec (.portTrained 0 ⟨1, some 1, 0⟩) (wired .training false)) (fun t => (t.port 0).state == .up) = true
    ∧ nextIs (exec (.portTrained 0 ⟨2, some 1, 0⟩) (wired .training false)) (fun t => (t.port 0).state == .failed) = true
    ∧ still (.portTrained 0 ⟨1, some 1, 0⟩) State.reset = true := by decide +kernel
theorem test_portTrainingTimeout : nextIs (exec (.portTrainingTimeout 0) (wired .training false)) (fun t =>
      (t.port 0).state == .failed && hasCode t 0x0306) = true ∧ still (.portTrainingTimeout 0) State.reset = true := by
  decide +kernel
theorem test_portDrainEnd : nextIs (exec (.portDrainEnd 0) (wired .draining true)) (fun t => (t.port 0).state == .training) = true
    ∧ nextIs (exec (.portDrainEnd 0) (wired .draining false)) (fun t => (t.port 0).state == .off) = true
    ∧ still (.portDrainEnd 0) State.reset = true := by decide +kernel

def lanes (f : LaneDir → LaneDir) : State :=
  { State.reset with ports := smapPut .reset [] 0 { Port.reset with state := .up, rx := f Port.reset.rx, tx := f Port.reset.tx } }
/-- A swap of position 2 that is asked for, urgently or not, and answered with frame 0. -/
def answered2 (x : LaneDir) : LaneDir := { x with request := some (2, true), acked := some 0 }
def planned2 (x : LaneDir) : LaneDir := { x with request := some (2, false), acked := some 0 }
def swapping : State := { lanes answered2 with boardTime := 5 }
theorem witness_LaneEvents : ((lanes id).port 0).rx.spare.isSome = true ∧ ((lanes id).port 0).rx.request = none
    ∧ ((lanes fun x => { x with spare := none }).port 0).rx.spare = none
    ∧ ((lanes answered2).port 0).tx.request = some (2, true) ∧ ((lanes answered2).port 0).tx.acked = some 0
    ∧ 5 * (0 + 1) ≤ swapping.boardTime.toNat ∧ ((lanes (planned2)).port 0).rx.request = some (2, false)
    ∧ ((lanes answered2).port 0).rx.prbsErrors < (lanes answered2).edition.laneThresh.toNat ∧ State.reset.seq.phase ≠ .inStroke
    ∧ ((lanes fun x => { x with probation := some 4 }).port 0).rx.probation = some 4
    ∧ (lanes id).edition.laneThresh.toNat < nth 0 [0, 5000] 1 ∧ nth 0 [0, 5000] 0 ≤ (lanes id).edition.laneThresh.toNat
    ∧ nth 0 [4096] 0 ≤ (lanes id).edition.laneThresh.toNat := by decide +kernel
theorem test_laneLossOfLock : nextIs (exec (.laneLossOfLock 0 3) (lanes id)) (fun t => (t.port 0).rx.request == some (3, true)) = true
    ∧ nextIs (exec (.laneLossOfLock 0 3) (lanes fun x => { x with spare := none })) (fun t => (t.port 0).state == .failed) = true := by decide +kernel
theorem test_laneSwap : nextIs (exec (.laneSwap 0 true 2) swapping) (fun t =>
      (t.port 0).rx.spare == none && (t.port 0).laneSwaps == 1 && hasCode t 0x0304) = true
    ∧ nextIs (exec (.laneSwap 0 false 2) (lanes planned2)) (fun t => (t.port 0).tx.spare == none) = true
    ∧ still (.laneSwap 0 true 2) (lanes answered2) = true ∧ still (.laneSwap 0 true 2) (lanes id) = true := by
  decide +kernel
theorem test_spareLaneRestore : nextIs (exec (.spareLaneRestore 0 true) (lanes fun x => { x with probation := some 4, spare := none })) (fun t =>
      (t.port 0).rx.spare == some 4 && (t.port 0).rx.probation == none) = true
    ∧ nextIs (exec (.spareLaneRestore 0 true) (lanes fun x => { x with probation := some 4, spare := none, prbsErrors := 5000 })) (fun t =>
      (t.port 0).rx.spare == none && (t.port 0).rx.prbsErrors == 0) = true := by decide +kernel
theorem test_laneWindow : nextIs (exec (.laneWindow 0 [0, 5000, 0, 0, 0, 0, 0, 0] 0) (lanes id)) (fun t => (t.port 0).rx.request == some (1, false)) = true
    ∧ nextIs (exec (.laneWindow 0 [4096, 0, 0, 0, 0, 0, 0, 0] 2) (lanes id)) (fun t => (t.port 0).rx.request == none && (t.port 0).rx.prbsErrors == 2) = true := by decide +kernel

/-- The check stroke behind a fault is due. -/
def afterFault : State := { checking with seq := { checking.seq with state := .faulted, checkFault := true } }
def retraining : State := { State.reset with seamRetraining := true }
def oneE : State := { State.reset with boot := { Boot.reset with plates := 1 } }
theorem witness_SeamEvents : State.reset.boot.plates = 3 ∧ State.reset.seamRetraining = false ∧ State.reset.seq.phase = .none
    ∧ stroke.boot.plates = 3 ∧ stroke.seamRetraining = false ∧ stepDue.seamRetraining = false ∧ oneE.boot.plates ≠ 3
    ∧ afterFault.seq.phase = .checkDue ∧ afterFault.seq.checkFault = true ∧ checking.seq.checkFault = false ∧ checking.boot.plates = 3
    ∧ due.seq.phase = .strokeDue ∧ due.seamRetraining = false ∧ ({ oneE with seamRetraining := true } : State).boot.plates ≠ 3
    ∧ hbmPlate 0 = some 0 ∧ hbmPlate 0x28_0000_0000 = some 1 ∧ retraining.edition.fallbackPlate.toNat = 0 := by decide +kernel
theorem test_seamLossOfLock : nextIs (exec (.seamLossOfLock 0 7) State.reset) (fun t => t.seamRetraining && hasCode t 0x0310) = true
    ∧ nextIs (exec (.seamLossOfLock 0 7) stroke) (fun t => t.seq.seamFailed && t.seq.faults.map (·.code) == [0x0310]) = true
    ∧ nextIs (exec (.seamLossOfLock 0 7) stepDue) (fun t => t.seamRetraining) = true
    ∧ nextIs (exec (.seamLossOfLock 0 7) afterFault) (fun t => t.seamRetraining && hasCode t 0x0310) = true ∧ still (.seamLossOfLock 0 7) oneE = true := by
  decide +kernel
theorem test_seamRetrained : nextIs (exec .seamRetrained retraining) (fun t => !t.seamRetraining && hasCode t 0x0311) = true
    ∧ still .seamRetrained State.reset = true := by decide +kernel
theorem test_seamRetrainTimeout : nextIs (exec .seamRetrainTimeout retraining) (fun t => t.boot.plates == 1 && !t.seamRetraining) = true
    ∧ nextIs (exec .seamRetrainTimeout { oneE with seamRetraining := true }) (fun t => t.boot.plates == 1 && hasCode t 0x0312) = true
    ∧ still .seamRetrainTimeout State.reset = true := by decide +kernel

/-! ### Marks and watches of the host -/

/-- Vector 0 unmasked: its message goes to 0x1000. -/
def unmasked (s : State) : State := { s with msix := [(0, ⟨0x1000, 7, 0⟩)] }
def watched : State := { State.reset with watches := [(0, { Watch.reset with mark := 5, cmp := 0, armed := true, value := 9 })] }

theorem witness_HostMarkUpdates : State.reset.boot.phase = .ready ∧ State.reset.watches = []
    ∧ (watched.watches.filter fun p => watchHolds p.2 5 9) = watched.watches ∧ bitAt (smapGet MsixEntry.reset watched.msix 0).control.toNat 0 = true
    ∧ bitAt (smapGet MsixEntry.reset (unmasked watched).msix 0).control.toNat 0 = false ∧ watched.msixPending.contains 0 = false
    ∧ watchHolds { Watch.reset with mark := 5, cmp := 0, armed := true, value := 9 } 5 8 = false := by decide +kernel
/-- A watch that fires becomes disarmed and writes its message, 4 bytes little-endian (R338). -/
theorem test_markWrite : nextIs (exec (.markWrite 5 9) (unmasked watched)) (fun t => t.mark 5 == 9 && smapGetList 0 t.mem.host 0x1000 4 == [7, 0, 0, 0]
      && !(smapGet Watch.reset t.watches 0).armed && (smapGet Watch.reset t.watches 0).hit) = true
    ∧ nextIs (exec (.markWrite 5 8) watched) (fun t => (smapGet Watch.reset t.watches 0).armed) = true := by decide +kernel
theorem test_markAdd : nextIs (exec (.markAdd 5 4) { watched with marks := [(5, 0xFFFF_FFFF_FFFF_FFFF)] }) (fun t => t.mark 5 == 3) = true
    ∧ nextIs (exec (.markAdd 5 9) watched) (fun t => t.msixPending == [0]) = true := by decide +kernel

/-- MARK 5 at bit 0, CMP at 12, VECTOR at 14. -/
theorem witness_WatchWrites : (BitVec.ofNat 2 (5 >>> 12) : BitVec 2) ≠ 3 ∧ (smapGet Watch.reset State.reset.watches 3).armed = false
    ∧ bitAt 5 33 = false ∧ bitAt 5 32 = false ∧ bitAt (2 ^ 33) 33 = true ∧ bitAt (2 ^ 32) 32 = true
    ∧ (BitVec.ofNat 2 (3 <<< 12 >>> 12) : BitVec 2) = 3
    ∧ watchHolds { Watch.reset with mark := 5, armed := true } 5 (State.reset.markNow 5) = true
    ∧ watchHolds { Watch.reset with mark := 5, armed := true, value := 1 } 5 (State.reset.markNow 5) = false := by decide +kernel
theorem test_watchArm : nextIs (exec (.watchArm 3 5) State.reset) (fun t => !(smapGet Watch.reset t.watches 3).armed && t.msixPending == [0]) = true
    ∧ nextIs (exec (.watchArm 3 (BitVec.ofNat 64 (5 + 1 <<< 12))) { State.reset with marks := [(5, 1)] }) (fun t => (smapGet Watch.reset t.watches 3).armed) = true
    ∧ nextIs (exec (.watchArm 3 (BitVec.ofNat 64 (3 <<< 12))) State.reset) (fun t => t.regs.refused && t.regs.refusedAt == 0x190060) = true
    ∧ nextIs (exec (.watchArm 3 (BitVec.ofNat 64 (2 ^ 33))) State.reset) (fun t => t.regs.refused) = true := by decide +kernel
theorem test_watchDisarm : nextIs (exec (.watchDisarm 0 5) watched) (fun t => !(smapGet Watch.reset t.watches 0).armed) = true
    ∧ nextIs (exec (.watchDisarm 0 6) watched) (fun t => t.regs.refused) = true
    ∧ nextIs (exec (.watchDisarm 0 (BitVec.ofNat 64 (2 ^ 32))) State.reset) (fun t => t.regs.refused) = true := by decide +kernel

/-! ### Registers -/

theorem witness_SettingWrites : State.reset.seq.state = .idle ∧ stroke.seq.state = .running ∧ 4 % 8 ≤ 4 ∧ 4 < 5 % 8
    ∧ (smapGet Gate.reset State.reset.gates (2303 / 32)).state = .on ∧ (smapGet Gate.reset (gated .off false).gates (31 / 32)).state ≠ .on
    ∧ isNan (BitVec.extractLsb' 0 32 (0x3F80_0000 : DWord)) = false ∧ isNan (BitVec.extractLsb' 0 32 (0x7FC0_0000 : DWord)) = true
    ∧ State.reset.edition.gearSlow.toNat = 3 ∧ BitVec.ofNat 2 ({ State.reset with regs := { Regs.reset with gearFloor := 3 } } : State).gearWanted = 3 := by
  decide +kernel
theorem test_namedRings : nextIs (exec (.namedRings (BitVec.ofNat 64 (1 + 2 <<< 16 + 3 <<< 32 + 4 <<< 48 + 1 <<< 63))) State.reset) (fun t =>
      t.regs.completionRing == 1 && t.regs.eventRing == 2 && t.regs.proofRing == 3 && t.regs.seedRing == 4 && t.regs.seedReplay) = true
    ∧ nextIs (exec (.namedRings 0) stroke) (fun t => t.regs.refusedAt == 0x3030 && t.regs.refused) = true := by decide +kernel
theorem test_bar2Aperture : nextIs (exec (.bar2Aperture 4) State.reset) (fun t => t.regs.bar2Aperture == 4) = true
    ∧ nextIs (exec (.bar2Aperture 5) State.reset) (fun t => t.regs.refused && t.regs.refusedAt == 0x3038) = true := by decide +kernel
theorem test_refusedClear : nextIs (exec (.refusedClear 1) { State.reset with regs := { Regs.reset with refused := true } }) (fun t => !t.regs.refused) = true
    ∧ nextIs (exec (.refusedClear 0) { State.reset with regs := { Regs.reset with refused := true } }) (fun t => t.regs.refused) = true := by decide +kernel
theorem test_generatorCounterWrite : nextIs (exec (.generatorCounterWrite 2319 7) State.reset) (fun t => t.lanes == [(2319, 7)]) = true
    ∧ nextIs (exec (.generatorCounterWrite 31 7) (gated .off false)) (fun t => t.regs.refusedAt == 0x1B00F8 && t.lanes.isEmpty) = true
    ∧ nextIs (exec (.generatorCounterWrite 0 7) stroke) (fun t => t.regs.refused) = true := by decide +kernel
theorem test_gaugeSettingWrite : nextIs (exec (.gaugeSettingWrite 255 0x3F80_0000) State.reset) (fun t => t.gauges.map (·.1) == [255]) = true
    ∧ nextIs (exec (.gaugeSettingWrite 1 0x7FC0_0000) State.reset) (fun t => t.regs.refusedAt == 0x10010 && t.regs.refused) = true
    ∧ nextIs (exec (.gaugeSettingWrite 1 0x8000_0000) State.reset) (fun t => t.regs.refused) = true := by decide +kernel
def fastG : State :=
  { State.reset with regs := { Regs.reset with gearReq := 0, gearNow := 0 }, mss := { Mss.reset with choice := 0 } }
theorem test_gearFloor : nextIs (exec (.gearFloor 3) State.reset) (fun t => t.regs.gearFloor == 3) = true
    ∧ nextIs (exec (.gearFloor 2) fastG) (fun t => t.regs.gearReq == 2 && t.mss.sram.map (·.code) == [0x0501]) = true
    ∧ nextIs (exec (.gearFloor 3) { State.reset with edition := { Edition.default with gearSlow := 2 } }) (fun t => t.regs.refused && t.regs.refusedAt == 0x1030) = true := by
  decide +kernel

theorem witness_RegisterWrites : (64 : DWord).toNat % 64 = 0 ∧ (32 : DWord).toNat % 64 ≠ 0 ∧ State.reset.regs.capArmed = false
    ∧ State.reset.seq.state = .idle ∧ State.reset.regs.heldWrite = none ∧ (0x28_0000 : Nat) < 0x400_0000 ∧ ¬ ((2 = 4 ∨ 2 = 8) ∧ 0 % 2 = 0) := by
  decide
theorem test_registerWrite : nextIs (exec (.registerWrite 0x1028 8 5) State.reset) (fun t => t.regs.gateAlarm == 5) = true
    ∧ nextIs (exec (.registerWrite 0x3000 8 32) State.reset) (fun t => t.regs.refused && t.regs.refusedAt == 0x3000) = true
    ∧ nextIs (exec (.registerWrite 0x2020 8 5) stroke) (fun t => t.regs.refused && t.regs.baseStep == 0) = true
    ∧ nextIs (exec (.registerWrite 0x3FFFFF8 8 5) State.reset) (fun t => t == State.reset) = true
    ∧ nextIs (exec (.registerWrite 0x5008 8 5) { State.reset with regs := { Regs.reset with capArmed := true } }) (fun t => t.regs.refused) = true := by
  decide +kernel
/-- The low half waits for the high half (R350). -/
theorem test_registerWrite_halves : nextIs (exec (.registerWrite 0x2008 4 0x1_2345_6789) State.reset) (fun t =>
      t.regs.syncLoad == 0 && (match exec (.registerWrite 0x200C 4 1) t with | .next u => u.regs.syncLoad == 0x1_2345_6789 | _ => false)) = true
    ∧ nextIs (exec (.registerWrite 0x200C 4 1) State.reset) (fun t => t.regs.syncLoad == 0) = true
    ∧ nextIs (exec (.registerWrite 4 8 0) State.reset) (fun t => t.regs.unsupported) = true := by decide +kernel

/-! ### Debug, windows and memory -/

def debugging : State := { State.reset with regs := { Regs.reset with debug := true } }
def armedCap : State := { State.reset with regs := { Regs.reset with debug := true, capArmed := true } }
def lateRefusal : State := { State.reset with sec := { Security.reset with refusals := [⟨40000, 0x5000⟩] } }
theorem witness_DebugWrites : State.reset.sec.sealed = false ∧ State.reset.edition.debugAllowed = true ∧ debugging.regs.capArmed = false
    ∧ (BitVec.extractLsb' 10 6 (BitVec.ofNat 64 (35 <<< 10))).toNat < 36 ∧ ¬ (BitVec.extractLsb' 10 6 (BitVec.ofNat 64 (36 <<< 10))).toNat < 36
    ∧ armedCap.regs.capArmed = true ∧ (BitVec.ofNat 64 (2 ^ 32)).getLsbD 32 = true ∧ lateRefusal.sec.refusals = [⟨40000, 0x5000⟩] := by decide +kernel
theorem test_debugEn : nextIs (exec (.debugEn 1) State.reset) (fun t => t.regs.debug) = true
    ∧ nextIs (exec (.debugEn 1) { State.reset with sec := { Security.reset with sealed := true } }) (fun t => t.sec.refusals == [⟨40000, 0x5000⟩]) = true
    ∧ nextIs (exec (.debugEn 0) debugging) (fun t => !t.regs.debug) = true
    ∧ nextIs (exec (.debugEn 0) stroke) (fun t => t.sec.refusals.length == 1) = true := by decide +kernel
theorem test_capArmed : nextIs (exec (.capArmed (BitVec.ofNat 64 (35 <<< 10))) debugging) (fun t => t.regs.capArmed && t.regs.capCluster == 35) = true
    ∧ nextIs (exec (.capArmed (BitVec.ofNat 64 (36 <<< 10))) debugging) (fun t => t.sec.refusals == [⟨40000, 0x5010⟩]) = true := by decide +kernel
theorem test_capDisarm : nextIs (exec (.capDisarm 0) armedCap) (fun t => !t.regs.capArmed) = true
    ∧ nextIs (exec (.capDisarm (BitVec.ofNat 64 (35 <<< 10))) debugging) (fun t => t.regs.capCluster == 35) = true
    ∧ nextIs (exec (.capDisarm (BitVec.ofNat 64 (36 <<< 10))) debugging) (fun t => t.regs.refusedAt == 0x5010) = true
    ∧ nextIs (exec (.capDisarm (BitVec.ofNat 64 (2 ^ 32))) debugging) (fun t => t.sec.refusals.length == 1) = true := by decide +kernel
theorem test_debugRefusalReport : nextIs (exec .debugRefusalReport lateRefusal) (fun t =>
      t.refclk == 40000 && t.boardTime == 400000 && t.regs.refusedAt == 0x5000 && hasCode t 0x0420) = true
    ∧ still .debugRefusalReport State.reset = true := by decide +kernel

theorem witness_StoreWindow : (8 = 4 ∨ 8 = 8) ∧ (0xFFF8 : BitVec 16).toNat % 8 = 0 ∧ debugging.regs.debug = true ∧ debugging.seq.state = .idle
    ∧ mapped (debugging.regs.winBase.toNat + 0xFFF8) = true ∧ State.reset.regs.debug = false
    ∧ mapped ({ Regs.reset with winBase := 0x0080_2400_0000#48 }).winBase.toNat = false
    ∧ 0x80_2400_0000 % 0x1_0000 = 0 ∧ debugging.plateOffered 0 = true ∧ storeBase 0 + storeSize = 0x80_2400_0000
    ∧ ¬ ((2 = 4 ∨ 2 = 8) ∧ 0 % 2 = 0) := by decide +kernel
theorem test_storeWindowAccess : nextIs (exec (.storeWindowAccess 8 (.write [1, 2, 3, 4])) debugging) (fun t =>
      (match exec (.storeWindowAccess 8 (.read 8)) t with | .next u => u.regs.readData == [1, 2, 3, 4, 0, 0, 0, 0] | _ => false)) = true
    ∧ nextIs (exec (.storeWindowAccess 8 (.write [1, 2, 3, 4])) State.reset) (fun t => t.regs.refused && t.regs.refusedAt == 0x40008) = true
    ∧ nextIs (exec (.storeWindowAccess 0xFFF8 (.read 4)) State.reset) (fun t => t.regs.readData == [0, 0, 0, 0]) = true
    ∧ nextIs (exec (.storeWindowAccess 1 (.read 4)) debugging) (fun t => t.regs.unsupported) = true := by decide +kernel
theorem test_winBase : nextIs (exec (.winBase 0x80_23FF_0000) State.reset) (fun t => t.regs.winBase == 0x80_23FF_0000) = true
    ∧ nextIs (exec (.winBase 0x80_2400_0000) State.reset) (fun t => t.regs.refused && t.regs.refusedAt == 0x5018) = true := by decide +kernel

theorem witness_MemoryWrites : State.reset.mem.wf = true ∧ ([1, 2, 3, 4, 5, 6, 7, 8] : List Byte).length = 8 ∧ 0 < ([1] : List Byte).length
    ∧ 7 + ([1] : List Byte).length ≤ 8 ∧ markAt (poisonAt State.reset 0).mem 0 = .poison ∧ markAt State.reset.mem 0 ≠ .poison
    ∧ (poisonAt State.reset 0).mem.wf = true := by decide +kernel
/-- A partial write of a poisoned word is discarded, and one of an unwritten word fills with zeros (R198). -/
theorem test_partial_write : (poisonAt State.reset 0).mem.put 7 [1] = (poisonAt State.reset 0).mem
    ∧ bytesAt (State.reset.mem.put 7 [1]) 0 8 = [0, 0, 0, 0, 0, 0, 0, 1] ∧ markAt (State.reset.mem.put 7 [1]) 0 = .good := by decide +kernel

def sealed : State := { State.reset with sec := { Security.reset with sealed := true } }
def closedBar : State := { State.reset with sec := { Security.reset with bar2Closed := true } }
def held : State := { seqd (fun q => { q with state := .loaded, cartoon := some aCartoon }) with regs := { Regs.reset with bar2Aperture := 2 } }
theorem witness_Bar2Access : State.reset.sec.bar2Closed = false ∧ hbmPlate 0 = some 0 ∧ State.reset.plateOffered 0 = true
    ∧ State.reset.sec.scrub = none ∧ State.reset.mem.early = [] ∧ State.reset.sec.tenant = none ∧ markAt State.reset.mem 0 = .unwritten
    ∧ State.reset.seq.phase ≠ .inStroke ∧ held.inCartoonRegion (held.cartBase 0) 8 = true ∧ sealed.sec.sealed = true
    ∧ held.cartBase 0 % 8 = 0 ∧ hbmPlate (held.cartBase 0) = some 0 ∧ held.cartBase 0 / 2 ^ 36 = held.regs.bar2Aperture.toNat
    ∧ held.inCartoonRegion 0 8 = false := by decide +kernel
theorem test_bar2Access : nextIs (exec (.bar2Access 16 (.write [1, 2, 3, 4, 5, 6, 7, 8])) State.reset) (fun t =>
      (match exec (.bar2Access 16 (.read 8)) t with | .next u => u.regs.readData == [1, 2, 3, 4, 5, 6, 7, 8] | _ => false)) = true
    ∧ nextIs (exec (.bar2Access 16 (.read 8)) sealed) (fun t => t.regs.unsupported) = true
    ∧ nextIs (exec (.bar2Access 16 (.read 8)) closedBar) (fun t => t.regs.unsupported) = true
    ∧ nextIs (exec (.bar2Access (BitVec.ofNat 36 (held.cartBase 0)) (.write [1, 2, 3, 4, 5, 6, 7, 8])) held) (fun t => t.mem.bytes.isEmpty) = true := by
  decide +kernel
theorem test_bar2Access_poison : nextIs (exec (.bar2Access 16 (.read 8)) (poisonAt State.reset 16)) (fun t =>
      t.regs.readPoisoned && t.regs.readData == [0, 0, 0, 0, 0, 0, 0, 0] && hasCode t 0x0212) = true := by decide +kernel
theorem witness_SealedMemoryHidden : sealed.boot.phase = .ready ∧ nextIs (exec (.bar2Access 0 (.read 8)) sealed) (fun _ => true) = true
    ∧ State.reset.regs.debug = false ∧ nextIs (exec (.storeWindowAccess 0 (.read 8)) State.reset) (fun _ => true) = true := by decide +kernel

/-! ### Launch, abort, roles, the sync pulse and loads -/

/-- A LOADED device alone in its group, whose board time is valid. -/
def loaded : State :=
  { seqd (fun q => { q with state := .loaded, cartoon := some aCartoon }) with
    regs := { Regs.reset with roleMap := 8, roleEpoch := 1 }, timeValid := true }
def armed : State := { loaded with seq := { loaded.seq with state := .armed, launchAt := 1_000_000 } }
/-- An armed device of a group of two. -/
def armed2 : State := { armed with regs := { armed.regs with roleMap := 0x98 } }
/-- The check of role 1, in slot 1, that agrees with the launch of `armed2`. -/
def check1 (s : State) : CheckMsg := { s.checkMsg 0 with role := 1, slot := 1, gearReq := 3 }
def armed2c : State := { armed2 with ports := [(0, { Port.reset with state := .up, check := some ⟨check1 armed2, 0⟩ })] }
def checked : State := { armed with seq := { armed.seq with launchOk := true } }

theorem witness_LaunchAtArms : loaded.boot.phase = .ready ∧ loaded.timeValid = true ∧ loaded.boardTime = 0
    ∧ mapRole loaded.regs.roleMap loaded.boot.boardSlot.toNat = some 0 ∧ mapSize loaded.regs.roleMap = 1
    ∧ loaded.tenantChanging = false ∧ loaded.sec.importState ≠ ImportState.running
    ∧ aCartoon.role = 0 ∧ aCartoon.groupSize = 1 := by decide +kernel
theorem test_launchAt : nextIs (exec (.launchAt 1_000_000) loaded) (fun t => t.seq.state == .armed && t.seq.launchAt == 1_000_000) = true
    ∧ nextIs (exec (.launchAt 999_000) loaded) (fun t => t.seq.state == .loaded && t.regs.refused && t.regs.refusedAt == 0x2018) = true
    ∧ nextIs (exec (.launchAt 1_000_001) loaded) (fun t => t.regs.refused) = true
    ∧ nextIs (exec (.launchAt 1_000_000) armed) (fun t => t.regs.refused && t.seq.state == .armed) = true := by decide +kernel

theorem witness_LaunchStartsRun : armed2.seq.state = .armed ∧ armed2.seq.abortPending = false ∧ armed2.seq.launchOk = false
    ∧ (armed2.advanceTo 900_000).otherRoles = [1] ∧ (armed2.advanceTo 900_000).agreedCheck 1 = none
    ∧ ((armed2c.advanceTo 900_000).agreedCheck 1).isSome = true ∧ (armed2c.advanceTo 900_000).firstGear = 3
    ∧ checked.seq.launchOk = true ∧ loaded.seq.state ≠ .armed := by decide +kernel
theorem test_launchCheck : nextIs (exec (.launchCheck false) armed2) (fun t => t.seq.state == .loaded && t.boardTime == 900_000 && hasCode t 0x0326) = true
    ∧ nextIs (exec (.launchCheck false) armed2c) (fun t => t.seq.state == .armed && t.seq.launchOk && t.regs.gearNow == 3) = true
    ∧ still (.launchCheck false) loaded = true ∧ still (.launchCheck false) checked = true := by decide +kernel
theorem test_launch : nextIs (exec .launch checked) (fun t => t.seq.state == .running && t.seq.phase == .stepDue && t.boardTime == 1_000_000) = true
    ∧ still .launch armed = true := by decide +kernel

def inTail : State := { stroke with boardTime := BitVec.ofNat 64 (stroke.countAt stroke.tailStart) }
def aborting : State := { loaded with seq := { loaded.seq with abortPending := true } }
theorem witness_AbortStops : loaded.seq.state = .loaded ∧ aborting.seq.abortPending = true ∧ stroke.seq.phase = .inStroke
    ∧ stroke.boardTime.toNat < stroke.countAt stroke.tailStart ∧ inTail.countAt inTail.tailStart ≤ inTail.boardTime.toNat
    ∧ due.seq.phase = .strokeDue ∧ checking.seq.phase = .checkDue ∧ armed.seq.phase = .none ∧ armed.seq.abortPending = false
    ∧ stepDue.startCount stepDue.seq.nextStep.toNat = some 0 ∧ waiting.startCount waiting.seq.nextStep.toNat = none
    ∧ waiting.seq.state ≠ .idle ∧ aborting.rings = [] ∧ aborting.closed = [] := by decide +kernel
/-- In the tail the run stops at the end of the next stroke (R340). -/
theorem test_abort : nextIs (exec .abort stroke) (fun t => t.seq.abortAt == some 0 && t.seq.phase == .inStroke) = true
    ∧ nextIs (exec .abort inTail) (fun t => t.seq.abortAt == some 1) = true
    ∧ nextIs (exec .abort waiting) (fun t => t.seq.abortPending && t.seq.phase == .none) = true
    ∧ nextIs (exec .abort loaded) (fun t => t == loaded) = true := by decide +kernel
theorem test_abortComplete : nextIs (exec (.abortComplete []) aborting) (fun t => t.seq.state == .loaded && t.regs.abortDone && !t.seq.abortPending) = true
    ∧ still (.abortComplete []) loaded = true := by decide +kernel

def faulted : State := { loaded with seq := { loaded.seq with state := .faulted } }
theorem witness_FaultAndCounterClear : faulted.boot.phase = .ready ∧ faulted.seq.state = .faulted ∧ faulted.seamRetraining = false
    ∧ loaded.seq.state ≠ .faulted ∧ faulted.rings = [] := by decide +kernel
theorem test_faultClear : nextIs (exec .faultClear faulted) (fun t => t.seq.state == .loaded) = true
    ∧ nextIs (exec .faultClear { faulted with seamRetraining := true }) (fun t => t.seq.state == .faulted && t.regs.refusedAt == 0x1038) = true
    ∧ nextIs (exec .faultClear loaded) (fun t => t.regs.refused) = true := by decide +kernel
theorem test_counterClear : nextIs (exec .counterClear (lanes id)) (fun t => (t.port 0).state == .up) = true
    ∧ nextIs (exec .counterClear { State.reset with ports := [(0, { Port.reset with stale := 3, laneSwaps := 2 })], counts := [(5, ⟨1, 0, 0, 0⟩)] })
      (fun t => (t.port 0).stale == 0 && (t.port 0).laneSwaps == 0 && t.counts == [(5, ⟨1, 0, 0, 0⟩)]) = true := by decide +kernel

/-- Slot 0 holds role 0 and slot 1 role 1 in the next map. -/
def mapped2 (e : BitVec 16) : State := { loaded with regs := { loaded.regs with nextMap := 0x98, nextEpoch := e } }
def sameRole : State := { loaded with regs := { loaded.regs with nextMap := 8, nextEpoch := 2 } }
theorem witness_RoleCommit : (mapped2 2).boot.phase = .ready ∧ (mapped2 2).regs.roleEpoch.toNat < (mapped2 2).regs.nextEpoch.toNat
    ∧ (∀ r < mapSize (mapped2 2).regs.nextMap, ((List.range 8).filter fun k => mapRole (mapped2 2).regs.nextMap k == some r).length = 1)
    ∧ mapSize (mapped2 2).regs.nextMap ≠ mapSize (mapped2 2).regs.roleMap
    ∧ mapSize sameRole.regs.nextMap = mapSize sameRole.regs.roleMap ∧ mapRole sameRole.regs.nextMap 0 = mapRole sameRole.regs.roleMap 0
    ∧ ¬ (mapped2 1).regs.roleEpoch.toNat < (mapped2 1).regs.nextEpoch.toNat := by decide +kernel
theorem test_roleCommit : nextIs (exec .roleCommit (mapped2 2)) (fun t => t.regs.roleMap == 0x98 && t.seq.cartoon.isNone && t.seq.state == .idle && hasCode t 0x0322) = true
    ∧ nextIs (exec .roleCommit sameRole) (fun t => t.seq.cartoon.isSome && t.regs.roleEpoch == 2) = true
    ∧ nextIs (exec .roleCommit (mapped2 1)) (fun t => t.regs.roleMap == 8 && t.regs.refused && t.regs.refusedAt == 0x2038) = true := by decide +kernel

def roleless : State := { loaded with regs := { loaded.regs with roleMap := 0 } }
def rolePort : State := { loaded with
  regs := { loaded.regs with roleMap := 0x98, remoteValue := 7 }, ports := [(0, { Port.reset with state := .up })],
  edition := { loaded.edition with lanes := ⟨1, 1, 0⟩ :: List.replicate 15 ⟨0, 0, 0⟩ } }
def signalling : State := { rolePort with regs := { rolePort.regs with remoteBusy := some (5, 1, 7) } }
theorem witness_SyncAndRemoteSignal : loaded.boot.phase = .ready ∧ stroke.seq.state ≠ .idle ∧ stroke.seq.state ≠ .loaded
    ∧ (mapRole rolePort.regs.roleMap rolePort.boot.boardSlot.toNat).isSome = true ∧ rolePort.regs.remoteBusy = none
    ∧ signalling.ctrlPortFin (1 : BitVec 3).toNat = some 0 ∧ (mapRole roleless.regs.roleMap 0).isSome = false := by decide +kernel
theorem test_syncFire : nextIs (exec .syncFire loaded) (fun t => t.syncEnds == 2) = true := by decide +kernel
theorem test_syncIn : nextIs (exec .syncIn { loaded with regs := { loaded.regs with syncLoad := 500 } }) (fun t => t.boardTime == 500 && t.timeValid) = true
    ∧ nextIs (exec .syncIn stroke) (fun t => t.boardTime == 0 && t.opened.map (·.code) == [0x0323]) = true := by decide +kernel
theorem test_remoteSignal : nextIs (exec (.remoteSignal 5 1) rolePort) (fun t => t.regs.remoteBusy == some (5, 1, 7)) = true
    ∧ nextIs (exec (.remoteSignal 5 1) signalling) (fun t => t.regs.refused && t.regs.refusedAt == 0x2048) = true
    ∧ nextIs (exec (.remoteSignal 5 1) roleless) (fun t => t.regs.refused) = true := by decide +kernel
theorem test_remoteSignalSend : nextIs (exec .remoteSignalSend signalling) (fun t => t.regs.remoteBusy.isNone && (t.link (.kazin 0)).txCtrl == 1) = true
    ∧ still .remoteSignalSend rolePort = true := by decide +kernel

def loading : State := { State.reset with regs := { Regs.reset with loadBusy := true, loadBytes := 256 } }
theorem witness_LoadAndCheck : State.reset.boot.phase = .ready ∧ State.reset.seq.state = .idle ∧ State.reset.regs.loadBusy = false
    ∧ (∀ p ∈ [0, 1], State.reset.plateOffered p = true → 2 * State.reset.regs.loadSize.toNat ≤ State.reset.cartSize p)
    ∧ (∀ i < 72, State.reset.plateOffered (i / 36) = true → (smapGet Gate.reset State.reset.gates i).state = .on)
    ∧ State.reset.tenantChanging = false ∧ State.reset.sec.importState ≠ ImportState.running
    ∧ loading.regs.loadBusy = true
    ∧ ofLe ((smapGetList 0 loading.mem.host loading.regs.loadFrom.toNat loading.regs.loadBytes.toNat).take 4) ≠ 0x43415254 := by
  decide +kernel
theorem test_loadTrigger : nextIs (exec .loadTrigger State.reset) (fun t =>
      t.regs.loadBusy && t.regs.loadStatus == 1 && t.regs.loadBytes == t.regs.loadSize) = true
    ∧ nextIs (exec .loadTrigger stroke) (fun t => t.regs.refused && t.regs.refusedAt == 0x3010) = true
    ∧ nextIs (exec .loadTrigger (gated .off false)) (fun t => t.regs.refused) = true := by decide +kernel
theorem test_loadCheck : nextIs (exec (.loadCheck true) loading) (fun t => !t.regs.loadBusy && t.regs.loadReason == 1 && hasCode t 0x0101) = true
    ∧ still (.loadCheck true) State.reset = true := by decide +kernel

/-! ### Links -/

/-- A device of role 0 in slot 0 whose K0 is wired to slot 1, role 1, and carries flits. -/
def linked : State := { rolePort with seq := { rolePort.seq with state := .idle } }
def linkedRun : State := { linked with seq := joined.seq }
def withLink (f : Link → Link) : State := { linked with links := [(0, f .empty)] }
/-- A control or data flit of role 1 to role 0 with number 0. -/
def ctl (ty : BitVec 8) : FlitHeader := ⟨0, 1, 2, 0, 1, ty, 0⟩
def dat (seq : BitVec 12) : FlitHeader := ⟨0, 1, 1, seq, 1, 0, 0⟩
def k0 : LinkRef := .kazin 0
def payload0 : List Byte := List.replicate 250 7
def recv0 : OpenRecv := ⟨.kazin 0, 0, ⟨0, 1, 0, 0, 0, 1⟩, [], [], none⟩

/-- The landing buffer of K0 is full. -/
def crowded : State := withLink fun x => { x with rxBuffer := List.replicate 1024 ⟨dat 0, 0, [], 0⟩ }
/-- A stroke with K0 wired whose tail has begun. -/
def linkedTail : State := { linkedRun with boardTime := BitVec.ofNat 64 (linkedRun.countAt linkedRun.tailStart) }
def rolelessLink : State := { linked with regs := { linked.regs with roleMap := 0x90 } }
theorem witness_FlitLandings : linked.linkLive k0 = true ∧ State.reset.linkLive k0 = false ∧ linked.canonical = true
    ∧ linked.role = some 0 ∧ (ctl 1).epoch = linked.regs.roleEpoch ∧ rolelessLink.role = none ∧ rolelessLink.linkLive k0 = true
    ∧ (ctl 7).ctype = 7 ∧ linked.role ≠ some (4 : BitVec 3).toNat ∧ linkedTail.tailPassed = true ∧ linkedRun.tailPassed = false
    ∧ rebuild 0 0 = 0 ∧ rebuild 0 2047 < 0 + 2048 ∧ ¬ rebuild 1 0 < 1 + 2048 ∧ ¬ rebuild 3 2 < 3 + 2048
    ∧ findRecv linked.recvs 0 k0 0 = none ∧ findRecv [recv0] 0 k0 0 = some (0, 0)
    ∧ (crowded.link k0).rxBuffer.length = 1024 ∧ crowded.linkLive k0 = true ∧ findRecv crowded.recvs 0 k0 0 = none
    ∧ linked.linkLive (.seam 0 5) = true := by decide +kernel
/-- A new flit waits in the landing buffer; a duplicate changes nothing. -/
theorem test_dataFlit : nextIs (exec (.dataFlit k0 (dat 0) payload0) linked) (fun t => (t.link k0).rxNext == 1 && (t.link k0).rxBuffer.length == 1) = true
    ∧ nextIs (exec (.dataFlit k0 (dat 0) payload0) (withLink fun x => { x with rxNext := 1 })) (fun t => (t.link k0).rxBuffer.isEmpty) = true
    ∧ nextIs (exec (.dataFlit k0 { dat 0 with destRole := 4 } payload0) linked) (fun t => (t.port 0).stale == 1 && (t.link k0).txCtrl == 1) = true
    ∧ nextIs (exec (.dataFlit k0 (dat 0) payload0) crowded) (fun t => (t.link k0).nacks == [(false, 0)] && (t.link k0).rxNext == 0) = true
    ∧ still (.dataFlit k0 (dat 0) payload0) State.reset = true ∧ still (.dataFlit k0 (dat 0) payload0) linkedTail = true := by
  decide +kernel
/-- The flit of a RECV of two words: its first 16 bytes go to the destination. -/
theorem test_dataFlit_recv : nextIs (exec (.dataFlit k0 (dat 0) payload0) { linkedRun with recvs := [recv0] }) (fun t =>
      (t.link k0).rxBuffer.isEmpty && t.recvs.map (fun r => r.landed.length) == [1]) = true := by decide +kernel

/-- Step 0 waits for the notice of role 1, and board time is past the start that it completes. -/
def noticed (now : DWord) : State :=
  let c := { aCartoon with groupSize := 2, variants := [{ aVariant with gate := true }] }
  { linked with boardTime := now, seq := { waiting.seq with ready := [(0, some 10_000)], cartoon := some c } }
def goes (s : State) (ty : BitVec 8) : Bool := (s.acceptCtrl k0 (ctrlHeader (ctl ty) ty.toNat)).1
theorem witness_ControlMessages : (linked.port (0 : Fin 16).val).state = .up ∧ (linked.port (0 : Fin 16).val).left = false
    ∧ (State.reset.port (0 : Fin 16).val).state ≠ .up ∧ (State.reset.port (0 : Fin 16).val).state ≠ .draining
    ∧ (∀ ty : BitVec 8, ty.toNat ∈ [1, 2, 3, 4, 5, 6, 8] → goes linked ty = true)
    ∧ (linked.acceptCtrl k0 (ctrlHeader { ctl 1 with epoch := 9 } 1)).1 = false ∧ goes linkedTail 1 = true
    ∧ linked.seq.phase = .none ∧ linkedRun.seq.phase = .inStroke ∧ linkedRun.tailPassed = false ∧ goes linkedRun 5 = true
    ∧ linkedRun.goesOn = true ∧ linked.goesOn = false ∧ linkedRun.norm = none ∧ linked.seq.state ≠ .armed
    ∧ (noticed 15_000).seq.phase = .stepDue ∧ goes (noticed 15_000) 3 = true ∧ (noticed 15_000).seq.nextStep = 0
    ∧ ({ noticed 15_000 with seq := { (noticed 15_000).seq with notices := [(noticeKey 0 1, some 9_000)] } } : State).startCount 0 = some 14_000
    ∧ (noticed 15_000).startCount 0 = none ∧ goes (noticed 15_000) 4 = true ∧ (noticed 15_000).seq.abortAt = none
    ∧ (stepDue.startCount 0 = some 0 ∧ stepDue.boardTime = 0) := by decide +kernel
/-- Three more clauses: an armed device, the check stroke after a fault, and a NORM of the other MODE. -/
def armedLink : State := { linked with seq := armed.seq }
def faultLink : State := { linked with seq := afterFault.seq }
def normLink : State := { linkedRun with norm := some { aNorm [] with mode := 1 } }
theorem witness_ControlMessages_states : goes armedLink 4 = true ∧ armedLink.seq.phase = .none ∧ armedLink.seq.state = .armed
    ∧ armedLink.seq.abortPending = false ∧ goes faultLink 4 = true ∧ faultLink.seq.phase = .checkDue ∧ faultLink.seq.checkFault = true
    ∧ faultLink.goesOn = false ∧ goes normLink 5 = true ∧ normLink.norm.map (·.mode) = some 1 ∧ normLink.tailPassed = false := by
  decide +kernel
theorem test_strokeClose : nextIs (exec (.strokeClose k0 (ctl 1) ⟨3, 1, 0⟩) linkedRun) (fun t =>
      (t.link k0).rxClose == some ⟨3, 1, 0⟩ && (t.link k0).rxCtrlNext == 1) = true
    ∧ still (.strokeClose k0 (ctl 1) ⟨3, 1, 0⟩) State.reset = true := by decide +kernel
theorem test_gateNotice : nextIs (exec (.gateNotice 0 (ctl 3) 5 12_000) linked) (fun t =>
      smapGet none t.seq.notices (noticeKey 5 1) == some 12_000) = true
    ∧ nextIs (exec (.gateNotice 0 (ctl 3) 5 9) { linked with seq := { linked.seq with notices := [(noticeKey 5 1, some 7)] } }) (fun t =>
      smapGet none t.seq.notices (noticeKey 5 1) == some 9) = true
    ∧ nextIs (exec (.gateNotice 0 (ctl 3) 0 9_000) (noticed 15_000)) (fun t => t.seq.state == .faulted && hasCode t 0x0301) = true
    ∧ nextIs (exec (.gateNotice 0 (ctl 3) 0 9_000) (noticed 14_000)) (fun t => t.seq.state == .waiting) = true := by decide +kernel
theorem test_stopNotice : nextIs (exec (.stopNotice 0 (ctl 4) ⟨0x0104, 1, 0, 0⟩) linkedRun) (fun t => t.seq.stopBy == some (0x0104, 1)) = true
    ∧ nextIs (exec (.stopNotice 0 (ctl 4) ⟨0x0104, 1, 0, 0⟩) { linked with seq := armed.seq }) (fun t => t.seq.state == .loaded && hasCode t 0x0326) = true := by
  decide +kernel
/-- In a run the add waits for the tail; outside one it takes effect as it lands (R94, R339). -/
theorem test_remoteMark : nextIs (exec (.remoteMark 0 (ctl 2) 5 7) linkedRun) (fun t => t.remoteMarks == [⟨5, 7⟩] && t.mark 5 == 0) = true
    ∧ nextIs (exec (.remoteMark 0 (ctl 2) 5 7) linked) (fun t => t.mark 5 == 7) = true := by decide +kernel
theorem test_normTotal : nextIs (exec (.normTotal 0 (ctl 5) ⟨0, 0, 0x3F80_0000, 0, []⟩) linkedRun) (fun t => t.seq.normMsgs.length == 1) = true
    ∧ nextIs (exec (.normTotal 0 (ctl 5) ⟨0, 0, 0, 0, []⟩) linked) (fun t => t.seq.normMsgs.isEmpty) = true
    ∧ nextIs (exec (.normTotal 0 (ctl 5) ⟨0, 0, 0, 0, []⟩) normLink) (fun t => t.seq.faults.map (·.code) == [0x0302]) = true := by decide +kernel
theorem test_exponentMaxima : nextIs (exec (.exponentMaxima 0 (ctl 6) [5]) linkedRun) (fun t => t.seq.maxima == [(1, [5])]) = true := by decide +kernel
def staleMsg0 : StaleMsg := ⟨0, 1, 0, 1, 9, 1, 1, 1, 2, 1, 0⟩
theorem test_roleStaleReport : nextIs (exec (.roleStaleReport 0 (ctl 8) staleMsg0) linked) (fun t => hasCode t 0x0320) = true
    ∧ nextIs (exec (.roleStaleReport 0 (ctl 8) staleMsg0) linkedRun) (fun t => t.seq.staleReports.length == 1) = true
    ∧ nextIs (exec (.roleStaleReport 0 (ctl 8) staleMsg0) faultLink) (fun t => hasCode t 0x0320) = true := by decide +kernel

/-- A peer whose clock is `n` counts behind in both directions. -/
def skewed (n : BitVec 64) : CheckMsg := { linked.checkMsg 0 with txTime := 0, echoTx := n, echoRx := 1, role := 1 }
def oldSkew (s : State) : State := { s with ports := [(0, { s.port 0 with offset := some (-1000) })] }
theorem witness_BoardTimeChecks : (linked.port (0 : Fin 16).val).state = .up ∧ (State.reset.port (0 : Fin 16).val).state ≠ .up
    ∧ (linked.acceptCtrl k0 (ctrlHeader (ctl 7) 7)).1 = true
    ∧ ((withLink fun x => { x with rxCtrlNext := 1 }).acceptCtrl k0 (ctrlHeader (ctl 7) 7)).1 = false
    ∧ (skewed 1).hasRole = 1 ∧ checkOffset (skewed 1) 0 = some (-7) ∧ checkOffset (skewed 5) 0 = some (-39)
    ∧ checkOffset (skewed 50) 0 = some (-399) ∧ ((oldSkew linked).port 0).offset = some (-1000)
    ∧ linked.seq.state ≠ .armed ∧ linked.seq.phase = .none ∧ linkedRun.seq.phase = .inStroke ∧ armed.seq.abortPending = false := by
  decide +kernel
/-- A check goes out at a multiple of 65,536, once (R286). -/
theorem test_boardTimeCheckSend : nextIs (exec (.boardTimeCheckSend 0) linked) (fun t => (t.link k0).txCtrl == 1 && t.boardTime == 0
      && (match exec (.boardTimeCheckSend 0) t with | .next u => u.boardTime == 65536 && (u.link k0).txCtrl == 2 | _ => false)) = true
    ∧ still (.boardTimeCheckSend 0) State.reset = true := by decide +kernel
/-- 20 ns are 320 sixteenths of a count of 1 ns (R287). -/
theorem test_boardTimeCheck : nextIs (exec (.boardTimeCheck 0 (ctl 7) (skewed 1) 0) (oldSkew linked)) (fun t => t.closed.isEmpty && (t.port 0).offset == some (-7)) = true
    ∧ nextIs (exec (.boardTimeCheck 0 (ctl 7) (skewed 5) 0) (oldSkew linked)) (fun t => hasCode t 0x0324) = true
    ∧ nextIs (exec (.boardTimeCheck 0 (ctl 7) (skewed 50) 0) (oldSkew linkedRun)) (fun t => t.seq.faults.map (·.code) == [0x0325]) = true
    ∧ nextIs (exec (.boardTimeCheck 0 (ctl 7) (skewed 50) 0) (oldSkew armedLink)) (fun t =>
      t.seq.state == .loaded && hasCode t 0x0325 && hasCode t 0x0326) = true := by
  decide +kernel

/-- Four codewords of zeros: five idle flits, and a control field that acknowledges sequence 0. -/
def zeros : List (BitVec 10) := List.replicate 272 0
/-- Four times the product of x + α⁰ … x + α⁶: a word of which eight symbols are wrong. -/
def noise : List (BitVec 10) := List.replicate 264 0 ++ [1, 127, 253, 972, 607, 398, 28, 130]
def four {α : Type} (w : List α) : List α := w ++ (w ++ (w ++ w))

theorem gfMul_zero (x : Nat) : gfMul 0 x = 0 := by
  suffices h : ∀ f b, gfMulFuel f 0 b 0 = 0 from h 10 x
  intro f
  induction f with
  | zero => intro b; rfl
  | succ f ih => intro b; rw [gfMulFuel, show gfDouble 0 = 0 from rfl]; simp [ih]
theorem horner_zeros (x n : Nat) (w : List Nat) : gfHorner x (List.replicate n 0 ++ w) = gfHorner x w := by
  induction n with
  | zero => rfl
  | succ n ih => simpa [List.replicate_succ, gfHorner, gfMul_zero] using ih
theorem chunks_four (w : List Nat) (h : w.length = 272) : chunks 272 (four w) = [w, w, w, w] := by
  have d : ∀ l : List Nat, (w ++ l).drop 272 = l := fun l => by rw [← h]; exact List.drop_left
  have k : ∀ l : List Nat, (w ++ l).take 272 = w := fun l => by rw [← h]; exact List.take_left
  have e : w ≠ [] := by rintro rfl; simp at h
  have w' : w = w ++ [] := by simp
  unfold chunks four
  have : (w ++ (w ++ (w ++ w))).length + 1 = 1084 + 5 := by simp [h]
  rw [this]
  have n : w.drop 272 = [] := by rw [w']; exact d []
  have m : w.take 272 = w := by rw [w']; simpa using k []
  simp [chunksFuel, d, k, n, m, e]
theorem decode_zeros : rsDecode (List.replicate 272 0) = some (List.replicate 272 0, 0) := by
  have : ∀ x, gfHorner x (List.replicate 272 0) = 0 := fun x => by simpa [-List.reduceReplicate, gfHorner] using horner_zeros x 272 []
  simp [-List.reduceReplicate, rsDecode, syndromes, this]
theorem decode_noise : rsDecode (noise.map (·.toNat)) = none := by
  have h : syndromes (noise.map (·.toNat)) = [0, 0, 0, 0, 0, 0, 0, 3, 257, 815, 191, 578, 770, 234] := by
    simp only [syndromes, noise, List.map_append, List.map_replicate]
    rw [show (BitVec.toNat (0 : BitVec 10)) = 0 from rfl]
    simp only [horner_zeros]; decide +kernel
  unfold rsDecode
  rw [h]
  have l : 7 < (locator [0, 0, 0, 0, 0, 0, 0, 3, 257, 815, 191, 578, 770, 234]).len := by decide +kernel
  simp [l]
theorem frame_zeros : rxFrame ((four zeros).map (·.toNat)) = ⟨0, [true, true, true, true], 0, List.replicate 8 0⟩ := by
  have : (four zeros).map (·.toNat) = four (List.replicate 272 0) := by simp [-List.reduceReplicate, four, zeros]
  have i : infoBits (List.replicate 272 0) = 0 := by decide +kernel
  have n : lanesOf (List.replicate 272 0) (List.replicate 272 0) = List.replicate 8 0 := by decide +kernel
  simp [-List.reduceReplicate, this, rxFrame, chunks_four, decode_zeros, i, n, addLanes]
  decide
theorem frame_noise : rxFrame ((four noise).map (·.toNat)) = ⟨0, [false, false, false, false], 0, []⟩ := by
  have : (four noise).map (·.toNat) = four (noise.map (·.toNat)) := by simp [four]
  have l : (noise.map (·.toNat)).length = 272 := by rw [List.length_map]; decide +kernel
  simp [-List.reduceReplicate, this, rxFrame, chunks_four _ l, decode_noise]

/-- Flit 0 is unacknowledged and named as lost. -/
def unacked (f : Link → Link) : State := withLink fun x => f { x with txData := 1, txUnacked := [⟨dat 0, 0, payload0, 0⟩] }
def lost0 : State := unacked fun x => { x with replayQueue := [(false, 0)] }
/-- The link of a stroke, with flit 0 lost. -/
def lostRun : State := { lost0 with seq := linkedRun.seq }
theorem witness_FramesAndReplay : linked.linkLive k0 = true ∧ State.reset.linkLive k0 = false
    ∧ (RxFrame.control ⟨0, [true, true, true, true], 0, []⟩) = some 0
    ∧ (∀ i < 5, RxFrame.flit ⟨0, [true, true, true, true], 0, []⟩ i = some (List.replicate 256 0))
    ∧ (parseHeader (List.replicate 256 0)).kind = 0 ∧ (parseHeader (Machine.flitBytes (dat 0) payload0)).kind = 1
    ∧ (lostRun.link k0).replayQueue = [(false, 0)] ∧ ((lostRun.link k0).txUnacked.map (·.number)) = [0]
    ∧ lostRun.resendSlot (lostRun.link k0) false = some 96 ∧ lostRun.slotClass 96 = .replay
    ∧ lost0.resendSlot (lost0.link k0) false = none ∧ lost0.resendSlot (lost0.link k0) true = some 1 ∧ lost0.slotClass 1 = .control
    ∧ ((withLink fun x => { x with replayQueue := [(false, 0)] }).link k0).txUnacked = [] ∧ lost0.canonical = true := by decide +kernel
theorem witness_FramesAndReplay_closes : stroke.seq.phase = .inStroke ∧ stroke.seq.closeSent = false
    ∧ (stroke.runTo (stroke.cycles - 4000)).canonical = true ∧ (stroke.runTo (stroke.cycles - 4000)).tailPassed = false
    ∧ (stroke.runTo (stroke.cycles - 4000)).linkUp (.seam 0 47) = true
    ∧ ((stroke.runTo (stroke.cycles - 4000)).link (.seam 1 47)).rxCtrlNext = 0
    ∧ ((stroke.runTo (stroke.cycles - 4000)).link (.seam 1 47)).rxCtrlAhead = []
    ∧ ((stroke.runTo (stroke.cycles - 4000)).link (.seam 1 47)).rxLate = []
    ∧ ((stroke.runTo (stroke.cycles - 4000)).link (.seam 0 47)).txCtrl = 0 := by decide +kernel
/-- Outside a stroke every slot is a control slot: the five flits of a lost frame are named so, in the frame that goes out. -/
theorem test_frame_lost : nextIs (exec (.frame k0 0 (four noise)) linked) (fun t =>
    (t.port 0).uncorrectable == 4 && (t.link k0).nacks.isEmpty && t.boardTime == 5) = true := by
  show nextIs (execFrame k0 0 (four noise) linked) _ = true
  simp only [execFrame, landStep, frameEffect, frame_noise]; decide +kernel
theorem test_lost_named : ((Link.empty.nameLost 0 5).nacks = (List.range 5).map fun i => (true, i))
    ∧ field ({ (withLink fun x => x.nameLost 0 5) with boardTime := 5 }.outControl k0 2) 24 17 = 1 + 2 + 0 <<< 2 + 4 <<< 14 := by decide +kernel
theorem test_frame_idle : nextIs (exec (.frame k0 0 (four zeros)) linked) (fun t => (t.link k0).nacks.isEmpty && (t.port 0).uncorrectable == 0) = true := by
  show nextIs (execFrame k0 0 (four zeros) linked) _ = true
  simp only [execFrame, landStep, frameEffect, frame_zeros]; decide +kernel
/-- A word that the encoder writes has all syndromes zero (R265). -/
theorem test_frame_parity : syndromes (rsEncode [1, 2, 3]) = List.replicate 14 0 := by decide +kernel
theorem test_replaySend : nextIs (exec (.replaySend k0) lostRun) (fun t => (t.link k0).replayQueue.isEmpty && (t.link k0).replayed == 1) = true
    ∧ still (.replaySend k0) lost0 = true ∧ still (.replaySend k0) linked = true := by decide +kernel
theorem test_replayTimeout : nextIs (exec (.replayTimeout k0 false 0) (unacked id)) (fun t =>
      (t.link k0).replayQueue == [(false, 0)] && t.boardTime == 400) = true
    ∧ still (.replayTimeout k0 false 1) (unacked id) = true := by decide +kernel
theorem test_strokeCloseSend : nextIs (exec .strokeCloseSend stroke) (fun t => t.seq.closeSent && t.clock == stroke.cycles - 4000
      && (t.link (.seam 1 47)).rxClose == some ⟨0, 0, 0⟩) = true
    ∧ still .strokeCloseSend State.reset = true := by decide +kernel

/-! ### Rings and records -/

def withRing (r : Ring) : State := { State.reset with rings := smapPut .reset [] 5 r }
/-- An IN ring of 16 entries with a window of 4 steps. -/
def inRing : Ring := { Ring.reset with depth := 4, state := .active }
def inState (s : RingState) (p : Bool) : State := withRing { inRing with state := s, pending := p }
theorem witness_RingRegisters : (inState .off false).canonical = true ∧ (inState .off false).boot.phase = .ready
    ∧ ((inState .off false).ring 5).kind.toNat < 4 ∧ ((inState .off false).ring 5).depth ≠ 0
    ∧ (∀ p ∈ (inState .off false).rings, p.2.held = []) ∧ (State.reset.ring 7).state = .off ∧ (State.reset.ring 7).depth = 0
    ∧ (State.reset.ring 7).kind = 0 ∧ ((inState .draining true).ring 5).pending = true
    ∧ ((inState .draining false).ring 5).started = false ∧ ((withRing { inRing with state := .draining, started := true }).ring 5).started = true
    ∧ (1000 <<< 32 : DWord).extractLsb' 32 16 = 1000 ∧ (4096 : DWord).toNat % 4096 = 0 ∧ (64 : DWord).toNat % 64 = 0
    ∧ (16 : Word).toNat ≤ 2 ^ inRing.log2Size.toNat ∧ ¬ (17 : Word).toNat ≤ 2 ^ inRing.log2Size.toNat := by decide +kernel
/-- KIND 1 at bit 0, LOG2_SIZE 6 at 3, DEPTH 9 at 48; COAL_TIME at most 1,000 (R325). -/
theorem test_ringContextWrite : nextIs (exec (.ringContextWrite 7 0 (BitVec.ofNat 64 (1 + 6 <<< 3 + 1000 <<< 32 + 9 <<< 48))) State.reset) (fun t =>
      (t.ring 7).kind == 1 && (t.ring 7).log2Size == 6 && (t.ring 7).coalTime == 1000 && (t.ring 7).depth == 9) = true
    ∧ nextIs (exec (.ringContextWrite 7 0 (BitVec.ofNat 64 (1001 <<< 32))) State.reset) (fun t => t.regs.refused && t.regs.refusedAt == 0x1001C0) = true
    ∧ nextIs (exec (.ringContextWrite 5 1 4096) (inState .active false)) (fun t => t.regs.refused) = true := by decide +kernel
theorem test_ringEnable : nextIs (exec (.ringEnable 5) (inState .off false)) (fun t => (t.ring 5).state == .active && hasCode t 0x0245) = true
    ∧ nextIs (exec (.ringEnable 7) State.reset) (fun t => (t.ring 7).state == .error && hasCode t 0x0244) = true
    ∧ nextIs (exec (.ringEnable 5) (inState .draining false)) (fun t => (t.ring 5).pending) = true
    ∧ nextIs (exec (.ringEnable 5) (inState .error false)) (fun t => t.regs.refused && t.regs.refusedAt == 0x148028) = true := by decide +kernel
theorem test_ringDrainEnd : nextIs (exec (.ringDrainEnd 5 0 none) (inState .draining false)) (fun t => (t.ring 5).state == .off) = true
    ∧ nextIs (exec (.ringDrainEnd 5 0 none) (inState .draining true)) (fun t => (t.ring 5).state == .active) = true
    ∧ nextIs (exec (.ringDrainEnd 5 0 (some 0x8000)) (inState .draining false)) (fun t => (t.ring 5).state == .error && hasCode t 0x0246) = true
    ∧ still (.ringDrainEnd 5 0 none) (inState .active false) = true := by decide +kernel
theorem test_doorbell : nextIs (exec (.doorbell 5 16) (inState .active false)) (fun t => (t.ring 5).hostPtr == 16) = true
    ∧ nextIs (exec (.doorbell 5 17) (inState .active false)) (fun t => (t.ring 5).state == .error && hasCode t 0x0240) = true
    ∧ nextIs (exec (.doorbell 5 1) (inState .off false)) (fun t => t.regs.refused && t.regs.refusedAt == 0x140028) = true := by decide +kernel

def gatedOn5 : State :=
  let v := { aVariant with gate := true, gateRing := 5 }
  { inState .active false with seq := { stepDue.seq with cartoon := some { aCartoon with variants := [v] } } }
theorem witness_RunKeepsRings : gatedOn5.boot.phase = .ready ∧ gatedOn5.canonical = true ∧ gatedOn5.seq.state = .running
    ∧ (gatedOn5.ring 5).kind = 0 ∧ (gatedOn5.seq.cartoon.map fun c => c.variants.map fun v => (v.gate, v.gateRing)) = some [(true, 5)]
    ∧ (0 : BitVec 12) = stroke.regs.completionRing ∧ (inState .active false).seq.state = .idle := by decide +kernel
theorem test_ringDisable : nextIs (exec (.ringDisable 5) gatedOn5) (fun t => (t.ring 5).state == .active && t.regs.refused && t.regs.refusedAt == 0x148028) = true
    ∧ nextIs (exec (.ringDisable 5) (inState .active false)) (fun t => (t.ring 5).state == .draining && hasCode t 0x0245) = true
    ∧ nextIs (exec (.ringDisable 5) (inState .draining true)) (fun t => !(t.ring 5).pending) = true := by decide +kernel

/-- A copy of 64 bytes from host 0x4000 to device address 0x100, for a step. -/
def copies (r : Ring) (step len : Nat) : State :=
  let s := withRing { r with base := 0x1000, hostPtr := 1 }
  let d := smapPutList 0 [] 0x1000 (leBytes 64 (step + 0x4000 <<< 64 + 0x100 <<< 128 + len <<< 176))
  { s with mem := { s.mem with host := smapPutList 0 d 0x4000 [9] } }
def outRing : Ring := { inRing with kind := 1 }
def ended (s : State) : State := { s with seq := { s.seq with stepsDone := 1 } }
def faultedAt (s : State) : State := { s with seq := { s.seq with faultStep := some 3 } }
def aRecord (k : BitVec 2) : Record := ⟨0x0100, k, 0, true, 1, 0x80_0000, 1, 0, 0, 0, 0⟩
def recRing : Ring := { inRing with kind := 2, base := 0x2000, shadow := 0x8000 }
def closing (k : BitVec 2) (n : BitVec 12) (r : Ring) : State :=
  let s := withRing r
  { s with closed := [aRecord k], regs := { s.regs with completionRing := n, eventRing := n } }
def fullHeld (n : Nat) : Ring := { recRing with held := List.replicate n (aRecord 2) }

/-- The copy of a ring that drains is still under way. -/
def draining64 (len : Nat) : State := copies { inRing with state := .draining, started := true } 3 (64 + len)
/-- Step 0 has ended, and its record waits. -/
def endUnwritten0 : State := { ended (copies outRing 0 64) with closed := [aRecord 0] }
theorem witness_RingWork : (copies inRing 0 64).canonical = true ∧ ((copies inRing 0 64).ring 5).hostPtr ≠ ((copies inRing 0 64).ring 5).devPtr
    ∧ (copies inRing 3 64).copyOk true ((copies inRing 3 64).headCopy 5) = true ∧ ((copies inRing 3 64).headCopy 5).step = 3
    ∧ ((copies inRing 3 64).seq.firstOpen.getD (copies inRing 3 64).regs.baseStep).toNat = 0
    ∧ (copies inRing 0 32).copyOk true ((copies inRing 0 32).headCopy 5) = false
    ∧ (copies outRing 0 32).copyOk false ((copies outRing 0 32).headCopy 5) = false
    ∧ (ended (copies outRing 0 64)).outAction 5 = .copy ∧ (faultedAt (copies outRing 3 64)).outAction 5 = .skip
    ∧ (copies outRing 0 64).stepEnded 0 = none ∧ (copies outRing 0 64).outSkips 5 = false
    ∧ (closing 2 5 recRing).closed = [aRecord 2] ∧ (closing 2 5 recRing).recordRing (aRecord 2) = 5
    ∧ (closing 2 5 recRing).sourceHeld (aRecord 2).source (aRecord 2).seq = false
    ∧ ((draining64 0).ring 5).started = true ∧ ((draining64 0).ring 5).state = .draining
    ∧ (copies inRing 0 8192).copyRuns 5 = true ∧ 4096 * 1 < ((copies inRing 0 8192).headCopy 5).len
    ∧ (copies inRing 0 64).inWeights 0x100 64 = false ∧ (copies inRing 4 64).copyOk true ((copies inRing 4 64).headCopy 5) = true
    ∧ (endUnwritten0).endUnwritten 0 = true ∧ (endUnwritten0.stepEnded 0).isSome = true
    ∧ (fullHeld 251).held.length < 252 ∧ (fullHeld 252).held.length = 252 ∧ (closing 2 5 { recRing with dropped := 1 }).canonical = true := by
  decide +kernel
theorem test_inCopyDone : nextIs (exec (.inCopyDone 5 700 .served) (copies inRing 3 64)) (fun t => byteAt t.mem 0x100 == 9 && (t.ring 5).devPtr == 1 && t.boardTime == 700) = true
    ∧ nextIs (exec (.inCopyDone 5 700 .served) { copies inRing 0 64 with regs := { Regs.reset with baseStep := 1 } }) (fun t => byteAt t.mem 0x100 == 0 && hasCode t 0x0243) = true
    ∧ nextIs (exec (.inCopyDone 5 700 .served) (copies inRing 0 32)) (fun t => (t.ring 5).state == .error && hasCode t 0x0244) = true
    ∧ nextIs (exec (.inCopyDone 5 700 (.busError 0x4000 0)) (copies inRing 3 64)) (fun t => byteAt t.mem 0x100 == 0 && hasCode t 0x0246) = true
    ∧ nextIs (exec (.inCopyDone 5 700 .served) (draining64 0)) (fun t => byteAt t.mem 0x100 == 9 && (t.ring 5).devPtr == 1) = true
    ∧ still (.inCopyDone 5 700 .served) (copies inRing 4 64) = true := by decide +kernel
/-- A copy that is stopped where it begins: nothing is in memory, and the descriptor stays. -/
theorem test_stopCopy : ((draining64 0).stopCopy 5 0).mem.bytes = [] ∧ (((draining64 0).stopCopy 5 0).ring 5).devPtr = 0
    ∧ (((draining64 0).stopCopy 5 0).ring 5).started = false := by decide +kernel
theorem test_outDescriptor : nextIs (exec (.outDescriptor 5 .served) (ended (withMem (copies outRing 0 64) 0x100 8 77))) (fun t =>
      smapGetList 0 t.mem.host 0x4000 2 == [77, 0] && (t.ring 5).devPtr == 1) = true
    ∧ nextIs (exec (.outDescriptor 5 .served) (faultedAt (copies outRing 3 64))) (fun t => hasCode t 0x0243 && smapGetList 0 t.mem.host 0x4000 1 == [9]) = true
    ∧ nextIs (exec (.outDescriptor 5 .served) (copies outRing 0 32)) (fun t => (t.ring 5).state == .error) = true
    ∧ nextIs (exec (.outDescriptor 5 (.busError 0x4000 0)) (copies outRing 3 64)) (fun t => hasCode t 0x0246) = true
    ∧ still (.outDescriptor 5 .served) (copies outRing 0 64) = true ∧ still (.outDescriptor 5 .served) endUnwritten0 = true := by decide +kernel
theorem test_recordWrite : nextIs (exec (.recordWrite none) (closing 2 5 recRing)) (fun t => (t.ring 5).devPtr == 1 && t.written == 1
      && smapGetList 0 t.mem.host 0x2000 2 == [0x00, 0x01] && smapGetList 0 t.mem.host 0x8000 1 == [1]) = true
    ∧ nextIs (exec (.recordWrite none) (closing 2 5 (fullHeld 251))) (fun t => (t.ring 5).held.length == 252) = true
    ∧ nextIs (exec (.recordWrite none) (closing 2 5 (fullHeld 252))) (fun t => (t.ring 5).dropped == 1) = true
    ∧ still (.recordWrite none) State.reset = true := by decide +kernel
/-- A completion record that finds no place in a stroke raises 0x0241 (R335). -/
theorem test_recordWrite_busError : nextIs (exec (.recordWrite (some 0x2000)) (closing 2 5 recRing)) (fun t =>
      (t.ring 5).state == .error && (t.ring 5).held.length == 1 && hasCode t 0x0246) = true := by decide +kernel
theorem test_recordWrite_full : nextIs (exec (.recordWrite none) { closing 0 5 (fullHeld 252) with seq := stroke.seq }) (fun t =>
      t.seq.faults.map (·.code) == [0x0241] && t.closed.isEmpty) = true := by decide +kernel
theorem test_recordsLost : nextIs (exec (.recordsLost 5) (withRing { recRing with dropped := 3 })) (fun t => (t.ring 5).dropped == 0 && hasCode t 0x0242) = true
    ∧ still (.recordsLost 5) (withRing recRing) = true := by decide +kernel
theorem test_coalesceTimeout : nextIs (exec (.coalesceTimeout 5) (withRing { recRing with irqEn := true, unsignalled := 2, coalTime := 3 })) (fun t =>
      t.boardTime == 3000 && (t.ring 5).unsignalled == 0 && t.msixPending == [0]) = true
    ∧ still (.coalesceTimeout 5) (withRing recRing) = true := by decide +kernel

/-! ### Resets, power, boot -/

def inPhaseB (p : BootPhase) : State := { State.reset with boot := { Boot.reset with phase := p } }
def failing : State := { State.reset with boot := { Boot.reset with pwrFail := true } }
def updatingJob : State := { failing with sec := { Security.reset with job := some ⟨.policy, 0, none, false⟩ } }
def fwFailing : State := { failing with mss := { failing.mss with fw := { failing.mss.fw with state := .download, failed := true } } }
theorem witness_ResetsAndPower : State.reset.boot.perstLow = false ∧ State.reset.canonical = true ∧ State.reset.boot.phase = .ready
    ∧ (inPhaseB .inReset).boot.phase = .inReset ∧ (inPhaseB .booting).boot.phase = .booting ∧ failing.sec.job = none
    ∧ failing.mss.fw.failed = false ∧ State.reset.plateOffered 0 = true ∧ oneE.plateOffered 1 = false
    ∧ failing.boot.pwrFail = true ∧ failing.boot.phase = .ready ∧ failing.boot.pgood = 0x3F ∧ updatingJob.sec.job.isSome = true
    ∧ updatingJob.sec.waiting = [] ∧ fwFailing.mss.fw.failed = true ∧ fwFailing.sec.job = none
    ∧ ({ State.reset with boot := { Boot.reset with perstLow := true } } : State).boot.perstLow = true
    ∧ ({ State.reset with sec := { Security.reset with tdi := .run } } : State).sec.tdi = .run := by decide +kernel
theorem test_perstNAssert : nextIs (exec .perstNAssert (withMem stroke 0 8 5)) (fun t => t.boot.phase == .inReset && byteAt t.mem 0 == 0 && t.seq.state == .idle) = true := by
  decide +kernel
theorem test_refclkLoss : nextIs (exec .refclkLoss State.reset) (fun t => t.boot.latches.refclkLost && t.boot.phase == .inReset) = true := by decide +kernel
theorem test_thermalTrip : nextIs (exec (.thermalTrip (.stack 3)) State.reset) (fun t => t.boot.thermTrip && t.boot.phase == .stopped && t.boot.latches.trip == some (.stack 3)) = true := by
  decide +kernel
theorem test_pgoodDeassert : nextIs (exec (.pgoodDeassert 2) State.reset) (fun t => t.boot.pgood == 0x3B && t.boot.phase == .inReset) = true := by decide +kernel
theorem test_sequencingViolation : nextIs (exec (.sequencingViolation 4) State.reset) (fun t => t.boot.latches.sequencing == some 4) = true := by decide +kernel
theorem test_pwrFailNAssert : nextIs (exec .pwrFailNAssert State.reset) (fun t => t.boot.pwrFail && hasCode t 0x0560) = true := by decide +kernel
theorem test_pwrFailNDeassert : nextIs (exec .pwrFailNDeassert failing) (fun t => !t.boot.pwrFail && hasCode t 0x0561) = true
    ∧ nextIs (exec .pwrFailNDeassert fwFailing) (fun t => t.mss.fw.state == .idle && hasCode t 0x0542) = true
    ∧ nextIs (exec .pwrFailNDeassert updatingJob) (fun t => t.sec.job.isNone && hasCode t 0x0406) = true
    ∧ still .pwrFailNDeassert State.reset = true := by decide +kernel
theorem test_watchdogExpiry : nextIs (exec .watchdogExpiry State.reset) (fun t => t.mss.restarts == 1 && hasCode t 0x050C) = true
    ∧ nextIs (exec .watchdogExpiry (inPhaseB .booting)) (fun t => t.boot.phase == .inReset) = true
    ∧ still .watchdogExpiry (inPhaseB .stopped) = true := by decide +kernel
theorem test_flr : nextIs (exec .flr (inState .active false)) (fun t => (t.ring 5).state == .off) = true
    ∧ nextIs (exec .flr watched) (fun t => !(smapGet Watch.reset t.watches 0).armed) = true := by decide +kernel
theorem test_pllLockTimeout : nextIs (exec (.pllLockTimeout 0) State.reset) (fun t => bitAt t.mss.plateFailed.toNat 0) = true
    ∧ still (.pllLockTimeout 1) oneE = true := by decide +kernel

def facts0 : BootFacts := ⟨3, true, true, true, 800, 800⟩
def scrubbing (x : Option (BitVec 16)) : State := { withMem State.reset 0 8 5 with sec := { Security.reset with scrub := some ⟨0, x⟩ } }
theorem witness_BootAndReady : (inPhaseB .inReset).boot.phase = .inReset ∧ (scrubbing (some 0x0402)).sec.scrub.isSome = true
    ∧ (inPhaseB .booting).sec.scrub = none ∧ (∀ k : Fin 16, ((inPhaseB .booting).port k.val).state ≠ .training) ∧ State.reset.sec.scrub = none
    ∧ (scrubbing none).sec.scrub.map (·.after) = some none ∧ (scrubbing none).canonical = true ∧ (inPhaseB .inReset).seq.phase = .none ∧ (inPhaseB .inReset).boot.recovery = false := by decide +kernel
/-- An empty flash has no usable firmware slot. -/
theorem test_boot : nextIs (exec (.boot facts0) (inPhaseB .inReset)) (fun t => t.boot.phase == .stopped && t.mss.mgmtAlert && t.boot.boardSlot == 3) = true
    ∧ still (.boot facts0) State.reset = true := by decide +kernel
theorem test_scrubComplete : nextIs (exec .scrubComplete (scrubbing (some 0x0402))) (fun t => byteAt t.mem 0 == 0 && hasCode t 0x0230 && hasCode t 0x0402) = true
    ∧ still .scrubComplete State.reset = true := by decide +kernel
theorem test_bootReady : nextIs (exec .bootReady (inPhaseB .booting)) (fun t => t.boot.phase == .ready && hasCode t 0x0500) = true
    ∧ still .bootReady State.reset = true := by decide +kernel
/-- Slot 0 of the flash: a header of magic, format and model, a body of no bytes, and eight zeros at its end. -/
def slot0 : State :=
  let a := fwSlotAddr 0
  let h := leBytes 4 0x57464D43 ++ leBytes 2 1 ++ leBytes 2 0x4230 ++ leBytes 16 0 ++ leBytes 48 (ofLe (sha384 []))
  let f := smapPutList 0xFF (smapPutList 0xFF [] a h) (a + 0xFF8) (List.replicate 8 0)
  { inPhaseB .inReset with boot := { (inPhaseB .inReset).boot with flash := f } }
theorem slot0_fields : ((slot0.fwHeader 0).drop 0xFF8).all (· == 0) = true ∧ recordNat (slot0.fwHeader 0) 0 4 = 0x57464D43
    ∧ recordNat (slot0.fwHeader 0) 4 2 = 1 ∧ recordNat (slot0.fwHeader 0) 6 2 = 0x4230 ∧ recordNat (slot0.fwHeader 0) 0xC 2 = 0
    ∧ recordNat (slot0.fwHeader 0) 0x10 4 = 0 ∧ recordNat (slot0.fwHeader 0) 0x18 48 = ofLe (sha384 []) := by decide +kernel
/-- With a good signature of its header the slot is usable. -/
theorem witness_BootAndReady_slot (h : Config.ecdsaVerify Config.firmwareKey
      (BitVec.ofNat 384 (ofLe (sha384 ((slot0.fwHeader 0).take 0x48)))) (BitVec.ofNat 768 (recordNat (slot0.fwHeader 0) 0x48 96)) = true) :
    slot0.slotUsable 0 = true := by
  obtain ⟨h1, h2, h3, h4, h5, h6, h7⟩ := slot0_fields
  simp only [State.slotUsable, fwHeaderOk, h, h1, h2, h3, h4, h5, h6, h7, State.fwBody, flashRead]
  decide +kernel

/-! ### The grain source and the management subsystem -/

/-- 1,024 samples of which no two neighbours agree. -/
def samples0 : List Byte := List.flatten (List.replicate 4 ((List.range 256).map (BitVec.ofNat 8)))
/-- The start-up test has passed. -/
def started : State := { State.reset with grain := ⟨[], false, true, 0, none⟩ }
def grainFailed : State := { State.reset with grain := ⟨[], true, false, 0, none⟩ }
theorem witness_GrainSource : samples0.length = 1024 ∧ started.grain.healthy samples0 = true ∧ started.grain.failed = false
    ∧ started.grain.startUp = true ∧ started.grain.seeds.length < 4 ∧ State.reset.grain.startUp = false ∧ grainFailed.grain.startUp = false ∧ grainFailed.grain.healthy samples0 = true
    ∧ grainFailed.grain.healthy (List.replicate 1024 0) = false
    ∧ State.reset.grain.seeds.length < 4 ∧ started.grain.healthy (List.replicate 1024 0) = false ∧ grainFailed.grain.failed = true := by decide +kernel
theorem test_seedReady : nextIs (exec (.seedReady samples0) started) (fun t => t.grain.seeds.length == 1) = true
    ∧ nextIs (exec (.seedReady (List.replicate 1024 0)) started) (fun t => t.grain.failed && hasCode t 0x0450) = true
    ∧ still (.seedReady samples0) grainFailed = true := by
  decide +kernel
theorem test_grainHealthFailure : nextIs (exec .grainHealthFailure State.reset) (fun t => t.grain.failed && hasCode t 0x0450) = true := by decide +kernel
theorem test_grainRestart : nextIs (exec (.grainRestart samples0) grainFailed) (fun t => !t.grain.failed && hasCode t 0x0451) = true
    ∧ nextIs (exec (.grainRestart samples0) State.reset) (fun t => t.grain.startUp && t.closed.isEmpty) = true
    ∧ nextIs (exec (.grainRestart (List.replicate 1024 0)) grainFailed) (fun t => t.grain.failed && hasCode t 0x0450) = true
    ∧ still (.grainRestart samples0) started = true := by decide +kernel

def reads (v : Int) : SensorReading := ⟨v, 0, true⟩
def hotJunction : State := { State.reset with mss := { Mss.reset with sensors := [(sensorKey (.junction 0 0), { Sensor.reset with value := 4000 })] } }
def fastGear (s : State) : State := { s with regs := { s.regs with gearNow := 1 }, mss := { s.mss with choice := 1 } }
def tick1 (s : State) : State := (s.advanceTo 65536).trackCalm
def badBed : State := { State.reset with mss := { Mss.reset with sensors := [(sensorKey (.bed 0), { Sensor.reset with failed := true })] } }
/-- A device that has been calm for as long as the policy asks. -/
def calmed : State := (State.reset.advanceTo (65536 * 4000)).trackCalm.advanceTo (65536 * 9000)
/-- V_SET 750 mV; plate E's core rail stands at 600 mV, plate W's at 750 mV. -/
def sagging : State := { State.reset with mss := { Mss.reset with vSet := 750, sensors :=
  [(sensorKey (.rail 5), { Sensor.reset with value := 600 }), (sensorKey (.rail 6), { Sensor.reset with value := 750 })] } }
theorem witness_SensorsAndGears : State.reset.boot.phase = .ready ∧ (State.reset.sensor (sensorKey (.bed 0))).failed = false
    ∧ (badBed.sensor (sensorKey (.bed 0))).failed = true
    ∧ readingFails (.bed 0) (reads 100) = false ∧ readingFails (.bed 0) ⟨100, 0, false⟩ = true
    ∧ (100 : Int) < 4 * State.reset.edition.tCrit.toNat ∧ readingFails (.junction 0 0) (reads 100) = false
    ∧ readingFails (.junction 0 0) (reads (4 * State.reset.edition.tCrit.toNat)) = false
    ∧ readingFails (.droop 40) (reads 3) = false ∧ readingFails (.rail 0) (reads 750) = false
    ∧ readingFails (.stack 3) (reads (4 * State.reset.edition.tHbmHot.toNat)) = false
    ∧ State.reset.edition.tHbmHot.toNat < State.reset.edition.tHbmCrit.toNat ∧ (State.reset.band 3).double = false
    ∧ (fastGear State.reset).mss.choice.toNat ≤ (fastGear State.reset).regs.gearNow.toNat
    ∧ (tick1 (fastGear hotJunction)).hot = true ∧ (tick1 State.reset).hot = false ∧ (tick1 State.reset).calm = false
    ∧ calmed.hot = false ∧ calmed.calm = true ∧ (State.reset.sensor (96 + 5 + 1)).failed = false := by decide +kernel
theorem witness_SensorsAndGears_rail : (sagging.sensor (96 + 5 + 1)).failed = false ∧ (∃ y ∈ sagging.mss.sensors, y.1 = sensorKey (.rail 5))
    ∧ (sagging.sensor (sensorKey (.rail 5))).value < (sagging.mss.vSet : Int) - 100 ∧ (600 : Int) < (sagging.mss.vSet : Int) - 100
    ∧ (sagging.mss.vSet : Int) - 100 ≤ (sagging.sensor (96 + 5 + 1)).value ∧ readingFails (.rail 5) (reads 600) = false
    ∧ sagging.plateOffered 0 = true ∧ sagging.canonical = true
    ∧ nextIs (exec (.sensorSample (.rail 5) (reads 600)) sagging) (fun t => bitAt t.mss.plateFailed.toNat 0) = true := by decide +kernel
theorem test_sensorSample : nextIs (exec (.sensorSample (.bed 0) (reads 100)) State.reset) (fun t => (t.sensor (sensorKey (.bed 0))).sum == 100) = true
    ∧ nextIs (exec (.sensorSample (.bed 0) ⟨100, 0, false⟩) State.reset) (fun t => hasCode t 0x0507) = true
    ∧ nextIs (exec (.sensorSample (.droop 40) (reads 3)) State.reset) (fun t => t.mss.droops == [0, 3]) = true := by decide +kernel
/-- The critical limit raises 0x0506 in a stroke; a hot stack doubles its refresh (R411, R412). -/
theorem test_sensorSample_limits : nextIs (exec (.sensorSample (.junction 0 0) (reads (4 * 105))) { stroke with edition := { stroke.edition with tCrit := 105 } })
      (fun t => t.seq.faults.map (·.code) == [0x0506]) = true
    ∧ nextIs (exec (.sensorSample (.stack 3) (reads (4 * 85))) { State.reset with edition := { Edition.default with tHbmHot := 85, tHbmCrit := 95 } })
      (fun t => (t.band 3).double && hasCode t 0x0504) = true := by decide +kernel
theorem test_gearPolicyTick : nextIs (exec .gearPolicyTick (fastGear hotJunction)) (fun t => t.boardTime == 65536 && t.mss.choice == 2) = true
    ∧ nextIs (exec .gearPolicyTick (fastGear State.reset)) (fun t => t.boardTime == 65536) = true := by decide +kernel
theorem test_telemetryWindow : nextIs (exec .telemetryWindow hotJunction) (fun t => t.boardTime == 4_000_000) = true := by decide +kernel

def session7 : Session := ⟨7, true, 0, 0, 0, 0⟩
/-- An open management session 7. -/
def managed : State := { State.reset with mss := { Mss.reset with sessions := [session7] } }
def m7 : MgmtReq := ⟨false, some 7⟩
def outside : MgmtReq := ⟨false, none⟩
def anyone (n : BitVec 8) : TelemetryReq := ⟨true, n⟩
def answers (t : State) (b : List Byte) : Bool := t.sec.mctpAnswer.take b.length == b
def cpers : State := { managed with mss := { managed.mss with cper := [⟨1, .fatal, [], false⟩, ⟨2, .fatal, [], false⟩] } }
theorem witness_ManagementRequests : State.reset.boot.phase = .ready ∧ (inPhaseB .inReset).boot.phase ≠ .ready
    ∧ (anyone 7).outstanding.toNat < 8 ∧ 8 ≤ (anyone 8).outstanding.toNat ∧ m7.pcie = false ∧ m7.session = some 7
    ∧ managed.mss.sessions = [session7] ∧ session7.open_ = true ∧ outside.session = none
    ∧ (300 : BitVec 16).toNat ≤ managed.edition.pLimit.toNat ∧ ¬ (managed.edition.pLimit + 1).toNat ≤ managed.edition.pLimit.toNat
    ∧ managed.busyRun = false ∧ stroke.busyRun = true ∧ managed.mss.fw.state = .idle ∧ managed.boot.pwrFail = false := by decide +kernel
/-- A record of edition 1: every engine choice lies in its range, slot 0 holds role 0, and no port is used (R469–R473). -/
@[irreducible] def edition1 : List Byte :=
  let zeros_ := fun (n : Nat) => List.replicate n (0 : Byte)
  let c := 8 + 8 <<< 16 + 3 <<< 34 + 3 <<< 38
  let p := 90 + 80 <<< 8 + 105 <<< 16 + 85 <<< 24 + 90 <<< 32 + 95 <<< 40 + 1000 <<< 48 + 100 <<< 64 + 30 <<< 80 + 200 <<< 96 + 4096 <<< 128
  let hbm := leBytes 8 (2 <<< 18 + 32 <<< 34)
  leBytes 16 (0x44454D43 + 1 <<< 32 + 0x4230 <<< 48 + 1 <<< 64) ++ zeros_ 48 ++ leBytes 32 (c + 8 <<< 64) ++ leBytes 32 p
    ++ zeros_ 96 ++ hbm ++ hbm ++ zeros_ 0xF08 ++ List.replicate 8 0xFF
@[irreducible] def key0 : List Byte := List.replicate 96 0
/-- Edition 2 is in force from place 0; place 1 holds edition 1. -/
def revertable : State :=
  { managed with
    edition := { Edition.default with number := 2, place := 0 },
    boot := { managed.boot with
      ownerKeyDigest := some (BitVec.ofNat 384 (ofLe (sha384 key0))),
      flash := smapPutList 0xFF [] (editionPlaceAddr 1) edition1 } }
theorem edition1_length : edition1.length = 4096 := by decide +kernel
theorem erased (a n : Nat) : flashRead [] a n = List.replicate n 0xFF := by
  induction n generalizing a with
  | zero => rfl
  | succ n ih => simpa [flashRead, smapGetList, smapGet, List.replicate_succ] using ih (a + 1)
theorem read_put (l : List Byte) (a : Nat) (h : l.length = 4096) : smapGetList 0xFF (smapPutList 0xFF [] a l) a 4096 = l := by
  have := Laws.smapGetList_putList_self (0xFF : Byte) l [] a rfl
  rwa [h] at this
theorem read_other (l : List Byte) (a b : Nat) (h : b + 4096 ≤ a ∨ a + l.length ≤ b) :
    smapGetList 0xFF (smapPutList 0xFF [] a l) b 4096 = List.replicate 4096 0xFF :=
  (Laws.smapGetList_putList_other _ l [] a b 4096 h).trans (erased b 4096)
theorem editionBytes_one : revertable.editionBytes 1 = edition1 := read_put edition1 _ edition1_length
theorem editionBytes_other (i : Nat) (h : i ≠ 1) : revertable.editionBytes i = List.replicate 4096 0xFF :=
  read_other edition1 _ _ (by rw [edition1_length, editionPlaceAddr, editionPlaceAddr]; omega)
theorem edition1_fields : blank edition1 = false ∧ revokedRecord edition1 = false ∧ recordRsvd edition1 = 0
    ∧ (readEdition edition1 0).inRange = true ∧ (readEdition edition1 0).mapsOk = true ∧ (readEdition edition1 0).hbmOk = true
    ∧ recordNat edition1 0 4 = 0x44454D43 ∧ recordNat edition1 4 2 = 1 ∧ recordNat edition1 6 2 = 0x4230
    ∧ (edition1.drop 0xF00).take 96 = key0 ∧ (readEdition edition1 0).slot = 0
    ∧ (readEdition edition1 0).number = 1 ∧ (readEdition edition1 0).floor = 0 := by decide +kernel
theorem blank_erased : blank (List.replicate 4096 0xFF) = true ∧ revokedRecord (List.replicate 4096 0xFF) = false := by decide +kernel

/-- Where every signature verifies, that record is valid. -/
theorem place1 (h : ∀ k d g, Config.ecdsaVerify k d g = true) (l : List PlaceState) (hl : validNumbers l = []) :
    revertable.placeState 1 l = .valid (readEdition edition1 1) := by
  obtain ⟨h1, h2, h3, h4, h5, h6, h7, h8, h9, hk, hs, hn, hf⟩ := edition1_fields
  have hz : revertable.boot.editionFloor = 0 := rfl
  have hb : revertable.boot.boardSlot = 0 := rfl
  have ho : revertable.boot.ownerKeyDigest = some (BitVec.ofNat 384 (ofLe (sha384 key0))) := rfl
  have hd : ofLe (sha384 key0) % 2 ^ 384 = ofLe (sha384 key0) := by decide +kernel
  have e : revertable.editionReason edition1 [] = none := by
    simp only [State.editionReason, editionSignatureOk, h, hk, ho, hs, hn, hf, hz, hb, h3, h4, h5, h6, h7, h8, h9, BitVec.toNat_ofNat, hd]
    rw [show (ofLe (sha384 key0) == ofLe (sha384 key0)) = true from beq_self_eq_true _]
    decide
  simp only [State.placeState, editionBytes_one, h1, h2, hl, e, Bool.false_eq_true, if_false]
theorem place_other (i : Nat) (hi : i ≠ 1) (l : List PlaceState) : revertable.placeState i l = .empty := by
  simp only [State.placeState, editionBytes_other i hi, blank_erased, if_true]
theorem places_revertable (h : ∀ k d g, Config.ecdsaVerify k d g = true) : revertable.places =
    [.empty, .valid (readEdition edition1 1), .empty, .empty, .empty, .empty, .empty, .empty] := by
  have r : List.range 8 = [0, 1, 2, 3, 4, 5, 6, 7] := by decide
  rw [State.places, r]
  simp only [List.foldl_cons, List.foldl_nil, List.nil_append, List.cons_append]
  rw [place_other 0 (by decide), place1 h _ rfl]
  simp [place_other]
theorem witness_ManagementRequests_revert (h : ∀ k d g, Config.ecdsaVerify k d g = true) : revertable.canRevert = true
    ∧ revertable.busyRun = false ∧ revertable.mss.fw.state = .idle ∧ revertable.boot.pwrFail = false := by
  have n : (readEdition edition1 1).number = 1 := edition1_fields.2.2.2.2.2.2.2.2.2.2.2.1
  have hp : revertable.edition.place = 0 := rfl
  have hn : revertable.edition.number = 2 := rfl
  refine ⟨?_, rfl, rfl, rfl⟩
  simp only [State.canRevert, State.previousEdition, places_revertable h, hp, hn, editionBytes_other 0 (by decide), blank_erased]
  simp [highest, n]

theorem test_sensorRead : nextIs (exec (.sensorRead (anyone 7) (.bed 0)) State.reset) (fun t => answers t [0]) = true
    ∧ nextIs (exec (.sensorRead (anyone 8) (.bed 0)) State.reset) (fun t => answers t [2]) = true := by decide +kernel
theorem test_getStatus : nextIs (exec (.getStatus (anyone 0)) State.reset) (fun t => answers t [0]) = true
    ∧ still (.getStatus (anyone 0)) (inPhaseB .inReset) = true := by decide +kernel
theorem test_logRead : nextIs (exec (.logRead m7 0) managed) (fun t => answers t [0]) = true
    ∧ nextIs (exec (.logRead outside 0) managed) (fun t => answers t [1]) = true := by decide +kernel
theorem test_setPowerCap : nextIs (exec (.setPowerCap m7 300) managed) (fun t => t.mss.powerCap == 300 && t.mss.sram.map (·.code) == [0x050B]) = true
    ∧ nextIs (exec (.setPowerCap m7 299) managed) (fun t => t.mss.powerCap == 0 && answers t [1]) = true := by decide +kernel
theorem test_editionRevert : nextIs (exec (.editionRevert m7) { managed with seq := stroke.seq }) (fun t => answers t [1]) = true
    ∧ nextIs (exec (.editionRevert outside) managed) (fun t => answers t [1]) = true := by decide +kernel
theorem test_cperAck : nextIs (exec (.cperAck m7 1) cpers) (fun t => t.mss.cper.map (·.recordId) == [2] && answers t [0]) = true := by decide +kernel
theorem test_logMirror : nextIs (exec (.logMirror ⟨[], false, true⟩) State.reset) (fun t => t.mss.lastMirror == t.refclk) = true
    ∧ still (.logMirror ⟨[], false, true⟩) failing = true := by decide +kernel

/-! ### Firmware updates -/

def fwOf (f : FwUpdate → FwUpdate) : State := { managed with mss := { managed.mss with fw := f Mss.reset.fw } }
def at_ (x : FwState) : State := fwOf fun f => { f with state := x }
def downloading : State := fwOf fun f => { f with state := .download, size := 1500 }
def lastBlock : State := fwOf fun f => { f with state := .download, size := 4, received := 4 }
theorem witness_FirmwareUpdates : managed.boot.phase = .ready ∧ m7.session = some 7 ∧ managed.mss.sessions = [session7]
    ∧ (at_ .idle).mss.fw.failed = false ∧ (at_ .learn).mss.fw.state = .learn ∧ lastBlock.mss.fw.received = lastBlock.mss.fw.size.toNat
    ∧ downloading.mss.fw.received < downloading.mss.fw.size.toNat ∧ (List.replicate 1024 (1 : Byte)).length = min 1024 (1500 - 0)
    ∧ 0 + 1024 < downloading.mss.fw.size.toNat ∧ downloading.boot.pwrFail = false ∧ failing.boot.pwrFail = true
    ∧ (at_ .apply).mss.fw.state = .apply ∧ { at_ .apply with boot := failing.boot }.boot.pwrFail = true
    ∧ { at_ .apply with boot := failing.boot }.mss.sessions = [session7] ∧ (at_ .activate).mss.fw.state = .activate
    ∧ (fwOf fun f => { f with state := .apply, failed := true }).mss.fw.failed = true
    ∧ (0x80_0000 : BitVec 32).toNat ≤ 0x80_0000 ∧ ¬ (0x80_0001 : BitVec 32).toNat ≤ 0x80_0000 := by decide +kernel
theorem test_requestUpdate : nextIs (exec (.requestUpdate m7 1) managed) (fun t => t.mss.fw.state == .learn && answers t [0]) = true
    ∧ nextIs (exec (.requestUpdate m7 2) managed) (fun t => t.mss.fw.state == .idle && answers t [1]) = true := by decide +kernel
theorem test_passComponentTable : nextIs (exec (.passComponentTable m7 fwClass 1) (at_ .learn)) (fun t => t.mss.fw.state == .readyXfer) = true
    ∧ nextIs (exec (.passComponentTable m7 fwClass 2) (at_ .learn)) (fun t => answers t [1]) = true := by decide +kernel
/-- The inactive slot is erased; the boot flash outside it stays. -/
theorem test_updateComponent : nextIs (exec (.updateComponent m7 fwClass 1 0x80_0000)
      { at_ .readyXfer with boot := { Boot.reset with flash := [(0x10_0000, 5), (fwSlotAddr 1, 6)] } })
      (fun t => t.mss.fw.state == .download && t.boot.flash == [(0x10_0000, 5)]) = true
    ∧ nextIs (exec (.updateComponent m7 fwClass 1 0x80_0001) (at_ .readyXfer)) (fun t => answers t [1]) = true := by decide +kernel
theorem test_firmwareData : nextIs (exec (.firmwareData 0 (List.replicate 1024 1) false) downloading) (fun t => t.mss.fw.state == .idle && hasCode t 0x0542) = true
    ∧ still (.firmwareData 1 (List.replicate 1024 1) true) downloading = true := by decide +kernel
theorem test_firmwareData_block : nextIs (exec (.firmwareData 0 (List.replicate 1024 1) true) downloading) (fun t => t.mss.fw.received == 1024) = true := by
  decide +kernel
theorem test_transferComplete : nextIs (exec (.transferComplete m7) lastBlock) (fun t => t.mss.fw.state == .verify) = true
    ∧ nextIs (exec (.transferComplete m7) downloading) (fun t => answers t [1]) = true := by decide +kernel
theorem test_verifyComplete : nextIs (exec (.verifyComplete m7) (at_ .verify)) (fun t => t.mss.fw.state == .apply) = true
    ∧ nextIs (exec (.verifyComplete m7) (at_ .apply)) (fun t => answers t [1]) = true := by decide +kernel
theorem test_applyComplete : nextIs (exec (.applyComplete m7) (at_ .apply)) (fun t => t.mss.fw.state == .activate && t.mss.alert) = true
    ∧ nextIs (exec (.applyComplete m7) (at_ .verify)) (fun t => answers t [1]) = true := by decide +kernel
theorem test_firmware_power : nextIs (exec (.applyComplete m7) { at_ .apply with boot := failing.boot }) (fun t => t.mss.fw.failed && answers t [1]) = true
    ∧ nextIs (exec (.activateFirmware m7) { at_ .activate with boot := failing.boot }) (fun t => t.mss.fw.failed && t.mss.fw.pendingSlot.isNone) = true := by decide +kernel
theorem test_activateFirmware : nextIs (exec (.activateFirmware m7) (at_ .activate)) (fun t => t.mss.fw.pendingSlot == some 1 && t.mss.fw.state == .idle) = true
    ∧ nextIs (exec (.activateFirmware m7) (at_ .idle)) (fun t => answers t [1]) = true := by decide +kernel
theorem test_enquiries : nextIs (exec (.queryDeviceIdentifiers m7) managed) (fun t => answers t [0]) = true
    ∧ nextIs (exec (.getFirmwareParameters m7) managed) (fun t => answers t [0]) = true
    ∧ nextIs (exec (.pldmGetStatus m7) managed) (fun t => answers t [0]) = true := by decide +kernel
theorem test_cancelUpdate : nextIs (exec (.cancelUpdate m7) downloading) (fun t => t.mss.fw.state == .idle && hasCode t 0x0542) = true
    ∧ nextIs (exec (.cancelUpdate m7) managed) (fun t => answers t [1]) = true
    ∧ nextIs (exec (.cancelUpdateComponent m7) downloading) (fun t => t.mss.fw.state == .readyXfer && hasCode t 0x0542) = true
    ∧ nextIs (exec (.cancelUpdateComponent m7) (at_ .activate)) (fun t => answers t [1]) = true := by decide +kernel

/-! ### SPDM and sessions -/

def negotiated (s : State) : State := { s with sec := { s.sec with spdm := ⟨true, true, true⟩ }, mss := { s.mss with spdm := ⟨true, true, true⟩ } }
def offer1 : AlgOffer := ⟨true, true, true, true, true, true, true⟩
def doeSays (t : State) (b : List Byte) : Bool := t.sec.doeAnswer.take b.length == b
/-- Session 7 of the DOE mailbox, open or not. -/
def withSession (o : Bool) : State := let s := negotiated State.reset; { s with sec := { s.sec with sessions := [{ session7 with open_ := o }] } }
theorem witness_SpdmRequests : State.reset.boot.phase = .ready ∧ (inPhaseB .inReset).boot.phase = .inReset
    ∧ State.reset.sec.spdm.version = false ∧ State.reset.mss.spdm.algorithms = false ∧ (negotiated State.reset).sec.spdm.algorithms = true
    ∧ (negotiated State.reset).mss.spdm.algorithms = true ∧ (9 : BitVec 8).toNat ≤ 9 ∧ 9 < (10 : BitVec 8).toNat ∧ (10 : BitVec 8) ≠ 0xFF := by
  decide
theorem test_getVersion : nextIs (exec (.getVersion .doe) State.reset) (fun t => t.sec.doeAnswer == [0, 0x12] && t.sec.spdm == ⟨true, false, false⟩) = true
    ∧ still (.getVersion .mctp) (inPhaseB .inReset) = true := by decide +kernel
theorem test_getCapabilities : nextIs (exec (.getCapabilities .mctp) (negotiated State.reset)) (fun t => answers t [0, 0xF6, 0x63, 0, 0]) = true
    ∧ nextIs (exec (.getCapabilities .doe) State.reset) (fun t => doeSays t [3, 4]) = true := by decide +kernel
theorem test_negotiateAlgorithms : nextIs (exec (.negotiateAlgorithms .doe offer1) (negotiated State.reset)) (fun t => t.sec.spdm.algorithms) = true
    ∧ nextIs (exec (.negotiateAlgorithms .doe { offer1 with dmtf := false }) (negotiated State.reset)) (fun t => !t.sec.spdm.algorithms) = true := by decide +kernel
theorem test_getDigests : nextIs (exec (.getDigests .doe none) (negotiated State.reset)) (fun t => t.sec.spdm.algorithms) = true
    ∧ nextIs (exec (.getDigests .doe none) State.reset) (fun t => doeSays t [3, 4]) = true
    ∧ nextIs (exec (.getDigests .doe (some 7)) { withSession true with refclk := 50 }) (fun t => t.sec.sessions.map (·.lastMessage) == [50]) = true
    ∧ nextIs (exec (.getDigests .doe (some 8)) (withSession true)) (fun t => doeSays t [3, 4]) = true := by decide +kernel
/-- A certificate chain of five bytes. -/
def chained : State := { negotiated State.reset with boot := { Boot.reset with flash := [(0x2_0000, 5), (0x2_0001, 0), (0x2_0002, 7)] } }
theorem test_getCertificate : nextIs (exec (.getCertificate .doe none 0 2 9) chained) (fun t => t.sec.doeAnswer == [0, 3, 0, 0, 0, 7, 0xFF, 0xFF]) = true
    ∧ nextIs (exec (.getCertificate .doe none 0 5 9) chained) (fun t => doeSays t [3, 1]) = true := by decide +kernel
theorem test_challenge : nextIs (exec (.challenge .doe 0 3) (negotiated State.reset)) (fun t => t.freeCount == 1) = true
    ∧ nextIs (exec (.challenge .doe 1 3) (negotiated State.reset)) (fun t => doeSays t [3, 1]) = true := by decide +kernel
/-- Block 5 holds NUMBER and the edition floor. -/
theorem test_getMeasurements : nextIs (exec (.getMeasurements .mctp none 5 false 0) (negotiated State.reset)) (fun t => answers t [0, 1, 5, 1, 11, 0]) = true
    ∧ nextIs (exec (.getMeasurements .mctp none 0 false 0) (negotiated State.reset)) (fun t => t.sec.mctpAnswer == [0, 9]) = true := by decide +kernel
theorem test_doeDiscovery : nextIs (exec (.doeDiscovery 2) State.reset) (fun t => t.sec.doeAnswer == [0, 1, 0, 2, 0]) = true
    ∧ still (.doeDiscovery 0) (inPhaseB .booting) = true := by decide +kernel

def mgmtBegun : State := let s := negotiated managed; { s with mss := { s.mss with sessions := [{ session7 with open_ := false }] } }
def four4 : State := let s := withSession true; { s with sec := { s.sec with sessions := List.replicate 4 session7 } }
def tenantOn7 : State :=
  let s := withSession true
  { s with sec := { s.sec with tenantSession := some 7, importState := .running, importJob := some ⟨0x4000, [], 0, 1, 0, 7⟩ } }
theorem witness_Sessions : (withSession true).boot.phase = .ready ∧ (withSession true).sec.spdm.algorithms = true
    ∧ (withSession true).sec.sessions.length < 4 ∧ 4 ≤ four4.sec.sessions.length ∧ mgmtBegun.mss.sessions.length < 2
    ∧ (withSession true).sec.sessions.map (fun x => (x.id, x.open_)) = [(7, true)]
    ∧ (withSession false).sec.sessions.map (fun x => (x.id, x.open_)) = [(7, false)]
    ∧ mgmtBegun.mss.sessions.map (fun x => (x.id, x.open_)) = [(7, false)] ∧ mgmtBegun.boot.recovery = false
    ∧ (some 1 : Option (BitVec 384)) ≠ some mgmtBegun.edition.mgmtRoot ∧ tenantOn7.sec.tenantSession = some 7
    ∧ State.reset.sec.spdm.algorithms = false ∧ State.reset.sec.sessions = [] := by decide +kernel
theorem test_keyExchange : nextIs (exec (.keyExchange .doe 5) (withSession true)) (fun t => t.sec.sessions.length == 2 && doeSays t [0, 1, 0, 0, 0, 60]) = true
    ∧ nextIs (exec (.keyExchange .doe 5) four4) (fun t => doeSays t [3, 3]) = true := by decide +kernel
theorem test_finish : nextIs (exec (.finishSession .doe 7 true none 9) (withSession false)) (fun t => t.sec.sessions.map (·.open_) == [true]) = true
    ∧ nextIs (exec (.finishSession .mctp 7 true (some 1) 9) mgmtBegun) (fun t => t.mss.sessions.isEmpty && hasCode t 0x0511) = true
    ∧ nextIs (exec (.finishSession .doe 7 false none 9) (withSession false)) (fun t => t.sec.sessions.isEmpty && doeSays t [3, 6]) = true := by decide +kernel
theorem test_heartbeat : nextIs (exec (.heartbeat .doe 7) { withSession true with refclk := 50 }) (fun t => t.sec.sessions.map (·.lastMessage) == [50]) = true
    ∧ nextIs (exec (.heartbeat .doe 8) (withSession true)) (fun t => doeSays t [3, 4]) = true := by decide +kernel
theorem test_keyUpdate : nextIs (exec (.keyUpdate .doe 7) (withSession true)) (fun t => t.sec.sessions.map (·.keyUpdates) == [1]) = true := by decide +kernel
theorem test_endSession : nextIs (exec (.endSession .doe 7) tenantOn7) (fun t => t.sec.sessions.isEmpty && t.sec.tenantSession.isNone && t.sec.importState == .failed) = true := by
  decide +kernel
theorem test_sessionTimeout : nextIs (exec (.sessionTimeout .doe 7) (withSession true)) (fun t => t.sec.sessions.isEmpty) = true
    ∧ still (.sessionTimeout .doe 7) State.reset = true := by decide +kernel

/-! ### Tenants -/

/-- A policy of no ranges and no digests. -/
def policy0 : List Byte := List.replicate policyBytes 0
/-- A request of session 7 with opcode `op` and tag 9, and its length as its header gives it. -/
def req (op : BitVec 8) (p : List Byte) : TenantReq := ⟨7, Config.pciVendor, op, 0, BitVec.ofNat 16 p.length, 9, p⟩
/-- A request of the device's vendor passes that check. -/
theorem ours (o : BitVec 8) (p : List Byte) (op : Nat) (ok : State → Bool) (f : State → State) (payload : State → List Byte) (s : State) :
    tenantCommand (req o p) op ok f payload s =
      if s.boot.phase = .ready then
        .next (if s.doeSession 7 then
          let s := s.touchDoe 7
          if opcodeNames (req o p) op && ok s then (f s).respond (req o p) 0 (payload s) else s.respond (req o p) 1 []
          else s.doe [ansError, errUnsupported])
      else .next s := by
  simp [tenantCommand, req]
def tenant0 : Tenant := ⟨1, 2, 0, policy0⟩
def sealedT (own : Bool) : State :=
  let s := withSession true
  { s with sec := { s.sec with tenant := some tenant0, sealed := true, bar2Closed := true, tenantSession := if own then some 7 else none } }
def beginPayload : List Byte := leBytes 48 (5 + 6 <<< 128) ++ policy0
/-- A blob at host 0x4000: one segment of zeros for device address 0. -/
def blobHead : List Byte := leBytes 64 (0x494E4D43 + 1 <<< 32 + 1 <<< 128)
def withBlob (s : State) : State := { s with mem := { s.mem with host := smapPutList 0 [] 0x4000 blobHead } }
def bindProof : List Byte := hmac384 (bindKey tenant0) (leBytes 48 0)
def lastCode (s : State) : Option Byte := s.sec.responses.getLast?.bind fun d => d.bytes[1]?
theorem policy0_ok : State.reset.policyOk policy0 = true ∧ beginPayload.drop 48 = policy0 ∧ 48 ≤ beginPayload.length := by decide +kernel
def dueResponse (b : Byte) : State := { withSession true with sec := { (withSession true).sec with responses := [⟨40000, 7, [3, b, 0, 0, 9, 0, 0, 0]⟩] } }
/-- A policy of one digest, 5. -/
def policy1 : List Byte := leBytes 260 (1 <<< 16) ++ leBytes 48 5 ++ List.replicate (1796 - 308) 0
theorem witness_TenantCommands_policy : (sealedT true).policyOk policy1 = true ∧ policyDigests policy1 = [5]
    ∧ (sealedT true).sec.tenant.isSome = true ∧ (sealedT true).sec.waiting = [] ∧ { aCartoon with digest := 5 }.digest.toNat ∈ policyDigests policy1
    ∧ aCartoon.digest.toNat ∉ policyDigests policy1 ∧ (dueResponse 0).sec.responses.map (·.bytes[1]?) = [some 0]
    ∧ (dueResponse 1).sec.responses.map (·.bytes[1]?) = [some 1] ∧ (withSession true).sec.waiting = [] := by decide +kernel
theorem witness_TenantCommands : (withSession true).boot.phase = .ready ∧ (withSession true).sec.tenant = none
    ∧ (withSession true).seq.state = .idle ∧ (withSession true).seamRetraining = false ∧ (withSession true).sec.job = none
    ∧ (withSession true).sec.scrub = none ∧ (withSession true).policyOk (beginPayload.drop 48) = true
    ∧ (sealedT true).sec.tenantSession = some 7 ∧ (List.replicate 32 (1 : Byte)).length = 32
    ∧ (withBlob (sealedT true)).blobOk (blobHeader ((withBlob (sealedT true)).hostRead 0x4000 64)) = true
    ∧ ofLe (leBytes 8 0x4000) % 64 = 0 ∧ (sealedT true).sec.importJob = none ∧ (sealedT false).sec.tenantSession = none
    ∧ (sealedT false).busyRun = false ∧ State.reset.sec.responses = [] ∧ policyDigests policy0 = [] := by decide +kernel
theorem test_tenantBegin : nextIs (exec (.tenantBegin (req 1 beginPayload)) (withSession true)) (fun t => lastCode t == some 0 && t.sec.bar2Closed
      && ((t.sec.job.map fun j => j.purpose) == some .begin_)) = true
    ∧ nextIs (exec (.tenantBegin (req 1 beginPayload)) (sealedT true)) (fun t => lastCode t == some 1 && t.sec.job.isNone) = true := by
  refine ⟨?_, ?_⟩
  · show nextIs (execTenantBegin _ _) _ = true
    rw [execTenantBegin, ours]; decide +kernel
  · show nextIs (execTenantBegin _ _) _ = true
    rw [execTenantBegin, ours]; decide +kernel
/-- A command whose header names another opcode is refused (R383). -/
theorem test_tenant_header : nextIs (exec (.tenantBegin (req 9 beginPayload)) (withSession true)) (fun t => lastCode t == some 1 && t.sec.job.isNone) = true := by
  show nextIs (execTenantBegin _ _) _ = true
  rw [execTenantBegin, ours]; decide +kernel
theorem test_tenantEnd : nextIs (exec (.tenantEnd (req 2 [])) (sealedT false)) (fun t => lastCode t == some 0 && ((t.sec.job.map fun j => j.tenant) == some none)) = true
    ∧ nextIs (exec (.tenantEnd (req 2 [1])) (sealedT false)) (fun t => lastCode t == some 1) = true := by
  refine ⟨?_, ?_⟩
  · show nextIs (execTenantEnd _ _) _ = true
    rw [execTenantEnd, ours]; decide +kernel
  · show nextIs (execTenantEnd _ _) _ = true
    rw [execTenantEnd, ours]; decide +kernel
theorem test_rekey : nextIs (exec (.rekey (req 3 (List.replicate 32 1))) (sealedT true)) (fun t => ((t.sec.job.bind fun j => j.tenant).map fun x => x.generation) == some 1) = true
    ∧ nextIs (exec (.rekey (req 3 (List.replicate 32 1))) (sealedT false)) (fun t => lastCode t == some 1) = true := by
  refine ⟨?_, ?_⟩
  · show nextIs (execRekey _ _) _ = true
    rw [execRekey, ours]; decide +kernel
  · show nextIs (execRekey _ _) _ = true
    rw [execRekey, ours]; decide +kernel
theorem test_policySet : nextIs (exec (.policySet (req 4 policy0)) (sealedT true)) (fun t => lastCode t == some 0 && t.sec.job.isSome) = true
    ∧ nextIs (exec (.policySet (req 4 [0])) (sealedT true)) (fun t => lastCode t == some 1) = true := by
  refine ⟨?_, ?_⟩
  · show nextIs (execPolicySet _ _) _ = true
    rw [execPolicySet, ours]; decide +kernel
  · show nextIs (execPolicySet _ _) _ = true
    rw [execPolicySet, ours]; decide +kernel
theorem test_import : nextIs (exec (.importBegin (req 5 (leBytes 8 0x4000))) (withBlob (sealedT true))) (fun t => t.sec.importState == .running && t.sec.importJob.isSome) = true
    ∧ nextIs (exec (.importBegin (req 5 (leBytes 8 0x8000))) (withBlob (sealedT true))) (fun t => lastCode t == some 1) = true := by
  refine ⟨?_, ?_⟩
  · show nextIs (execImportBegin _ _) _ = true
    rw [execImportBegin, ours]; decide +kernel
  · show nextIs (execImportBegin _ _) _ = true
    rw [execImportBegin, ours]; decide +kernel
theorem test_status : nextIs (exec (.status (req 6 [])) (withSession true)) (fun t => ((t.sec.responses.map fun d => d.bytes.length) == [36]) && lastCode t == some 0) = true
    ∧ nextIs (exec (.status (req 6 [1])) (withSession true)) (fun t => lastCode t == some 1) = true := by
  refine ⟨?_, ?_⟩
  · show nextIs (execStatus _ _) _ = true
    rw [execStatus, ours]; decide +kernel
  · show nextIs (execStatus _ _) _ = true
    rw [execStatus, ours]; decide +kernel
theorem test_bind : nextIs (exec (.bind (req 7 bindProof)) (sealedT false)) (fun t => lastCode t == some 0 && t.sec.tenantSession == some 7) = true
    ∧ nextIs (exec (.bind (req 7 [])) (sealedT false)) (fun t => lastCode t == some 1 && t.sec.tenantSession.isNone) = true := by
  refine ⟨?_, ?_⟩
  · show nextIs (execBind _ _) _ = true
    rw [execBind, ours]; decide +kernel
  · show nextIs (execBind _ _) _ = true
    rw [execBind, ours]; decide +kernel
/-- A waiting update queues behind the one under way. -/
theorem test_tenant_queues : (match tenantCommand (req 2 []) opEnd (fun _ => true) (fun s => s.beginChange ⟨.end_, 7, none, false⟩) (fun _ => [])
      { sealedT false with sec := { (sealedT false).sec with job := some ⟨.policy, 7, some tenant0, false⟩ } } with
    | .next t => t.sec.waiting.length == 1 && t.sec.job.isSome | _ => false) = true := by
  rw [ours]; decide +kernel
theorem test_tenantResponse : nextIs (exec .tenantResponse (dueResponse 0)) (fun t => t.sec.doeAnswer.length == 8 && t.closed.isEmpty && t.refclk == 40000) = true
    ∧ nextIs (exec .tenantResponse (dueResponse 1)) (fun t => hasCode t 0x0420) = true ∧ still .tenantResponse State.reset = true := by decide +kernel

def runningT : State := { sealedT true with seq := stroke.seq }
theorem witness_RunRefusesTenants : runningT.boot.phase = .ready ∧ runningT.seq.state = .running
    ∧ runningT.sec.sessions.map (fun x => (x.id, x.open_)) = [(7, true)] ∧ (req 6 []).payload = [] ∧ (req 6 []).opcode = 6 ∧ (req 6 []).payloadLen = 0 := by decide +kernel
theorem test_run_refuses : nextIs (exec (.tenantEnd (req 2 [])) runningT) (fun t => lastCode t == some 1) = true
    ∧ nextIs (exec (.status (req 6 [])) runningT) (fun t => lastCode t == some 0) = true := by
  refine ⟨?_, ?_⟩
  · show nextIs (execTenantEnd _ _) _ = true
    rw [execTenantEnd, ours]; decide +kernel
  · show nextIs (execStatus _ _) _ = true
    rw [execStatus, ours]; decide +kernel

/-! ### The key store, imports, IDE, TDISP, JTAG and addresses -/

def committing (w : CommitFor) (t : Option Tenant) : State :=
  let s := withSession true
  { s with sec := { s.sec with job := some ⟨w, 7, t, false⟩ } }
def powerLow (s : State) : State := { s with boot := { s.boot with pwrFail := true } }
def importing : State :=
  let s := withBlob (sealedT true)
  { s with sec := { s.sec with importState := .running, importJob := some ⟨0x4000, blobHead, 0, 1, 0, 7⟩ } }
theorem witness_KeyStoreAndImports : (committing .policy (some tenant0)).sec.job.map (·.stopped) = some false
    ∧ (committing .begin_ (some tenant0)).boot.pwrFail = false ∧ (powerLow (committing .end_ none)).boot.pwrFail = true
    ∧ (committing .begin_ (some tenant0)).sec.sessions.map (fun x => (x.id, x.open_)) = [(7, true)]
    ∧ (committing .rekey none).sec.commitCount.toNat + 1 = 1 ∧ State.reset.sec.job = none ∧ State.reset.sec.importJob = none
    ∧ (committing .policy (some tenant0)).boot.pwrFail = false ∧ (6 : Fin 7).val = 6 ∧ (5 : Fin 7).val < 6
    ∧ (committing .end_ none).sec.waiting = []
    ∧ importing.sec.importJob.map (·.segments) = some (importing.sec.importDone.toNat + 1) := by decide +kernel
theorem test_keyStoreCommit : nextIs (exec (.keyStoreCommit .done) (committing .begin_ (some tenant0))) (fun t =>
      t.sec.sealed && t.sec.tenantSession == some 7 && t.sec.commitCount == 1 && t.sec.activeSlot == 1 && t.sec.scrub.isSome) = true
    ∧ still (.keyStoreCommit .done) State.reset = true := by decide +kernel
theorem test_keyStoreCommit_fails : nextIs (exec (.keyStoreCommit .readBackMismatch) (committing .end_ none)) (fun t => t.sec.job.isNone && hasCode t 0x0406) = true
    ∧ nextIs (exec (.keyStoreCommit (.powerFail 2 false)) (powerLow (committing .end_ none))) (fun t =>
      t.sec.commitCount == 0 && (t.sec.job.map (·.stopped)) == some true) = true := by decide +kernel
/-- The same blob with a tag of its segment. -/
def withTag (tag : List Byte) : State :=
  { importing with mem := { importing.mem with host := smapPutList 0 importing.mem.host (0x4000 + 64 + 4096) tag } }
def job0 : ImportJob := ⟨0x4000, blobHead, 0, 1, 0, 7⟩
def theTag : List Byte :=
  gcmTag (importing.importKeyOf 7) (importNonce 0 0) (blobHead ++ leBytes 8 0) (importing.hostRead (0x4000 + 64 + 4096 * 0) 4096)
theorem openSegment_withTag (tag : List Byte) (h : tag.length = 16) :
    (withTag tag).openSegment job0 0 = if theTag = tag then
      some (gcmCtr (aesKeys (importing.importKeyOf 7)) (importNonce 0 0) 2 (chunks 16 (importing.hostRead (0x4000 + 64 + 4096 * 0) 4096)))
      else none := by
  have a : (withTag tag).hostRead (0x4000 + 64 + 4096 * 0) 4096 = importing.hostRead (0x4000 + 64 + 4096 * 0) 4096 :=
    Laws.smapGetList_putList_other _ _ _ _ _ _ (by omega)
  have b : (withTag tag).hostRead (0x4000 + 64 + 4096 * 1 + 16 * 0) 16 = tag := by
    have := Laws.smapGetList_putList_self 0 tag importing.mem.host (0x4000 + 64 + 4096) (by decide +kernel)
    rwa [h] at this
  have c : (withTag tag).importKeyOf 7 = importing.importKeyOf 7 := by
    have : (withTag tag).sec = importing.sec := rfl
    simp only [State.importKeyOf, this]
  have e : (0x4000 : DWord).toNat = 0x4000 := rfl
  simp only [State.openSegment, job0, e, a, b, c, gcmOpen, theTag]
  congr
theorem theTag_length : theTag.length = 16 := by
  have h : (aesEncK (aesKeys (importing.importKeyOf 7)) (importNonce 0 0 ++ beBytes 4 1)).length = 16 := by decide +kernel
  have l : ∀ n x, (leBytes n x).length = n := by intro n; induction n <;> simp_all [leBytes]
  rw [theTag, gcmTag, xorBytes, List.length_map, List.length_zip, h, beBytes, List.length_reverse, l]; rfl
/-- The right tag opens the segment, and any other does not. -/
theorem witness_KeyStoreAndImports_opens : (withTag theTag).sec.importJob = some job0 ∧ ((withTag theTag).openSegment job0 0).isSome = true
    ∧ (withTag ((theTag.headD 0 + 1) :: theTag.tail)).openSegment job0 0 = none := by
  refine ⟨rfl, ?_, ?_⟩
  · simp [openSegment_withTag _ theTag_length]
  · have l := theTag_length
    match e : theTag with
    | [] => simp [e] at l
    | x :: r =>
      rw [openSegment_withTag _ (by simpa [e] using l), e]
      simp
theorem test_importSegment : nextIs (exec (.importSegment true) importing) (fun t => t.sec.importState == .failed && hasCode t 0x0405) = true
    ∧ still (.importSegment false) State.reset = true := by decide +kernel

def bars : IdeStream := ⟨true, true, false, true⟩
def loc (st : BitVec 8) (set : BitVec 1) : IdeKeyLoc := ⟨st, set, 0, 2⟩
def keyed : State := { withSession true with sec := { (withSession true).sec with ide := [(ideIndex (loc 1 0) 0, ⟨5, true, false⟩)] } }
theorem witness_IdeAndTdisp : (withSession true).boot.phase = .ready ∧ (inPhaseB .booting).boot.phase ≠ .ready ∧ State.reset.sec.sessions = []
    ∧ (loc 1 0).stream.toNat < 2 ∧ (loc 1 0).subStream.toNat < 3 ∧ ¬ (loc 2 0).stream.toNat < 2
    ∧ (smapGet IdeKey.none keyed.sec.ide (ideIndex (loc 1 0) 0)).programmed = true
    ∧ (smapGet IdeKey.none keyed.sec.ide (ideIndex (loc 1 0) 1)).programmed = false ∧ (withSession true).sec.tdi = .unlocked := by decide +kernel
theorem test_ide : nextIs (exec (.keyProg 7 (loc 1 0) 9) (withSession true)) (fun t => (smapGet IdeKey.none t.sec.ide (ideIndex (loc 1 0) 0)).programmed) = true
    ∧ nextIs (exec (.kSetGo 7 (loc 1 0) bars) keyed) (fun t =>
      smapGet noStream t.sec.ideStreams 1 == bars && (smapGet IdeKey.none t.sec.ide (ideIndex (loc 1 0) 0)).inUse && doeSays t [0]) = true
    ∧ nextIs (exec (.kSetGo 7 (loc 1 1) bars) keyed) (fun t => doeSays t [3, 1]) = true
    ∧ nextIs (exec (.kSetStop 7 (loc 1 0)) keyed) (fun t => t.sec.ide.isEmpty) = true
    ∧ nextIs (exec (.query 7) keyed) (fun t => t.sec.doeAnswer == [0, 2, 0, 0, 0]) = true := by decide +kernel
def tdiOf (x : TdiState) : State := { withSession true with sec := { (withSession true).sec with tdi := x } }
theorem test_tdisp : nextIs (exec (.lockInterfaceRequest 7) (tdiOf .unlocked)) (fun t => t.sec.tdi == .locked) = true
    ∧ nextIs (exec (.lockInterfaceRequest 7) (tdiOf .run)) (fun t => doeSays t [3, 1] && t.sec.tdi == .run) = true
    ∧ nextIs (exec (.startInterfaceRequest 7) (tdiOf .locked)) (fun t => t.sec.tdi == .run) = true
    ∧ nextIs (exec (.stopInterfaceRequest 7) (tdiOf .error)) (fun t => t.sec.tdi == .unlocked) = true := by decide +kernel
theorem test_tdisp_enquiries : nextIs (exec (.getTdispVersion 7) keyed) (fun t => doeSays t [0, 0x10]) = true
    ∧ nextIs (exec (.getTdispCapabilities 7) keyed) (fun t => doeSays t [0]) = true
    ∧ nextIs (exec (.getDeviceInterfaceReport 7) (sealedT true)) (fun t => t.sec.doeAnswer == [0, 0, 1, 2, 0]) = true
    ∧ nextIs (exec (.getDeviceInterfaceState 7) (tdiOf .run)) (fun t => t.sec.doeAnswer == [0, 2]) = true := by decide +kernel

theorem witness_JtagAndAddresses : State.reset.boot.phase = .ready ∧ (inPhaseB .inReset).boot.phase ≠ .ready
    ∧ State.reset.edition.mctpBind = false ∧ State.reset.boot.perstLow = false := by decide
theorem test_jtag : nextIs (exec .bypass State.reset) (fun t => t.boot.jtag == .bypass) = true ∧ nextIs (exec .clamp State.reset) (fun t => t.boot.jtag == .clamp) = true
    ∧ nextIs (exec .highz State.reset) (fun t => t.boot.jtag == .highz) = true ∧ nextIs (exec .extest State.reset) (fun t => t.boot.jtag == .extest) = true
    ∧ nextIs (exec (.samplePreload [true]) State.reset) (fun t => t.boot.boundary == [true]) = true := by decide
/-- 0x1 8320 … 1, in the order of IEEE 1149.1 (R497). -/
theorem test_idcode : nextIs (exec .idcode State.reset) (fun t => t.boot.jtag == .idcode) = true := by decide +kernel
theorem test_addresses : nextIs (exec (.endpointIdAssignment 9) State.reset) (fun t => t.mss.eid == 9) = true
    ∧ nextIs (exec (.dynamicAddressAssignment 9) State.reset) (fun t => t.mss.dynamicAddress == some 9) = true
    ∧ still (.dynamicAddressAssignment 9) { State.reset with edition := { Edition.default with mctpBind := true } } = true := by decide +kernel

end Sys2Proof.Tests
end

section
/-! PROOF. The command words of the stations: every field reads back from the word that it is written in, and every
command from its own. -/

namespace Sys2Proof.Proofs
open Sys2Proof Sys2Proof.Machine Sys2Proof.Laws

/-- `extract_low` for a joined word whose width is written as one numeral. -/
theorem extract_append_low {m n : Nat} (x : BitVec m) (y : BitVec n) (i k : Nat) (h : i + k ≤ n) :
    BitVec.extractLsb' i k (no_index (x ++ y)) = y.extractLsb' i k := extract_low x y i k h

/-- `extract_high` for a joined word whose width is written as one numeral. -/
theorem extract_append_high {m n : Nat} (x : BitVec m) (y : BitVec n) (i k : Nat) (h : n ≤ i) :
    BitVec.extractLsb' i k (no_index (x ++ y)) = x.extractLsb' (i - n) k := extract_high x y i k h

/-! ### Operands -/

section
variable (o : BitVec 6) (i : Issue)

@[simp] theorem readLoad_frameWord (a : LoadArgs) : readLoad (frameWord (loadBits a) o i) = a := by
  simp [readLoad, loadBits, frameWord_operands, extract_append_low, extract_append_high]

@[simp] theorem readLoadMeta_frameWord (a : LoadMetaArgs) : readLoadMeta (frameWord (loadMetaBits a) o i) = a := by
  simp [readLoadMeta, loadMetaBits, frameWord_operands, extract_append_low, extract_append_high]

@[simp] theorem readLoadW_frameWord (a : LoadWArgs) : readLoadW (frameWord (loadWBits a) o i) = a := by
  simp [readLoadW, loadWBits, frameWord_operands, extract_append_low, extract_append_high]

@[simp] theorem readPass_frameWord (a : PassArgs) : readPass (frameWord (passBits a) o i) = a := by
  simp [readPass, passBits, frameWord_operands, extract_append_low, extract_append_high]

@[simp] theorem readDrain_frameWord (a : DrainArgs) : readDrain (frameWord (drainBits a) o i) = a := by
  simp [readDrain, drainBits, frameWord_operands, extract_append_low, extract_append_high]

@[simp] theorem readParam_frameWord (a : ParamArgs) : readParam (frameWord (paramBits a) o i) = a := by
  simp [readParam, paramBits, frameWord_operands, extract_append_low, extract_append_high]

@[simp] theorem readWrite_frameWord (a : WriteArgs) : readWrite (frameWord (writeBits a) o i) = a := by
  simp [readWrite, writeBits, frameWord_operands, extract_append_low, extract_append_high]

@[simp] theorem readMarkWait_frameWord (a : MarkWaitArgs) : readMarkWait (frameWord (markWaitBits a) o i) = a := by
  simp [readMarkWait, markWaitBits, frameWord_operands, extract_append_low, extract_append_high]

@[simp] theorem readMarkSignal_frameWord (a : MarkSignalArgs) : readMarkSignal (frameWord (markSignalBits a) o i) = a := by
  simp [readMarkSignal, markSignalBits, frameWord_operands, extract_append_low, extract_append_high]

@[simp] theorem readMarkRemote_frameWord (a : MarkRemoteArgs) : readMarkRemote (frameWord (markRemoteBits a) o i) = a := by
  simp [readMarkRemote, markRemoteBits, frameWord_operands, extract_append_low, extract_append_high]

@[simp] theorem readBurnish_frameWord (a : BurnishArgs) : readBurnish (frameWord (burnishBits a) o i) = a := by
  simp [readBurnish, burnishBits, frameWord_operands, extract_append_low, extract_append_high]

@[simp] theorem readTopb_frameWord (a : TopbArgs) : readTopb (frameWord (topbBits a) o i) = a := by
  simp [readTopb, topbBits, frameWord_operands, extract_append_low, extract_append_high]

@[simp] theorem readSetwin_frameWord (a : SetwinArgs) : readSetwin (frameWord (setwinBits a) o i) = a := by
  simp [readSetwin, setwinBits, frameWord_operands, extract_append_low, extract_append_high]

@[simp] theorem readSample_frameWord (a : SampleArgs) : readSample (frameWord (sampleBits a) o i) = a := by
  simp [readSample, sampleBits, frameWord_operands, extract_append_low, extract_append_high]

@[simp] theorem readClear_frameWord (a : ClearArgs) : readClear (frameWord (clearBits a) o i) = a := by
  simp [readClear, clearBits, frameWord_operands, extract_append_low, extract_append_high]

@[simp] theorem readAccum_frameWord (a : AccumArgs) : readAccum (frameWord (accumBits a) o i) = a := by
  simp [readAccum, accumBits, frameWord_operands, extract_append_low, extract_append_high]

@[simp] theorem readGather_frameWord (a : GatherArgs) : readGather (frameWord (gatherBits a) o i) = a := by
  simp [readGather, gatherBits, frameWord_operands, extract_append_low, extract_append_high]

@[simp] theorem readFold_frameWord (a : FoldArgs) : readFold (frameWord (foldBits a) o i) = a := by
  simp [readFold, foldBits, frameWord_operands, extract_append_low]

@[simp] theorem readCopy_frameWord (a : CopyArgs) : readCopy (frameWord (copyBits a) o i) = a := by
  simp [readCopy, copyBits, frameWord_operands, extract_append_low, extract_append_high]

@[simp] theorem readUpdate_frameWord (a : UpdateArgs) : readUpdate (frameWord (updateBits a) o i) = a := by
  simp [readUpdate, updateBits, frameWord_operands, extract_append_low, extract_append_high]

@[simp] theorem readNorm_frameWord (a : NormArgs) : readNorm (frameWord (normBits a) o i) = a := by
  simp [readNorm, normBits, frameWord_operands, extract_append_low, extract_append_high]

@[simp] theorem readSend_frameWord (a : SendArgs) : readSend (frameWord (sendBits a) o i) = a := by
  simp [readSend, sendBits, frameWord_operands, extract_append_low, extract_append_high]

@[simp] theorem readRecv_frameWord (a : RecvArgs) : readRecv (frameWord (recvBits a) o i) = a := by
  simp [readRecv, recvBits, frameWord_operands, extract_append_low, extract_append_high]

@[simp] theorem readFxexp_frameWord (a : FxexpArgs) : readFxexp (frameWord (fxexpBits a) o i) = a := by
  simp [readFxexp, fxexpBits, frameWord_operands, extract_append_low, extract_append_high]

@[simp] theorem readFx_frameWord (a : FxArgs) : readFx (frameWord (fxBits a) o i) = a := by
  simp [readFx, fxBits, frameWord_operands, extract_append_low, extract_append_high]

end

/-! ### Commands -/

/-- What a station reads in a command's word: both modes of SAMPLE share one word (R168). -/
def asRead : Instr → Instr
  | .fill x i a => .sample x i a
  | c => c

theorem commandWord_asRead (c : Instr) : commandWord (asRead c) = commandWord c := by
  unfold asRead
  split <;> rfl

theorem asRead_of_not_fill {c : Instr} (h : ∀ x i a, c ≠ .fill x i a) : asRead c = c := by
  unfold asRead
  split
  · exact absurd rfl (h _ _ _)
  · rfl

/-- A command has a word exactly where it has a station, and the word is of that station and of its issue. -/
theorem commandWord_frame (c : Instr) :
    (commandWord c).map (fun x => (x.1, wordIssue x.2)) = stationOf c := by
  cases c <;> simp [commandWord, stationOf, frameWord_issue]

/-- No station has an opcode of its own among the mark opcodes (R72). -/
theorem readCommand_mark (st : StationRef) {w : CmdWord} (h : 61 ≤ (wordOpcode w).toNat) :
    readCommand st w = readMark st w := by
  cases st <;> simp only [readCommand, readFetch, readEtch, readFinish, readStore, readCounterproof, readBurnisher,
    readStipple, readSelector, readUnit, readRelay]
  all_goals split <;> simp_all

theorem readCommand_commandWord {c : Instr} {st : StationRef} {w : CmdWord} (h : commandWord c = some (st, w)) :
    readCommand st w = some (asRead c) := by
  cases c <;> simp only [commandWord, Option.some.injEq, Prod.mk.injEq, reduceCtorEq] at h
  all_goals obtain ⟨rfl, rfl⟩ := h
  case markWait | markSignal | markRemote =>
    rw [readCommand_mark _ (by simp [frameWord_opcode])]
    simp [readMark, frameWord_opcode, frameWord_issue, asRead]
  all_goals simp [readCommand, readFetch, readEtch, readFinish, readStore, readCounterproof, readBurnisher, readStipple,
    readSelector, readUnit, readRelay, frameWord_opcode, frameWord_issue, asRead]

/-- A command read from a station's word is of that station, and of the issue in the word's frame. -/
theorem readCommand_station {c : Instr} {st : StationRef} {w : CmdWord} (h : readCommand st w = some c) :
    stationOf c = some (st, wordIssue w) := by
  cases st <;> simp only [readCommand, Option.orElse_eq_or, Option.or_eq_some_iff] at h <;> rcases h with h | ⟨-, h⟩
  all_goals
    simp only [readFetch, readEtch, readFinish, readStore, readCounterproof, readBurnisher, readStipple, readSelector,
      readUnit, readRelay, readMark] at h
    split at h <;> simp only [Option.some.injEq, reduceCtorEq] at h <;> (subst h; rfl)

theorem commandWord_station {c : Instr} {st : StationRef} {w : CmdWord} (h : commandWord c = some (st, w)) :
    stationOf c = some (st, wordIssue w) := by
  rw [← commandWord_frame, h]
  rfl

theorem commandWord_clean {c : Instr} {st : StationRef} {w : CmdWord} (h : commandWord c = some (st, w)) :
    wordClean st w = true := by
  simp [wordClean, readCommand_commandWord h, commandWord_asRead, h]

/-- A clean word is the one that the command read in it is written as. -/
theorem commandWord_readCommand {c : Instr} {st : StationRef} {w : CmdWord} (h : readCommand st w = some c)
    (hw : wordClean st w = true) : commandWord c = some (st, w) := by
  have hst := readCommand_station h
  rw [← commandWord_frame, Option.map_eq_some_iff] at hst
  obtain ⟨⟨st', w'⟩, hc, hx⟩ := hst
  obtain rfl : st' = st := congrArg Prod.fst hx
  have hw' : w' = w := by simpa [wordClean, h, hc] using hw
  rw [hc, hw']

/-- Settles O4: the fields of a word do not overlap, so that each reads back; a word without RSVD bits is by definition
the one of the command read in it, whose station and issue are those of `stationOf`. -/
theorem commandWordRoundTrip : Obligations.CommandWordRoundTrip := by
  unfold Obligations.CommandWordRoundTrip
  refine ⟨fun c st w h => ⟨commandWord_clean h, ⟨_, commandWord_station h, rfl⟩, fun hc => ?_, ?_⟩,
    fun c st w h hw => commandWord_readCommand h hw, fun c => ?_⟩
  · rw [readCommand_commandWord h, asRead_of_not_fill hc]
  · rintro x i a rfl
    exact readCommand_commandWord h
  · rw [← commandWord_frame, Option.map_eq_none_iff]

end Sys2Proof.Proofs
end

section
/-! PROOF. Lanes (R274, R413): what a loss of lock, a swap, a restored spare and the end of a window do. -/

namespace Sys2Proof.Proofs
open Sys2Proof Sys2Proof.Machine Sys2Proof.Laws

theorem port_live_iff (p : Port) : p.live = true ↔ p.state = .up ∨ p.state = .draining := by
  simp [Port.live]

theorem port_not_live_iff (p : Port) : p.live = false ↔ ¬ (p.state = .up ∨ p.state = .draining) := by
  rw [← port_live_iff, Bool.not_eq_true]

/-! ### Loss of lock -/

/-- A port that is moved to FAILED writes 0x0305 and then 0x0306. -/
theorem emits_movePort_failed (s : State) (k : Nat) (p : Port) :
    ∃ u, (s.setPort k { p with state := .failed, pending := false, left := p.left || (p.state == .up &&
        (s.seq.state == .running || s.seq.state == .waiting)) }).emits u (srcPort k) 0x0305
        [f16 k, f8 Config.portDirection.toNat] ∧
      u.emits (s.movePort k p .failed) (srcPort k) 0x0306 [f16 k, f8 Config.portDirection.toNat] := by
  unfold State.movePort
  rw [if_pos rfl]
  exact ⟨_, emits_emit _ _ _ _, emits_emit _ _ _ _⟩

theorem portTo_failed_of_live {s : State} {k : Nat} (h : (s.port k).live = true) :
    s.portTo k .failed = s.movePort k (s.port k) .failed := by
  have hf : (s.port k).state ≠ .failed := by
    rcases (port_live_iff _).mp h with h | h <;> simp [h]
  rw [State.portTo, if_neg hf]

theorem laneLossOfLock_spare {k : Fin 16} {s : State} (lane : Fin 8) (hl : (s.port k.val).live = true)
    (hs : (s.port k.val).rx.spare.isSome = true) :
    execLaneLossOfLock k lane s = .next (s.setPort k.val { s.port k.val with
      rx := { (s.port k.val).rx with request := some (lane, true), acked := none } }) := by
  simp [execLaneLossOfLock, laneLossEffect, hl, Option.isSome_iff_ne_none.mp hs]

theorem laneLossOfLock_noSpare {k : Fin 16} {s : State} (lane : Fin 8) (hl : (s.port k.val).live = true)
    (hs : (s.port k.val).rx.spare = none) :
    execLaneLossOfLock k lane s = .next (s.movePort k.val (s.port k.val) .failed) := by
  simp [execLaneLossOfLock, laneLossEffect, hl, hs, portTo_failed_of_live]

theorem laneLossOfLock_dead {k : Fin 16} {s : State} (lane : Fin 8) (hl : (s.port k.val).live = false) :
    execLaneLossOfLock k lane s = .next s := by
  simp [execLaneLossOfLock, hl]

/-! ### Swaps -/

/-- A swap of this lane has been asked for and answered, and its time has come (R274). -/
def swapAnswered (s : State) (d : LaneDir) (lane : Fin 8) : Prop :=
  ∃ n, d.acked = some n ∧
    ((d.request = some (lane, true) ∧ 5 * (n + 1) ≤ s.boardTime.toNat) ∨
     (d.request = some (lane, false) ∧ (s.seq.phase ≠ .inStroke ∨
       roundUp (s.countAt s.tailStart + 50) 100 ≤ s.boardTime.toNat)))

theorem swapAt_urgent_le (s : State) (n x : Nat) : s.swapAt true n ≤ x ↔ 5 * (n + 1) ≤ x := Iff.rfl

theorem swapAt_planned_le (s : State) (n x : Nat) :
    s.swapAt false n ≤ x ↔ s.seq.phase ≠ .inStroke ∨ roundUp (s.countAt s.tailStart + 50) 100 ≤ x := by
  by_cases h : s.seq.phase = .inStroke <;> simp [State.swapAt, h]

theorem swapDue_iff (s : State) (d : LaneDir) (lane : Fin 8) :
    s.swapDue d lane = true ↔ swapAnswered s d lane ∧ d.spare.isSome = true := by
  unfold State.swapDue swapAnswered
  rw [Bool.and_eq_true, and_comm]
  refine and_congr_left' ?_
  cases d.acked with
  | none => cases d.request <;> simp
  | some n =>
    cases d.request with
    | none => simp
    | some r =>
      obtain ⟨l, _ | _⟩ := r
      · simp [swapAt_planned_le]
      · simp [swapAt_urgent_le]

theorem laneDir_swap_of_spare {d : LaneDir} {sp : Fin 9} (lane : Fin 8) (h : d.spare = some sp) :
    d.swap lane = { d with active := setNth d.active lane.val sp, spare := none, probation := d.active[lane.val]?,
                           request := none, acked := none, prbsErrors := 0 } := by
  rw [LaneDir.swap, h]

theorem laneSwap_notDue {k : Fin 16} {receive : Bool} {lane : Fin 8} {s : State}
    (h : ¬ (swapAnswered s ((s.port k.val).dir receive) lane ∧ ((s.port k.val).dir receive).spare.isSome = true)) :
    execLaneSwap k receive lane s = .next s := by
  rw [execLaneSwap, if_neg (mt (swapDue_iff _ _ _).mp h)]

/-- A swap that is due puts the spare in the lane's place, is counted, and is named by one event. -/
theorem emits_laneSwap {k : Fin 16} {receive : Bool} {lane : Fin 8} {s : State} {d : LaneDir} {sp : Fin 9}
    (hd : (s.port k.val).dir receive = d) (h : swapAnswered s d lane) (hs : d.spare = some sp) :
    ∃ t, execLaneSwap k receive lane s = .next t ∧
      (s.setPort k.val { (s.port k.val).setDir receive { d with
          active := setNth d.active lane.val sp, spare := none, probation := d.active[lane.val]?, request := none,
          acked := none, prbsErrors := 0 } with
        laneSwaps := satInc (s.port k.val).laneSwaps }).emits t (srcPort k.val) 0x0304
        [f16 k.val, f8 (boolNat receive),
          f32 (match d.active[lane.val]? with | some f => f.val | none => lane.val)] := by
  subst hd
  rw [execLaneSwap, if_pos ((swapDue_iff _ _ _).mpr ⟨h, by rw [hs]; rfl⟩), ← laneDir_swap_of_spare lane hs]
  exact ⟨_, rfl, emits_emit _ _ _ _⟩

/-! ### Restored lanes -/

theorem laneDir_restore_of_probation {d : LaneDir} {l : Fin 9} (threshold : Nat) (h : d.probation = some l) :
    d.restore threshold = if d.prbsErrors < threshold then { d with spare := some l, probation := none, prbsErrors := 0 }
      else { d with prbsErrors := 0 } := by
  rw [LaneDir.restore, h]

/-! ### Windows -/

theorem nth_addLanes (a b : List Nat) (l : Fin 8) : nth 0 (addLanes a b) l.val = nth 0 a l.val + nth 0 b l.val := by
  simp [addLanes, nth]

theorem worstLane_eq_some_iff (s : State) (c : List Nat) (l : Fin 8) :
    s.worstLane c = some l ↔ s.edition.laneThresh.toNat < nth 0 c l.val ∧
      ∀ j : Fin 8, j < l → nth 0 c j.val ≤ s.edition.laneThresh.toNat := by
  rw [State.worstLane, List.find?_eq_some_iff_getElem]
  refine and_congr (by simp) ⟨?_, fun h => ?_⟩
  · rintro ⟨i, hi, rfl, h⟩ j hj
    simpa using h j.val (by simpa [Fin.lt_def] using hj)
  · exact ⟨l.val, by simp, by simp, fun j hj => by simpa using h ⟨j, by omega⟩ hj⟩

theorem worstLane_eq_none_iff (s : State) (c : List Nat) :
    s.worstLane c = none ↔ ∀ l : Fin 8, nth 0 c l.val ≤ s.edition.laneThresh.toNat := by
  simp [State.worstLane]

/-- A window on a live port that may ask for a swap asks for one of the first lane above the threshold. -/
theorem laneWindow_asks {k : Fin 16} {s : State} {w : List Nat} {l : Fin 8} (prbs : Nat)
    (hl : (s.port k.val).live = true) (hs : (s.port k.val).rx.spare.isSome = true)
    (hr : (s.port k.val).rx.request = none) (hw : s.worstLane (addLanes (s.port k.val).rx.corrected w) = some l) :
    execLaneWindow k w prbs s = .next ((s.setPort k.val { s.port k.val with
      rx := { (s.port k.val).rx.closeWindow prbs with request := some (l, false), acked := none } }).decide_ 0x0508 []) := by
  simp [execLaneWindow, laneWindowEffect, LaneDir.closeWindow, hl, hs, hr, hw]

/-- Any other window only closes. -/
theorem laneWindow_closes {k : Fin 16} {s : State} {w : List Nat} (prbs : Nat)
    (h : (s.port k.val).live = false ∨ (s.port k.val).rx.spare = none ∨ (s.port k.val).rx.request.isSome = true ∨
      s.worstLane (addLanes (s.port k.val).rx.corrected w) = none) :
    execLaneWindow k w prbs s = .next (s.setPort k.val { s.port k.val with rx := (s.port k.val).rx.closeWindow prbs }) := by
  unfold execLaneWindow laneWindowEffect
  rcases h with h | h | h | h
  · simp [h]
  · simp [LaneDir.closeWindow, h]
  · simp [LaneDir.closeWindow, Option.isSome_iff_ne_none.mp h]
  · simp [h]

/-- Settles O23, command by command: a loss of lock, a swap by its direction, a restore by its direction, a window. -/
theorem laneEvents : Obligations.LaneEvents := by
  unfold Obligations.LaneEvents
  intro k s p live put swapped number answered ready
  refine ⟨?_, ?_, ?_, ?_, ?_, ?_, ?_, ?_, ?_⟩
  · intro lane hl hs
    exact laneLossOfLock_spare lane ((port_live_iff _).mpr hl) hs
  · intro lane hl hs
    obtain ⟨u, h1, h2⟩ := emits_movePort_failed s k.val (s.port k.val)
    exact ⟨u, _, laneLossOfLock_noSpare lane ((port_live_iff _).mpr hl) hs, h1, h2⟩
  · intro lane hl
    exact laneLossOfLock_dead lane ((port_not_live_iff _).mpr hl)
  · exact fun lane sp h hs => emits_laneSwap (receive := true) rfl h hs
  · exact fun lane sp h hs => emits_laneSwap (receive := false) rfl h hs
  · exact fun lane => ⟨laneSwap_notDue (receive := true), laneSwap_notDue (receive := false)⟩
  · intro l hp
    rw [← laneDir_restore_of_probation _ hp]
    rfl
  · intro l hp
    rw [← laneDir_restore_of_probation _ hp]
    rfl
  · intro w prbs shut count
    refine ⟨fun l hl hs hr hc hj => ?_, fun h => ?_⟩
    · have hw : s.worstLane (addLanes p.rx.corrected w) = some l := by
        simp only [worstLane_eq_some_iff, nth_addLanes]
        exact ⟨hc, hj⟩
      exact ⟨_, laneWindow_asks prbs ((port_live_iff _).mpr hl) hs hr hw, logs_decide _ _ _⟩
    · refine laneWindow_closes prbs ?_
      simpa only [port_not_live_iff, worstLane_eq_none_iff, nth_addLanes] using h

end Sys2Proof.Proofs
end

section
/-! PROOF. Where the sequencer stands: what the stations, the links and the stroke tail do adds faults, events and check
items to the stroke, and leaves everything else of the sequencer. One rule for each operation. -/

namespace Sys2Proof.Machine

/-- The sequencer without what the work of a stroke may add to it: faults, the count of events, proof slots, check
items, a mark that constant data has been written, and that the Seam has failed. -/
def Seq.steady (q : Seq) : Seq :=
  { q with faults := [], events := 0, proof := [], shadowItems := [], spareItems := [], spareEcc := [], loose := false,
           seamFailed := false }

end Sys2Proof.Machine

namespace Sys2Proof.Proofs
open Sys2Proof Sys2Proof.Machine Sys2Proof.Laws

section
variable (q : Seq)
@[simp] theorem steady_faults (l : List PendingFault) : ({ q with faults := l } : Seq).steady = q.steady := rfl
@[simp] theorem steady_events (n : Word) : ({ q with events := n } : Seq).steady = q.steady := rfl
@[simp] theorem steady_proof (m : SMap ProofSlot) : ({ q with proof := m } : Seq).steady = q.steady := rfl
@[simp] theorem steady_shadowItems (m : SMap (List CheckItem)) :
    ({ q with shadowItems := m } : Seq).steady = q.steady := rfl
@[simp] theorem steady_spareItems (m : SMap (List CheckItem)) :
    ({ q with spareItems := m } : Seq).steady = q.steady := rfl
@[simp] theorem steady_spareEcc (m : SMap Bool) : ({ q with spareEcc := m } : Seq).steady = q.steady := rfl
@[simp] theorem steady_loose (b : Bool) : ({ q with loose := b } : Seq).steady = q.steady := rfl
@[simp] theorem steady_seamFailed (b : Bool) : ({ q with seamFailed := b } : Seq).steady = q.steady := rfl
theorem steady_phase : q.steady.phase = q.phase := rfl

end

@[simp] theorem steady_foldl {β : Type} {f : State → β → State} (hf : ∀ s b, (f s b).seq.steady = s.seq.steady)
    {s : State} {l : List β} : (l.foldl f s).seq.steady = s.seq.steady := by
  induction l generalizing s with
  | nil => rfl
  | cons b l ih => exact ih.trans (hf s b)

@[simp] theorem steady_foldl_snd {α β : Type} {f : α × State → β → α × State}
    (hf : ∀ z b, (f z b).2.seq.steady = z.2.seq.steady) {z : α × State} {l : List β} :
    (l.foldl f z).2.seq.steady = z.2.seq.steady := by
  induction l generalizing z with
  | nil => rfl
  | cons b l ih => exact ih.trans (hf z b)

@[simp] theorem steady_foldl_third {α β γ : Type} {f : α × γ × State → β → α × γ × State}
    (hf : ∀ z b, (f z b).2.2.seq.steady = z.2.2.seq.steady) {z : α × γ × State} {l : List β} :
    (l.foldl f z).2.2.seq.steady = z.2.2.seq.steady := by
  induction l generalizing z with
  | nil => rfl
  | cons b l ih => exact ih.trans (hf z b)

/-- For an operation that branches. -/
theorem steady_ite {p : Prop} [Decidable p] {a b : State} {q : Seq} (ha : a.seq.steady = q) (hb : b.seq.steady = q) :
    (if p then a else b).seq.steady = q := by
  split <;> assumption

theorem steady_of_sends {s t : State} (h : s.sends t) : t.seq.steady = s.seq.steady := by
  rw [show t = { s with links := t.links } from h]

theorem steady_of_sameButEvents {s t : State} (h : s.sameButEvents t) : t.seq.steady = s.seq.steady := by
  rw [h]
  rfl

theorem sameButEvents_emitRaw (s : State) (src code p) : s.sameButEvents (s.emitRaw src code p) := by
  unfold State.emitRaw
  dsimp only
  have h := sameButEvents_trans (sameButEvents_countEvent s)
    (sameButEvents_addRecord _ (s.countEvent.mkRecord 2 src code p))
  split
  · exact sameButEvents_trans h (sameButEvents_logRecord _ _)
  · exact h

/-! ### Events and faults -/

@[simp] theorem steady_emitRaw (s : State) (src code p) : (s.emitRaw src code p).seq.steady = s.seq.steady :=
  steady_of_sameButEvents (sameButEvents_emitRaw s src code p)

@[simp] theorem steady_emit (s : State) (src code l) : (s.emit src code l).seq.steady = s.seq.steady :=
  steady_of_sameButEvents (sameButEvents_emit s src code l)

@[simp] theorem steady_pend (s : State) (src code cycle order fields reported aux) :
    (s.pend src code cycle order fields reported aux).seq.steady = s.seq.steady := rfl

@[simp] theorem steady_raise (s : State) (src code cycle order fields reported aux) :
    (s.raise src code cycle order fields reported aux).seq.steady = s.seq.steady := steady_ite (by simp) rfl

@[simp] theorem steady_countReport (s : State) (kind src) : (s.countReport kind src).seq.steady = s.seq.steady := rfl

@[simp] theorem steady_signal (s : State) (vector) : (s.signal vector).seq.steady = s.seq.steady := by
  unfold State.signal
  dsimp only
  (repeat' split) <;> simp

/-! ### What is read, written and reported -/

@[simp] theorem steady_countCorrected (s : State) (a) : (s.countCorrected a).seq.steady = s.seq.steady := by
  unfold State.countCorrected
  split <;> simp

@[simp] theorem steady_noteCorrected (s : State) (src a kind reader) :
    (s.noteCorrected src a kind reader).seq.steady = s.seq.steady := steady_ite (by simp) rfl

@[simp] theorem steady_reportCorrected (s : State) (reader w) :
    (s.reportCorrected reader w).seq.steady = s.seq.steady := by simp [State.reportCorrected]

@[simp] theorem steady_notePoison (s : State) (st code issue arrival a unit) :
    (s.notePoison st code issue arrival a unit).seq.steady = s.seq.steady := by simp [State.notePoison]

@[simp] theorem steady_countPoison (s : State) (a) : (s.countPoison a).seq.steady = s.seq.steady :=
  steady_ite rfl (by simp)

@[simp] theorem steady_reportPoison (s : State) (st issue arrival w) :
    (s.reportPoison st issue arrival w).seq.steady = s.seq.steady := by simp [State.reportPoison]

@[simp] theorem steady_reportUnwritten (s : State) (st issue w) :
    (s.reportUnwritten st issue w).seq.steady = s.seq.steady := steady_ite (by simp) rfl

@[simp] theorem steady_reportRead (s : State) (st issue arrival r) :
    (s.reportRead st issue arrival r).seq.steady = s.seq.steady := steady_ite (by simp) (by simp)

@[simp] theorem steady_rankRead (s : State) (st rank issue t arrival a n) :
    (s.rankRead st rank issue t arrival a n).2.seq.steady = s.seq.steady := by simp [State.rankRead]

@[simp] theorem steady_stationRead (s : State) (st issue t arrival a n) :
    (s.stationRead st issue t arrival a n).2.seq.steady = s.seq.steady := by simp [State.stationRead]

@[simp] theorem steady_descRead (s : State) (st issue space off n) :
    (s.descRead st issue space off n).2.seq.steady = s.seq.steady := by
  unfold State.descRead
  split <;> simp

@[simp] theorem steady_touched (s : State) (a n) : (s.touched a n).seq.steady = s.seq.steady := by
  unfold State.touched
  dsimp only
  (repeat' split) <;> simp

@[simp] theorem steady_placeBytes (s : State) (writer a bs pois) :
    (s.placeBytes writer a bs pois).seq.steady = s.seq.steady := by simp [State.placeBytes]

@[simp] theorem steady_keeping (s : State) (cycle a n) : (s.keeping cycle a n).seq.steady = s.seq.steady := rfl

@[simp] theorem steady_takeWrite (s : State) (w) : (s.takeWrite w).seq.steady = s.seq.steady :=
  steady_ite rfl (by simp)

@[simp] theorem steady_writeParts (s : State) (source a bs pois l) :
    (s.writeParts source a bs pois l).seq.steady = s.seq.steady := rfl

@[simp] theorem steady_stationWrite (s : State) (st t a bs pois) :
    (s.stationWrite st t a bs pois).seq.steady = s.seq.steady := rfl

@[simp] theorem steady_setEng (s : State) (w x) : (s.setEng w x).seq.steady = s.seq.steady := rfl

@[simp] theorem steady_forBoth {f : Who → State → State} (hf : ∀ w s, (f w s).seq.steady = s.seq.steady)
    (s : State) (e) : (s.forBoth e f).seq.steady = s.seq.steady := by
  unfold State.forBoth
  split <;> simp [hf]

@[simp] theorem steady_whoRead (s : State) (w st issue t arrival space a n) :
    (s.whoRead w st issue t arrival space a n).2.seq.steady = s.seq.steady := by
  unfold State.whoRead
  dsimp only
  (repeat' split) <;> simp

@[simp] theorem steady_checkItem (s : State) (w it) : (s.checkItem w it).seq.steady = s.seq.steady := by
  unfold State.checkItem
  dsimp only
  (repeat' split) <;> simp

@[simp] theorem steady_plan (s : State) (st cycle due j) : (s.plan st cycle due j).seq.steady = s.seq.steady := rfl

/-! ### Counters, draws and digests -/

@[simp] theorem steady_addDrainBubbles (s : State) (e n) : (s.addDrainBubbles e n).seq.steady = s.seq.steady := rfl

@[simp] theorem steady_addSaturations (s : State) (e n) : (s.addSaturations e n).seq.steady = s.seq.steady := rfl

@[simp] theorem steady_addStoreWaits (s : State) (e n) : (s.addStoreWaits e n).seq.steady = s.seq.steady := rfl

@[simp] theorem steady_advanceLane (s : State) (lane) : (s.advanceLane lane).seq.steady = s.seq.steady := rfl

@[simp] theorem steady_rowDraws (s : State) (w) : (s.rowDraws w).2.seq.steady = s.seq.steady :=
  steady_ite rfl (steady_foldl fun _ _ => by rfl)

@[simp] theorem steady_gaugeBreach (s : State) (e issue cycle id tile beyond nonfinite largest) :
    (s.gaugeBreach e issue cycle id tile beyond nonfinite largest).seq.steady = s.seq.steady := by
  unfold State.gaugeBreach
  dsimp only
  (repeat' split) <;> simp

@[simp] theorem steady_addTile (s : State) (slot index tile) :
    (s.addTile slot index tile).seq.steady = s.seq.steady := rfl

@[simp] theorem steady_settleCharges (s : State) (limit) : (s.settleCharges limit).seq.steady = s.seq.steady := rfl

/-! ### Links -/

@[simp] theorem steady_pumpLink (s : State) (k) : (s.pumpLink k).seq.steady = s.seq.steady :=
  steady_of_sends (sends_pumpLink s k)

@[simp] theorem steady_sendCtrl (s : State) (k dest ctype p) : (s.sendCtrl k dest ctype p).seq.steady = s.seq.steady :=
  steady_of_sends (sends_sendCtrl s k dest ctype p)

@[simp] theorem steady_sendToAll (s : State) (ctype p) : (s.sendToAll ctype p).seq.steady = s.seq.steady :=
  steady_of_sends (sends_sendToAll s ctype p)

@[simp] theorem steady_staleFlit (s : State) (k h number) : (s.staleFlit k h number).seq.steady = s.seq.steady := by
  unfold State.staleFlit
  dsimp only
  (repeat' split) <;> simp

@[simp] theorem steady_landPieces (s : State) (st a bs pois limit l) :
    (s.landPieces st a bs pois limit l).seq.steady = s.seq.steady := by
  refine steady_foldl fun _ _ => ?_
  split <;> simp

@[simp] theorem steady_addElement (r) (s : State) (e) : (s.addElement r e).2.seq.steady = s.seq.steady := by
  unfold State.addElement
  dsimp only
  (repeat' split) <;> simp

@[simp] theorem steady_recvFlit (s : State) (r j f) : (s.recvFlit r j f).2.seq.steady = s.seq.steady := by
  unfold State.recvFlit
  dsimp only
  split <;> simp

@[simp] theorem steady_offerFlit (s : State) (l f) : (s.offerFlit l f).seq.steady = s.seq.steady := by
  unfold State.offerFlit
  dsimp only
  (repeat' split) <;> simp

@[simp] theorem steady_landData (s : State) (l h clear) : (s.landData l h clear).seq.steady = s.seq.steady := by
  unfold State.landData
  dsimp only
  (repeat' split) <;> simp

@[simp] theorem steady_seamCross (s : State) (p ch f) : (s.seamCross p ch f).seq.steady = s.seq.steady :=
  steady_ite (by simp) (by simp)

@[simp] theorem steady_seamSend (s : State) (p ch h payload) :
    (s.seamSend p ch h payload).seq.steady = s.seq.steady := by
  unfold State.seamSend
  dsimp only
  (repeat' split) <;> simp

@[simp] theorem steady_kazinSend (s : State) (k h payload) : (s.kazinSend k h payload).seq.steady = s.seq.steady :=
  steady_ite (by simp) rfl

/-! ### The burnisher -/

@[simp] theorem steady_readPiece (s : State) (c issue t a n) :
    (s.readPiece c issue t a n).2.seq.steady = s.seq.steady := by simp [State.readPiece]

@[simp] theorem steady_readPieces (s : State) (c issue t l) :
    (s.readPieces c issue t l).2.seq.steady = s.seq.steady := by simp [State.readPieces]

@[simp] theorem steady_writePiece (s : State) (c t p) : (s.writePiece c t p).seq.steady = s.seq.steady := rfl

@[simp] theorem steady_burnBlock (s : State) (cl issue t d ok b c code n) :
    (s.burnBlock cl issue t d ok b c code n).2.2.seq.steady = s.seq.steady := by
  have write (l : List Piece) (u : State) :
      (l.foldl (fun s p => s.writePiece cl (t + 1286) p) u).seq.steady = u.seq.steady := steady_foldl fun _ _ => by rfl
  unfold State.burnBlock
  dsimp only
  (repeat' split) <;> simp [write]

@[simp] theorem steady_raiseBurnMeta (s : State) (cl outcome arrival addr slot b c) :
    (s.raiseBurnMeta cl outcome arrival addr slot b c).seq.steady = s.seq.steady := rfl

@[simp] theorem steady_burnWord (s : State) (cl issue t d b v) :
    (s.burnWord cl issue t d b v).2.seq.steady = s.seq.steady := by
  unfold State.burnWord
  dsimp only
  (repeat' split) <;> simp

@[simp] theorem steady_burnWordBack (s : State) (cl t d b v w) :
    (s.burnWordBack cl t d b v w).seq.steady = s.seq.steady := rfl

@[simp] theorem steady_planBurn (cl c a raw i w n) (s : State) :
    (planBurn cl c a raw i w n s).seq.steady = s.seq.steady := steady_ite rfl (by simp)

@[simp] theorem steady_burnOne (cl c a raw i w n) (s : State) :
    (burnOne cl c a raw i w n s).seq.steady = s.seq.steady := by
  unfold burnOne
  dsimp only
  (repeat' split) <;> simp

@[simp] theorem steady_burnArrives (cl c a) (s : State) : (burnArrives cl c a s).seq.steady = s.seq.steady :=
  steady_ite (by simp) (by simp)

/-! ### The counterproof -/

@[simp] theorem steady_copyReadRow (s : State) (c t a d i r) :
    (s.copyReadRow c t a d i r).2.seq.steady = s.seq.steady := by
  unfold State.copyReadRow
  dsimp only
  split <;> simp

@[simp] theorem steady_copyPut (s : State) (c t space off bs pois) :
    (s.copyPut c t space off bs pois).seq.steady = s.seq.steady := by
  unfold State.copyPut
  split <;> simp

@[simp] theorem steady_copyWriteRow (s : State) (c t a d i j row segs) :
    (s.copyWriteRow c t a d i j row segs).seq.steady = s.seq.steady := by
  unfold State.copyWriteRow
  dsimp only
  split <;> simp

@[simp] theorem steady_copyTile (s : State) (c t a d segs i) :
    (s.copyTile c t a d segs i).2.seq.steady = s.seq.steady := by simp [State.copyTile]

@[simp] theorem steady_planCopy (c t a raw i segs) (s : State) :
    (planCopy c t a raw i segs s).seq.steady = s.seq.steady := steady_ite rfl (by simp)

@[simp] theorem steady_copyOne (c t a raw i segs) (s : State) :
    (copyOne c t a raw i segs s).seq.steady = s.seq.steady := by simp [copyOne]

@[simp] theorem steady_copyArrives (c t a) (s : State) : (copyArrives c t a s).seq.steady = s.seq.steady :=
  steady_ite (by simp) (by simp)

/-! ### Etch -/

@[simp] theorem steady_addFeedBubbles (s : State) (e n) : (s.addFeedBubbles e n).seq.steady = s.seq.steady := rfl

@[simp] theorem steady_runPass (s : State) (w) : (s.runPass w).seq.steady = s.seq.steady := steady_ite rfl (by simp)

/-! ### Fetch -/

@[simp] theorem steady_fetchRow (s : State) (w c space off n t) :
    (s.fetchRow w c space off n t).2.seq.steady = s.seq.steady := by
  unfold State.fetchRow
  split <;> simp

@[simp] theorem steady_pushRow (c k a i w) (s : State) : (pushRow c k a i w s).seq.steady = s.seq.steady := by
  simp [pushRow]

@[simp] theorem steady_planLoad (e c k a i) (s : State) : (planLoad e c k a i s).seq.steady = s.seq.steady :=
  steady_ite rfl (by simp)

@[simp] theorem steady_loadRow (e c k a i) (s : State) : (loadRow e c k a i s).seq.steady = s.seq.steady := by
  simp [loadRow]

@[simp] theorem steady_raiseMeta (s : State) (e outcome arrival addr slot r col) :
    (s.raiseMeta e outcome arrival addr slot r col).seq.steady = s.seq.steady := rfl

@[simp] theorem steady_metaWord (s : State) (w c a r v) : (s.metaWord w c a r v).2.seq.steady = s.seq.steady := by
  unfold State.metaWord
  dsimp only
  (repeat' split) <;> simp

@[simp] theorem steady_metaBlock (s : State) (w c a r0 n) : (s.metaBlock w c a r0 n).2.seq.steady = s.seq.steady := by
  simp [State.metaBlock]

@[simp] theorem steady_readWords (c a w) (s : State) : (readWords c a w s).seq.steady = s.seq.steady := by
  simp [readWords]

@[simp] theorem steady_metaWords (e c a) (s : State) : (metaWords e c a s).seq.steady = s.seq.steady := by
  simp [metaWords]

@[simp] theorem steady_takeCodes (s : State) (w a m) : (s.takeCodes w a m).2.seq.steady = s.seq.steady := by
  unfold State.takeCodes
  dsimp only
  (repeat' split) <;> simp

@[simp] theorem steady_readCodePlane (c a m w) (s : State) : (readPlane c a m w s).seq.steady = s.seq.steady := by
  simp [readPlane]

@[simp] theorem steady_planeArrives (e c a m) (s : State) : (planeArrives e c a m s).seq.steady = s.seq.steady := by
  simp [planeArrives]

/-! ### Finish and Store -/

@[simp] theorem steady_drainSource (s : State) (w c a i t) : (s.drainSource w c a i t).2.seq.steady = s.seq.steady := by
  unfold State.drainSource
  split <;> simp

@[simp] theorem steady_endTile (s : State) (w j t) : (s.endTile w j t).seq.steady = s.seq.steady := by
  unfold State.endTile
  dsimp only
  (repeat' split) <;> simp

theorem steady_drainOne {s t : State} {w : Who} {h : Nat} (hd : s.drainOne w h = some t) :
    t.seq.steady = s.seq.steady := by
  unfold State.drainOne at hd
  dsimp only at hd
  split at hd
  · split at hd
    · cases hd
    · cases hd
      (repeat' split) <;> simp
  · cases hd

@[simp] theorem steady_storeRow (s : State) (w a off p q) : (s.storeRow w a off p q).seq.steady = s.seq.steady := by
  unfold State.storeRow
  dsimp only
  (repeat' split) <;> simp

theorem steady_writeOne {s t : State} {w : Who} {h : Nat} (hd : s.writeOne w h = some t) :
    t.seq.steady = s.seq.steady := by
  unfold State.writeOne at hd
  dsimp only at hd
  split at hd
  · split at hd
    · cases hd
    · cases hd
      (repeat' split) <;> simp
  · cases hd

@[simp] theorem steady_pumpRows (f w h) (s : State) : (State.pumpRows f w h s).seq.steady = s.seq.steady := by
  induction f generalizing s with
  | zero => rfl
  | succ f ih =>
    unfold State.pumpRows
    split
    case h_1 t hd => exact (ih t).trans (steady_drainOne hd)
    case h_2 =>
      split
      case h_1 t hd => exact (ih t).trans (steady_writeOne hd)
      case h_2 => rfl

@[simp] theorem steady_pump (s : State) (w h) : (s.pump w h).seq.steady = s.seq.steady := by simp [State.pump]

@[simp] theorem steady_pumpAll (s : State) (h) : (s.pumpAll h).seq.steady = s.seq.steady :=
  steady_foldl fun s _ => steady_pump s _ h

@[simp] theorem steady_readParams (c a w) (s : State) : (readParams c a w s).seq.steady = s.seq.steady := by
  simp [readParams]

@[simp] theorem steady_paramsArrive (e c a) (s : State) : (paramsArrive e c a s).seq.steady = s.seq.steady := by
  simp [paramsArrive]

/-! ### Marks -/

@[simp] theorem steady_fireWatch (s : State) (w) : (s.fireWatch w).seq.steady = s.seq.steady := by
  simp [State.fireWatch]

@[simp] theorem steady_testWatches (s : State) (m v) : (s.testWatches m v).seq.steady = s.seq.steady := by
  simp [State.testWatches]

@[simp] theorem steady_settleMarks (s : State) : s.settleMarks.seq.steady = s.seq.steady := by
  simp [State.settleMarks]

@[simp] theorem steady_updateMark (s : State) (m f) : (s.updateMark m f).seq.steady = s.seq.steady := by
  simp [State.updateMark]

/-! ### Relays -/

@[simp] theorem steady_sendFlit (s : State) (r a j payload bad) :
    (s.sendFlit r a j payload bad).seq.steady = s.seq.steady := by
  unfold State.sendFlit
  dsimp only
  (repeat' split) <;> simp

@[simp] theorem steady_planSend (r c a j i buf bad) (s : State) :
    (planSend r c a j i buf bad s).seq.steady = s.seq.steady := steady_ite rfl (by simp)

@[simp] theorem steady_sendWord (s : State) (r c a z i) : (s.sendWord r c a z i).2.seq.steady = s.seq.steady := by
  simp [State.sendWord]

@[simp] theorem steady_sendOne (r c a j i buf bad) (s : State) :
    (sendOne r c a j i buf bad s).seq.steady = s.seq.steady := by simp [sendOne]

@[simp] theorem steady_planFxexp (r c a i) (s : State) : (planFxexp r c a i s).seq.steady = s.seq.steady :=
  steady_ite rfl (by simp)

@[simp] theorem steady_joinMax (s : State) (seg e) : (s.joinMax seg e).seq.steady = s.seq.steady := rfl

@[simp] theorem steady_fxexpOne (r c a i) (s : State) : (fxexpOne r c a i s).seq.steady = s.seq.steady := by
  simp [fxexpOne]

@[simp] theorem steady_fxGroup (s : State) (k r c a i) : (s.fxGroup k r c a i).seq.steady = s.seq.steady := by
  unfold State.fxGroup
  split <;> simp

@[simp] theorem steady_planFx (k r c a i) (s : State) : (planFx k r c a i s).seq.steady = s.seq.steady :=
  steady_ite rfl (by simp)

@[simp] theorem steady_fxOne (k r c a i) (s : State) : (fxOne k r c a i s).seq.steady = s.seq.steady := by
  simp [fxOne]

@[simp] theorem steady_setExponents (s : State) : s.setExponents.seq.steady = s.seq.steady := rfl

/-! ### The selector -/

@[simp] theorem steady_readRow64 (s : State) (st issue t0 a n e f) :
    (s.readRow64 st issue t0 a n e f).2.seq.steady = s.seq.steady := by simp [State.readRow64]

@[simp] theorem steady_groupScores (s : State) (x c a d g) : (s.groupScores x c a d g).2.seq.steady = s.seq.steady := by
  simp [State.groupScores]

@[simp] theorem steady_writePicks (s : State) (p base t l) : (s.writePicks p base t l).seq.steady = s.seq.steady := rfl

@[simp] theorem steady_planTopb (x c a raw g nans) (s : State) :
    (planTopb x c a raw g nans s).seq.steady = s.seq.steady := steady_ite rfl (by simp)

@[simp] theorem steady_topbOne (x c a raw g nans) (s : State) :
    (topbOne x c a raw g nans s).seq.steady = s.seq.steady := by simp [topbOne]

@[simp] theorem steady_topbArrives (x c a) (s : State) : (topbArrives x c a s).seq.steady = s.seq.steady :=
  steady_ite ((steady_planTopb ..).trans (steady_descRead ..)) (steady_descRead ..)

@[simp] theorem steady_changeWindow (s : State) (p w t d) : (s.changeWindow p w t d).seq.steady = s.seq.steady := rfl

@[simp] theorem steady_setwinArrives (x c a) (s : State) : (setwinArrives x c a s).seq.steady = s.seq.steady :=
  steady_ite ((steady_changeWindow ..).trans (steady_descRead ..)) (steady_descRead ..)

@[simp] theorem steady_sampleRow (s : State) (x c a d r) : (s.sampleRow x c a d r).2.seq.steady = s.seq.steady := by
  simp [State.sampleRow]

@[simp] theorem steady_planSample (x c a raw r nans) (s : State) :
    (planSample x c a raw r nans s).seq.steady = s.seq.steady := steady_ite rfl (by simp)

@[simp] theorem steady_sampleOne (x c a raw r nans) (s : State) :
    (sampleOne x c a raw r nans s).seq.steady = s.seq.steady := by simp [sampleOne]

@[simp] theorem steady_fillDraws (s : State) (x d) : (s.fillDraws x d).2.seq.steady = s.seq.steady := rfl

@[simp] theorem steady_fillOne (s : State) (x c a d g) : (s.fillOne x c a d g).seq.steady = s.seq.steady := by
  unfold State.fillOne
  split <;> simp

@[simp] theorem steady_planFill (x c a raw g) (s : State) : (planFill x c a raw g s).seq.steady = s.seq.steady :=
  steady_ite rfl (by simp)

@[simp] theorem steady_fillStep (x c a raw g) (s : State) : (fillStep x c a raw g s).seq.steady = s.seq.steady :=
  (steady_planFill ..).trans (steady_fillOne ..)

@[simp] theorem steady_samplingArrives (x c a) (s : State) : (samplingArrives x c a s).seq.steady = s.seq.steady :=
  steady_ite (steady_ite ((steady_planSample ..).trans (steady_descRead ..))
    ((steady_planFill ..).trans (steady_descRead ..))) (steady_descRead ..)

/-! ### The stipple unit -/

@[simp] theorem steady_readSlotWord (s : State) (c issue t pos j x) :
    (s.readSlotWord c issue t pos j x).seq.steady = s.seq.steady := by
  unfold State.readSlotWord
  split <;> simp

@[simp] theorem steady_readSlot (s : State) (c issue t first last pos) :
    (s.readSlot c issue t first last pos).seq.steady = s.seq.steady := by
  unfold State.readSlot
  split <;> simp

@[simp] theorem steady_closeRun (s : State) (c issue t limit r) :
    (s.closeRun c issue t limit r).seq.steady = s.seq.steady := by
  unfold State.closeRun
  split <;> simp

theorem steady_stServe {s : State} {c write limit t a n} {r : List Served × State}
    (h : s.stServe c write limit t a n = some r) : r.2.seq.steady = s.seq.steady := by
  obtain ⟨z, -, rfl⟩ := Option.map_eq_some_iff.mp h
  rfl

@[simp] theorem steady_stFault (s : State) (c code cycle t more) :
    (s.stFault c code cycle t more).seq.steady = s.seq.steady := rfl

@[simp] theorem steady_stStop (s : State) (c cycle) : (s.stStop c cycle).seq.steady = s.seq.steady := rfl

@[simp] theorem steady_stHalt (s : State) (c code cycle t more) :
    (s.stHalt c code cycle t more).seq.steady = s.seq.steady := rfl

@[simp] theorem steady_purge (s : State) (c x) : (s.purge c x).seq.steady = s.seq.steady := by
  unfold State.purge
  dsimp only
  split <;> simp

@[simp] theorem steady_stWrite (s : State) (c t a bs parts) : (s.stWrite c t a bs parts).seq.steady = s.seq.steady := by
  unfold State.stWrite
  split <;> simp

@[simp] theorem steady_spillRun (s : State) (c r) : (s.spillRun c r).seq.steady = s.seq.steady := by
  unfold State.spillRun
  dsimp only
  split
  · rfl
  · split
    · rfl
    · split
      · simp
      · split
        case h_1 z hz => simpa using steady_stServe hz
        case h_2 => rfl

@[simp] theorem steady_insertRun (s : State) (c r) : (s.insertRun c r).seq.steady = s.seq.steady := by
  unfold State.insertRun
  dsimp only
  split
  · split <;> simp
  · simp

@[simp] theorem steady_insertOldest (c) (s : State) : (insertOldest c s).seq.steady = s.seq.steady := by
  unfold insertOldest
  dsimp only
  split <;> simp

@[simp] theorem steady_insertDue (c due) (s : State) : (insertDue c due s).seq.steady = s.seq.steady := by
  unfold insertDue
  split
  · split <;> simp
  · rfl

@[simp] theorem steady_clearArrives (c t a) (s : State) : (clearArrives c t a s).seq.steady = s.seq.steady :=
  steady_ite (by simp) (by simp)

@[simp] theorem steady_clearedAll (c t) (s : State) : (clearedAll c t s).seq.steady = s.seq.steady := by
  simp [clearedAll]

@[simp] theorem steady_stRead (s : State) (c issue t space off n) :
    (s.stRead c issue t space off n).2.seq.steady = s.seq.steady := by
  unfold State.stRead
  dsimp only
  split <;> simp

@[simp] theorem steady_accumEntry (s : State) (c t a i) : (s.accumEntry c t a i).2.seq.steady = s.seq.steady := by
  unfold State.accumEntry
  split <;> simp

@[simp] theorem steady_planAccum (c t a i run) (s : State) : (planAccum c t a i run s).seq.steady = s.seq.steady := rfl

@[simp] theorem steady_accumOne (c t a i run) (s : State) : (accumOne c t a i run s).seq.steady = s.seq.steady :=
  steady_ite (by simp) (by simp)

@[simp] theorem steady_stArrive (s : State) (c issue x l) : (s.stArrive c issue x l).2.seq.steady = s.seq.steady := by
  simp [State.stArrive]

@[simp] theorem steady_gatherHeader (c issue x) (z : GatherProg × State) :
    (gatherHeader c issue x z).2.seq.steady = z.2.seq.steady := by
  unfold gatherHeader
  dsimp only
  (repeat' split) <;> simp

@[simp] theorem steady_gatherEnter (c issue x limit) (z : GatherProg × State) :
    (gatherEnter c issue x limit z).2.seq.steady = z.2.seq.steady := by
  unfold gatherEnter
  split <;> simp

@[simp] theorem steady_gatherRow (c issue x o) (z : GatherProg × State) :
    (gatherRow c issue x o z).2.seq.steady = z.2.seq.steady := by
  unfold gatherRow
  dsimp only
  (repeat' split) <;> simp

theorem steady_readIn {c limit x a n} {s : State} {r : List Served × State} (h : readIn c limit x a n s = some r) :
    r.2.seq.steady = s.seq.steady := steady_stServe h

theorem steady_gatherReadHeader {c a limit x} {z r : GatherProg × State}
    (h : gatherReadHeader c a limit x z = some r) : r.2.seq.steady = z.2.seq.steady := by
  unfold gatherReadHeader at h
  split at h
  · obtain ⟨y, hy, rfl⟩ := Option.map_eq_some_iff.mp h
    exact steady_readIn hy
  · cases h
    rfl

theorem steady_gatherReadEntry {c a limit x} {z r : GatherProg × State} (h : gatherReadEntry c a limit x z = some r) :
    r.2.seq.steady = z.2.seq.steady := by
  unfold gatherReadEntry at h
  split at h
  · cases h
    rfl
  · split at h
    · cases h
      rfl
    · obtain ⟨y, hy, rfl⟩ := Option.map_eq_some_iff.mp h
      exact steady_readIn hy

theorem steady_gatherReadRow {c o limit x} {z r : GatherProg × State} (h : gatherReadRow c o limit x z = some r) :
    r.2.seq.steady = z.2.seq.steady := by
  unfold gatherReadRow at h
  split at h
  · cases h
    rfl
  · dsimp only at h
    split at h
    · obtain ⟨y, hy, rfl⟩ := Option.map_eq_some_iff.mp h
      exact steady_readIn hy
    · cases h
      rfl

@[simp] theorem steady_gatherEntry (c issue x o) (z : GatherProg × State) :
    (gatherEntry c issue x o z).2.seq.steady = z.2.seq.steady := by
  unfold gatherEntry
  dsimp only
  (repeat' split) <;> simp

@[simp] theorem steady_gatherOne (c issue a g) (s : State) : (gatherOne c issue a g s).seq.steady = s.seq.steady := by
  unfold gatherOne
  dsimp only
  split
  · simp
  · split
    · simp
    case h_2 z hz =>
      simp only [Option.bind_eq_some_iff] at hz
      obtain ⟨z2, ⟨z1, h1, h2⟩, h3⟩ := hz
      simp [steady_gatherReadRow h3, steady_gatherReadEntry h2, steady_gatherReadHeader h1]

@[simp] theorem steady_gatherCount (c issue a l) (s : State) :
    (gatherCount c issue a l s).seq.steady = s.seq.steady := by
  unfold gatherCount
  dsimp only
  (repeat' split) <;> simp

@[simp] theorem steady_freeSlot (s : State) (c pos) : (s.freeSlot c pos).seq.steady = s.seq.steady := rfl

theorem steady_foldSlot {c issue limit t pos v} {z r : FoldProg × State}
    (h : foldSlot c issue limit t pos v z = some r) : r.2.seq.steady = z.2.seq.steady := by
  unfold foldSlot at h
  split at h
  · cases h
    dsimp only
    split <;> simp
  · obtain ⟨y, hy, rfl⟩ := Option.map_eq_some_iff.mp h
    simpa using steady_stServe hy

@[simp] theorem steady_foldReads (c limit g n) (s : State) :
    (foldReads c limit g n s).2.2.seq.steady = s.seq.steady := by
  refine steady_foldl_third fun z i => ?_
  split
  · rfl
  · split
    case h_1 r hr => exact steady_readIn hr
    case h_2 => rfl

@[simp] theorem steady_foldTotal (c issue limit g) (s : State) :
    (foldTotal c issue limit g s).seq.steady = s.seq.steady := by
  unfold foldTotal
  dsimp only
  split
  · simp
  case h_2 r hr => simpa using steady_stServe hr

@[simp] theorem steady_foldRound (c issue a g) (s : State) : (foldRound c issue a g s).seq.steady = s.seq.steady := by
  unfold foldRound
  dsimp only
  (repeat' split) <;> simp

@[simp] theorem steady_foldVisit (c issue t a g) (s : State) :
    (foldVisit c issue t a g s).seq.steady = s.seq.steady := by
  unfold foldVisit
  dsimp only
  split
  · split
    · simp
    case h_2 z hz =>
      split at hz
      · cases hz
        simp
      · simp [steady_foldSlot hz]
  · simp

@[simp] theorem steady_foldRefill (c issue a g) (s : State) : (foldRefill c issue a g s).seq.steady = s.seq.steady := by
  unfold foldRefill
  split <;> simp

/-! ### The update units -/

@[simp] theorem steady_schedule (s : State) (u c h) : (s.schedule u c h).2.seq.steady = s.seq.steady := by
  unfold State.schedule
  split <;> simp

@[simp] theorem steady_readPlane (s : State) (u c t base e k n) :
    (s.readPlane u c t base e k n).2.seq.steady = s.seq.steady := by simp [State.readPlane]

@[simp] theorem steady_readChunk (s : State) (u c a d i) : (s.readChunk u c a d i).2.seq.steady = s.seq.steady := by
  simp [State.readChunk]

@[simp] theorem steady_updateChunk (s : State) (u c a d h sc clip skip i) :
    (s.updateChunk u c a d h sc clip skip i).seq.steady = s.seq.steady :=
  steady_ite rfl ((steady_foldl fun _ _ => by rfl).trans (steady_readChunk ..))

@[simp] theorem steady_planChunk (u c a raw clip skip sc i) (s : State) :
    (planChunk u c a raw clip skip sc i s).seq.steady = s.seq.steady := steady_ite rfl (by simp)

@[simp] theorem steady_chunkOne (u c a raw clip skip sc i) (s : State) :
    (chunkOne u c a raw clip skip sc i s).seq.steady = s.seq.steady := by simp [chunkOne]

@[simp] theorem steady_scheduleArrives (u c a raw clip skip) (s : State) :
    (scheduleArrives u c a raw clip skip s).seq.steady = s.seq.steady := by simp [scheduleArrives]

@[simp] theorem steady_updateArrives (u c a clip skip) (s : State) :
    (updateArrives u c a clip skip s).seq.steady = s.seq.steady :=
  steady_ite ((steady_plan ..).trans (steady_descRead ..)) (steady_descRead ..)

@[simp] theorem steady_formClip (s : State) (mode scope t valid) :
    (s.formClip mode scope t valid).seq.steady = s.seq.steady := rfl

@[simp] theorem steady_normTail (s : State) : s.normTail.seq.steady = s.seq.steady := by
  unfold State.normTail
  dsimp only
  (repeat' split) <;> simp

/-! ### The agenda -/

@[simp] theorem steady_doJob (due c j) (s : State) : (doJob due c j s).seq.steady = s.seq.steady := by
  unfold doJob
  split <;> simp

@[simp] theorem steady_doNext (s : State) : s.doNext.seq.steady = s.seq.steady := by
  unfold State.doNext
  split
  · rfl
  · simp
  · simp
  · split <;> simp

@[simp] theorem steady_runFuel (f h) (s : State) : (State.runFuel f h s).seq.steady = s.seq.steady := by
  induction f generalizing s with
  | zero => rfl
  | succ f ih =>
    unfold State.runFuel
    dsimp only
    split
    · split <;> simp [ih]
    · simp

@[simp] theorem steady_runTo (s : State) (h) : (s.runTo h).seq.steady = s.seq.steady := by
  unfold State.runTo
  exact steady_runFuel _ _ _

@[simp] theorem steady_takeWrites (s : State) : s.takeWrites.seq.steady = s.seq.steady := by simp [State.takeWrites]

@[simp] theorem steady_reachTail (s : State) : s.reachTail.seq.steady = s.seq.steady := by simp [State.reachTail]

end Sys2Proof.Proofs
end

section
/-! PROOF. What the tail collects leaves the sequencer where it stands: the stroke that ends, and its step. -/

namespace Sys2Proof.Proofs
open Sys2Proof Sys2Proof.Machine Sys2Proof.Laws

/-! ### What waits for the tail -/

@[simp] theorem steady_addRemoteMarks (s : State) : s.addRemoteMarks.seq.steady = s.seq.steady := by
  simp [State.addRemoteMarks]

@[simp] theorem steady_reportFault (s : State) (f) : (s.reportFault f).seq.steady = s.seq.steady := by
  simp [State.reportFault]

@[simp] theorem steady_checkStale (s : State) : s.checkStale.seq.steady = s.seq.steady := steady_foldl fun _ _ => by rfl

/-! ### What the tail asks of the links -/

@[simp] theorem steady_lateFault (s : State) (src n order missing more) :
    (s.lateFault src n order missing more).seq.steady = s.seq.steady := rfl

@[simp] theorem steady_checkLink (s : State) (l) : (s.checkLink l).seq.steady = s.seq.steady := by
  unfold State.checkLink
  split <;> simp

@[simp] theorem steady_checkSurplus (s : State) (l) : (s.checkSurplus l).seq.steady = s.seq.steady :=
  steady_ite rfl (by simp)

@[simp] theorem steady_checkRecv (s : State) (x) : (s.checkRecv x).seq.steady = s.seq.steady := by
  unfold State.checkRecv
  dsimp only
  (repeat' split) <;> simp

@[simp] theorem steady_lateMessage (s : State) (role ctype) :
    (s.lateMessage role ctype).seq.steady = s.seq.steady := rfl

@[simp] theorem steady_checkDue (s : State) : s.checkDue.seq.steady = s.seq.steady := by
  refine steady_foldl fun s r => ?_
  dsimp only
  split <;> split <;> simp

@[simp] theorem steady_checkModes (s : State) : s.checkModes.seq.steady = s.seq.steady := by
  unfold State.checkModes
  split
  · rfl
  · exact steady_foldl fun _ _ => by rfl

@[simp] theorem steady_checkSeam (s : State) : s.checkSeam.seq.steady = s.seq.steady := by
  unfold State.checkSeam
  split
  · rfl
  · split <;> rfl

@[simp] theorem steady_collectLate (s : State) : s.collectLate.seq.steady = s.seq.steady := by
  unfold State.collectLate
  dsimp only
  rw [steady_checkSeam, steady_checkStale, steady_checkModes, steady_checkDue,
    steady_foldl steady_checkRecv, steady_foldl steady_checkSurplus, steady_foldl steady_checkLink]

@[simp] theorem steady_countReplays (s : State) (l) : (s.countReplays l).seq.steady = s.seq.steady := by
  unfold State.countReplays
  dsimp only
  (repeat' split) <;> simp

/-! ### The shadow -/

@[simp] theorem steady_compareShadow (s : State) (i) : (s.compareShadow i).seq.steady = s.seq.steady := by
  unfold State.compareShadow
  dsimp only
  (repeat' split) <;> simp

@[simp] theorem steady_compareShadows (s : State) : s.compareShadows.seq.steady = s.seq.steady := by
  simp [State.compareShadows]

/-! ### The tail -/

@[simp] theorem steady_reportMeta (s : State) : s.reportMeta.seq.steady = s.seq.steady := by
  unfold State.reportMeta
  dsimp only
  rw [steady_foldl fun s p => ?_, steady_foldl fun s p => ?_]
  · rfl
  · split <;> simp
  · split <;> simp

@[simp] theorem steady_reportSuppressed (s : State) : s.reportSuppressed.seq.steady = s.seq.steady := by
  refine steady_foldl fun s p => ?_
  split
  · split <;> simp
  · rfl

@[simp] theorem steady_checkOverruns (s : State) : s.checkOverruns.seq.steady = s.seq.steady := by
  refine steady_foldl fun s i => ?_
  dsimp only
  split
  · simp
  · rfl

@[simp] theorem steady_dropWorks (s : State) : s.dropWorks.seq.steady = s.seq.steady := by simp [State.dropWorks]

@[simp] theorem steady_checkGears (s : State) : s.checkGears.seq.steady = s.seq.steady := by
  unfold State.checkGears
  split
  · refine steady_foldl fun s r => ?_
    split <;> simp
  · rfl

@[simp] theorem steady_captureTail (s : State) : s.captureTail.seq.steady = s.seq.steady := steady_ite rfl (by simp)

/-- Collecting the stroke's faults and reports leaves the sequencer where it is. -/
@[simp] theorem steady_tailCollect (s : State) : s.tailCollect.seq.steady = s.seq.steady := by
  unfold State.tailCollect
  dsimp only
  rw [steady_captureTail, steady_foldl steady_countReplays, steady_foldl fun s e => steady_emitRaw _ _ _ _]
  simp

@[simp] theorem steady_tailMarks (s : State) : s.tailMarks.seq.steady = s.seq.steady := by simp [State.tailMarks]

end Sys2Proof.Proofs
end

section
/-! PROOF. What reporting leaves: events, counters, ring pointers and memory may differ, the place of the run does not,
and no record that is written is a completion record. -/

namespace Sys2Proof.Proofs
open Sys2Proof Sys2Proof.Machine Sys2Proof.Laws

/-! ### What reporting leaves -/

/-- A completion record (R336). -/
def completion (x : Record) : Bool := x.kind == 0 && x.code == 0x0100

/-- The run is where it was: nothing of its place in the step program, its marks, its registers or its edition differs;
only the count of its events, the seed of the step to come, and whether constant data has been written. -/
structure SameRun (s t : State) : Prop where
  seq : t.seq = { s.seq with events := t.seq.events, loose := t.seq.loose, nextSeed := t.seq.nextSeed,
                             seedFault := t.seq.seedFault }
  marks : t.marks = s.marks
  remoteMarks : t.remoteMarks = s.remoteMarks
  regs : t.regs = s.regs
  edition : t.edition = s.edition

/-- Records have been added, to those of the stroke or to those that have closed. -/
def adds (s t : State) (l : List Record) : Prop :=
  if s.seq.phase = .inStroke then t.opened = s.opened ++ l ∧ t.closed = s.closed
  else t.closed = s.closed ++ l ∧ t.opened = s.opened

/-- The run is where it was, but for records that are no completion records. -/
structure Reports (s t : State) : Prop where
  run : SameRun s t
  records : ∃ l, (∀ x ∈ l, completion x = false) ∧ adds s t l

theorem sameRun_refl (s : State) : SameRun s s := ⟨rfl, rfl, rfl, rfl, rfl⟩

theorem SameRun.trans {s t u : State} (h : SameRun s t) (g : SameRun t u) : SameRun s u :=
  ⟨by rw [g.seq, h.seq], g.marks.trans h.marks, g.remoteMarks.trans h.remoteMarks, g.regs.trans h.regs,
    g.edition.trans h.edition⟩

theorem SameRun.phase {s t : State} (h : SameRun s t) : t.seq.phase = s.seq.phase := by rw [h.seq]

theorem adds_trans {s t u : State} {l m : List Record} (hp : t.seq.phase = s.seq.phase) (h : adds s t l)
    (g : adds t u m) : adds s u (l ++ m) := by
  unfold adds at *
  rw [hp] at g
  split at g
  · next c =>
    rw [if_pos c] at h ⊢
    exact ⟨by rw [g.1, h.1, List.append_assoc], g.2.trans h.2⟩
  · next c =>
    rw [if_neg c] at h ⊢
    exact ⟨by rw [g.1, h.1, List.append_assoc], g.2.trans h.2⟩

theorem adds_nil {s t : State} (ho : t.opened = s.opened) (hc : t.closed = s.closed) : adds s t [] := by
  unfold adds
  split <;> simp [ho, hc]

/-- A change of the run's surroundings that writes no record. -/
theorem reports_silent {s t : State} (h : SameRun s t) (ho : t.opened = s.opened) (hc : t.closed = s.closed) :
    Reports s t := ⟨h, [], by simp, adds_nil ho hc⟩

theorem reports_refl (s : State) : Reports s s := reports_silent (sameRun_refl s) rfl rfl

theorem Reports.trans {s t u : State} (h : Reports s t) (g : Reports t u) : Reports s u := by
  obtain ⟨hr, l, hl, ha⟩ := h
  obtain ⟨gr, m, hm, ga⟩ := g
  exact ⟨hr.trans gr, l ++ m, by simpa [or_imp, forall_and] using ⟨hl, hm⟩, adds_trans hr.phase ha ga⟩

theorem reports_foldl {β : Type} {f : State → β → State} (hf : ∀ s b, Reports s (f s b)) (s : State)
    (l : List β) : Reports s (l.foldl f s) := by
  induction l generalizing s with
  | nil => exact reports_refl s
  | cons b l ih => exact (hf s b).trans (ih _)

theorem reports_ite {p : Prop} [Decidable p] {s a b : State} (ha : Reports s a) (hb : Reports s b) :
    Reports s (if p then a else b) := by
  split <;> assumption

/-! ### Records and events -/

theorem sameRun_of_sameButEvents {s t : State} (h : s.sameButEvents t) : SameRun s t := by
  rw [h]
  exact ⟨rfl, rfl, rfl, rfl, rfl⟩

theorem sameRun_of_sends {s t : State} (h : s.sends t) : SameRun s t := by
  rw [show t = { s with links := t.links } from h]
  exact ⟨rfl, rfl, rfl, rfl, rfl⟩

theorem reports_sends {s t : State} (h : s.sends t) : Reports s t := by
  refine reports_silent (sameRun_of_sends h) ?_ ?_ <;> rw [show t = { s with links := t.links } from h]

theorem reports_fragments {s t : State} (h : s.sameButEvents t) (g : onlyFragments s t) : Reports s t := by
  obtain ⟨-, l, hl, ha⟩ := g
  exact ⟨sameRun_of_sameButEvents h, l, fun x hx => by simp [completion, hl x hx], ha⟩

theorem adds_addRecord (s : State) (r : Record) : adds s (s.addRecord r) [r] := addRecord_lists s r

theorem reports_addRecord (s : State) {r : Record} (hr : completion r = false) : Reports s (s.addRecord r) :=
  ⟨sameRun_of_sameButEvents (sameButEvents_addRecord s r), [r], by simpa using hr, adds_addRecord s r⟩

theorem reports_logRecord (s : State) (r : Record) : Reports s (s.logRecord r) :=
  reports_fragments (sameButEvents_logRecord s r) (onlyFragments_logRecord s r)

theorem reports_countEvent (s : State) : Reports s s.countEvent :=
  reports_silent (sameRun_of_sameButEvents (sameButEvents_countEvent s)) (countEvent_lists s).1 (countEvent_lists s).2.1

theorem reports_emitRaw (s : State) (src code p) : Reports s (s.emitRaw src code p) := by
  have h := (reports_countEvent s).trans
    (reports_addRecord s.countEvent (r := s.countEvent.mkRecord 2 src code p) (by simp [completion, State.mkRecord]))
  exact reports_ite (h.trans (reports_logRecord _ _)) h

theorem reports_emit (s : State) (src code l) : Reports s (s.emit src code l) := reports_emitRaw s src code _

theorem reports_logAppend (s : State) (k c src a b d) : Reports s (s.logAppend k c src a b d) :=
  reports_fragments (sameButEvents_logAppend s k c src a b d) (onlyFragments_logAppend s k c src a b d)

/-! ### Memory, ports and rings -/

theorem reports_noteCorrected (s : State) (src a kind reader) : Reports s (s.noteCorrected src a kind reader) := by
  have h : Reports s (s.countReport repEcc src) := reports_silent ⟨rfl, rfl, rfl, rfl, rfl⟩ rfl rfl
  exact reports_ite (h.trans (reports_emit ..)) h

theorem reports_countCorrected (s : State) (a) : Reports s (s.countCorrected a) := by
  unfold State.countCorrected
  split <;> exact reports_silent ⟨rfl, rfl, rfl, rfl, rfl⟩ rfl rfl

theorem reports_reportCorrected (s : State) (reader w) : Reports s (s.reportCorrected reader w) :=
  (reports_countCorrected s _).trans (reports_noteCorrected ..)

theorem reports_touched (s : State) (a n) : Reports s (s.touched a n) :=
  reports_ite (reports_silent ⟨rfl, rfl, rfl, rfl, rfl⟩ rfl rfl) (reports_refl s)

theorem reports_mem (s : State) (m : Memory) : Reports s { s with mem := m } :=
  reports_silent ⟨rfl, rfl, rfl, rfl, rfl⟩ rfl rfl

theorem reports_placeBytes (s : State) (writer a bs pois) : Reports s (s.placeBytes writer a bs pois) :=
  ((reports_mem ..).trans (reports_touched ..)).trans (reports_foldl (fun _ _ => reports_reportCorrected ..) _ _)

theorem reports_signal (s : State) (v) : Reports s (s.signal v) := by
  unfold State.signal
  dsimp only
  split
  · split <;> exact reports_silent ⟨rfl, rfl, rfl, rfl, rfl⟩ rfl rfl
  · exact reports_mem ..

theorem reports_setRing (s : State) (n r) : Reports s (s.setRing n r) :=
  reports_silent ⟨rfl, rfl, rfl, rfl, rfl⟩ rfl rfl

theorem reports_ringTo (s : State) (n st) : Reports s (s.ringTo n st) :=
  reports_ite (reports_refl s) ((reports_setRing ..).trans (reports_emit ..))

theorem reports_ringError (s : State) (n code fields) : Reports s (s.ringError n code fields) :=
  (reports_ringTo ..).trans (reports_emit ..)

theorem reports_ringBusError (s : State) (n addr) : Reports s (s.ringBusError n addr) := reports_ringError ..

theorem reports_ringSignal (s : State) (n) : Reports s (s.ringSignal n) :=
  (reports_setRing ..).trans (reports_signal ..)

theorem reports_ringVisible (s : State) (n) : Reports s (s.ringVisible n) :=
  reports_ite ((reports_setRing ..).trans (reports_ringSignal ..)) (reports_setRing ..)

theorem reports_ringAdvance (s : State) (n) : Reports s (s.ringAdvance n) :=
  ((reports_setRing ..).trans (reports_mem ..)).trans (reports_ringVisible ..)

theorem reports_setPort (s : State) (k p) : Reports s (s.setPort k p) :=
  reports_silent ⟨rfl, rfl, rfl, rfl, rfl⟩ rfl rfl

theorem reports_movePort (s : State) (k p st) : Reports s (s.movePort k p st) :=
  reports_ite (((reports_setPort ..).trans (reports_emit ..)).trans (reports_emit ..))
    ((reports_setPort ..).trans (reports_emit ..))

theorem reports_portTo (s : State) (k st) : Reports s (s.portTo k st) :=
  reports_ite (reports_refl s) (reports_movePort ..)

theorem reports_memBoot (s : State) (m : Memory) (b : Boot) : Reports s { s with mem := m, boot := b } :=
  reports_silent ⟨rfl, rfl, rfl, rfl, rfl⟩ rfl rfl

theorem reports_holdPlate (s : State) (p) : Reports s (s.holdPlate p) :=
  reports_ite (reports_refl s) ((reports_foldl (fun _ _ => reports_portTo ..) s _).trans (reports_memBoot ..))

theorem reports_holdFailed (s : State) : Reports s s.holdFailed :=
  reports_foldl (fun s p => reports_ite (reports_holdPlate s p) (reports_refl s)) s _

/-! ### The seed of the next step -/

theorem reports_readSeed (s : State) (fails) : Reports s (s.readSeed fails) :=
  reports_ite (reports_ringBusError ..) (reports_refl s)

theorem reports_takeSeed (s : State) (n) : Reports s (s.takeSeed n) := by
  unfold State.takeSeed
  dsimp only
  split
  · split
    · exact (reports_ringAdvance s _).trans (reports_silent ⟨rfl, rfl, rfl, rfl, rfl⟩ rfl rfl)
    · exact (reports_ite (reports_refl s) (reports_ringAdvance s _)).trans
        (reports_silent ⟨rfl, rfl, rfl, rfl, rfl⟩ rfl rfl)
  · split <;> exact reports_silent ⟨rfl, rfl, rfl, rfl, rfl⟩ rfl rfl

theorem reports_logSeed (s : State) (n) : Reports s (s.logSeed n) := by
  unfold State.logSeed
  split
  · exact reports_logAppend ..
  · exact reports_refl s

theorem reports_seedFor (s : State) (n fails) : Reports s (s.seedFor n fails) := by
  have h : Reports s { s with seq := { s.seq with nextSeed := none, seedFault := none } } :=
    reports_silent ⟨rfl, rfl, rfl, rfl, rfl⟩ rfl rfl
  exact reports_ite (((h.trans (reports_readSeed ..)).trans (reports_takeSeed ..)).trans (reports_logSeed ..)) h

end Sys2Proof.Proofs
end

section
/-! PROOF. The end of a stroke (R28, R43, R44, R340): the record that ends a step, the close of the stroke's records,
and what the device does then. -/

namespace Sys2Proof.Proofs
open Sys2Proof Sys2Proof.Machine Sys2Proof.Laws

/-! ### The record that ends a step -/

theorem reports_proofRecords (s : State) : Reports s s.proofRecords :=
  reports_foldl (fun s _ => reports_ite (reports_refl s)
    (reports_addRecord s (by simp [completion, State.mkRecord]))) s _

theorem reports_writeCheckpoint (s : State) : Reports s s.writeCheckpoint :=
  (reports_placeBytes ..).trans (reports_emit ..)

theorem reports_reportOthers (s : State) (f) : Reports s (s.reportOthers f) :=
  reports_foldl (fun s _ => reports_ite (reports_refl s) (reports_emitRaw ..)) s _

theorem reports_reportRest (s : State) : Reports s s.reportRest := by
  unfold State.reportRest
  split
  · exact reports_reportOthers ..
  · exact reports_refl s

/-- From `s` to `t` the step's record `r` is written, and around it nothing but records that are no completion
records. -/
structure EndsStep (s t : State) (kind : BitVec 2) (code : BitVec 16) (r : Record) : Prop where
  run : SameRun s t
  records : ∃ l m, (∀ x ∈ l, completion x = false) ∧ (∀ x ∈ m, completion x = false) ∧ adds s t (l ++ r :: m)
  kind : r.kind = kind
  code : r.code = code
  step : r.step = s.seq.curStep
  source : r.source = BitVec.ofNat 24 srcSeq

theorem EndsStep.after {s t u : State} {kind code r} (h : Reports s t) (g : EndsStep t u kind code r) :
    EndsStep s u kind code r := by
  obtain ⟨hr, k, hk, ha⟩ := h
  obtain ⟨l, m, hl, hm, ga⟩ := g.records
  refine ⟨hr.trans g.run, ⟨k ++ l, m, ?_, hm, ?_⟩, g.kind, g.code, ?_, g.source⟩
  · simpa [or_imp, forall_and] using ⟨hk, hl⟩
  · simpa using adds_trans hr.phase ha ga
  · rw [g.step, hr.seq]

theorem EndsStep.before {s t u : State} {kind code r} (g : EndsStep s t kind code r) (h : Reports t u) :
    EndsStep s u kind code r := by
  obtain ⟨hr, k, hk, ha⟩ := h
  obtain ⟨l, m, hl, hm, ga⟩ := g.records
  refine ⟨g.run.trans hr, ⟨l, m ++ k, hl, ?_, ?_⟩, g.kind, g.code, g.step, g.source⟩
  · simpa [or_imp, forall_and] using ⟨hm, hk⟩
  · simpa using adds_trans g.run.phase ga ha

theorem endsStep_endRecord (s : State) (kind code aux fields) :
    ∃ r, EndsStep s (s.endRecord kind code aux fields) (BitVec.ofNat 2 kind) (BitVec.ofNat 16 code) r := by
  have h (r : Record) (hk : r.kind = BitVec.ofNat 2 kind) (hc : r.code = BitVec.ofNat 16 code)
      (hs : r.step = s.seq.curStep) (ho : r.source = BitVec.ofNat 24 srcSeq) :
      EndsStep s (s.addRecord r) (BitVec.ofNat 2 kind) (BitVec.ofNat 16 code) r :=
    ⟨sameRun_of_sameButEvents (sameButEvents_addRecord s r), ⟨[], [], by simp, by simp, adds_addRecord s r⟩,
      hk, hc, hs, ho⟩
  refine ⟨{ s.mkRecord kind srcSeq code (s.endPayload aux fields) with step := s.seq.curStep }, ?_⟩
  unfold State.endRecord
  dsimp only
  split
  · exact (h _ rfl rfl rfl rfl).before (reports_logRecord ..)
  · exact h _ rfl rfl rfl rfl

/-- A finished step's checkpoint block (R450). -/
def checkpointed (s : State) : State := if (s.variantOf s.seq.curStep.toNat).checkpoint then s.writeCheckpoint else s

/-- The gear change of the next step is announced (R294). -/
def gearNamed (s : State) : State :=
  if !s.limitReached && s.nextGear != s.regs.gearNow.toNat then
    s.emit srcSeq 0x0327 [f8 s.regs.gearNow.toNat, f8 s.nextGear, f64 (s.nextBegin true), s.slotField]
  else s

theorem endComplete_eq (s : State) (b) : s.endComplete b =
    let t := (gearNamed (checkpointed s)).proofRecords.endRecord 0 0x0100 0 0
    if t.limitReached then t else t.seedFor (t.seq.curStep.toNat + 1) b := rfl

/-- A finished step ends in one completion record (R336). -/
theorem endsStep_endComplete (s : State) (b) : ∃ r, EndsStep s (s.endComplete b) 0 0x0100 r := by
  have h1 : Reports s (checkpointed s) := reports_ite (reports_writeCheckpoint s) (reports_refl s)
  have h2 : Reports (checkpointed s) (gearNamed (checkpointed s)) := reports_ite (reports_emit ..) (reports_refl _)
  obtain ⟨r, hr⟩ := endsStep_endRecord (gearNamed (checkpointed s)).proofRecords 0 0x0100 0 0
  rw [endComplete_eq]
  exact ⟨r, .after ((h1.trans h2).trans (reports_proofRecords _))
    (hr.before (reports_ite (reports_refl _) (reports_seedFor ..)))⟩

/-- A step that a fault, a stop or an abort ends has one fault record (R43). -/
theorem endsStep_endFaulted (s : State) (code aux fields notice) :
    ∃ r, EndsStep s (s.reportRest.endFaulted code aux fields notice) 1 (BitVec.ofNat 16 code) r := by
  obtain ⟨r, hr⟩ := endsStep_endRecord s.reportRest.proofRecords 1 code aux fields
  refine ⟨r, .after ((reports_reportRest s).trans (reports_proofRecords _)) (hr.before ?_)⟩
  exact reports_ite (reports_sends (sends_sendStop ..)) (reports_refl _)

/-! ### The records close -/

/-- The records of the stroke, with the count at which it ends (R28). -/
def stamped (s : State) : List Record := s.opened.map fun r => { r with time := BitVec.ofNat 64 s.strokeEnd }

@[simp] theorem closeRecords_seq (s : State) : s.closeRecords.seq = s.seq := by simp [State.closeRecords]
@[simp] theorem closeRecords_marks (s : State) : s.closeRecords.marks = s.marks := by simp [State.closeRecords]
@[simp] theorem closeRecords_remoteMarks (s : State) : s.closeRecords.remoteMarks = s.remoteMarks := by
  simp [State.closeRecords]
@[simp] theorem closeRecords_edition (s : State) : s.closeRecords.edition = s.edition := by simp [State.closeRecords]
@[simp] theorem closeRecords_opened (s : State) : s.closeRecords.opened = [] := by simp [State.closeRecords]
@[simp] theorem closeRecords_closed (s : State) : s.closeRecords.closed = s.closed ++ stamped s := by
  simp [State.closeRecords, stamped]

theorem SameRun.strokeEnd {s t : State} (h : SameRun s t) : t.strokeEnd = s.strokeEnd := by
  simp only [State.strokeEnd, State.countAt, State.cycles, State.quanta]
  rw [h.seq, h.regs]

theorem SameRun.checkFollows {s t : State} (h : SameRun s t) : t.checkFollows = s.checkFollows := by
  simp only [State.checkFollows, State.variantOf]
  rw [h.seq, h.edition]

@[simp] theorem closeRecords_checkFollows (s : State) : s.closeRecords.checkFollows = s.checkFollows := by
  simp [State.checkFollows, State.variantOf]

/-! ### The run goes on, or stops -/

/-- Outside a stroke: records that are no completion records have closed; the marks, and the steps that are counted,
are as they were. -/
structure Closes (s t : State) : Prop where
  marks : t.marks = s.marks
  opened : t.opened = s.opened
  closed : ∃ l, (∀ x ∈ l, completion x = false) ∧ t.closed = s.closed ++ l
  curStep : t.seq.curStep = s.seq.curStep
  nextStep : t.seq.nextStep = s.seq.nextStep
  stepsDone : t.seq.stepsDone = s.seq.stepsDone

theorem Closes.trans {s t u : State} (h : Closes s t) (g : Closes t u) : Closes s u := by
  obtain ⟨l, hl, hc⟩ := h.closed
  obtain ⟨m, hm, gc⟩ := g.closed
  refine ⟨g.marks.trans h.marks, g.opened.trans h.opened, ⟨l ++ m, ?_, by rw [gc, hc, List.append_assoc]⟩,
    g.curStep.trans h.curStep, g.nextStep.trans h.nextStep, g.stepsDone.trans h.stepsDone⟩
  simpa [or_imp, forall_and] using ⟨hl, hm⟩

theorem closes_silent {s t : State} (hm : t.marks = s.marks) (ho : t.opened = s.opened) (hc : t.closed = s.closed)
    (h1 : t.seq.curStep = s.seq.curStep) (h2 : t.seq.nextStep = s.seq.nextStep)
    (h3 : t.seq.stepsDone = s.seq.stepsDone) : Closes s t := ⟨hm, ho, ⟨[], by simp, by simp [hc]⟩, h1, h2, h3⟩

theorem Closes.of_seq {s t : State} {q : Seq} (g : Closes { s with seq := q } t) (h1 : q.curStep = s.seq.curStep)
    (h2 : q.nextStep = s.seq.nextStep) (h3 : q.stepsDone = s.seq.stepsDone) : Closes s t :=
  ⟨g.marks, g.opened, g.closed, g.curStep.trans h1, g.nextStep.trans h2, g.stepsDone.trans h3⟩

theorem closes_refl (s : State) : Closes s s := closes_silent rfl rfl rfl rfl rfl rfl

theorem Reports.closes {s t : State} (h : Reports s t) (hp : s.seq.phase ≠ .inStroke) : Closes s t := by
  obtain ⟨hr, l, hl, ha⟩ := h
  rw [adds, if_neg hp] at ha
  exact ⟨hr.marks, ha.2, ⟨l, hl, ha.1⟩, by rw [hr.seq], by rw [hr.seq], by rw [hr.seq]⟩

theorem addRemoteMarks_none {s : State} (h : s.remoteMarks = []) : s.addRemoteMarks = s := by
  unfold State.addRemoteMarks
  cases s
  dsimp only at h
  subst h
  rfl

theorem reports_landedRest {s : State} (h : s.remoteMarks = []) :
    Reports { s with seq := { s.seq with staleReports := [] } } s.landedRest := by
  unfold State.landedRest
  rw [addRemoteMarks_none (s := { s with seq := { s.seq with staleReports := [] } }) h]
  exact reports_foldl (fun _ _ => reports_emit ..) _ _

/-- The device leaves its run: there is no stroke any more. -/
def outOfRun (s : State) : State := { s with seq := { s.seq with phase := .none } }

/-- A device that leaves its run, with no remote mark waiting, reports what has landed for no one. -/
theorem closes_landedRest {s : State} (h : s.remoteMarks = []) : Closes (outOfRun s) (outOfRun s).landedRest := by
  obtain ⟨hm, ho, hc, h1, h2, h3⟩ := (reports_landedRest (s := outOfRun s) h).closes nofun
  exact ⟨hm, ho, hc, h1, h2, h3⟩

theorem closes_leaveRun {s : State} (h : s.remoteMarks = []) : Closes s s.leaveRun := by
  obtain ⟨hm, ho, hc, h1, h2, h3⟩ := closes_landedRest h
  exact ⟨hm, ho, hc, h1, h2, h3⟩

theorem leaveRun_state {s : State} (h : s.remoteMarks = []) : s.leaveRun.seq.state = s.seq.state := by
  change (outOfRun s).landedRest.seq.state = _
  rw [(reports_landedRest (s := outOfRun s) h).run.seq]
  rfl

theorem leaveRun_phase {s : State} (h : s.remoteMarks = []) : s.leaveRun.seq.phase = .none :=
  (reports_landedRest (s := outOfRun s) h).run.phase

theorem reports_skipRing (f k) (s : State) : Reports s (State.skipRing f k s) := by
  induction f generalizing s with
  | zero => exact reports_refl s
  | succ f ih =>
    exact reports_ite (((reports_ringAdvance ..).trans (reports_emit ..)).trans (ih _)) (reports_refl s)

theorem closes_skipOut {s : State} (hp : s.seq.phase ≠ .inStroke) : Closes s s.skipOut := by
  have ring (u : State) (p : Nat × Word) : Reports u (State.skipRing (u.ring p.1).posted p.1 u) :=
    reports_skipRing _ _ u
  have h (u : State) (l : List (Nat × Word)) (hu : u.seq.phase = s.seq.phase) :
      Closes u (l.foldl (fun s p => State.skipRing (s.ring p.1).posted p.1 s) u) :=
    (reports_foldl ring u l).closes (hu ▸ hp)
  unfold State.skipOut
  exact Closes.of_seq (h _ _ (by rfl)) rfl rfl rfl

theorem closes_runEnded {s : State} (h : s.remoteMarks = []) : Closes s s.runEnded := by
  unfold State.runEnded
  dsimp only
  split
  · exact (closes_leaveRun h).trans ((closes_refl _).of_seq rfl rfl rfl)
  · refine (closes_leaveRun h).trans ((closes_skipOut ?_).of_seq rfl rfl rfl)
    simp [leaveRun_phase h]

theorem closes_sends {s t : State} (h : s.sends t) : Closes s t := by
  rw [show t = { s with links := t.links } from h]
  exact closes_silent rfl rfl rfl rfl rfl rfl

theorem closes_abortBetween {s : State} (h : s.remoteMarks = []) : Closes s s.abortBetween := by
  have hs := sends_sendStop s 0x0109
  have hr : (s.sendStop 0x0109).remoteMarks = [] := (sameRun_of_sends hs).remoteMarks.trans h
  exact ((closes_sends hs).trans (closes_leaveRun hr)).trans (closes_silent rfl rfl rfl rfl rfl rfl)

theorem closes_takeGear (s : State) : Closes s s.takeGear := by
  unfold State.takeGear
  split
  · exact closes_silent rfl rfl rfl rfl rfl rfl
  · exact closes_refl s

theorem takeGear_remoteMarks (s : State) : s.takeGear.remoteMarks = s.remoteMarks := by
  unfold State.takeGear
  split <;> rfl

theorem closes_betweenSteps (s : State) : Closes s s.betweenSteps := closes_silent rfl rfl rfl rfl rfl rfl

/-- The step that has ended is counted, and the next one named. -/
def countStep (s : State) : State :=
  { s.followStep s.limitReached with seq := { (s.followStep s.limitReached).seq with
      stepsDone := s.seq.stepsDone + 1, firstOpen := some (s.seq.curStep + 1), nextStep := s.seq.curStep + 1 } }

theorem countStep_phase (s : State) : (countStep s).seq.phase = if s.checkFollows then .checkDue else .stepDue := rfl
theorem countStep_nextStep (s : State) : (countStep s).seq.nextStep = s.seq.curStep + 1 := rfl
theorem countStep_stepsDone (s : State) : (countStep s).seq.stepsDone = s.seq.stepsDone + 1 := rfl
theorem countStep_opened (s : State) : (countStep s).opened = s.opened := rfl
theorem countStep_closed (s : State) : (countStep s).closed = s.closed := rfl
theorem countStep_marks (s : State) : (countStep s).marks = s.marks := rfl

theorem closes_afterComplete {s : State} (h : s.remoteMarks = []) : Closes (countStep s) s.afterComplete := by
  have hc : (countStep s).remoteMarks = [] := h
  have hg : (countStep s).takeGear.betweenSteps.remoteMarks = [] := (takeGear_remoteMarks _).trans hc
  change Closes (countStep s) (if (countStep s).seq.phase = .checkDue then
      (if (countStep s).limitDone then countStep s else (countStep s).betweenSteps)
    else if (countStep s).limitDone then (countStep s).runEnded
    else if (countStep s).takeGear.betweenSteps.seq.state = .waiting &&
        (countStep s).takeGear.betweenSteps.seq.abortAt.isSome
      then (countStep s).takeGear.betweenSteps.abortBetween else (countStep s).takeGear.betweenSteps)
  have hn := (closes_takeGear (countStep s)).trans (closes_betweenSteps _)
  split
  · split
    · exact closes_refl _
    · exact closes_betweenSteps _
  · split
    · exact closes_runEnded hc
    · split
      · exact hn.trans (closes_abortBetween hg)
      · exact hn

theorem afterComplete_checkDue {s : State} (h : s.checkFollows = true) : s.afterComplete.seq.phase = .checkDue := by
  have hp : (countStep s).seq.phase = .checkDue := by rw [countStep_phase, if_pos h]
  have he : s.afterComplete = if (countStep s).limitDone then countStep s else (countStep s).betweenSteps := if_pos hp
  rw [he]
  split <;> exact hp

/-- A step that has ended in a fault stops the run (R43, R340). -/
structure StopsRun (s t : State) : Prop where
  closes : Closes s t
  faultStep : t.seq.faultStep = some s.seq.curStep
  faults : t.seq.faults = []
  abortPending : t.seq.abortPending = s.seq.abortAt.isSome
  state : t.seq.state = if s.seq.abortAt.isSome then s.seq.state else .faulted

theorem stopsRun_stopped {s : State} (h : s.remoteMarks = []) : StopsRun s s.stopped := by
  have hh := reports_holdFailed s.leaveRun
  have hc := (closes_leaveRun h).trans (hh.closes (by simp [leaveRun_phase h]))
  refine ⟨hc.trans (closes_silent rfl rfl rfl rfl rfl rfl), congrArg some hc.curStep, ?_, rfl, ?_⟩
  · exact congrArg Seq.faults hh.run.seq
  · change (if _ then s.leaveRun.holdFailed.seq.state else _) = _
    rw [congrArg Seq.state hh.run.seq, leaveRun_state h]

theorem stopsRun_afterFault {s : State} (h : s.remoteMarks = []) : StopsRun s s.afterFault := by
  obtain ⟨hc, h1, h2, h3, h4⟩ := stopsRun_stopped h
  exact ⟨hc.trans (closes_silent rfl rfl rfl rfl rfl rfl), h1, h2, h3, h4⟩

/-! ### The marks settle -/

theorem reports_setWatches (s : State) (m : SMap Watch) : Reports s { s with watches := m } :=
  reports_silent ⟨rfl, rfl, rfl, rfl, rfl⟩ rfl rfl

theorem reports_fireWatch (s : State) (w) : Reports s (s.fireWatch w) :=
  (reports_setWatches ..).trans (reports_signal ..)

theorem reports_testWatches (s : State) (m v) : Reports s (s.testWatches m v) :=
  reports_foldl (fun _ _ => reports_fireWatch ..) s _

theorem updateMark_remoteMarks (s : State) (m f) : (s.updateMark m f).remoteMarks = s.remoteMarks :=
  (reports_testWatches ..).run.remoteMarks

theorem addRemoteMarks_remoteMarks (s : State) : s.addRemoteMarks.remoteMarks = [] := by
  refine foldl_keeps (P := fun s : State => s.remoteMarks = []) rfl fun s r h => ?_
  rw [updateMark_remoteMarks, h]

theorem tailMarks_phase (s : State) : s.tailMarks.seq.phase = s.seq.phase := by
  rw [← steady_phase, steady_tailMarks, steady_phase]

theorem tailCollect_phase (s : State) : s.tailCollect.seq.phase = s.seq.phase := by
  rw [← steady_phase, steady_tailCollect, steady_phase]

theorem flipLinks_applyRemaps_phase (s : State) : s.applyRemaps.flipLinks.seq.phase = s.seq.phase := rfl

/-- What the tail does before it closes the records leaves the stroke running. -/
theorem tail_phase (s : State) : s.tailCollect.applyRemaps.flipLinks.tailMarks.seq.phase = s.seq.phase := by
  rw [tailMarks_phase, flipLinks_applyRemaps_phase, tailCollect_phase]

theorem tailMarks_remoteMarks (s : State) : s.tailMarks.remoteMarks = [] := addRemoteMarks_remoteMarks _

/-! ### STROKE_TAIL -/

theorem exec_strokeTail (b : Bool) (s : State) : exec (.strokeTail b) s = execStrokeTail b s := rfl

theorem exec_strokeTail_inStroke (b : Bool) {s : State} (h : s.seq.phase = .inStroke) :
    exec (.strokeTail b) s = .next (strokeTailEffect b s) := by
  rw [exec_strokeTail, execStrokeTail, if_pos h]

section
variable {b : Bool} {s u : State} (hu : s.tailCollect.applyRemaps.flipLinks.tailMarks = u)
include hu

theorem strokeTailEffect_goesOn (h : u.strokeEnds = .goesOn) : strokeTailEffect b s = u.closeRecords.afterStroke := by
  unfold strokeTailEffect
  rw [hu]
  dsimp only
  rw [h]

theorem strokeTailEffect_complete (h : u.strokeEnds = .complete) :
    strokeTailEffect b s = (u.endComplete b).closeRecords.afterComplete := by
  unfold strokeTailEffect
  rw [hu]
  dsimp only
  rw [h]

theorem strokeTailEffect_faulted {code aux fields notice} (h : u.strokeEnds = .faulted code aux fields notice) :
    strokeTailEffect b s = (u.reportRest.endFaulted code aux fields notice).closeRecords.afterFault := by
  unfold strokeTailEffect
  rw [hu]
  dsimp only
  rw [h]

end

/-- The tail of a stroke that is not its step's last closes the stroke's records. -/
theorem afterStroke_closeRecords (u : State) : u.closeRecords.afterStroke =
    { u.advanceTo u.strokeEnd with
      closed := u.closed ++ stamped u, opened := [], seq := u.closeRecords.afterStroke.seq } := by
  unfold State.afterStroke State.closeRecords State.advanceTo
  dsimp only
  split <;> rfl

theorem afterStroke_closeRecords_seq (u : State) : u.closeRecords.afterStroke.seq =
    { u.seq with phase := .strokeDue, strokeInStep := u.seq.strokeInStep + 1,
                 strokeStart := u.closeRecords.afterStroke.boardTime } := by
  unfold State.afterStroke
  rw [closeRecords_seq]

theorem filter_completion_nil {l : List Record} (h : ∀ x ∈ l, completion x = false) : l.filter completion = [] := by
  simpa [List.filter_eq_nil_iff] using h

/-- A record with the count at which a stroke ends. -/
def stampedAt (n : Nat) (r : Record) : Record := { r with time := BitVec.ofNat 64 n }

/-- The records of the stroke close, and the step's last record among them. -/
theorem EndsStep.closed {u v : State} {kind code r} (h : EndsStep u v kind code r) (hp : u.seq.phase = .inStroke) :
    ∃ l m, (∀ x ∈ l, completion x = false) ∧ (∀ x ∈ m, completion x = false) ∧
      v.closeRecords.closed = u.closed ++ stamped u ++ l ++ stampedAt u.strokeEnd r :: m := by
  obtain ⟨l, m, hl, hm, ha⟩ := h.records
  rw [adds, if_pos hp] at ha
  refine ⟨l.map (stampedAt u.strokeEnd), m.map (stampedAt u.strokeEnd), ?_, ?_, ?_⟩
  · simpa [completion, stampedAt] using hl
  · simpa [completion, stampedAt] using hm
  · rw [closeRecords_closed, ha.2, stamped, ha.1, h.run.strokeEnd]
    simp [stampedAt]
    rfl

/-- Of the records that close in the last tail of a finished step and behind it, one more is a completion record. -/
theorem filter_completion_closed {u v t : State} {r : Record} (h : EndsStep u v 0 0x0100 r)
    (hp : u.seq.phase = .inStroke) (g : Closes (countStep v.closeRecords) t) :
    t.closed.filter completion = (u.closed ++ stamped u).filter completion ++ [stampedAt u.strokeEnd r] := by
  obtain ⟨l, m, hl, hm, hc⟩ := h.closed hp
  obtain ⟨k, hk, gc⟩ := g.closed
  have hr : completion (stampedAt u.strokeEnd r) = true := by simp [completion, stampedAt, h.kind, h.code]
  rw [gc, countStep_closed, hc]
  simp [filter_completion_nil hl, filter_completion_nil hm, filter_completion_nil hk, hr]

/-- A finished step: one completion record, and the next step is the one after it. -/
theorem completed_tail (b : Bool) {u : State} (hp : u.seq.phase = .inStroke) (hm : u.remoteMarks = []) :
    ∃ t r, t = (u.endComplete b).closeRecords.afterComplete ∧
      t.closed.filter completion = (u.closed ++ stamped u).filter completion ++ [r] ∧
      r.step = u.seq.curStep ∧ r.source = BitVec.ofNat 24 srcSeq ∧ r.time = BitVec.ofNat 64 u.strokeEnd ∧
      t.seq.nextStep = u.seq.curStep + 1 ∧ t.seq.stepsDone = u.seq.stepsDone + 1 ∧ t.opened = [] ∧ t.marks = u.marks ∧
      (u.checkFollows = true → t.seq.phase = .checkDue) := by
  obtain ⟨r, hr⟩ := endsStep_endComplete u b
  have hv : (u.endComplete b).closeRecords.remoteMarks = [] := by
    rw [closeRecords_remoteMarks, hr.run.remoteMarks, hm]
  have hc := closes_afterComplete hv
  have hq := hr.run.seq
  rw [← closeRecords_seq] at hq
  refine ⟨_, stampedAt u.strokeEnd r, rfl, filter_completion_closed hr hp hc, hr.step, hr.source, rfl,
    ?_, ?_, ?_, ?_, ?_⟩
  · rw [hc.nextStep, countStep_nextStep, hq]
  · rw [hc.stepsDone, countStep_stepsDone, hq]
  · rw [hc.opened, countStep_opened, closeRecords_opened]
  · rw [hc.marks, countStep_marks, closeRecords_marks, hr.run.marks]
  · intro h
    exact afterComplete_checkDue (by rw [closeRecords_checkFollows, hr.run.checkFollows, h])

/-- A step that ends in a fault: its record, and a device that stops. -/
theorem faulted_tail {u : State} (code aux fields : Nat) (notice : Bool) (hp : u.seq.phase = .inStroke)
    (hm : u.remoteMarks = []) :
    ∃ t r, t = (u.reportRest.endFaulted code aux fields notice).closeRecords.afterFault ∧ r ∈ t.closed ∧ r.kind = 1 ∧
      r.code = BitVec.ofNat 16 code ∧ r.step = u.seq.curStep ∧ r.source = BitVec.ofNat 24 srcSeq ∧ t.opened = [] ∧
      t.marks = u.marks ∧ t.seq.faultStep = some u.seq.curStep ∧ t.seq.stepsDone = u.seq.stepsDone ∧
      t.seq.faults = [] ∧ t.seq.abortPending = u.seq.abortAt.isSome ∧
      t.seq.state = if u.seq.abortAt.isSome then u.seq.state else .faulted := by
  obtain ⟨r, hr⟩ := endsStep_endFaulted u code aux fields notice
  generalize u.reportRest.endFaulted code aux fields notice = v at hr ⊢
  have hq := hr.run.seq
  rw [← closeRecords_seq] at hq
  have hs := stopsRun_afterFault (s := v.closeRecords) (by rw [closeRecords_remoteMarks, hr.run.remoteMarks, hm])
  obtain ⟨l, m, -, -, hc⟩ := hr.closed hp
  obtain ⟨k, -, hk⟩ := hs.closes.closed
  refine ⟨_, stampedAt u.strokeEnd r, rfl, ?_, hr.kind, hr.code, hr.step, hr.source, ?_, ?_, ?_, ?_, hs.faults,
    ?_, ?_⟩
  · rw [hk, hc]
    simp
  · rw [hs.closes.opened, closeRecords_opened]
  · rw [hs.closes.marks, closeRecords_marks, hr.run.marks]
  · rw [hs.faultStep, hq]
  · rw [hs.closes.stepsDone, hq]
  · rw [hs.abortPending, hq]
  · rw [hs.state, hq]

/-- Settles O15, by how the stroke ends: each ending is its record, written among records that are no completion
records, then the close of the stroke's records, then what stops the run or goes on with it, which writes behind
them. -/
theorem strokeTails : Obligations.StrokeTails := by
  unfold Obligations.StrokeTails
  intro b s
  have hin := tail_phase s
  have hm : s.tailCollect.applyRemaps.flipLinks.tailMarks.remoteMarks = [] := tailMarks_remoteMarks _
  generalize hu : s.tailCollect.applyRemaps.flipLinks.tailMarks = u at hin hm ⊢
  dsimp only
  refine ⟨fun hp he => ?_, fun hp he => ?_, fun code aux fields notice hp he => ?_, fun hp => ?_⟩
  · refine ⟨u.closeRecords.afterStroke, ?_, afterStroke_closeRecords u, afterStroke_closeRecords_seq u⟩
    rw [exec_strokeTail_inStroke b hp, strokeTailEffect_goesOn hu he]
  · obtain ⟨t, r, ht, hone, hstep, hsource, htime, hnext, hdone, hopened, hmarks, hcheck⟩ :=
      completed_tail b (hin.trans hp) hm
    refine ⟨t, r, ?_, hone, hstep, hsource, htime, hnext, hdone, hopened, hmarks, fun hx hv => hcheck ?_⟩
    · rw [exec_strokeTail_inStroke b hp, strokeTailEffect_complete hu he, ht]
    · simp [State.checkFollows, hx, hv]
  · obtain ⟨t, r, ht, hr, hkind, hcode, hstep, hsource, hopened, hmarks, hfault, hdone, hnone, habort, hstate⟩ :=
      faulted_tail code aux fields notice (hin.trans hp) hm
    refine ⟨t, r, ?_, hr, hkind, hcode, hstep, hsource, hopened, hmarks, hfault, hdone, hnone, fun ha => ?_,
      fun ha => ?_⟩
    · rw [exec_strokeTail_inStroke b hp, strokeTailEffect_faulted hu he, ht]
    · simp [hstate, habort, ha]
    · simp [hstate, habort, ha]
  · rw [exec_strokeTail, execStrokeTail, if_neg hp]

end Sys2Proof.Proofs
end

section
/-! PROOF. The loads of Fetch and Finish (R73, R75, R76, R88): what the load check asks of them, and the first row, or the
words, that they put on the agenda. -/

namespace Sys2Proof.Proofs
open Sys2Proof Sys2Proof.Machine Sys2Proof.Laws

/-! ### Lists of checks -/

theorem accepts_none (s : State) : s.accepts none := ite_self _

theorem firstBad_eq_none_iff (l : List (Bool × Nat)) : firstBad l = none ↔ ∀ x ∈ l, x.1 = true := by
  induction l with
  | nil => simp [firstBad]
  | cons x r ih =>
    obtain ⟨ok, n⟩ := x
    cases ok <;> simp [firstBad, ih]

/-- Checks that share their reason refuse by it. -/
theorem firstBad_of_ne_none {l : List (Bool × Nat)} {n : Nat} (hn : ∀ x ∈ l, x.2 = n) (h : firstBad l ≠ none) :
    firstBad l = some n := by
  induction l with
  | nil => exact absurd rfl h
  | cons x r ih =>
    obtain ⟨ok, m⟩ := x
    obtain ⟨rfl, hr⟩ := List.forall_mem_cons.mp hn
    cases ok with
    | false => rfl
    | true => exact ih hr h

/-- A command that its checks let pass has its effect. -/
theorem stationStep_of_good {s : State} {st : StationRef} {i : Issue} {bad : State → Option Nat} {effect : State → State}
    (h : s.mayIssue st i) (hb : bad (s.beforeIssue st i) = none) :
    stationStep s st i bad effect = .next (effect (s.atIssue st i)) :=
  stationStep_next h (by rw [hb]; exact accepts_none _)

/-! ### LOAD_A, LOAD_S, LOAD_DIAG -/

theorem exec_loadA (e : EngineLoc) (i : Issue) (a : LoadArgs) (s : State) :
    exec (.loadA e i a) s = loadStep e i .a a s := rfl

theorem exec_loadS (e : EngineLoc) (i : Issue) (a : LoadArgs) (s : State) :
    exec (.loadS e i a) s = loadStep e i .s a s := rfl

theorem exec_loadDiag (e : EngineLoc) (i : Issue) (a : LoadArgs) (s : State) :
    exec (.loadDiag e i a) s = loadStep e i .diag a s := rfl

/-- What R73 to R75 and R71 ask of a load. -/
theorem loadBad_eq_none_iff (s : State) (e : EngineLoc) (k : LoadKind) (a : LoadArgs) :
    loadBad s e k a = none ↔ a.space.toNat < 3 ∧ a.rowLen.toNat < 6 ∧ (k ≠ .a → a.qsel = 0) ∧
      (k = .s → a.rowLen = 4 ∧ a.fmt = 0) ∧ (k = .diag → operandLen 5 a.fmt.toNat = some a.rowLen.toNat) ∧
      ∀ o ∈ a.offsets, s.spaceOk (.fetch e) a.space.toNat o a.len = true := by
  cases k <;> simp [loadBad, firstBad_eq_none_iff]

/-- A load is refused by one reason. -/
theorem loadBad_eq_some {s : State} {e : EngineLoc} {k : LoadKind} {a : LoadArgs} (h : loadBad s e k a ≠ none) :
    loadBad s e k a = some 13 := firstBad_of_ne_none (by simp) h

theorem space_eq_zero_iff (x : BitVec 2) : x.toNat = 0 ↔ x = 0 := by
  rw [BitVec.toNat_eq]; rfl

/-- A load plans the arrival of its first row, and no more. -/
theorem loadEffect_eq (e : EngineLoc) (c : Nat) (k : LoadKind) (a : LoadArgs) (s : State) :
    loadEffect e c k a s = s.planned (.fetch e) c
      (c + (if a.space = 0 ∧ a.len = 256 then 1 else 0) + latency a.space.toNat) (.load e k a 0) := by
  have hrow : 0 < a.rows := Nat.succ_pos _
  have hdue : rowArrives a.space.toNat a.len c 0 =
      c + (if a.space = 0 ∧ a.len = 256 then 1 else 0) + latency a.space.toNat := by
    simp only [rowArrives, space_eq_zero_iff]
    split <;> rfl
  rw [loadEffect, planLoad, if_pos hrow, hdue]
  rfl

section
variable {e : EngineLoc} {i : Issue} {s : State} (h : s.mayIssue (.fetch e) i)
include h

theorem loadStep_next {k : LoadKind} {a : LoadArgs} (hb : loadBad (s.beforeIssue (.fetch e) i) e k a = none) :
    loadStep e i k a s = .next ((s.atIssue (.fetch e) i).planned (.fetch e) i.cycle.toNat
      (i.cycle.toNat + (if a.space = 0 ∧ a.len = 256 then 1 else 0) + latency a.space.toNat) (.load e k a 0)) := by
  rw [← loadEffect_eq]
  exact stationStep_of_good h hb

theorem loadStep_refused {k : LoadKind} {a : LoadArgs} (hc : (s.beforeIssue (.fetch e) i).checksAll)
    (hb : loadBad (s.beforeIssue (.fetch e) i) e k a ≠ none) : loadStep e i k a s = .refused (.loadCheck 13) :=
  stationStep_bad h (loadBad_eq_some hb) hc

end

/-! ### LOAD_META and PARAM -/

theorem exec_loadMeta (e : EngineLoc) (i : Issue) (a : LoadMetaArgs) (s : State) :
    exec (.loadMeta e i a) s = execLoadMeta e i a s := rfl

theorem exec_param (e : EngineLoc) (i : Issue) (a : ParamArgs) (s : State) :
    exec (.param e i a) s = execParam e i a s := rfl

theorem loadMetaBad_eq_none_iff (s : State) (e : EngineLoc) (a : LoadMetaArgs) :
    loadMetaBad s e a = none ↔ a.space.toNat < 3 ∧ a.slot.toNat < 9 ∧
      ∀ o ∈ a.offs 0 (metaRows a.cls.toNat (a.trans == 1) false), s.spaceOk (.fetch e) a.space.toNat o 8 = true := by
  simp [loadMetaBad, firstBad_eq_none_iff, LoadMetaArgs.cl]

theorem paramBad_eq_none_iff (s : State) (e : EngineLoc) (a : ParamArgs) :
    paramBad s e a = none ↔ a.space.toNat < 2 ∧ s.spaceOk (.finish e) a.space.toNat (8 * a.addr.toNat) 512 = true := by
  simp [paramBad, firstBad_eq_none_iff]

/-- Settles O6: the checks of each load, and the work that it plans. -/
theorem engineLoads : Obligations.EngineLoads := by
  unfold Obligations.EngineLoads
  intro e i s c u v
  refine ⟨?rows, ?loadMeta, ?param⟩
  case rows =>
    intro h a reads first stateS diag
    refine ⟨?_, ?_, ?_, fun hc hbad => ?_, fun hc hbad => ?_⟩
    · rintro ⟨hspace, hlen, hrows⟩
      rw [exec_loadA]
      exact loadStep_next h ((loadBad_eq_none_iff ..).mpr ⟨hspace, hlen, by simp, by simp, by simp, hrows⟩)
    · rintro ⟨hspace, hlen, hrows⟩ ⟨hq, hform⟩
      rw [exec_loadS]
      exact loadStep_next h ((loadBad_eq_none_iff ..).mpr ⟨hspace, hlen, fun _ => hq, fun _ => hform, by simp, hrows⟩)
    · rintro ⟨hspace, hlen, hrows⟩ ⟨hq, hform⟩
      rw [exec_loadDiag]
      exact loadStep_next h ((loadBad_eq_none_iff ..).mpr ⟨hspace, hlen, fun _ => hq, by simp, fun _ => hform, hrows⟩)
    · rw [exec_loadS]
      refine loadStep_refused h hc fun hb => hbad ?_
      obtain ⟨-, -, hq, hform, -⟩ := (loadBad_eq_none_iff ..).mp hb
      exact ⟨hq (by simp), hform rfl⟩
    · rw [exec_loadDiag]
      refine loadStep_refused h hc fun hb => hbad ?_
      obtain ⟨-, -, hq, -, hform, -⟩ := (loadBad_eq_none_iff ..).mp hb
      exact ⟨hq (by simp), hform rfl⟩
  case loadMeta =>
    intro h a n hspace hslot hwords
    rw [exec_loadMeta]
    exact stationStep_of_good h ((loadMetaBad_eq_none_iff ..).mpr ⟨hspace, hslot, hwords⟩)
  case param =>
    intro h a hspace hrows
    rw [exec_param]
    exact stationStep_of_good h ((paramBad_eq_none_iff ..).mpr ⟨hspace, hrows⟩)

end Sys2Proof.Proofs
end

section
/-! PROOF. The other commands of an engine (R59, R77, R79, R81, R84, R89): what each does in one engine, so in the logical
engine and in the spare that shadows it. -/

namespace Sys2Proof.Proofs
open Sys2Proof Sys2Proof.Machine Sys2Proof.Laws

/-! ### The two engines that run a command -/

theorem forBoth_of_shadowed {s : State} {e : EngineLoc} (h : s.shadowed e = true) (f : Who → State → State) :
    s.forBoth e f = f ⟨e, false⟩ (f ⟨e, true⟩ s) := by rw [State.forBoth, if_pos h]

theorem forBoth_of_alone {s : State} {e : EngineLoc} (h : s.shadowed e = false) (f : Who → State → State) :
    s.forBoth e f = f ⟨e, false⟩ s := by rw [State.forBoth, h]; rfl

theorem key_logical (e : EngineLoc) : (⟨e, false⟩ : Who).key = engineIdx e := rfl

theorem key_spare (e : EngineLoc) : (⟨e, true⟩ : Who).key = 576 + clusterIdx ⟨e.plate, e.cluster⟩ := rfl

/-- The spares' keys lie behind those of the logical engines. -/
theorem engineIdx_lt (e : EngineLoc) : engineIdx e < 576 := by
  have hp := e.plate.isLt
  have hc := e.cluster.isLt
  have he := e.lengine.isLt
  unfold engineIdx
  omega

/-! ### PASS -/

/-- A pass whose queues do not hold its next row stays as it is, and so do those behind it. -/
theorem passRows_of_waiting {x : Engine} {j : PassJob} {js : List PassJob} (hp : x.passes = j :: js)
    (hq : operandEntries x j.args = none) (n b : Nat) : passRows n (x, b) = (x, b) := by
  cases n with
  | zero => rfl
  | succ n => simp only [passRows, hp, hq]

section
variable (c : Nat) (a : PassArgs) (w : Who) (s : State)

/-- A pass changes engines, and counts bubbles. -/
theorem openPass_eq : ∃ x n, openPass c a w s = { s with engines := x, counts := n } := by
  unfold openPass State.runPass
  dsimp only
  split
  · exact ⟨_, s.counts, rfl⟩
  · exact ⟨_, _, rfl⟩

/-- A pass changes no engine but its own. -/
theorem openPass_other {k : Nat} (hk : k ≠ w.key) :
    smapGet Engine.empty (openPass c a w s).engines k = smapGet .empty s.engines k := by
  have hput : ∀ (t : State) (x : Engine), smapGet .empty (t.setEng w x).engines k = smapGet .empty t.engines k :=
    fun t x => smapGet_put_other _ _ _ _ _ hk
  unfold openPass State.runPass
  dsimp only
  split
  · rw [hput, hput]
  · exact (hput _ _).trans (hput _ _)

end

theorem eng_setEng {w : Who} {x : Engine} (h : x ≠ .empty) (s : State) : (s.setEng w x).eng w = x :=
  smapGet_put_ne _ _ _ _ h

/-- With no pass before it and no row in its queues, a pass stands alone and waits. -/
theorem openPass_waits {c : Nat} {a : PassArgs} {w : Who} {s : State} (hp : (s.eng w).passes = [])
    (hq : operandEntries (s.eng w) a = none) :
    (openPass c a w s).eng w = { s.eng w with passes := [⟨c, a, 0, c⟩] } := by
  generalize hx : s.eng w = x at hp hq
  have hne : ({ x with passes := [⟨c, a, 0, c⟩] } : Engine) ≠ .empty := by
    intro h
    cases congrArg Engine.passes h
  have hwait : ∀ n, passRows n ({ x with passes := [⟨c, a, 0, c⟩] }, 0) = ({ x with passes := [⟨c, a, 0, c⟩] }, 0) :=
    fun n => passRows_of_waiting rfl hq n 0
  unfold openPass State.runPass
  rw [hx, hp, List.nil_append, eng_setEng hne]
  simp only [hwait]
  split
  · exact eng_setEng hne _
  · exact eng_setEng hne _

section
variable (e : EngineLoc) (c : Nat) (a : PassArgs) (s : State)

theorem passEffect_eq : ∃ x n, passEffect e c a s = { s with engines := x, counts := n } := by
  unfold passEffect
  cases hs : s.shadowed e with
  | false => rw [forBoth_of_alone hs]; exact openPass_eq ..
  | true =>
    rw [forBoth_of_shadowed hs]
    obtain ⟨y, m, hspare⟩ := openPass_eq c a ⟨e, true⟩ s
    obtain ⟨x, n, hown⟩ := openPass_eq c a ⟨e, false⟩ (openPass c a ⟨e, true⟩ s)
    exact ⟨x, n, by rw [hown, hspare]⟩

theorem passEffect_other {k : Nat} (hk : k ≠ engineIdx e)
    (hspare : s.shadowed e = true → k ≠ 576 + clusterIdx ⟨e.plate, e.cluster⟩) :
    smapGet Engine.empty (passEffect e c a s).engines k = smapGet .empty s.engines k := by
  unfold passEffect
  cases hs : s.shadowed e with
  | false => rw [forBoth_of_alone hs]; exact openPass_other _ _ _ _ hk
  | true =>
    rw [forBoth_of_shadowed hs]
    exact (openPass_other _ _ _ _ hk).trans (openPass_other _ _ _ _ (hspare hs))

theorem passEffect_waits (hp : (s.engine e).passes = []) (hq : operandEntries (s.engine e) a = none) :
    (passEffect e c a s).engine e = { s.engine e with passes := [⟨c, a, 0, c⟩] } := by
  unfold passEffect
  cases hs : s.shadowed e with
  | false => rw [forBoth_of_alone hs]; exact openPass_waits hp hq
  | true =>
    rw [forBoth_of_shadowed hs]
    have hne : (⟨e, false⟩ : Who).key ≠ (⟨e, true⟩ : Who).key := by
      have := engineIdx_lt e
      rw [key_logical, key_spare]
      omega
    have hsame : (openPass c a ⟨e, true⟩ s).eng ⟨e, false⟩ = s.engine e := openPass_other _ _ _ _ hne
    rw [← hsame] at hp hq ⊢
    exact openPass_waits hp hq

end

/-! ### The window of a LOAD_W -/

section
variable (a : LoadWArgs)

theorem loadW_sparse_iff : a.sparse = true ↔ a.mode = 2 ∨ a.mode = 3 := by simp [LoadWArgs.sparse]

theorem loadW_windowFirst (c : Nat) : a.windowFirst c = c + latency a.space.toNat +
    (if a.srcFmt = 2 ∧ a.dstFmt.toNat < 2 then 4 else 0) + (if a.mode = 2 ∨ a.mode = 3 then 4 else 0) := by
  simp only [LoadWArgs.windowFirst, LoadWArgs.converts, loadW_sparse_iff, Bool.and_eq_true, beq_iff_eq, decide_eq_true_eq]

theorem loadW_windowLast (c : Nat) : a.windowLast c = a.windowFirst c +
    (if a.srcFmt = 3 then 32 else if a.mode = 1 then (if a.space = 0 ∧ a.srcFmt = 2 then 15 else 7) else 31) := by
  simp only [LoadWArgs.windowLast, LoadWArgs.mx, Bool.and_eq_true, beq_iff_eq, decide_eq_true_eq]

end

/-! ### What each command is -/

section
variable (e : EngineLoc) (i : Issue) (s : State)

theorem exec_loadW (a : LoadWArgs) : exec (.loadW e i a) s = execLoadW e i a s := rfl
theorem exec_swap : exec (.swap e i) s = execSwap e i s := rfl
theorem exec_pass (a : PassArgs) : exec (.pass e i a) s = execPass e i a s := rfl
theorem exec_drain (a : DrainArgs) : exec (.drain e i a) s = execDrain e i a s := rfl
theorem exec_write (a : WriteArgs) : exec (.write e i a) s = execWrite e i a s := rfl

end

/-- Settles O7, command by command: each takes its word and has its effect in its engine, and in the spare where one
shadows it. -/
theorem engineCommands : Obligations.EngineCommands := by
  unfold Obligations.EngineCommands
  intro e i s c put
  refine ⟨?loadW, ?swap, ?pass, ?drain, ?write⟩
  case loadW =>
    intro h a u v sparse m first last hgood w
    have hfirst : a.windowFirst c = first := loadW_windowFirst a c
    have hlast : a.windowLast c = last := by rw [loadW_windowLast, hfirst]
    have hmeta : (if a.sparse then (v.engine e).waitingMeta.map (·.cycle) else none) = m := by
      simp only [loadW_sparse_iff]
      rfl
    rw [exec_loadW, execLoadW, stationStep_next h hgood, loadWEffect, hmeta, hfirst, hlast]
    rfl
  case swap =>
    intro h u v hgood
    rw [exec_swap, execSwap, stationStep_next h hgood]
    rfl
  case pass =>
    intro h a u v x hgood
    refine ⟨passEffect e c a v, ?_, ?_, fun k hk hspare => passEffect_other e c a v hk hspare,
      fun _ hp hq => passEffect_waits e c a v hp hq⟩
    · rw [exec_pass, execPass, stationStep_next h hgood]
    · obtain ⟨y, n, heq⟩ := passEffect_eq e c a v
      rw [heq]
  case drain =>
    intro h a u v j hgood
    rw [exec_drain, execDrain, stationStep_next h hgood]
    rfl
  case write =>
    intro h a u v hgood
    rw [exec_write, execWrite, stationStep_next h hgood]
    rfl

end Sys2Proof.Proofs
end

section
/-! PROOF. BURNISH and COPY (R144, R207): their checks, what they plan, and what the arrival of their descriptor begins. -/

namespace Sys2Proof.Proofs
open Sys2Proof Sys2Proof.Machine Sys2Proof.Laws

/-! ### What the two stations share -/

/-- A space that is neither the cluster store nor HBM fails their first check. -/
theorem clusterOrHbm_eq_false {x : BitVec 2} (h1 : x ≠ 1) (h2 : x ≠ 2) : (x == 1 || x == 2) = false := by
  rw [beq_eq_false_iff_ne.mpr h1, beq_eq_false_iff_ne.mpr h2]
  rfl

section
variable {poison : List Nat} {bad : Option Nat} {begun read : State}

/-- A descriptor that is poisoned or not legal begins nothing (R512). -/
theorem descriptor_stops (h : poison ≠ [] ∨ bad ≠ none) :
    (if poison.isEmpty && bad.isNone then begun else read) = read := by
  refine if_neg fun hboth => ?_
  obtain ⟨hp, hb⟩ := (Bool.and_eq_true _ _).mp hboth
  cases h with
  | inl hpoison => exact hpoison (List.isEmpty_iff.mp hp)
  | inr hbad => exact hbad (Option.isNone_iff_eq_none.mp hb)

theorem descriptor_begins (hp : poison = []) (hb : bad = none) :
    (if poison.isEmpty && bad.isNone then begun else read) = begun :=
  if_pos (by rw [hp, hb]; rfl)

end

/-! ### BURNISH -/

theorem exec_burnish (cl : ClusterLoc) (i : Issue) (a : BurnishArgs) (s : State) :
    exec (.burnish cl i a) s = execBurnish cl i a s := rfl

theorem doJob_burnDesc (due c : Nat) (cl : ClusterLoc) (a : BurnishArgs) (s : State) :
    doJob due c (.burnDesc cl a) s = burnArrives cl c a s := rfl

theorem burnishBad_of_space {a : BurnishArgs} (h1 : a.space ≠ 1) (h2 : a.space ≠ 2) (s : State) (cl : ClusterLoc)
    (c : Nat) : burnishBad s cl c a = some 13 := by
  rw [burnishBad, clusterOrHbm_eq_false h1 h2]
  rfl

/-- The first block, where a block row has any. -/
theorem planBurn_first {raw : Nat} (h : 0 < (layerDesc raw).bcols) (cl : ClusterLoc) (c : Nat) (a : BurnishArgs)
    (w : BurnWord) (n : BurnCounts) (s : State) :
    planBurn cl c a raw 0 w n s = s.planned (.burnisher cl) c (burnAt c a 0 + 1286) (.burn cl a raw 0 w n) :=
  if_pos (Nat.mul_pos (Nat.succ_pos _) h)

/-! ### COPY -/

theorem exec_copy (cl : ClusterLoc) (i : Issue) (a : CopyArgs) (s : State) :
    exec (.copy cl i a) s = execCopy cl i a s := rfl

theorem doJob_copyDesc (due c : Nat) (cl : ClusterLoc) (a : CopyArgs) (s : State) :
    doJob due c (.copyDesc cl a) s = copyArrives cl c a s := rfl

theorem copyBad_of_space {a : CopyArgs} (h1 : a.space ≠ 1) (h2 : a.space ≠ 2) (s : State) (cl : ClusterLoc)
    (c : Nat) : copyBad s cl c a = some 13 := by
  rw [copyBad, clusterOrHbm_eq_false h1 h2]
  rfl

/-- The first tile: a COPY has at least one. -/
theorem planCopy_first (cl : ClusterLoc) (c : Nat) (a : CopyArgs) (raw : Nat) (segs : List (List Nat)) (s : State) :
    planCopy cl c a raw 0 segs s = s.planned (.counterproof cl) c
      (c + latency a.space.toNat + latency (copyDesc raw).srcSpace + 34 + (copyDesc raw).extra) (.copy cl a raw 0 segs) :=
  if_pos (Nat.succ_pos _)

/-- Settles O9: each station checks its command and plans the arrival of the descriptor; the arrival stops there, or
plans the first block or tile. -/
theorem burnisherAndCounterproof : Obligations.BurnisherAndCounterproof := by
  unfold Obligations.BurnisherAndCounterproof
  intro cl i s c busy
  refine ⟨?burnish, ?burnDesc, ?copy, ?copyDesc⟩
  case burnish =>
    intro h a u v
    refine ⟨fun hgood => ?_, fun hc h1 h2 => ?_⟩
    · rw [exec_burnish, execBurnish, stationStep_next h hgood]
      rfl
    · rw [exec_burnish, execBurnish, stationStep_bad h (burnishBad_of_space h1 h2 ..) hc]
  case burnDesc =>
    intro a due r d
    rw [doJob_burnDesc, burnArrives]
    exact ⟨descriptor_stops, fun hp hb hcols => (descriptor_begins hp hb).trans (planBurn_first hcols ..)⟩
  case copy =>
    intro h a u v
    refine ⟨fun hgood => ?_, fun hc h1 h2 => ?_⟩
    · rw [exec_copy, execCopy, stationStep_next h hgood]
      rfl
    · rw [exec_copy, execCopy, stationStep_bad h (copyBad_of_space h1 h2 ..) hc]
  case copyDesc =>
    intro a due r d
    rw [doJob_copyDesc, copyArrives]
    exact ⟨descriptor_stops, fun hp hb => (descriptor_begins hp hb).trans (planCopy_first ..)⟩

end Sys2Proof.Proofs
end

section
/-! PROOF. Updates of a mark by the host (R95, R337, R338): what the watches of the mark do, by how many of them fire. -/

namespace Sys2Proof.Proofs
open Sys2Proof Sys2Proof.Machine Sys2Proof.Laws

/-! ### Watches -/

theorem testWatches_marks (s : State) (m : Nat) (v : DWord) : (s.testWatches m v).marks = s.marks :=
  (reports_testWatches ..).run.marks

theorem testWatches_of_none {s : State} {m : Nat} {v : DWord} (h : ∀ p ∈ s.watches, watchHolds p.2 m v = false) :
    s.testWatches m v = s := by
  have hnone : s.watches.filter (fun p => watchHolds p.2 m v) = [] := by simpa [List.filter_eq_nil_iff] using h
  rw [State.testWatches, hnone]
  rfl

theorem testWatches_of_one {s : State} {m : Nat} {v : DWord} {w : Nat} {y : Watch}
    (h : s.watches.filter (fun p => watchHolds p.2 m v) = [(w, y)]) : s.testWatches m v = s.fireWatch w := by
  rw [State.testWatches, h]
  rfl

/-! ### Vectors -/

section
variable {s : State} {n : Nat}

theorem signal_unmasked (h : bitAt (smapGet MsixEntry.reset s.msix n).control.toNat 0 = false) :
    s.signal n = { s with mem := { s.mem with
      host := smapPutList 0 s.mem.host (smapGet MsixEntry.reset s.msix n).address.toNat
        (leBytes 4 (smapGet MsixEntry.reset s.msix n).data.toNat) } } := by simp [State.signal, h]

theorem signal_masked (h : bitAt (smapGet MsixEntry.reset s.msix n).control.toNat 0 = true)
    (hp : s.msixPending.contains n = false) : s.signal n = { s with msixPending := s.msixPending ++ [n] } := by
  unfold State.signal
  dsimp only
  rw [h, hp]
  rfl

theorem signal_pending (h : bitAt (smapGet MsixEntry.reset s.msix n).control.toNat 0 = true)
    (hp : s.msixPending.contains n = true) : s.signal n = s := by
  unfold State.signal
  dsimp only
  rw [h, hp]
  rfl

end

/-! ### MARK_WRITE and MARK_ADD -/

theorem exec_markWrite (m : BitVec 12) (v : DWord) (s : State) : exec (.markWrite m v) s = execMarkWrite m v s := rfl

theorem exec_markAdd (m : BitVec 12) (v : DWord) (s : State) : exec (.markAdd m v) s = execMarkAdd m v s := rfl

/-- The mark before its watches test it: it holds the new value, and the station updates so far are taken. -/
def markSet (s : State) (m : Nat) (x : DWord) : State :=
  { s.halfGone with marks := smapPut 0 s.marks m x, markUpdates := s.laterUpdates m }

theorem updateMark_halfGone (s : State) (m : Nat) (f : DWord → DWord) :
    s.halfGone.updateMark m f = (markSet s m (f (s.markNow m))).testWatches m (f (s.markNow m)) := rfl

theorem markWrite_eq {s : State} (h : s.hostAnswers) (m : BitVec 12) (v : DWord) :
    exec (.markWrite m v) s = .next ((markSet s m.toNat v).testWatches m.toNat v) := by
  rw [exec_markWrite, execMarkWrite, hostWr_ready h, updateMark_halfGone]

theorem markAdd_eq {s : State} (h : s.hostAnswers) (m : BitVec 12) (v : DWord) :
    exec (.markAdd m v) s =
      .next ((markSet s m.toNat (s.markNow m.toNat + v)).testWatches m.toNat (s.markNow m.toNat + v)) := by
  rw [exec_markAdd, execMarkAdd, hostWr_ready h, updateMark_halfGone]

/-- Settles O25: a write and an add differ only in the value that the mark takes; what follows goes by how many of the
mark's watches then hold. -/
theorem hostMarkUpdates : Obligations.HostMarkUpdates := by
  unfold Obligations.HostMarkUpdates
  intro m v s hready now later base does
  have hdoes : ∀ x, does (.next ((markSet s m.toNat x).testWatches m.toNat x)) x := by
    intro x
    refine ⟨⟨_, rfl, testWatches_marks .., fun k hk => ?others⟩, fun hnone => ?none, ?one⟩
    case others =>
      rw [State.mark, testWatches_marks]
      exact smapGet_put_other _ _ _ _ _ hk
    case none => exact congrArg _ (testWatches_of_none hnone)
    case one =>
      intro w y hone z e u
      have hfire : (markSet s m.toNat x).testWatches m.toNat x = u.signal z.vector.toNat := testWatches_of_one hone
      rw [hfire]
      exact ⟨fun he => congrArg _ (signal_unmasked (s := u) he), fun he hp => congrArg _ (signal_masked (s := u) he hp),
        fun he hp => congrArg _ (signal_pending (s := u) he hp)⟩
  refine ⟨?_, ?_⟩
  · rw [markWrite_eq hready]
    exact hdoes v
  · rw [markAdd_eq hready]
    exact hdoes (now + v)

end Sys2Proof.Proofs
end

section
/-! PROOF. Debug mode and the capture (R369–R371, R401, R402): when the host's writes are accepted, and how the refusals
of the others come to show. -/

namespace Sys2Proof.Proofs
open Sys2Proof Sys2Proof.Machine Sys2Proof.Laws

/-! ### Fields of a written word -/

theorem field_toNat {n : Nat} (v : BitVec n) (lo w : Nat) : field v.toNat lo w = (v.extractLsb' lo w).toNat :=
  (BitVec.extractLsb'_toNat ..).symm

theorem bitAt_toNat {n : Nat} (v : BitVec n) (i : Nat) : bitAt v.toNat i = v.getLsbD i := by
  rw [BitVec.getLsbD, Nat.testBit_eq_decide_div_mod_eq, bitAt, field, Nat.shiftRight_eq_div_pow, Nat.pow_one]
  rfl

/-! ### DEBUG_EN -/

theorem exec_debugEn (v : DWord) (s : State) : exec (.debugEn v) s = hostWr (debugEnEffect v) s := rfl

theorem debugEn_eq {s : State} (h : s.hostAnswers) (v : DWord) :
    exec (.debugEn v) s = .next (debugEnEffect v s.halfGone) := by
  rw [exec_debugEn, hostWr_ready h]

theorem debugAllowed_iff (s : State) : s.debugAllowed = true ↔
    (s.seq.state = .idle ∨ s.seq.state = .loaded) ∧ s.sec.sealed = false ∧ s.edition.debugAllowed = true := by
  simp [State.debugAllowed, and_assoc]

/-- A write with bit 0 enters debug mode where it is allowed, and is refused later elsewhere. -/
theorem debugEnEffect_set {v : DWord} (h : v.getLsbD 0 = true) (s : State) : debugEnEffect v s =
    if s.debugAllowed then { s with regs := { s.regs with debug := true } } else s.refuseLater debugEnOffset := by
  rw [debugEnEffect, bitAt_toNat, if_pos h]

/-- A write without bit 0 leaves debug mode in a quiet state, and is refused later in any other. -/
theorem debugEnEffect_clear {v : DWord} (h : v.getLsbD 0 = false) (s : State) :
    debugEnEffect v s = if s.quiet then s.leaveDebug else s.refuseLater debugEnOffset := by
  rw [debugEnEffect, bitAt_toNat, h, if_neg Bool.false_ne_true]

/-! ### The capture word -/

/-- The registers with the place fields of a capture word. -/
def placedAt (v : DWord) (r : Regs) : Regs :=
  { r with capStroke := v.extractLsb' 0 10, capCluster := v.extractLsb' 10 6, capPlate := v.extractLsb' 16 1,
           capLengine := v.extractLsb' 17 3 }

/-- A capture can be armed (R114, R371): in debug mode, unsealed, with none armed, at a cluster that exists. -/
theorem captureArmEffect_accepted {v : DWord} {s : State} (hdebug : s.regs.debug = true) (hopen : s.sec.sealed = false)
    (hfree : s.regs.capArmed = false) (hplace : (v.extractLsb' 10 6).toNat < 36) :
    captureArmEffect v s = { s with regs := { placedAt v s.regs with capArmed := true, capDone := false } } := by
  rw [captureArmEffect, hdebug, hopen, hfree, field_toNat, decide_eq_true hplace]
  rfl

theorem captureArmEffect_refused {v : DWord} {s : State} (h : ¬ (s.regs.debug = true ∧ s.sec.sealed = false ∧
    s.regs.capArmed = false ∧ (v.extractLsb' 10 6).toNat < 36)) :
    captureArmEffect v s = s.refuseLater captureOffset := by
  rw [← field_toNat] at h
  exact if_neg (by simpa [and_assoc] using h)

section
variable {v : DWord} {s : State}

theorem captureWordEffect_arm (harm : v.getLsbD 32 = true) (hdisarm : v.getLsbD 33 = false) :
    captureWordEffect v s = captureArmEffect v s := by
  rw [captureWordEffect, bitAt_toNat, bitAt_toNat, harm, hdisarm]
  rfl

theorem captureWordEffect_both (harm : v.getLsbD 32 = true) (hdisarm : v.getLsbD 33 = true) :
    captureWordEffect v s = s.refuseLater captureOffset := by
  rw [captureWordEffect, bitAt_toNat, bitAt_toNat, harm, hdisarm, Bool.or_true]
  rfl

section
variable (harm : v.getLsbD 32 = false)
include harm

theorem captureWordEffect_disarm (hdisarm : v.getLsbD 33 = true) (h : s.regs.capArmed = true) :
    captureWordEffect v s = { s with regs := { s.regs with capArmed := false } } := by
  rw [captureWordEffect, bitAt_toNat, bitAt_toNat, harm, hdisarm, h]
  rfl

theorem captureWordEffect_place (h : s.regs.capArmed = false) (hplace : (v.extractLsb' 10 6).toNat < 36) :
    captureWordEffect v s = { s with regs := placedAt v s.regs } := by
  rw [captureWordEffect, bitAt_toNat, bitAt_toNat, field_toNat, harm, h, decide_eq_false (Nat.not_le.mpr hplace),
    Bool.and_false]
  rfl

theorem captureWordEffect_noCluster (h : s.regs.capArmed = false) (hplace : ¬ (v.extractLsb' 10 6).toNat < 36) :
    captureWordEffect v s = s.refuse captureOffset := by
  rw [captureWordEffect, bitAt_toNat, bitAt_toNat, field_toNat, harm, h, decide_eq_true (Nat.not_lt.mp hplace),
    Bool.and_false]
  rfl

end

end

/-! ### CAP_ARMED and CAP_DISARM: the word with its bit 32 or 33 set -/

theorem exec_capArmed (v : DWord) (s : State) :
    exec (.capArmed v) s = hostWr (captureWordEffect (v ||| 0x1_0000_0000#64)) s := rfl

theorem capArmed_eq {s : State} (h : s.hostAnswers) (v : DWord) :
    exec (.capArmed v) s = .next (captureWordEffect (v ||| 0x1_0000_0000#64) s.halfGone) := by
  rw [exec_capArmed, hostWr_ready h]

theorem exec_capDisarm (v : DWord) (s : State) :
    exec (.capDisarm v) s = hostWr (captureWordEffect (v ||| 0x2_0000_0000#64)) s := rfl

theorem capDisarm_eq {s : State} (h : s.hostAnswers) (v : DWord) :
    exec (.capDisarm v) s = .next (captureWordEffect (v ||| 0x2_0000_0000#64) s.halfGone) := by
  rw [exec_capDisarm, hostWr_ready h]

section
variable (v : DWord)

theorem armWord_arms : (v ||| 0x1_0000_0000#64).getLsbD 32 = true := by simp

theorem armWord_disarms : (v ||| 0x1_0000_0000#64).getLsbD 33 = v.getLsbD 33 := by simp

theorem disarmWord_arms : (v ||| 0x2_0000_0000#64).getLsbD 32 = v.getLsbD 32 := by simp

theorem disarmWord_disarms : (v ||| 0x2_0000_0000#64).getLsbD 33 = true := by simp

/-- Bits above the place fields leave each of them as it is. -/
theorem placeField_or {bits : DWord} (hbits : ∀ i < 20, bits.getLsbD i = false) {lo w : Nat} (h : lo + w ≤ 20) :
    (v ||| bits).extractLsb' lo w = v.extractLsb' lo w := by
  apply BitVec.eq_of_getLsbD_eq
  intro i hi
  have hbit : bits.getLsbD (lo + i) = false := hbits _ (by omega)
  simp only [BitVec.getLsbD_extractLsb', BitVec.getLsbD_or, hbit, Bool.or_false]

theorem placedAt_or {bits : DWord} (hbits : ∀ i < 20, bits.getLsbD i = false) (r : Regs) :
    placedAt (v ||| bits) r = placedAt v r := by
  simp (disch := decide) only [placedAt, placeField_or v hbits]

theorem armWord_cluster : (v ||| 0x1_0000_0000#64).extractLsb' 10 6 = v.extractLsb' 10 6 :=
  placeField_or v (by decide) (by decide)

theorem armWord_placedAt (r : Regs) : placedAt (v ||| 0x1_0000_0000#64) r = placedAt v r :=
  placedAt_or v (by decide) r

theorem disarmWord_cluster : (v ||| 0x2_0000_0000#64).extractLsb' 10 6 = v.extractLsb' 10 6 :=
  placeField_or v (by decide) (by decide)

theorem disarmWord_placedAt (r : Regs) : placedAt (v ||| 0x2_0000_0000#64) r = placedAt v r :=
  placedAt_or v (by decide) r

end

/-! ### DEBUG_REFUSAL_REPORT -/

theorem exec_debugRefusalReport (s : State) : exec .debugRefusalReport s = execDebugRefusalReport s := rfl

theorem debugRefusalReport_none {s : State} (h : s.sec.refusals = []) : execDebugRefusalReport s = .next s := by
  rw [execDebugRefusalReport, h]

theorem debugRefusalReport_first {s : State} {r : DueRefusal} {rest : List DueRefusal} (h : s.sec.refusals = r :: rest) :
    execDebugRefusalReport s = .next (State.emit
      ({ s.advanceRef r.due with sec := { (s.advanceRef r.due).sec with refusals := rest } }.refuse r.offset.toNat)
      srcMss 0x0420 [f64 r.offset.toNat]) := by
  rw [execDebugRefusalReport, h]
  rfl

/-- Board time moves by 10 ns for each REFCLK edge that is still to come. -/
theorem advanceRef_eq (s : State) (edge : DWord) : s.advanceRef edge = { s with
    boardTime := BitVec.ofNat 64 (s.boardTime.toNat + 10 * (edge.toNat - s.refclk.toNat)),
    refclk := s.refclk + BitVec.ofNat 64 (edge.toNat - s.refclk.toNat) } := by
  rw [State.advanceRef, State.advanceTo, if_pos (Nat.le_add_right ..), Nat.add_sub_cancel_left,
    Nat.mul_div_cancel_left _ (by decide)]

theorem refuse_toNat (s : State) (offset : BitVec 26) :
    s.refuse offset.toNat = { s with regs := { s.regs with refused := true, refusedAt := offset } } := by
  rw [State.refuse, BitVec.ofNat_toNat, BitVec.setWidth_eq]

/-- Settles O29, write by write: each is its effect on the state whose waiting half is gone, and the effect goes by the
bits of the word and by what is armed. -/
theorem debugWrites : Obligations.DebugWrites := by
  unfold Obligations.DebugWrites
  intro v s hready u late held enters quiet placed exists_ arms
  have hallowed : u.debugAllowed = true ↔ enters := debugAllowed_iff u
  have hquiet : u.quiet = true ↔ quiet := (quiet_iff u).trans or_assoc.symm
  refine ⟨?enter, ?enterLate, ?leave, ?leaveLate, ?arm, ?armLate, ?disarm, ?place, ?noCluster, ?both, ?report, ?none⟩
  case enter =>
    intro h henters
    rw [debugEn_eq hready, debugEnEffect_set h, if_pos (hallowed.mpr henters)]
  case enterLate =>
    intro h hrefused
    rw [debugEn_eq hready, debugEnEffect_set h, if_neg (mt hallowed.mp hrefused)]
    rfl
  case leave =>
    intro h hq
    rw [debugEn_eq hready, debugEnEffect_clear h, if_pos (hquiet.mpr hq)]
    rfl
  case leaveLate =>
    intro h hbusy
    rw [debugEn_eq hready, debugEnEffect_clear h, if_neg (mt hquiet.mp hbusy)]
    rfl
  case arm =>
    rintro ⟨hdisarm, hdebug, hopen, hfree, hplace⟩
    rw [← armWord_disarms] at hdisarm
    rw [capArmed_eq hready, captureWordEffect_arm (armWord_arms v) hdisarm,
      captureArmEffect_accepted (s := u) hdebug hopen hfree (armWord_cluster v ▸ hplace),
      armWord_placedAt]
    rfl
  case armLate =>
    intro hrefused
    rw [capArmed_eq hready]
    cases hdisarm : v.getLsbD 33 with
    | true =>
      rw [captureWordEffect_both (armWord_arms v) ((armWord_disarms v).trans hdisarm)]
      rfl
    | false =>
      rw [captureWordEffect_arm (armWord_arms v) ((armWord_disarms v).trans hdisarm), captureArmEffect_refused]
      · rfl
      · rw [armWord_cluster]
        exact fun h => hrefused ⟨hdisarm, h⟩
  case disarm =>
    intro h harmed
    rw [← disarmWord_arms] at h
    rw [capDisarm_eq hready, captureWordEffect_disarm (s := u) h (disarmWord_disarms v) harmed]
  case place =>
    intro h hfree hplace
    rw [← disarmWord_arms] at h
    rw [capDisarm_eq hready, captureWordEffect_place (s := u) h hfree (disarmWord_cluster v ▸ hplace),
      disarmWord_placedAt]
    rfl
  case noCluster =>
    intro h hfree hplace
    rw [← disarmWord_arms] at h
    rw [capDisarm_eq hready, captureWordEffect_noCluster (s := u) h hfree (disarmWord_cluster v ▸ hplace)]
    rfl
  case both =>
    intro h
    rw [← disarmWord_arms] at h
    rw [capDisarm_eq hready, captureWordEffect_both h (disarmWord_disarms v)]
    rfl
  case report =>
    intro r rest h edges w
    refine ⟨w.emit srcMss 0x0420 [f64 r.offset.toNat], ?_, emits_emit ..⟩
    rw [exec_debugRefusalReport, debugRefusalReport_first h, refuse_toNat, advanceRef_eq]
  case none =>
    intro h
    rw [exec_debugRefusalReport, debugRefusalReport_none h]

end Sys2Proof.Proofs
end

section
/-! PROOF. The commands of a Selector (R164, R166, R168): what each puts on the agenda, and what the arrival of its
descriptor begins. -/

namespace Sys2Proof.Proofs
open Sys2Proof Sys2Proof.Machine Sys2Proof.Laws

/-! ### What each command is -/

section
variable (x : SelectorLoc) (i : Issue) (due c : Nat) (s : State)

theorem exec_topb (a : TopbArgs) : exec (.topb x i a) s = execTopb x i a s := rfl
theorem exec_setwin (a : SetwinArgs) : exec (.setwin x i a) s = execSetwin x i a s := rfl
theorem exec_sample (a : SampleArgs) : exec (.sample x i a) s = execSample x i a s := rfl

/-- Both modes of SAMPLE are one command: its descriptor tells them apart (R168). -/
theorem exec_fill (a : SampleArgs) : exec (.fill x i a) s = exec (.sample x i a) s := rfl

theorem doJob_topbDesc (a : TopbArgs) : doJob due c (.topbDesc x a) s = topbArrives x c a s := rfl
theorem doJob_setwinDesc (a : SetwinArgs) : doJob due c (.setwinDesc x a) s = setwinArrives x c a s := rfl
theorem doJob_sampleDesc (a : SampleArgs) : doJob due c (.sampleDesc x a) s = samplingArrives x c a s := rfl

end

/-! ### What is planned first -/

section
variable (x : SelectorLoc) (c raw nans : Nat) (s : State)

/-- The first group: a TOPB has at least one. -/
theorem planTopb_first (a : TopbArgs) : planTopb x c a raw 0 nans s =
    s.planned (.selector x) c (topbWrite c (topbDesc raw) 0) (.topb x a raw 0 nans) := if_pos (Nat.succ_pos _)

/-- The first row: a SAMPLE has at least one. -/
theorem planSample_first (a : SampleArgs) : planSample x c a raw 0 nans s =
    s.planned (.selector x) c (sampleWrite c (sampleDesc raw) 0) (.sample x a raw 0 nans) := if_pos (Nat.succ_pos _)

/-- The first group of a fill: a row has two. -/
theorem planFill_first (a : SampleArgs) : planFill x c a raw 0 s =
    s.planned (.selector x) c (c + 1290) (.fill x a raw 0) := if_pos (Nat.mul_pos Nat.two_pos (Nat.succ_pos _))

/-- MODE is in the two lowest bits. -/
theorem mode_eq_mod (raw : Nat) : field raw 0 2 = raw % 4 := rfl

end

/-! ### SETWIN -/

section
variable {a : SetwinArgs} (x : SelectorLoc) (c : Nat) (s : State)

theorem setwinBad_disarm (h : a.arm = 0) (hd : a.descAddr = 0) : setwinBad s x c a = none := by
  rw [setwinBad, if_pos h, hd]
  rfl

theorem setwinEffect_disarm (h : a.arm = 0) :
    setwinEffect x c a s = s.changeWindow x.plate.val a.win.toNat (c + 1344) none := if_pos h

theorem setwinEffect_arm (h : a.arm = 1) :
    setwinEffect x c a s = s.planned (.selector x) c (c + 1280) (.setwinDesc x a) := if_neg (by rw [h]; decide)

end

/-! ### The arrival of a descriptor `r` -/

section
variable {x : SelectorLoc} {c : Nat} {s : State} {r : ReadData × State}

section
variable {a : TopbArgs} (hr : s.descRead (.selector x) c 2 (8 * a.descAddr.toNat) 64 = r)
include hr

theorem topbArrives_stops (h : r.1.poison ≠ [] ∨ topbDescBad r.2 x a (ofLe r.1.bytes) ≠ none) :
    topbArrives x c a s = r.2 := by
  rw [topbArrives, hr]
  exact descriptor_stops h

theorem topbArrives_begins (hp : r.1.poison = []) (hb : topbDescBad r.2 x a (ofLe r.1.bytes) = none) :
    topbArrives x c a s = r.2.planned (.selector x) c (topbWrite c (topbDesc (ofLe r.1.bytes)) 0)
      (.topb x a (ofLe r.1.bytes) 0 0) := by
  rw [topbArrives, hr]
  exact (descriptor_begins hp hb).trans (planTopb_first ..)

end

section
variable {a : SetwinArgs} (hr : s.descRead (.selector x) c 2 (8 * a.descAddr.toNat) 32 = r)
include hr

theorem setwinArrives_stops (h : r.1.poison ≠ [] ∨ winBad x.plate.val (ofLe r.1.bytes) ≠ none) :
    setwinArrives x c a s = r.2 := by
  rw [setwinArrives, hr]
  exact descriptor_stops h

theorem setwinArrives_begins (hp : r.1.poison = []) (hb : winBad x.plate.val (ofLe r.1.bytes) = none) :
    setwinArrives x c a s =
      r.2.changeWindow x.plate.val a.win.toNat (c + 1344) (some (winDesc (ofLe r.1.bytes))) := by
  rw [setwinArrives, hr]
  exact descriptor_begins hp hb

end

section
variable {a : SampleArgs} (hr : s.descRead (.selector x) c 2 (8 * a.descAddr.toNat) 64 = r)
include hr

theorem samplingArrives_stops (h : r.1.poison ≠ [] ∨ samplingDescBad r.2 x a (ofLe r.1.bytes) ≠ none) :
    samplingArrives x c a s = r.2 := by
  rw [samplingArrives, hr]
  exact descriptor_stops h

/-- MODE, the two lowest bits, says whether rows are sampled or filled. -/
theorem samplingArrives_begins (hp : r.1.poison = []) (hb : samplingDescBad r.2 x a (ofLe r.1.bytes) = none) :
    samplingArrives x c a s =
      if ofLe r.1.bytes % 4 = 0 then r.2.planned (.selector x) c (sampleWrite c (sampleDesc (ofLe r.1.bytes)) 0)
        (.sample x a (ofLe r.1.bytes) 0 0)
      else r.2.planned (.selector x) c (c + 1290) (.fill x a (ofLe r.1.bytes) 0) := by
  rw [samplingArrives, hr, ← planSample_first, ← planFill_first, ← mode_eq_mod]
  exact descriptor_begins hp hb

end

end

/-- Settles O10: a command that is accepted plans the arrival of its descriptor, and the arrival stops there, or plans
the first write, or arms the window. -/
theorem selectorCommands : Obligations.SelectorCommands := by
  unfold Obligations.SelectorCommands
  intro x i s st c u v busy window
  refine ⟨fun h => ⟨?topb, ?setwin, ?sample⟩, ?topbDesc, ?setwinDesc, ?sampleDesc⟩
  case topb =>
    intro a hgood
    rw [exec_topb, execTopb, stationStep_next h hgood]
    rfl
  case setwin =>
    refine fun a => ⟨fun harm hdesc => ?_, fun harm hgood => ?_⟩
    · rw [exec_setwin, execSetwin, stationStep_of_good h (setwinBad_disarm x _ _ harm hdesc),
        setwinEffect_disarm _ _ _ harm]
      rfl
    · rw [exec_setwin, execSetwin, stationStep_next h hgood, setwinEffect_arm _ _ _ harm]
  case sample =>
    intro a hgood
    refine ⟨exec_fill .., ?_⟩
    rw [exec_sample, execSample, stationStep_next h hgood]
    rfl
  case topbDesc =>
    intro a due r raw
    rw [doJob_topbDesc]
    exact ⟨topbArrives_stops rfl, topbArrives_begins rfl⟩
  case setwinDesc =>
    intro a due r raw
    rw [doJob_setwinDesc]
    exact ⟨setwinArrives_stops rfl, setwinArrives_begins rfl⟩
  case sampleDesc =>
    intro a due r raw
    rw [doJob_sampleDesc]
    exact ⟨samplingArrives_stops rfl, samplingArrives_begins rfl⟩

end Sys2Proof.Proofs
end

section
/-! PROOF. A Stipple and its insertions (R171, R175, R180): what an operation leaves of the other Stipples, and where a
run goes. -/

namespace Sys2Proof.Proofs
open Sys2Proof Sys2Proof.Machine Sys2Proof.Laws

/-! ### One Stipple of the map -/

theorem stipples_wf_of_canonical {s : State} (h : s.canonical = true) : smapWf Stipple.empty s.stipples = true := by
  cases hwf : smapWf Stipple.empty s.stipples with
  | true => rfl
  | false => simp [State.canonical, hwf] at h

theorem stipple_congr {s t : State} (h : t.stipples = s.stipples) (c : ClusterLoc) : t.stipple c = s.stipple c := by
  rw [State.stipple, h]
  rfl

theorem stipple_setStipple {s : State} (h : smapWf Stipple.empty s.stipples = true) (c : ClusterLoc) (x : Stipple) :
    (s.setStipple c x).stipple c = x := smapGet_put_self _ _ _ _ h

/-- From `s` to `t` no Stipple but that of cluster `c` changes, and their map stays in canonical form. -/
structure OnlyStipple (c : ClusterLoc) (s t : State) : Prop where
  wf : smapWf Stipple.empty s.stipples = true → smapWf Stipple.empty t.stipples = true
  other : ∀ k, k ≠ clusterIdx c → smapGet Stipple.empty t.stipples k = smapGet Stipple.empty s.stipples k

section
variable {c : ClusterLoc} {s t u : State}

theorem onlyStipple_of_eq (h : t.stipples = s.stipples) : OnlyStipple c s t := by
  constructor <;> rw [h]
  · exact id
  · exact fun _ _ => rfl

theorem OnlyStipple.trans (h : OnlyStipple c s t) (g : OnlyStipple c t u) : OnlyStipple c s u :=
  ⟨g.wf ∘ h.wf, fun k hk => (g.other k hk).trans (h.other k hk)⟩

end

theorem onlyStipple_setStipple (s : State) (c : ClusterLoc) (x : Stipple) : OnlyStipple c s (s.setStipple c x) :=
  ⟨smapWf_put _ _ _ _, fun _ hk => smapGet_put_other _ _ _ _ _ hk⟩

/-! ### What reports and writes leave of the Stipples -/

theorem stipples_foldl {β : Type} {f : State → β → State} (hf : ∀ s b, (f s b).stipples = s.stipples) (s : State)
    (l : List β) : (l.foldl f s).stipples = s.stipples := by
  induction l generalizing s with
  | nil => rfl
  | cons b l ih => exact (ih _).trans (hf s b)

@[simp] theorem stipples_noteCorrected (s : State) (src a kind reader) :
    (s.noteCorrected src a kind reader).stipples = s.stipples := by
  unfold State.noteCorrected
  dsimp only
  split
  · rw [State.emit_stipples]
    rfl
  · rfl

@[simp] theorem stipples_notePoison (s : State) (st code issue arrival a unit) :
    (s.notePoison st code issue arrival a unit).stipples = s.stipples := State.emit_stipples ..

section
variable (s : State) (c : ClusterLoc)

@[simp] theorem stipples_readSlotWord (issue t pos j x) : (s.readSlotWord c issue t pos j x).stipples = s.stipples := by
  unfold State.readSlotWord
  dsimp only
  split <;> simp

@[simp] theorem stipples_readSlot (issue t first last pos) :
    (s.readSlot c issue t first last pos).stipples = s.stipples := by
  unfold State.readSlot
  split
  · exact stipples_foldl (fun _ _ => stipples_readSlotWord ..) _ _
  · rfl

/-- The keys of a set are read. -/
theorem stipples_readKeys (issue t) (l : List Nat) :
    (l.foldl (fun s p => s.readSlot c issue t 0 0 p) s).stipples = s.stipples :=
  stipples_foldl (fun _ _ => stipples_readSlot ..) _ _

@[simp] theorem stipples_stWrite (t a bs parts) : (s.stWrite c t a bs parts).stipples = s.stipples := by
  unfold State.stWrite
  split <;> rfl

/-- A command that halts leaves no run of its own. -/
theorem stipples_stHalt (code cycle t more) : (s.stHalt c code cycle t more).stipples =
    (s.setStipple c { s.stipple c with runs := (s.stipple c).runs.filter fun y => y.cycle != cycle }).stipples := rfl

/-! ### A CLEAR that is under way -/

theorem onlyStipple_purge (n : Nat) : OnlyStipple c s (s.purge c n) := by
  unfold State.purge
  dsimp only
  split
  · exact onlyStipple_of_eq rfl
  · exact onlyStipple_setStipple ..

end

/-- The sets that become invalid hold no run that waits. -/
theorem purge_runs {s : State} (h : smapWf Stipple.empty s.stipples = true) (c : ClusterLoc) (n : Nat) :
    ((s.purge c n).stipple c).runs = (s.stipple c).runs := by
  unfold State.purge
  dsimp only
  split
  · rfl
  · rw [stipple_setStipple h]

/-! ### A run whose set is full -/

theorem stServe_eq_some {s : State} {c : ClusterLoc} {w limit t a n z} (h : s.stServe c w limit t a n = some z) :
    ∃ m, z.2 = s.setStipple c { s.stipple c with claims := m } := by
  obtain ⟨y, -, rfl⟩ := Option.map_eq_some_iff.mp h
  exact ⟨_, rfl⟩

theorem onlyStipple_stHalt (s : State) (c : ClusterLoc) (code cycle t more) :
    OnlyStipple c s (s.stHalt c code cycle t more) :=
  (onlyStipple_setStipple ..).trans (onlyStipple_of_eq (stipples_stHalt s c code cycle t more))

/-- The spill of a run: its record is written, and counted. -/
theorem onlyStipple_spill (s : State) (c : ClusterLoc) (n t a bs parts) :
    OnlyStipple c s ((s.setStipple c { s.stipple c with spilled := n }).stWrite c t a bs parts) :=
  (onlyStipple_setStipple ..).trans (onlyStipple_of_eq (stipples_stWrite ..))

theorem onlyStipple_spillRun (s : State) (c : ClusterLoc) (r : StRun) : OnlyStipple c s (s.spillRun c r) := by
  unfold State.spillRun
  dsimp only
  split
  case h_1 => exact onlyStipple_of_eq rfl
  case h_2 o _ =>
    split
    · exact onlyStipple_stHalt ..
    · split
      · exact onlyStipple_spill ..
      · split
        case h_1 z hserve =>
          obtain ⟨m, hz⟩ := stServe_eq_some hserve
          exact (hz ▸ onlyStipple_setStipple ..).trans (onlyStipple_spill ..)
        case h_2 => exact onlyStipple_stHalt ..

section
variable {s : State} {c : ClusterLoc} {r : StRun} {o : StOp} (hop : (s.stipple c).op = some o)
include hop

/-- With the spill region full, the command of the run halts. -/
theorem spillRun_full (hfull : o.spillCap ≤ (s.stipple c).spilled) :
    s.spillRun c r = s.stHalt c 0x0120 r.cycle (r.closed + 5) := by
  simp only [State.spillRun, hop, if_pos hfull]

/-- With room left, the run of an ACCUM is spilled. -/
theorem spillRun_room (hroom : (s.stipple c).spilled < o.spillCap) (hl : r.limit = none) :
    (s.spillRun c r).stipples =
      (s.setStipple c { s.stipple c with spilled := (s.stipple c).spilled + 1 }).stipples := by
  simp only [State.spillRun, hop, if_neg (Nat.not_le.mpr hroom), hl, stipples_stWrite]

end

/-! ### Insertion -/

/-- The state in which an insertion finds its place: the sets of a CLEAR are invalid as far as they should be, and the
keys of the run's set have been read. -/
def keysRead (s : State) (c : ClusterLoc) (r : StRun) : State :=
  (stWays r.key).foldl (fun s p => s.readSlot c r.cycle (r.closed + 4) 0 0 p) (s.purge c (r.closed + 4))

section
variable {s : State} {c : ClusterLoc} {r : StRun}

theorem stipples_keysRead : (keysRead s c r).stipples = (s.purge c (r.closed + 4)).stipples := stipples_readKeys ..

theorem stipple_keysRead : (keysRead s c r).stipple c = (s.purge c (r.closed + 4)).stipple c :=
  stipple_congr stipples_keysRead c

theorem onlyStipple_keysRead : OnlyStipple c s (keysRead s c r) :=
  (onlyStipple_purge ..).trans (onlyStipple_of_eq stipples_keysRead)

/-- A run with a place in its set takes it. -/
theorem stipples_insertRun_place {n : Nat} {old : Option StSlot}
    (h : stPlace ((keysRead s c r).stipple c).slots r.key = some (n, old)) :
    (s.insertRun c r).stipples = ((keysRead s c r).setStipple c { (keysRead s c r).stipple c with
      slots := smapPut none ((keysRead s c r).stipple c).slots n (some (stSlotFor old r)) }).stipples := by
  have hread : ∀ t : State, t.stipples = (keysRead s c r).stipples → ∀ slots,
      (t.setStipple c { t.stipple c with slots := slots }).stipples =
        ((keysRead s c r).setStipple c { (keysRead s c r).stipple c with slots := slots }).stipples := by
    intro t ht slots
    rw [stipple_congr ht, State.setStipple, State.setStipple, ht]
  unfold State.insertRun
  dsimp only
  rw [← keysRead, h]
  refine hread _ ?_ _
  split
  · exact stipples_readSlot ..
  · rfl

/-- A run that finds none goes to the spill region. -/
theorem insertRun_noPlace (h : stPlace ((keysRead s c r).stipple c).slots r.key = none) :
    s.insertRun c r = (keysRead s c r).spillRun c r := by
  unfold State.insertRun
  dsimp only
  rw [← keysRead, h]

theorem onlyStipple_insertRun : OnlyStipple c s (s.insertRun c r) := by
  refine (onlyStipple_keysRead (r := r)).trans ?_
  cases h : stPlace ((keysRead s c r).stipple c).slots r.key with
  | some p => exact (onlyStipple_setStipple ..).trans (onlyStipple_of_eq (stipples_insertRun_place h))
  | none =>
    rw [insertRun_noPlace h]
    exact onlyStipple_spillRun ..

end

end Sys2Proof.Proofs
end

section
/-! PROOF. The commands of a Stipple (R172, R174–R180): what each checks, and what it puts on the agenda; and the
insertion of the oldest run. -/

namespace Sys2Proof.Proofs
open Sys2Proof Sys2Proof.Machine Sys2Proof.Laws

/-! ### What each command is -/

section
variable (cl : ClusterLoc) (i : Issue) (s : State)

theorem exec_clear (a : ClearArgs) : exec (.clear cl i a) s = execClear cl i a s := rfl
theorem exec_accum (a : AccumArgs) : exec (.accum cl i a) s = execAccum cl i a s := rfl
theorem exec_gather (a : GatherArgs) : exec (.gather cl i a) s = execGather cl i a s := rfl
theorem exec_fold (a : FoldArgs) : exec (.fold cl i a) s = execFold cl i a s := rfl
theorem exec_stippleInsert : exec (.stippleInsert cl) s = execStippleInsert cl s := rfl

theorem doJob_clearDesc (due c : Nat) (a : ClearArgs) : doJob due c (.clearDesc cl a) s = clearArrives cl c a s := rfl

end

/-! ### An operation that is open, or not -/

section
variable {s : State} {cl : ClusterLoc}

theorem clearBad_open (h : (s.stipple cl).open_ = true) (c : Nat) (a : ClearArgs) : clearBad s cl c a = some 13 := by
  unfold clearBad
  dsimp only
  rw [h]
  cases a.space == 1 || a.space == 2 <;> rfl

section
variable (h : (s.stipple cl).open_ = false) (c : Nat)
include h

theorem accumBad_closed (a : AccumArgs) : accumBad s cl c a = some 13 := by
  unfold accumBad
  dsimp only
  rw [h]
  cases a.space == 1 || a.space == 2 <;> rfl

theorem gatherBad_closed (a : GatherArgs) : gatherBad s cl c a = some 13 := by
  rw [gatherBad, h]
  rfl

theorem foldBad_closed (a : FoldArgs) : foldBad s cl c a = some 13 := by
  rw [foldBad, h]
  rfl

end

end

/-! ### The effects -/

section
variable (cl : ClusterLoc) (c : Nat) (s : State)

/-- A command begins: its Stipple becomes `x`, and is busy up to cycle `n`. -/
def stippleBegins (x : Stipple) (n : Nat) : State := (s.setStipple cl x).setBusy (srcCluster cl 2) n

theorem accumEffect_eq (a : AccumArgs) : accumEffect cl c a s =
    (stippleBegins cl s { s.stipple cl with claims := [] } (accumEnd c a + 1)).planned (.stipple cl) c
      (c + latency a.space.toNat) (.accum cl a 0 none) := rfl

theorem foldEffect_some {o : StOp} (h : (s.stipple cl).op = some o) (a : FoldArgs) : foldEffect cl c a s =
    (stippleBegins cl s { s.stipple cl with open_ := false, claims := [] } (c + a.reserve.toNat)).planned (.stipple cl)
      c (c + 1) (.flush cl a ⟨o, 0, 0, 0, false, c + 1, 0, [], 0, none⟩) := by
  simp only [foldEffect, h]
  rfl

theorem foldEffect_none (h : (s.stipple cl).op = none) (a : FoldArgs) : foldEffect cl c a s =
    stippleBegins cl s { s.stipple cl with open_ := false, claims := [] } (c + a.reserve.toNat) := by
  simp only [foldEffect, h]
  rfl

section
variable {a : GatherArgs} {w : State}
  (hw : w = stippleBegins cl s { s.stipple cl with claims := [] } (c + a.reserve.toNat))
include hw

theorem gatherEffect_some {r : List Served × State}
    (h : w.stServe cl false (c + a.reserve.toNat) c (listBase a) 8 = some r) :
    gatherEffect cl c a s = r.2.planned (.stipple cl) c (c + 1280) (.count cl a r.1) := by
  subst hw
  unfold gatherEffect readIn
  dsimp only
  rw [← stippleBegins, h]
  rfl

theorem gatherEffect_none (h : w.stServe cl false (c + a.reserve.toNat) c (listBase a) 8 = none) :
    gatherEffect cl c a s = w.stFault cl 0x0102 c c := by
  subst hw
  unfold gatherEffect readIn
  dsimp only
  rw [← stippleBegins, h]

end

end

section
variable {cl : ClusterLoc} {c : Nat} {s : State} {a : ClearArgs} {r : ReadData × State}
  (hr : s.descRead (.stipple cl) c a.space.toNat (8 * a.descAddr.toNat) 64 = r)
include hr

theorem clearArrives_stops (h : r.1.poison ≠ [] ∨ stOpBad r.2 cl.plate.val (ofLe r.1.bytes) ≠ none) :
    clearArrives cl c a s = r.2 := by
  rw [clearArrives, hr]
  exact descriptor_stops h

theorem clearArrives_begins (hp : r.1.poison = []) (hb : stOpBad r.2 cl.plate.val (ofLe r.1.bytes) = none) :
    clearArrives cl c a s = r.2.setStipple cl { r.2.stipple cl with op := some (stOp (ofLe r.1.bytes)) } := by
  rw [clearArrives, hr]
  exact descriptor_begins hp hb

end

/-! ### The oldest run -/

/-- The oldest run has left the queue. -/
def runTaken (s : State) (cl : ClusterLoc) (rest : List StRun) : State :=
  s.setStipple cl { s.stipple cl with runs := rest }

theorem stippleInsert_none {s : State} {cl : ClusterLoc} (h : (s.stipple cl).runs = []) :
    exec (.stippleInsert cl) s = .next s := by
  rw [exec_stippleInsert, execStippleInsert, h]

theorem stippleInsert_some {s : State} {cl : ClusterLoc} {r : StRun} {rest : List StRun}
    (h : (s.stipple cl).runs = r :: rest) :
    exec (.stippleInsert cl) s = .next ((runTaken s cl rest).insertRun cl r) := by
  simp only [exec_stippleInsert, execStippleInsert, insertOldest, h]
  rfl

/-- The fault of a halt is the last that has arisen. -/
theorem stHalt_fault (s : State) (cl : ClusterLoc) (code cycle t : Nat) :
    ∃ f, (s.stHalt cl code cycle t).seq.faults.getLast? = some f ∧ f.code = code ∧
      f.source = srcCluster cl 2 ∧ f.cycle = t :=
  ⟨_, List.getLast?_concat .., rfl, rfl, rfl⟩

section
variable {s : State} {cl : ClusterLoc} {r : StRun} {x : Stipple} (hx : (s.purge cl (r.closed + 4)).stipple cl = x)
include hx

/-- A run that finds its set and the spill region full halts its command (R180). -/
theorem insertRun_full {o : StOp} (h : stPlace x.slots r.key = none) (hop : x.op = some o)
    (hfull : o.spillCap ≤ x.spilled) :
    s.insertRun cl r = (keysRead s cl r).stHalt cl 0x0120 r.cycle (r.closed + 5) := by
  rw [← stipple_keysRead] at hx
  subst hx
  rw [insertRun_noPlace h, spillRun_full hop hfull]

theorem insertRun_full_fault {o : StOp} (h : stPlace x.slots r.key = none) (hop : x.op = some o)
    (hfull : o.spillCap ≤ x.spilled) : ∃ f, (s.insertRun cl r).seq.faults.getLast? = some f ∧ f.code = 0x0120 ∧
      f.source = srcCluster cl 2 ∧ f.cycle = r.closed + 5 := by
  rw [insertRun_full hx h hop hfull]
  exact stHalt_fault ..

variable (hwf : smapWf Stipple.empty s.stipples = true)
include hwf

/-- A run with a place in its set changes that slot and no other. -/
theorem insertRun_place {n : Nat} {old : Option StSlot} (h : stPlace x.slots r.key = some (n, old)) :
    (s.insertRun cl r).stipple cl = { x with slots := smapPut none x.slots n (some (stSlotFor old r)) } := by
  rw [← stipple_keysRead] at hx
  subst hx
  rw [stipple_congr (stipples_insertRun_place h), stipple_setStipple (onlyStipple_keysRead.wf hwf)]

/-- A run of an ACCUM that finds its set full takes the next place of the spill region (R175). -/
theorem insertRun_spills {o : StOp} (h : stPlace x.slots r.key = none) (hop : x.op = some o)
    (hroom : x.spilled < o.spillCap) (hl : r.limit = none) :
    (s.insertRun cl r).stipple cl = { x with spilled := x.spilled + 1 } := by
  rw [← stipple_keysRead] at hx
  subst hx
  rw [insertRun_noPlace h, stipple_congr (spillRun_room hop hroom hl), stipple_setStipple (onlyStipple_keysRead.wf hwf)]

theorem insertRun_full_runs {o : StOp} (h : stPlace x.slots r.key = none) (hop : x.op = some o)
    (hfull : o.spillCap ≤ x.spilled) :
    ((s.insertRun cl r).stipple cl).runs = (s.stipple cl).runs.filter fun y => y.cycle != r.cycle := by
  rw [insertRun_full hx h hop hfull, stipple_congr (stipples_stHalt ..),
    stipple_setStipple (onlyStipple_keysRead.wf hwf), stipple_keysRead, purge_runs hwf]

end

/-- Settles O11: a command that is accepted begins its work or faults at once, and one that the operation's state rules
out is refused; the oldest run takes its place, or spills, or halts its command. -/
theorem stippleCommands : Obligations.StippleCommands := by
  unfold Obligations.StippleCommands
  intro cl i s st c u v put only
  refine ⟨fun h => ⟨?clear, ?accum, ?fold, ?gather, ?closed, ?open_⟩, ?clearDesc, ?insert, stippleInsert_none⟩
  case clear =>
    intro a hgood x w
    rw [exec_clear, execClear, stationStep_next h hgood]
    rfl
  case accum =>
    intro a hgood
    rw [exec_accum, execAccum, stationStep_next h hgood, accumEffect_eq]
    rfl
  case fold =>
    intro a hgood w
    refine ⟨fun o ho => ?_, fun ho => ?_⟩
    · rw [exec_fold, execFold, stationStep_next h hgood, foldEffect_some _ _ _ ho]
      rfl
    · rw [exec_fold, execFold, stationStep_next h hgood, foldEffect_none _ _ _ ho]
      rfl
  case gather =>
    intro a hgood w pf
    rw [exec_gather, execGather, stationStep_next h hgood]
    split
    case h_1 r hr => rw [gatherEffect_some cl c v (w := w) rfl hr]
    case h_2 hr =>
      rw [gatherEffect_none cl c v (w := w) rfl hr]
      rfl
  case closed =>
    intro hc hopen
    refine ⟨fun a => ?_, fun a => ?_, fun a => ?_⟩
    · rw [exec_fold, execFold, stationStep_bad h (foldBad_closed hopen ..) hc]
    · rw [exec_gather, execGather, stationStep_bad h (gatherBad_closed hopen ..) hc]
    · rw [exec_accum, execAccum, stationStep_bad h (accumBad_closed hopen ..) hc]
  case open_ =>
    intro hc hopen a
    rw [exec_clear, execClear, stationStep_bad h (clearBad_open hopen ..) hc]
  case clearDesc =>
    intro a due r raw
    rw [doJob_clearDesc]
    exact ⟨clearArrives_stops rfl, clearArrives_begins rfl⟩
  case insert =>
    intro r rest hruns hcanon
    have hwf := stipples_wf_of_canonical hcanon
    have htaken : OnlyStipple cl s (runTaken s cl rest) := onlyStipple_setStipple ..
    have hwf' := htaken.wf hwf
    refine ⟨_, stippleInsert_some hruns, (htaken.trans onlyStipple_insertRun).other, fun n old hplace => ?place,
      fun o hplace hop => ⟨fun hfull => ?full, fun hroom hl => ?room⟩⟩
    case place => exact insertRun_place rfl hwf' hplace
    case full =>
      refine ⟨?_, insertRun_full_fault rfl hplace hop hfull⟩
      rw [insertRun_full_runs rfl hwf' hplace hop hfull, runTaken, stipple_setStipple hwf]
    case room => exact insertRun_spills rfl hwf' hplace hop hroom hl

end Sys2Proof.Proofs
end

section
/-! PROOF. UPDATE and NORM (R221, R227–R231): what an UPDATE plans, what the arrival of its descriptor begins, and what
a NORM does while units of the device are missing, and as the last of them. -/

namespace Sys2Proof.Proofs
open Sys2Proof Sys2Proof.Machine Sys2Proof.Laws

/-! ### What each command is -/

section
variable (n : UnitLoc) (i : Issue) (s : State)

theorem exec_update (a : UpdateArgs) : exec (.update n i a) s = execUpdate n i a s := rfl
theorem exec_norm (a : NormArgs) : exec (.norm n i a) s = execNorm n i a s := rfl

theorem doJob_updateDesc (due c : Nat) (a : UpdateArgs) (clip : Option Word) (skip : Bool) :
    doJob due c (.updateDesc n a clip skip) s = updateArrives n c a clip skip s := rfl

end

/-! ### The descriptor of an UPDATE -/

section
variable {n : UnitLoc} {c : Nat} {s : State} {a : UpdateArgs} {r : ReadData × State}
  (hr : s.descRead (.updateUnit n) c 2 (8 * a.descAddr.toNat) 64 = r) (clip : Option Word) (skip : Bool)
include hr

theorem updateArrives_stops (h : r.1.poison ≠ [] ∨ updateDescBad r.2 n (updateDesc (ofLe r.1.bytes)) ≠ none) :
    updateArrives n c a clip skip s = r.2 := by
  rw [updateArrives, hr]
  exact descriptor_stops h

theorem updateArrives_begins (hp : r.1.poison = [])
    (hb : updateDescBad r.2 n (updateDesc (ofLe r.1.bytes)) = none) :
    updateArrives n c a clip skip s = r.2.planned (.updateUnit n) c (c + 2561)
      (.schedule n a (ofLe r.1.bytes) (if (updateDesc (ofLe r.1.bytes)).clip then clip else none) skip) := by
  rw [updateArrives, hr]
  exact descriptor_begins hp hb

end

/-! ### The partial that a NORM gives -/

/-- The first NORM of a device opens the norm, with no partial yet. -/
def normOpened (c : Nat) (a : NormArgs) : NormJob :=
  { mode := a.mode, scope := a.scope, cycle := c, partials := [], stage := 0, expMax := none }

/-- Unit `n` gives the norm its partial, as it stands in `s`. -/
def partialGiven (n : UnitLoc) (s : State) (j : NormJob) : NormJob :=
  { j with partials := j.partials ++ [(unitIdx n, smapGet 0 s.partials (unitIdx n))] }

theorem partialGiven_length (n : UnitLoc) (s : State) (j : NormJob) :
    (partialGiven n s j).partials.length = j.partials.length + 1 := List.length_append

/-- A device without a parameter block has no norm to form. -/
theorem normBad_of_no_params {s : State} (h : s.paramBlock = []) (n : UnitLoc) (c : Nat) (a : NormArgs) :
    normBad s n c a = some 13 := by
  rw [normBad, h]
  rfl

/-- What a NORM does turns on the norm that it finds, or opens: the units that have given their partials. -/
theorem normEffect_eq (n : UnitLoc) (c : Nat) (a : NormArgs) (s : State) :
    let w := s.settleCharges c
    let j := partialGiven n w (s.norm.getD (normOpened c a))
    normEffect n c a s = if j.partials.length < s.normUnits then { w with norm := some j } else w.normFormed j := by
  have hnorm : (s.settleCharges c).norm = s.norm := rfl
  rw [normEffect, hnorm]
  cases s.norm <;> rfl

section
variable {s : State} {a : NormArgs} {c : Nat} {j : NormJob} (hj : s.norm.getD (normOpened c a) = j) (n : UnitLoc)
include hj

/-- While a unit of the device is missing, the partial is only kept. -/
theorem normEffect_keeps (h : j.partials.length + 1 < s.normUnits) :
    normEffect n c a s = { s.settleCharges c with norm := some (partialGiven n (s.settleCharges c) j) } := by
  rw [← partialGiven_length n (s.settleCharges c) j] at h
  rw [normEffect_eq, hj]
  exact if_pos h

/-- The last unit of the device completes the norm. -/
theorem normEffect_completes (h : s.normUnits ≤ j.partials.length + 1) :
    normEffect n c a s = (s.settleCharges c).normFormed (partialGiven n (s.settleCharges c) j) := by
  rw [← partialGiven_length n (s.settleCharges c) j] at h
  rw [normEffect_eq, hj]
  exact if_neg (Nat.not_lt.mpr h)

end

/-! ### The norm of the device -/

section
variable (s : State) {j : NormJob}

/-- With SCOPE 0 the device forms its clip factor from its own total (R230). -/
theorem normFormed_here (h : j.scope = 0) : ∃ total valid, s.normFormed j =
    { s.formClip j.mode.toNat 0 total valid with norm := some { j with stage := 3 } } := by
  rw [State.normFormed, if_pos h]
  exact ⟨_, _, rfl⟩

/-- With SCOPE 1 it sends its share to the other roles, 64 cycles after the issue (R231). -/
theorem normFormed_sends (h : j.scope ≠ 0) : ∃ emax payload, s.normFormed j =
    ({ s with norm := some { j with stage := 1, expMax := emax } } : State).planned (.updateUnit ⟨0, 0⟩) j.cycle
      (j.cycle + 64) (.sendAll 5 payload) := by
  rw [State.normFormed, if_neg h]
  exact ⟨_, _, rfl⟩

end

/-- Settles O12: an UPDATE plans its descriptor, whose arrival stops there or plans the schedule; a NORM keeps its unit's
partial, or, as the last of the device, forms the clip factor here or sends the device's share. -/
theorem updateUnits : Obligations.UpdateUnits := by
  unfold Obligations.UpdateUnits
  intro n i s st c u v
  refine ⟨?update, ?updateDesc, ?norm, ?noParams⟩
  case update =>
    intro h a hgood
    rw [exec_update, execUpdate, stationStep_next h hgood]
    rfl
  case updateDesc =>
    intro a clip skip due r raw
    rw [doJob_updateDesc]
    exact ⟨updateArrives_stops (r := r) rfl clip skip, updateArrives_begins (r := r) rfl clip skip⟩
  case norm =>
    intro h a hgood due w mine
    have hexec : exec (.norm n i a) s = .next (normEffect n c a v) := by
      rw [exec_norm, execNorm, stationStep_next h hgood]
    -- From here any state serves as the one at the issue.
    clear_value v
    refine ⟨fun hv hunits => ?first, fun j hv hunits => ?between, fun j hv hunits => ⟨_, hexec, ?last⟩⟩
    case first =>
      rw [hexec, normEffect_keeps (j := normOpened c a) (by rw [hv]; rfl) n hunits]
      rfl
    case between =>
      rw [hexec, normEffect_keeps (by rw [hv]; rfl) n hunits]
      rfl
    case last =>
      rw [normEffect_completes (by rw [hv]; rfl) n hunits]
      by_cases hscope : j.scope = 0
      case pos =>
        obtain ⟨total, valid, hformed⟩ := normFormed_here (v.settleCharges c) (j := partialGiven n _ j) hscope
        rw [hformed]
        exact ⟨rfl, rfl, rfl, rfl, rfl, ⟨_, rfl, rfl, (if_pos hscope).symm⟩, fun _ => rfl,
          fun hne => absurd hscope hne⟩
      case neg =>
        obtain ⟨emax, payload, hformed⟩ := normFormed_sends (v.settleCharges c) (j := partialGiven n _ j) hscope
        rw [hformed]
        exact ⟨rfl, rfl, rfl, rfl, rfl, ⟨_, rfl, rfl, (if_neg hscope).symm⟩, fun heq => absurd heq hscope,
          fun _ => ⟨rfl, payload, rfl⟩⟩
  case noParams =>
    intro h a hc hparams
    rw [exec_norm, execNorm, stationStep_bad h (normBad_of_no_params hparams ..) hc]

end Sys2Proof.Proofs
end

section
/-! PROOF. The commands of the relays (R247, R267, R268, R270–R273): what each refuses of its operands and plans first,
and what the flits that wait for a RECV leave as it is when the RECV opens. -/

namespace Sys2Proof.Proofs
open Sys2Proof Sys2Proof.Machine Sys2Proof.Laws

/-! ### What each command is -/

section
variable (r : RelayLoc) (i : Issue) (s : State)

theorem exec_send (a : SendArgs) : exec (.send r i a) s = execSend r i a s := rfl
theorem exec_recv (a : RecvArgs) : exec (.recv r i a) s = execRecv r i a s := rfl
theorem exec_fxexp (a : FxexpArgs) : exec (.fxexp r i a) s = execFxexp r i a s := rfl
theorem exec_fxset (a : FxArgs) : exec (.fxset r i a) s = execFxset r i a s := rfl
theorem exec_fxadd (a : FxArgs) : exec (.fxadd r i a) s = execFxadd r i a s := rfl
theorem exec_fxout (a : FxArgs) : exec (.fxout r i a) s = execFxout r i a s := rfl

end

/-! ### What their operands must be -/

theorem firstBad_head {ok : Bool} (h : ok = false) (n : Nat) (l : List (Bool × Nat)) :
    firstBad ((ok, n) :: l) = some n := by rw [h]; rfl

section
variable {s : State} (c : Nat)

/-- The SEND of a Kazin relay has no channels, and goes to the role at the end of its port (R268). -/
theorem sendBad_kazin {k : Fin 16} {a : SendArgs}
    (h : ¬ (a.firstCh = 0 ∧ a.widthM1 = 0 ∧ s.wiredTo k.val a.destRole.toNat = true)) :
    sendBad s (.kazin k) c a = some 13 :=
  firstBad_head (ok := a.firstCh == 0 && a.widthM1 == 0 && s.wiredTo k.val a.destRole.toNat)
    (by simpa [and_assoc] using h) _ _

theorem recvBad_kazin {k : Fin 16} {a : RecvArgs} (h : ¬ (a.firstCh = 0 ∧ a.widthM1 = 0)) :
    recvBad s (.kazin k) c a = some 13 :=
  firstBad_head (ok := a.firstCh == 0 && a.widthM1 == 0) (by simpa using h) _ _

theorem fxexpBad_contributors {r : RelayLoc} {a : FxexpArgs} (h : 256 ≤ a.contribM1.toNat) :
    fxexpBad s r c a = some 13 :=
  firstBad_head (decide_eq_false (Nat.not_lt.mpr h)) _ _

end

/-! ### What is planned first -/

/-- A SEND has a flit: its source has at least one word. -/
theorem sendCount_pos (a : SendArgs) : 0 < sendCount a := by
  unfold sendCount ceilDiv wordBytes sendWords
  split <;> omega

/-- A command on elements has at least 1,024 of them. -/
theorem fxElems_div_pos (lenM1 : BitVec 12) {n : Nat} (hn : 0 < n) (h : n ≤ 1024) : 0 < fxElems lenM1 / n :=
  Nat.div_pos (Nat.le_trans h (Nat.le_mul_of_pos_right _ (Nat.succ_pos _))) hn

section
variable (r : RelayLoc) (c : Nat) (s : State)

theorem sendEffect_eq (a : SendArgs) : sendEffect r c a s =
    (s.setBusy (sendKey r) (sendEnd c a)).planned (.relay r) c (sendRead c a (sendNeeds a 0 - 1) + 1280)
      (.send r a 0 0 [] false) := if_pos (sendCount_pos a)

theorem fxexpEffect_eq (a : FxexpArgs) : fxexpEffect r c a s =
    ((s.joinMax a.seg.toNat none).setBusy (srcRelay r) (fxexpEnd c a)).planned (.relay r) c (c + 1280)
      (.fxexp r a 0) := if_pos (fxElems_div_pos _ (by decide) (by decide))

theorem fxEffect_eq (k : FxKind) (a : FxArgs) : fxEffect k r c a s =
    (s.setBusy (srcRelay r) (fxEnd c a)).planned (.relay r) c (c + 1284) (.fx k r a 0) :=
  if_pos (fxElems_div_pos _ (by decide) (by decide))

end

/-! ### What landing flits leave as it is -/

/-- What no flit that lands changes: how many RECVs stand, until when each part of the device is busy, and the
engines. -/
def standing (s : State) : Nat × SMap Nat × SMap Engine := (s.recvs.length, s.busy, s.engines)

/-- What every step of a fold keeps, the fold keeps. -/
theorem foldl_keeps {σ β γ : Type} {p : σ → γ} {f : σ → β → σ} (hf : ∀ x b, p (f x b) = p x) (x : σ) (l : List β) :
    p (l.foldl f x) = p x := by
  induction l generalizing x with
  | nil => rfl
  | cons b l ih => exact (ih _).trans (hf x b)

theorem length_setNth {α : Type} (l : List α) (i : Nat) (x : α) : (setNth l i x).length = l.length := by
  induction l generalizing i with
  | nil => rfl
  | cons y l ih =>
    cases i with
    | zero => rfl
    | succ i => exact congrArg (· + 1) (ih i)

section
variable (s : State)

@[simp] theorem standing_emit (src code l) : standing (s.emit src code l) = standing s := by simp [standing]

@[simp] theorem standing_setLink (l x) : standing (s.setLink l x) = standing s := rfl

@[simp] theorem standing_setRecv (i r) : standing { s with recvs := setNth s.recvs i r } = standing s := by
  simp [standing, length_setNth]

@[simp] theorem standing_noteCorrected (src a kind reader) :
    standing (s.noteCorrected src a kind reader) = standing s := by
  unfold State.noteCorrected
  dsimp only
  split
  · exact standing_emit ..
  · rfl

@[simp] theorem standing_countCorrected (a) : standing (s.countCorrected a) = standing s := by
  unfold State.countCorrected
  split <;> rfl

@[simp] theorem standing_reportCorrected (reader w) : standing (s.reportCorrected reader w) = standing s := by
  simp [State.reportCorrected]

@[simp] theorem standing_countPoison (a) : standing (s.countPoison a) = standing s := by
  unfold State.countPoison
  dsimp only
  split <;> rfl

@[simp] theorem standing_notePoison (st code issue arrival a unit) :
    standing (s.notePoison st code issue arrival a unit) = standing s := standing_emit ..

@[simp] theorem standing_reportPoison (st issue arrival w) :
    standing (s.reportPoison st issue arrival w) = standing s := by simp [State.reportPoison]

@[simp] theorem standing_reportUnwritten (st issue w) : standing (s.reportUnwritten st issue w) = standing s := by
  unfold State.reportUnwritten
  dsimp only
  split
  · exact standing_emit ..
  · rfl

@[simp] theorem standing_reportRead (st issue arrival x) :
    standing (s.reportRead st issue arrival x) = standing s := by
  unfold State.reportRead
  dsimp only
  split <;> simp [foldl_keeps (p := standing)]

@[simp] theorem standing_touched (a n) : standing (s.touched a n) = standing s := by
  unfold State.touched
  dsimp only
  split
  · split <;> rfl
  · rfl

@[simp] theorem standing_placeBytes (writer a bs pois) : standing (s.placeBytes writer a bs pois) = standing s :=
  (foldl_keeps (p := standing) (fun _ _ => standing_reportCorrected ..) _ _).trans (standing_touched ..)

@[simp] theorem standing_takeWrite (w) : standing (s.takeWrite w) = standing s := by
  unfold State.takeWrite
  split
  · rfl
  · exact standing_placeBytes ..

@[simp] theorem standing_landPieces (st a bs pois limit l) :
    standing (s.landPieces st a bs pois limit l) = standing s := by
  refine foldl_keeps (p := standing) (fun t p => ?_) s l
  split <;> simp

@[simp] theorem standing_addElement (r e) : standing (s.addElement r e).2 = standing s := by
  unfold State.addElement
  dsimp only
  (repeat' split) <;> simp

@[simp] theorem standing_recvFlit (r j f) : standing (s.recvFlit r j f).2 = standing s := by
  unfold State.recvFlit
  dsimp only
  split
  · simp
  · exact foldl_keeps (p := fun z : OpenRecv × State => standing z.2) (fun _ _ => standing_addElement ..) _ _

@[simp] theorem standing_offerFlit (l f) : standing (s.offerFlit l f) = standing s := by
  unfold State.offerFlit
  dsimp only
  (repeat' split) <;> simp

@[simp] theorem standing_offerBuffered (l) : standing (s.offerBuffered l) = standing s :=
  foldl_keeps (p := standing) (fun _ _ => standing_offerFlit ..) _ _

theorem standing_offers (ls : List LinkRef) :
    standing (ls.foldl (fun s l => s.offerBuffered l) s) = standing s :=
  foldl_keeps (p := standing) standing_offerBuffered s ls

end

/-! ### A RECV for which no flit waits -/

theorem links_wf_of_canonical {s : State} (h : s.canonical = true) : smapWf Link.empty s.links = true := by
  cases hwf : smapWf Link.empty s.links with
  | true => rfl
  | false => simp [State.canonical, hwf] at h

theorem offerBuffered_of_empty {s : State} {l : LinkRef} (h : (s.link l).rxBuffer = []) :
    s.offerBuffered l = s.setLink l (s.link l) := by
  have hx : ({ s.link l with rxBuffer := [] } : Link) = s.link l := by rw [← h]
  unfold State.offerBuffered
  dsimp only
  rw [hx, h]
  rfl

theorem link_setLink_other {s : State} {l m : LinkRef} (h : linkKey m ≠ linkKey l) (x : Link) :
    (s.setLink l x).link m = s.link m := smapGet_put_other _ _ _ _ _ h

/-- Writing back what a link holds changes no link. -/
theorem link_setLink_back {s : State} (hwf : smapWf Link.empty s.links = true) (l m : LinkRef) :
    (s.setLink l (s.link l)).link m = s.link m := by
  by_cases h : linkKey m = linkKey l
  · rw [State.link, h]
    exact (smapGet_put_self _ _ _ _ hwf).trans (congrArg (smapGet _ s.links) h.symm)
  · exact link_setLink_other h _

/-- A RECV takes flits from each of its links once. -/
theorem recvLinks_keys_nodup (r : RelayLoc) (a : RecvArgs) : ((recvLinks r a).map linkKey).Nodup := by
  cases r with
  | kazin k => exact List.pairwise_singleton _ _
  | seam p =>
    have hall : (seamLinks.map linkKey).Nodup := by decide
    exact hall.sublist (List.filter_sublist.map _)

/-- Links whose landing buffers are empty have nothing to offer. -/
theorem sends_offers_of_empty {ls : List LinkRef} {s : State} (hkeys : (ls.map linkKey).Nodup)
    (h : ∀ l ∈ ls, (s.link l).rxBuffer = []) : s.sends (ls.foldl (fun s l => s.offerBuffered l) s) := by
  induction ls generalizing s with
  | nil => exact sends_refl s
  | cons l ls ih =>
    obtain ⟨hl, hls⟩ := List.forall_mem_cons.mp h
    obtain ⟨hnew, hkeys⟩ := List.nodup_cons.mp hkeys
    rw [List.foldl_cons, offerBuffered_of_empty hl]
    refine sends_trans (sends_setLink ..) (ih hkeys fun m hm => ?_)
    have hne : linkKey m ≠ linkKey l := fun he => hnew (he ▸ List.mem_map_of_mem hm)
    rw [link_setLink_other hne]
    exact hls m hm

theorem link_offers_of_empty {ls : List LinkRef} {s : State} (hwf : smapWf Link.empty s.links = true)
    (h : ∀ l ∈ ls, (s.link l).rxBuffer = []) (m : LinkRef) :
    (ls.foldl (fun s l => s.offerBuffered l) s).link m = s.link m := by
  induction ls generalizing s with
  | nil => rfl
  | cons l ls ih =>
    obtain ⟨hl, hls⟩ := List.forall_mem_cons.mp h
    have hback := link_setLink_back hwf l
    rw [List.foldl_cons, offerBuffered_of_empty hl]
    refine (ih (smapWf_put _ _ _ _ hwf) fun k hk => ?_).trans (hback m)
    rw [hback]
    exact hls k hk

/-- Settles O13, command by command: each is its checks, the part of the relay that it makes busy and the first step
that it plans; a RECV offers itself the flits of its links, which leave the rest standing, and do nothing where there
are none. -/
theorem relayCommands : Obligations.RelayCommands := by
  unfold Obligations.RelayCommands
  intro r i s h c u v busy
  refine ⟨?send, ?sendKazin, ?recv, ?recvKazin, ?fxexp, ?fx⟩
  case send =>
    intro a hgood
    rw [exec_send, execSend, stationStep_next h hgood, sendEffect_eq]
    rfl
  case sendKazin =>
    rintro k a rfl hc hbad
    rw [exec_send, execSend, stationStep_bad h (sendBad_kazin _ hbad) hc]
  case recv =>
    intro a hgood w
    have hexec : exec (.recv r i a) s = .next ((recvLinks r a).foldl (fun s l => s.offerBuffered l) w) := by
      rw [exec_recv, execRecv, stationStep_next h hgood]
      rfl
    refine ⟨⟨_, hexec, ?_⟩, fun hempty => ⟨_, hexec, sends_offers_of_empty (recvLinks_keys_nodup r a) hempty,
      fun hcanon => link_offers_of_empty (links_wf_of_canonical (s := v) hcanon) hempty⟩⟩
    obtain ⟨hrecvs, hkept⟩ := Prod.mk.inj (standing_offers w (recvLinks r a))
    exact ⟨hrecvs, Prod.mk.inj hkept⟩
  case recvKazin =>
    rintro k a rfl hc hbad
    rw [exec_recv, execRecv, stationStep_bad h (recvBad_kazin _ hbad) hc]
  case fxexp =>
    refine fun a => ⟨fun hgood => ?_, fun hc hmany => ?_⟩
    · rw [exec_fxexp, execFxexp, stationStep_next h hgood, fxexpEffect_eq]
      rfl
    · rw [exec_fxexp, execFxexp, stationStep_bad h (fxexpBad_contributors _ hmany) hc]
  case fx =>
    refine fun a => ⟨fun hgood => ⟨?_, ?_⟩, fun hgood => ?_⟩
    · rw [exec_fxset, execFxset, stationStep_next h hgood, fxEffect_eq]
      rfl
    · rw [exec_fxadd, execFxadd, stationStep_next h hgood, fxEffect_eq]
      rfl
    · rw [exec_fxout, execFxout, stationStep_next h hgood, fxEffect_eq]
      rfl

end Sys2Proof.Proofs
end

section
/-! PROOF. LAUNCH_AT and ROLE_COMMIT (R288, R290): what they ask of the device, and what an accepted write does. -/

namespace Sys2Proof.Proofs
open Sys2Proof Sys2Proof.Machine Sys2Proof.Laws

/-! ### LAUNCH_AT -/

theorem exec_launchAt (v : DWord) (s : State) : exec (.launchAt v) s = hostWr (launchAtEffect v) s := rfl

theorem cartoonFits_iff (s : State) : s.cartoonFits = true ↔
    ∃ c r, s.seq.cartoon = some c ∧ s.role = some r ∧ c.role.toNat = r ∧ c.groupSize.toNat = s.groupSize := by
  unfold State.cartoonFits
  cases s.seq.cartoon with
  | none => simp
  | some c =>
    cases s.role with
    | none => simp
    | some r => simp [eq_comm (a := r)]

theorem launchOk_iff (s : State) (v : DWord) : s.launchOk v = true ↔
    s.seq.state = .loaded ∧ s.timeValid = true ∧ v.toNat % 1000 = 0 ∧ s.boardTime.toNat + 1000000 ≤ v.toNat ∧
      s.cartoonFits = true ∧ s.tenantChanging = false ∧ s.sec.importState ≠ .running := by
  simp only [State.launchOk, Bool.and_eq_true, beq_iff_eq, bne_iff_ne, decide_eq_true_eq, Bool.not_eq_true']
  constructor
  · rintro ⟨⟨⟨⟨⟨⟨hstate, hvalid⟩, hfits⟩, hmultiple⟩, hahead⟩, htenant⟩, himport⟩
    exact ⟨hstate, hvalid, hmultiple, hahead, hfits, htenant, himport⟩
  · rintro ⟨hstate, hvalid, hmultiple, hahead, hfits, htenant, himport⟩
    exact ⟨⟨⟨⟨⟨⟨hstate, hvalid⟩, hfits⟩, hmultiple⟩, hahead⟩, htenant⟩, himport⟩

theorem launchAtEffect_accepted {s : State} {v : DWord} (h : s.launchOk v = true) : launchAtEffect v s =
    { s with counts := [], seq := { s.seq with state := .armed, launchAt := v, launchOk := false } }.sendChecks :=
  if_pos h

theorem launchAtEffect_refused {s : State} {v : DWord} (h : ¬ s.launchOk v = true) :
    launchAtEffect v s = s.refuse 0x2018 := if_neg h

/-- Settles O34: the write is taken by the conditions of `launchOk`, and what an armed device then does is send its
checks. -/
theorem launchAtArms : Obligations.LaunchAtArms := by
  unfold Obligations.LaunchAtArms
  intro v s hready u may
  have hmay : may ↔ u.launchOk v = true := by
    rw [launchOk_iff, cartoonFits_iff]
    rfl
  rw [exec_launchAt, hostWr_ready hready, hmay]
  refine ⟨fun hok => ⟨_, rfl, ?_⟩, fun hbad => ?_⟩
  · rw [launchAtEffect_accepted hok]
    exact sends_sendChecks _
  · rw [launchAtEffect_refused hbad]
    rfl

/-! ### ROLE_COMMIT -/

theorem exec_roleCommit (s : State) : exec .roleCommit s = hostWr roleCommitEffect s := rfl

theorem mapOk_iff (m : Word) : mapOk m = true ↔
    ∀ r < mapSize m, ((List.range 8).filter fun k => mapRole m k == some r).length = 1 := by
  simp [mapOk]

theorem commitOk_iff (s : State) : s.commitOk = true ↔
    ¬ (s.seq.state = .armed ∨ s.seq.state = .running ∨ s.seq.state = .waiting) ∧
      s.regs.roleEpoch.toNat < s.regs.nextEpoch.toNat ∧ mapOk s.regs.nextMap = true := by
  rw [← busyRun_iff]
  simp [State.commitOk, and_assoc]

/-- The next map and epoch are in force. -/
def committed (s : State) : State :=
  { s with regs := { s.regs with roleMap := s.regs.nextMap, roleEpoch := s.regs.nextEpoch } }

/-- The commit that leads from `s` to `u` is named: both epochs, and the slot. -/
def commitNamed (s u : State) : State :=
  u.emit srcSeq 0x0322 [f16 s.regs.roleEpoch.toNat, f16 u.regs.roleEpoch.toNat, u.slotField]

theorem roleCommitEffect_eq (s : State) : roleCommitEffect s =
    if s.commitOk then
      commitNamed s (if (committed s).role = s.role ∧ (committed s).groupSize = s.groupSize then committed s
        else (committed s).dropCartoon)
    else s.refuse 0x2038 := rfl

section
variable {s : State}

theorem roleCommitEffect_same (h : s.commitOk = true)
    (hsame : (committed s).role = s.role ∧ (committed s).groupSize = s.groupSize) :
    roleCommitEffect s = commitNamed s (committed s) := by
  rw [roleCommitEffect_eq, if_pos h, if_pos hsame]

theorem roleCommitEffect_other (h : s.commitOk = true)
    (hother : ¬ ((committed s).role = s.role ∧ (committed s).groupSize = s.groupSize)) :
    roleCommitEffect s = commitNamed s (committed s).dropCartoon := by
  rw [roleCommitEffect_eq, if_pos h, if_neg hother]

theorem roleCommitEffect_refused (h : ¬ s.commitOk = true) : roleCommitEffect s = s.refuse 0x2038 := by
  rw [roleCommitEffect_eq, if_neg h]

end

/-- Settles O38: a commit is taken by the conditions of `commitOk`; whether the cartoon goes is whether the device's own
role and the group size stay. -/
theorem roleCommit : Obligations.RoleCommit := by
  unfold Obligations.RoleCommit
  intro s hready u once may slot same w fields
  have hmay : may ↔ u.commitOk = true := by
    rw [commitOk_iff, mapOk_iff]
    rfl
  rw [exec_roleCommit, hostWr_ready hready, hmay]
  refine ⟨fun hok hsame => ⟨_, rfl, ?_⟩, fun hok hother => ⟨_, rfl, ?_⟩, fun hbad => ?_⟩
  · rw [roleCommitEffect_same hok hsame]
    exact emits_emit ..
  · rw [roleCommitEffect_other hok hother]
    exact emits_emit ..
  · rw [roleCommitEffect_refused hbad]
    rfl

end Sys2Proof.Proofs
end

section
/-! PROOF. Board time and remote signals (R284, R285, R339, R493): what the sync pulse loads, and what a
signal waits for. -/

namespace Sys2Proof.Proofs
open Sys2Proof Sys2Proof.Machine Sys2Proof.Laws

/-! ### The sync pulse -/

theorem exec_syncFire (s : State) : exec .syncFire s = hostWr syncFireEffect s := rfl

theorem exec_syncIn (s : State) : exec .syncIn s = execSyncIn s := rfl

theorem syncIn_quiet {s : State} (h : s.quiet = true) : execSyncIn s = .next { s with
    boardTime := s.regs.syncLoad, timeValid := true, refclk := s.refclk + 1,
    links := smapMap .empty Link.retimed s.links,
    ports := smapMap .reset (fun p => { p with checkTick := 0 }) s.ports } := if_pos h

theorem syncIn_busy {s : State} (h : ¬ s.quiet = true) : execSyncIn s = .next (s.emit srcSeq 0x0323 [s.slotField]) :=
  if_neg h

/-! ### REMOTE_SIGNAL -/

theorem exec_remoteSignal (m : BitVec 12) (r : BitVec 3) (s : State) :
    exec (.remoteSignal m r) s = hostWr (remoteSignalEffect m r) s := rfl

/-- A signal is refused while another waits, or without a role. -/
theorem remoteSignalEffect_eq (m : BitVec 12) (r : BitVec 3) (s : State) : remoteSignalEffect m r s =
    if s.regs.remoteBusy = none ∧ s.role.isSome = true then
      { s with regs := { s.regs with remoteBusy := some (m, r, s.regs.remoteValue) } }
    else s.refuse 0x2048 := by
  unfold remoteSignalEffect
  cases s.regs.remoteBusy <;> cases s.role <;> simp

/-! ### REMOTE_SIGNAL_SEND -/

theorem exec_remoteSignalSend (s : State) : exec .remoteSignalSend s = execRemoteSignalSend s := rfl

section
variable {s : State}

theorem remoteSignalSend_idle (h : s.regs.remoteBusy = none) : execRemoteSignalSend s = .next s := by
  rw [execRemoteSignalSend, h]

variable {m : BitVec 12} {r : BitVec 3} {v : DWord} (h : s.regs.remoteBusy = some (m, r, v))
include h

theorem remoteSignalSend_noPort (hk : s.ctrlPortFin r.toNat = none) : execRemoteSignalSend s = .next s := by
  rw [execRemoteSignalSend, h]
  simp only [hk]

theorem remoteSignalSend_port {k : Fin 16} (hk : s.ctrlPortFin r.toNat = some k) : execRemoteSignalSend s =
    .next ({ s with regs := { s.regs with remoteBusy := none } }.sendCtrl k r.toNat 2
      (markPayload m.toNat v.toNat)) := by
  rw [execRemoteSignalSend, h]
  simp only [hk]

end

/-- Settles O39: the pulse by whether the device is quiet, a signal by whether one waits and the device has a role, and
its sending by whether a port leads to the role. -/
theorem syncAndRemoteSignal : Obligations.SyncAndRemoteSignal := by
  unfold Obligations.SyncAndRemoteSignal
  intro s u quiet hasRole
  refine ⟨?fire, ?load, ?ignored, ?held, ?refused, ?sent, ?noPort, ?idle⟩
  case fire =>
    intro hready
    rw [exec_syncFire, hostWr_ready hready]
    rfl
  case load =>
    intro h
    rw [exec_syncIn, syncIn_quiet ((quiet_iff s).mpr h)]
    rfl
  case ignored =>
    intro h
    rw [exec_syncIn, syncIn_busy (mt (quiet_iff s).mp h)]
    exact ⟨_, rfl, emits_emit ..⟩
  case held =>
    intro m r hready hfree hrole
    rw [exec_remoteSignal, hostWr_ready hready, remoteSignalEffect_eq, if_pos ⟨hfree, hrole⟩]
    rfl
  case refused =>
    intro m r hready hbad
    have hnot : ¬ (u.regs.remoteBusy = none ∧ u.role.isSome = true) :=
      fun ⟨hfree, hrole⟩ => hbad.elim (· hfree) (· hrole)
    rw [exec_remoteSignal, hostWr_ready hready, remoteSignalEffect_eq, if_neg hnot]
    rfl
  case sent =>
    intro m r v k h hk
    rw [exec_remoteSignalSend, remoteSignalSend_port h hk]
    exact ⟨_, rfl, sends_sendCtrl ..⟩
  case noPort =>
    intro m r v h hk
    rw [exec_remoteSignalSend, remoteSignalSend_noPort h hk]
  case idle =>
    intro h
    rw [exec_remoteSignalSend, remoteSignalSend_idle h]

end Sys2Proof.Proofs
end

section
/-! PROOF. The end of a run (R54, R94, R292, R371): what leaving a run keeps, whatever marks and reports have landed. -/

namespace Sys2Proof.Proofs
open Sys2Proof Sys2Proof.Machine Sys2Proof.Laws

/-! ### Marks and their watches -/

/-- From `s` to `t` marks are updated and their watches test them; nothing differs but the marks, the watches, and the
vectors that are signalled (R94, R334, R338). -/
def marksMove (s t : State) : Prop :=
  t = { s with mem := { s.mem with host := t.mem.host }, msixPending := t.msixPending, watches := t.watches,
               marks := t.marks, markUpdates := t.markUpdates, remoteMarks := t.remoteMarks }

theorem marksMove_refl (s : State) : marksMove s s := rfl

theorem marksMove_trans {s t u : State} (h : marksMove s t) (g : marksMove t u) : marksMove s u := by
  unfold marksMove at *
  rw [g, h]

theorem marksMove_foldl {β : Type} {f : State → β → State} (hf : ∀ s b, marksMove s (f s b)) (s : State) (l : List β) :
    marksMove s (l.foldl f s) := by
  induction l generalizing s with
  | nil => exact marksMove_refl s
  | cons b l ih => exact marksMove_trans (hf s b) (ih _)

theorem marksMove_signal (s : State) (v : Nat) : marksMove s (s.signal v) := by
  unfold State.signal
  dsimp only
  split
  · split <;> rfl
  · rfl

theorem marksMove_fireWatch (s : State) (w : Nat) : marksMove s (s.fireWatch w) :=
  marksMove_trans (t := { s with watches := _ }) rfl (marksMove_signal ..)

theorem marksMove_updateMark (s : State) (m : Nat) (f : DWord → DWord) : marksMove s (s.updateMark m f) :=
  marksMove_trans (t := { s with marks := _, markUpdates := _ }) rfl
    (marksMove_foldl (fun _ _ => marksMove_fireWatch ..) _ _)

theorem marksMove_addRemoteMarks (s : State) : marksMove s s.addRemoteMarks :=
  marksMove_trans (t := { s with remoteMarks := [] }) rfl (marksMove_foldl (fun _ _ => marksMove_updateMark ..) _ _)

/-! ### Leaving a run -/

/-- What a device keeps when it leaves a run: the cartoon, the bytes that memory holds, the rings, the windows of the
sensors and the plates that have failed. -/
def held (s : State) : Option Cartoon × SMap Byte × SMap EccMark × SMap Ring × SMap Sensor × BitVec 2 :=
  (s.seq.cartoon, s.mem.bytes, s.mem.marks, s.rings, s.mss.sensors, s.mss.plateFailed)

theorem held_of_sameButEvents {s t : State} (h : s.sameButEvents t) : held t = held s := by
  rw [h]
  rfl

theorem held_of_sends {s t : State} (h : s.sends t) : held t = held s := by
  rw [show t = { s with links := t.links } from h]
  rfl

theorem held_advanceTo (s : State) (n : Nat) : held (s.advanceTo n) = held s := by simp [held]

theorem held_of_marksMove {s t : State} (h : marksMove s t) : held t = held s := by
  rw [h]
  rfl

/-- What has landed for a tail that no longer comes: first the marks move, then each report writes its event. -/
theorem landedRest_steps (s : State) : ∃ u, marksMove { s with seq := { s.seq with staleReports := [] } } u ∧
    u.sameButEvents s.landedRest ∧ Reports u s.landedRest :=
  ⟨_, marksMove_addRemoteMarks _, sameButEvents_foldl (fun _ _ => sameButEvents_emit ..) _ _,
    reports_foldl (fun _ _ => reports_emit ..) _ _⟩

theorem held_leaveRun (s : State) : held s.leaveRun = held s := by
  obtain ⟨u, hu, he, -⟩ := landedRest_steps (outOfRun s)
  have hm := held_of_marksMove hu
  exact (held_of_sameButEvents he).trans hm

/-- Outside a run what has landed is reported in records that close at once. -/
theorem closed_leaveRun (s : State) : ∃ rest, s.leaveRun.closed = s.closed ++ rest := by
  obtain ⟨u, hu, -, -, l, -, ha⟩ := landedRest_steps (outOfRun s)
  have hp : u.seq.phase ≠ .inStroke := by
    rw [hu]
    exact nofun
  have hc : u.closed = s.closed := by
    rw [hu]
    rfl
  rw [adds, if_neg hp, hc] at ha
  exact ⟨l, ha.1⟩

theorem phase_leaveRun (s : State) : s.leaveRun.seq.phase = .none := by
  obtain ⟨u, hu, he, -⟩ := landedRest_steps (outOfRun s)
  change (outOfRun s).landedRest.seq.phase = _
  rw [he, hu]
  rfl

end Sys2Proof.Proofs
end
section
/-! PROOF. LAUNCH_CHECK and LAUNCH (R289, R294, R306): the checks of the other roles, the gear and the seed of the first
step, and the run that starts. -/

namespace Sys2Proof.Proofs
open Sys2Proof Sys2Proof.Machine Sys2Proof.Laws

/-! ### The seed leaves the links -/

theorem links_ite {p : Prop} [Decidable p] {s a b : State} (ha : a.links = s.links) (hb : b.links = s.links) :
    (if p then a else b).links = s.links := by
  split <;> assumption

section
variable (s : State)

@[simp] theorem signal_links (v : Nat) : (s.signal v).links = s.links := by
  rw [show s.signal v = _ from marksMove_signal s v]

@[simp] theorem ringSignal_links (n : Nat) : (s.ringSignal n).links = s.links := by simp [State.ringSignal]

@[simp] theorem ringVisible_links (n : Nat) : (s.ringVisible n).links = s.links :=
  links_ite (by simp) rfl

@[simp] theorem ringAdvance_links (n : Nat) : (s.ringAdvance n).links = s.links := by
  simp [State.ringAdvance, State.hostWrite]

@[simp] theorem ringTo_links (n : Nat) (st : RingState) : (s.ringTo n st).links = s.links :=
  links_ite rfl (by simp)

@[simp] theorem readSeed_links (fails : Bool) : (s.readSeed fails).links = s.links :=
  links_ite (by simp [State.ringBusError, State.ringError]) rfl

@[simp] theorem takeSeed_links (n : Nat) : (s.takeSeed n).links = s.links := by
  unfold State.takeSeed
  dsimp only
  split
  · split
    · simp
    · split <;> simp
  · split <;> rfl

@[simp] theorem logSeed_links (n : Nat) : (s.logSeed n).links = s.links := by
  unfold State.logSeed
  split
  · rw [show State.logAppend .. = _ from sameButEvents_logAppend ..]
  · rfl

theorem seedFor_links (n : Nat) (fails : Bool) : (s.seedFor n fails).links = s.links :=
  links_ite (by simp) rfl

end

/-! ### LAUNCH_CHECK -/

theorem exec_launchCheck (b : Bool) (s : State) : exec (.launchCheck b) s = execLaunchCheck b s := rfl

theorem launchCheck_due {s : State} (hdue : s.seq.state = .armed ∧ s.seq.abortPending = false)
    (hok : s.seq.launchOk = false) (b : Bool) : execLaunchCheck b s = .next (launchCheckEffect b s) :=
  if_pos ⟨hdue.1, hdue.2, hok⟩

theorem launchCheck_notDue {s : State}
    (h : ¬ (s.seq.state = .armed ∧ s.seq.abortPending = false) ∨ s.seq.launchOk = true) (b : Bool) :
    execLaunchCheck b s = .next s :=
  if_neg fun ⟨ha, hp, hok⟩ => h.elim (· ⟨ha, hp⟩) fun ht => Bool.noConfusion (hok.symm.trans ht)

/-- The count at which the checks are compared. -/
def checkDue (s : State) : State := s.advanceTo (s.seq.launchAt.toNat - 100000)

/-- The gear of the first step is in force (R294). -/
def geared (s : State) : State :=
  if BitVec.ofNat 2 s.firstGear = s.regs.gearNow then s
  else { s with regs := { s.regs with gearNow := BitVec.ofNat 2 s.firstGear },
                mss := { s.mss with gearSince := s.boardTime } }

theorem geared_gearNow (s : State) : (geared s).regs.gearNow = BitVec.ofNat 2 s.firstGear := by
  unfold geared
  split
  · next h => exact h.symm
  · rfl

theorem geared_seq (s : State) : (geared s).seq = s.seq := by
  unfold geared
  split <;> rfl

theorem geared_links (s : State) : (geared s).links = s.links := by
  unfold geared
  split <;> rfl

/-- The launch may go on. -/
def mayLaunch (s : State) : State := { s with seq := { s.seq with launchOk := true } }

section
variable {s : State} (b : Bool)

/-- The first role that has sent no check that agrees refuses the launch. -/
theorem launchCheckEffect_refused {r : Nat}
    (h : (checkDue s).otherRoles.find? (fun r => ((checkDue s).agreedCheck r).isNone) = some r) :
    launchCheckEffect b s = (checkDue s).refuseLaunch r := by
  unfold launchCheckEffect
  extract_lets u
  split
  · next hr =>
    cases hr.symm.trans h
    rfl
  · next hr => cases hr.symm.trans h

theorem launchCheckEffect_passed
    (h : (checkDue s).otherRoles.find? (fun r => ((checkDue s).agreedCheck r).isNone) = none) :
    launchCheckEffect b s =
      mayLaunch ((geared (checkDue s)).seedFor (geared (checkDue s)).regs.baseStep.toNat b) := by
  unfold launchCheckEffect
  extract_lets u
  split
  · next hr => cases hr.symm.trans h
  · next _ _ _ v w _ _ _ =>
    have hv : v = geared (checkDue s) := rfl
    have hw : w = v.seedFor v.regs.baseStep.toNat b := rfl
    rw [← hv, ← hw]
    rfl

end

/-- The gear and the seed of the first step leave the run and the links as they were. -/
theorem seedFor_geared (s : State) (n : Nat) (b : Bool) :
    ((geared s).seedFor n b).seq.state = s.seq.state ∧ ((geared s).seedFor n b).seq.phase = s.seq.phase ∧
      ((geared s).seedFor n b).regs.gearNow = BitVec.ofNat 2 s.firstGear ∧
      ((geared s).seedFor n b).links = s.links := by
  obtain ⟨hseq, -, -, hregs, -⟩ := (reports_seedFor (geared s) n b).run
  have hlinks := seedFor_links (geared s) n b
  rw [geared_seq] at hseq
  rw [geared_links] at hlinks
  exact ⟨by rw [hseq], by rw [hseq], by rw [hregs, geared_gearNow], hlinks⟩

/-- From `s`, through a state `v` whose records may be followed by others, the launch has come to nothing: the device is
LOADED, outside a run. -/
structure LaunchRefused (s v t : State) : Prop where
  state : t.seq.state = .loaded
  phase : t.seq.phase = .none
  launchOk : t.seq.launchOk = false
  held : held t = held s
  closed : ∃ rest, t.closed = v.closed ++ rest

/-- A launch that is refused is named by one event; then the device tells the other roles and leaves what would have
been its run. -/
theorem launchRefused_refuseLaunch (s : State) (r : Nat) :
    ∃ v, s.emits v srcSeq 0x0326 [f16 r, s.slotField] ∧ LaunchRefused s v (s.refuseLaunch r) := by
  have left (v w : State) (hv : s.sameButEvents v) (hw : v.sends w) :
      LaunchRefused s v { w.leaveRun with seq := { w.leaveRun.seq with state := .loaded } } := by
    refine ⟨rfl, phase_leaveRun w, rfl, ?_, ?_⟩
    · exact (held_leaveRun w).trans ((held_of_sends hw).trans (held_of_sameButEvents hv))
    · obtain ⟨rest, h⟩ := closed_leaveRun w
      have hclosed : w.closed = v.closed := by rw [hw]
      exact ⟨rest, hclosed ▸ h⟩
  exact ⟨_, emits_emit .., left _ _ (sameButEvents_emit ..) (sends_sendStop ..)⟩

/-! ### LAUNCH -/

theorem exec_launch (s : State) : exec .launch s = execLaunch s := rfl

theorem launch_due {s : State} (hdue : s.seq.state = .armed ∧ s.seq.abortPending = false)
    (hok : s.seq.launchOk = true) : execLaunch s = .next (launchEffect s) :=
  if_pos ⟨hdue.1, hdue.2, hok⟩

theorem launch_notDue {s : State}
    (h : ¬ (s.seq.state = .armed ∧ s.seq.abortPending = false) ∨ s.seq.launchOk = false) : execLaunch s = .next s :=
  if_neg fun ⟨ha, hp, hok⟩ => h.elim (· ⟨ha, hp⟩) fun hf => Bool.noConfusion (hf.symm.trans hok)

/-- The run as it starts, before the wait for its first step is known. -/
def launched (s : State) : State :=
  { s with
    links := smapMap .empty (fun x => { x.nextStroke with ctrlAtClose := x.nextCtrl }) s.links, recvs := [],
    ports := smapMap .reset (fun p => { p with left := false }) s.ports,
    seq := { s.seq with
      phase := .stepDue, nextStep := s.regs.baseStep, strokesRun := 0, stepsDone := 0, runBase := s.regs.baseStep,
      faultStep := none, outSkip := [], upAtLaunch := (List.range 16).filter fun k => (s.port k).state == .up,
      prevEnd := s.seq.launchAt, alarmed := false, closing := false, stopBy := none, abortAt := none, faults := [],
      normMsgs := [], maxima := [], staleReports := [], seamFailed := false, gearPending := none } }

theorem betweenSteps_eq (s : State) : ∃ st, (st = .running ∨ st = .waiting) ∧
    s.betweenSteps = { s with seq := { s.seq with state := st } } := by
  refine ⟨_, ?_, rfl⟩
  split
  · exact .inr rfl
  · exact .inl rfl

theorem launchEffect_eq (s : State) : launchEffect s = (launched (s.advanceTo s.seq.launchAt.toNat)).betweenSteps := by
  have h (u : State) (t : DWord) (up : List Nat) (hu : u.seq.launchAt = t)
      (hup : ((List.range 16).filter fun k => (u.port k).state == .up) = up) : (launched u).betweenSteps =
    { launched u with seq := { (launched u).seq with upAtLaunch := up, prevEnd := t } }.betweenSteps := by
    subst hu hup
    rfl
  rw [h _ s.seq.launchAt ((List.range 16).filter fun k => (s.port k).state == .up) (by simp) (by simp [State.port])]
  rfl

/-- Settles O35: the check ends with the first role that does not agree, or with the gear and the seed of the first
step; the launch itself touches the links, the ports and the sequencer. -/
theorem launchStartsRun : Obligations.LaunchStartsRun := by
  unfold Obligations.LaunchStartsRun
  intro seedReadFails s due u
  have hu : u = checkDue s := rfl
  clear_value u
  subst hu
  rw [exec_launchCheck, exec_launch]
  refine ⟨?refused, ?passed, ?launched, fun h => launchCheck_notDue h _, launch_notDue⟩
  case refused =>
    intro hdue hok r hr
    rw [launchCheck_due hdue hok, launchCheckEffect_refused _ hr]
    obtain ⟨v, hv, hrun⟩ := launchRefused_refuseLaunch (checkDue s) r
    have hheld := hrun.held.trans (held_advanceTo ..)
    simp only [held, Prod.mk.injEq] at hheld
    obtain ⟨hcartoon, hbytes, hmarks, hrings, -⟩ := hheld
    rw [show (checkDue s).slotField = f16 s.boot.boardSlot.toNat by simp [State.slotField, checkDue]] at hv
    exact ⟨_, v, rfl, hv, hrun.state, hrun.phase, hrun.launchOk, hcartoon, hbytes, hmarks, hrun.closed, hrings⟩
  case passed =>
    intro hdue hok hall
    have hnone : (checkDue s).otherRoles.find? (fun r => ((checkDue s).agreedCheck r).isNone) = none :=
      List.find?_eq_none.mpr fun r hr => by simpa [← Option.isSome_iff_ne_none] using hall r hr
    rw [launchCheck_due hdue hok, launchCheckEffect_passed _ hnone]
    obtain ⟨hstate, hphase, hgear, hlinks⟩ :=
      seedFor_geared (checkDue s) (geared (checkDue s)).regs.baseStep.toNat seedReadFails
    generalize (geared (checkDue s)).seedFor (geared (checkDue s)).regs.baseStep.toNat seedReadFails = t at *
    refine ⟨_, rfl, rfl, ?_, ?_, ?_, ?_⟩
    · exact hstate.trans ((congrArg Seq.state (State.advanceTo_seq ..)).trans hdue.1)
    · exact hphase.trans (congrArg Seq.phase (State.advanceTo_seq ..))
    · exact hgear
    · exact hlinks.trans (State.advanceTo_links ..)
  case launched =>
    intro hdue hok
    obtain ⟨st, hst, he⟩ := betweenSteps_eq (launched (s.advanceTo s.seq.launchAt.toNat))
    rw [launch_due hdue hok, launchEffect_eq, he]
    refine ⟨_, rfl, ?_, rfl, ?_, rfl, rfl, ?_, ?_, hst⟩
    · simp [launched]
    · simp [launched]
    · simp [launched]
    · simp [launched]

end Sys2Proof.Proofs
end

section
/-! PROOF. Plates that fail and runs that stop leave the sensors (R414, R43): the windows stand, and a plate that has
failed stays so. -/

namespace Sys2Proof.Proofs
open Sys2Proof Sys2Proof.Machine Sys2Proof.Laws

/-- What the sensors have found: their windows, and the plates that have failed. -/
def sensing (s : State) : SMap Sensor × BitVec 2 := (s.mss.sensors, s.mss.plateFailed)

theorem sensing_of_held {s t : State} (h : held t = held s) : sensing t = sensing s := congrArg (·.2.2.2.2) h

theorem sensing_of_sameButEvents {s t : State} (h : s.sameButEvents t) : sensing t = sensing s :=
  sensing_of_held (held_of_sameButEvents h)

theorem sensing_ite {p : Prop} [Decidable p] {a b : State} {x : SMap Sensor × BitVec 2} (ha : sensing a = x)
    (hb : sensing b = x) : sensing (if p then a else b) = x := by
  split <;> assumption

section
variable (s : State)

@[simp] theorem sensing_emit (src code l) : sensing (s.emit src code l) = sensing s :=
  sensing_of_sameButEvents (sameButEvents_emit ..)

theorem sensing_signal (v) : sensing (s.signal v) = sensing s :=
  sensing_of_held (held_of_marksMove (marksMove_signal ..))

/-! ### Plates -/

theorem sensing_portTo (k st) : sensing (s.portTo k st) = sensing s :=
  sensing_ite rfl (sensing_ite (by rw [sensing_emit, sensing_emit]; rfl) (by rw [sensing_emit]; rfl))

theorem sensing_memBoot (m : Memory) (b : Boot) : sensing { s with mem := m, boot := b } = sensing s := rfl

theorem sensing_holdPlate (p) : sensing (s.holdPlate p) = sensing s :=
  sensing_ite rfl ((sensing_memBoot ..).trans (foldl_keeps (p := sensing) (fun s _ => sensing_portTo s _ _) s _))

theorem sensing_holdFailed : sensing s.holdFailed = sensing s :=
  foldl_keeps (p := sensing) (fun s p => sensing_ite (sensing_holdPlate s p) rfl) s _

/-! ### Runs that stop -/

theorem sameButEvents_endRecord (kind code aux fields) : s.sameButEvents (s.endRecord kind code aux fields) := by
  unfold State.endRecord
  dsimp only
  split
  · exact sameButEvents_trans (sameButEvents_addRecord ..) (sameButEvents_logRecord ..)
  · exact sameButEvents_addRecord ..

theorem sensing_stopped : sensing s.stopped = sensing s := by
  have h : sensing s.leaveRun.holdFailed = sensing s :=
    (sensing_holdFailed _).trans (sensing_of_held (held_leaveRun s))
  exact h

theorem sensing_stopBetween (code fields notice) : sensing (s.stopBetween code fields notice) = sensing s := by
  have stop (u : State) : sensing (if notice then u.sendStop code else u).stopped = sensing u :=
    (sensing_stopped _).trans (sensing_ite (sensing_of_held (held_of_sends (sends_sendStop ..))) rfl)
  have h (u : State) (hu : sensing u = sensing s) :
      sensing (if notice then (u.endRecord 1 code 0 fields).sendStop code else u.endRecord 1 code 0 fields).stopped =
        sensing s :=
    (stop _).trans ((sensing_of_sameButEvents (sameButEvents_endRecord ..)).trans hu)
  exact h _ rfl

theorem sensing_raiseAsync (src code fields) : sensing (s.raiseAsync src code fields) = sensing s := by
  unfold State.raiseAsync
  split
  · rfl
  · rfl
  · rfl
  · exact sensing_ite rfl rfl
  · exact sensing_stopBetween ..

end

/-! ### A plate that is declared failed -/

theorem markPlate_plateFailed (s : State) (p : Nat) :
    (s.markPlate p).mss.plateFailed = s.mss.plateFailed ||| (if p = 0 then 1 else 2) :=
  congrArg Prod.snd (sensing_signal _ _)

theorem bitAt_markPlate (s : State) (p : Fin 2) : bitAt (s.markPlate p.val).mss.plateFailed.toNat p.val = true := by
  have hbit : ∀ p : Fin 2, (if p.val = 0 then 1 else 2 : BitVec 2).getLsbD p.val = true := by decide
  rw [bitAt_toNat, markPlate_plateFailed, BitVec.getLsbD_or, hbit, Bool.or_true]

theorem bitAt_failPlate (s : State) (p : Fin 2) : bitAt (s.failPlate p.val).mss.plateFailed.toNat p.val = true := by
  have keeps {t : State} (h : sensing t = sensing (s.markPlate p.val)) :
      bitAt t.mss.plateFailed.toNat p.val = true := by
    rw [show t.mss.plateFailed = (s.markPlate p.val).mss.plateFailed from congrArg Prod.snd h]
    exact bitAt_markPlate s p
  unfold State.failPlate
  split
  · assumption
  · dsimp only
    split
    · exact keeps (sensing_raiseAsync ..)
    · exact keeps ((sensing_holdFailed _).trans (sensing_emit ..))

end Sys2Proof.Proofs
end

section
/-! PROOF. Sensors and gears (R408–R412, R414): what a sample finds by its sensor, what the policy chooses at a tick,
and the end of a telemetry window. -/

namespace Sys2Proof.Proofs
open Sys2Proof Sys2Proof.Machine Sys2Proof.Laws

/-! ### The gear that the policy chooses -/

/-- The policy's choice moves, a request may follow it, and a request is logged. -/
theorem chooseGear_steps (s : State) (g : Nat) (cause : Fin 4) : ∃ req reqs,
    { s with regs := { s.regs with gearReq := req },
             mss := { s.mss with choice := BitVec.ofNat 2 g, gearReqs := reqs } }.sameButEvents
      (s.chooseGear g cause) := by
  unfold State.chooseGear State.requestGear
  dsimp only
  split
  · exact ⟨_, _, sameButEvents_refl _⟩
  · exact ⟨_, _, sameButEvents_decide ..⟩

theorem sensing_chooseGear (s : State) (g : Nat) (cause : Fin 4) : sensing (s.chooseGear g cause) = sensing s := by
  obtain ⟨req, reqs, h⟩ := chooseGear_steps s g cause
  have hs := sensing_of_sameButEvents h
  exact hs

theorem faults_chooseGear (s : State) (g : Nat) (cause : Fin 4) : (s.chooseGear g cause).seq.faults = s.seq.faults := by
  obtain ⟨req, reqs, h⟩ := chooseGear_steps s g cause
  rw [h]

/-! ### What the policy keeps track of -/

/-- Only since when the device is calm, and whether it has been hot, is judged anew. -/
theorem trackPolicy_eq (s : State) : ∃ since seen,
    s.trackPolicy = { s with mss := { s.mss with calmSince := since, hotSeen := seen } } := ⟨_, _, rfl⟩

theorem trackPolicy_faults (s : State) : s.trackPolicy.seq.faults = s.seq.faults := by
  obtain ⟨since, seen, h⟩ := trackPolicy_eq s
  rw [h]

theorem trackPolicy_sensors (s : State) : s.trackPolicy.mss.sensors = s.mss.sensors := by
  obtain ⟨since, seen, h⟩ := trackPolicy_eq s
  rw [h]

theorem trackPolicy_plateFailed (s : State) : s.trackPolicy.mss.plateFailed = s.mss.plateFailed := by
  obtain ⟨since, seen, h⟩ := trackPolicy_eq s
  rw [h]

/-! ### A sample joins its window -/

section
variable (x : SensorId) (r : SensorReading) (s : State)

/-- A sensor with a sample more (R408). -/
def withSample : Sensor :=
  { s.sensor (sensorKey x) with
    value := r.value, current := r.current, failed := (s.sensor (sensorKey x)).failed || readingFails x r,
    time := if s.timeValid then s.boardTime else s.refclk, onBoardTime := s.timeValid,
    sum := (s.sensor (sensorKey x)).sum + r.value, currentSum := (s.sensor (sensorKey x)).currentSum + r.current,
    count := (s.sensor (sensorKey x)).count + 1 }

/-- The state that has taken a sample, and nothing more. -/
def sampled : State := s.setSensor (sensorKey x) (withSample x r s)

theorem takeSample_eq : s.takeSample x r =
    if ((s.sensor (sensorKey x)).failed || readingFails x r) && !(s.sensor (sensorKey x)).failed then
      (sampled x r s).emit srcMss 0x0507 [] else sampled x r s := rfl

/-- A window that holds a sample reads back. -/
theorem sensor_sampled : (sampled x r s).sensor (sensorKey x) = withSample x r s := by
  refine smapGet_put_ne _ _ _ _ fun h => ?_
  exact Nat.succ_ne_zero _ (congrArg Sensor.count h)

theorem sensor_sampled_other {k : Nat} (h : k ≠ sensorKey x) : (sampled x r s).sensor k = s.sensor k :=
  smapGet_put_other _ _ _ _ _ h

theorem sensor_of_sensing {s t : State} (h : sensing t = sensing s) (k : Nat) : t.sensor k = s.sensor k := by
  rw [State.sensor, show t.mss.sensors = s.mss.sensors from congrArg Prod.fst h]
  rfl

theorem sensing_takeSample : sensing (s.takeSample x r) = sensing (sampled x r s) := by
  rw [takeSample_eq]
  exact sensing_ite (sensing_emit ..) rfl

theorem failed_takeSample : ((s.takeSample x r).sensor (sensorKey x)).failed =
    ((s.sensor (sensorKey x)).failed || readingFails x r) := by
  rw [sensor_of_sensing (sensing_takeSample x r s), sensor_sampled]
  rfl

/-! ### What a sample finds, sensor by sensor -/

variable {x r s}

theorem sensorSampleEffect_failed (h : (s.sensor (sensorKey x)).failed = true) :
    sensorSampleEffect x r s = sampled x r s := by
  have hf : ((s.takeSample x r).sensor (sensorKey x)).failed = true := by rw [failed_takeSample, h, Bool.true_or]
  have hs : s.takeSample x r = sampled x r s := by rw [takeSample_eq, h]; rfl
  unfold sensorSampleEffect
  dsimp only
  rw [if_pos hf, hs]

theorem sensorSampleEffect_fails (h : (s.sensor (sensorKey x)).failed = false) (hr : readingFails x r = true) :
    sensorSampleEffect x r s = (sampled x r s).emit srcMss 0x0507 [] := by
  have hf : ((s.takeSample x r).sensor (sensorKey x)).failed = true := by rw [failed_takeSample, h, hr]; rfl
  have hs : s.takeSample x r = (sampled x r s).emit srcMss 0x0507 [] := by rw [takeSample_eq, h, hr]; rfl
  unfold sensorSampleEffect
  dsimp only
  rw [if_pos hf, hs]

/-- A sensor works, and goes on working. -/
def works (x : SensorId) (r : SensorReading) (s : State) : Prop :=
  (s.sensor (sensorKey x)).failed = false ∧ readingFails x r = false

theorem takeSample_works (h : works x r s) : s.takeSample x r = sampled x r s := by
  rw [takeSample_eq, h.1, h.2]
  rfl

theorem failed_sampled (h : works x r s) : ¬ ((sampled x r s).sensor (sensorKey x)).failed = true := by
  rw [← takeSample_works h, failed_takeSample, h.1, h.2]
  exact Bool.false_ne_true

theorem sensorSampleEffect_bed {n} (h : works (.bed n) r s) :
    sensorSampleEffect (.bed n) r s = sampled (.bed n) r s := by
  unfold sensorSampleEffect
  dsimp only
  rw [takeSample_works h, if_neg (failed_sampled h)]

theorem sensorSampleEffect_junction {p n} (h : works (.junction p n) r s) : sensorSampleEffect (.junction p n) r s =
    if quarter s.edition.tCrit ≤ r.value then (sampled (.junction p n) r s).critical 0x0506 (sensorKey (.junction p n))
      r.value (quarter s.edition.tCrit) else sampled (.junction p n) r s := by
  unfold sensorSampleEffect
  dsimp only
  rw [takeSample_works h, if_neg (failed_sampled h)]
  rfl

theorem sensorSampleEffect_stack {n} (h : works (.stack n) r s) : sensorSampleEffect (.stack n) r s =
    let t := (sampled (.stack n) r s).bandSample n.val r.value
    if quarter t.edition.tHbmCrit ≤ r.value then t.critical 0x0505 n.val r.value (quarter t.edition.tHbmCrit)
    else t := by
  unfold sensorSampleEffect
  dsimp only
  rw [takeSample_works h, if_neg (failed_sampled h)]

theorem sensorSampleEffect_rail {n} (h : works (.rail n) r s) : sensorSampleEffect (.rail n) r s =
    (sampled (.rail n) r s).railSample n.val (s.sensor (sensorKey (.rail n))).value
      (s.mss.sensors.any fun p => p.1 == sensorKey (.rail n)) := by
  unfold sensorSampleEffect
  dsimp only
  rw [takeSample_works h, if_neg (failed_sampled h)]

theorem sensorSampleEffect_droop {n} (h : works (.droop n) r s) : sensorSampleEffect (.droop n) r s =
    let u := sampled (.droop n) r s
    { u with mss := { u.mss with
        droops := setNth s.mss.droops (n.val / 32) (nth 0 s.mss.droops (n.val / 32) + r.value.toNat) } } := by
  unfold sensorSampleEffect
  dsimp only
  rw [takeSample_works h, if_neg (failed_sampled h)]
  rfl

end

/-! ### Critical readings -/

theorem sensing_critical (s : State) (code number : Nat) (value limit : Int) :
    sensing (s.critical code number value limit) = sensing s :=
  (sensing_chooseGear ..).trans (sensing_ite rfl (sensing_raiseAsync ..))

/-- In a stroke the first report of a code is a fault of that stroke. -/
theorem faults_critical {s : State} (code number : Nat) (value limit : Int) (hp : s.seq.phase = .inStroke)
    (hnew : ∀ f ∈ s.seq.faults, f.code ≠ code) : ∃ f, f.code = code ∧ f.source = srcMss ∧
      (s.critical code number value limit).seq.faults = s.seq.faults ++ [f] := by
  have hagain (g : BitVec 256) : ¬ (s.seq.faults.any fun f => f.code == code && f.fields == g) = true := by
    simp only [List.any_eq_true, Bool.and_eq_true, beq_iff_eq]
    rintro ⟨f, hf, hc, -⟩
    exact hnew f hf hc
  have hraise (fields : List (Nat × Nat)) :
      s.raiseAsync srcMss code fields = s.pend srcMss code s.nowCycle 0 fields false := by
    rw [State.raiseAsync, hp]
  unfold State.critical
  dsimp only
  rw [if_neg (hagain _), hraise, faults_chooseGear]
  exact ⟨_, rfl, rfl, rfl⟩

/-! ### Refresh bands -/

theorem sensing_bandSample (s : State) (n : Nat) (v : Int) : sensing (s.bandSample n v) = sensing s := by
  unfold State.bandSample
  dsimp only
  split
  · exact sensing_ite rfl (sensing_emit ..)
  · split
    · rfl
    · split
      · split
        · rfl
        · exact sensing_ite (sensing_emit ..) rfl
      · rfl

theorem bandSample_hot {s : State} {n : Nat} {v : Int} (h : quarter s.edition.tHbmHot ≤ v) :
    s.bandSample n v = if (s.band n).double then s.setBand n ⟨true, none⟩
      else (s.setBand n ⟨true, none⟩).emit srcMss 0x0504 [] := if_pos h

theorem edition_bandSample_hot {s : State} {n : Nat} {v : Int} (h : quarter s.edition.tHbmHot ≤ v) :
    (s.bandSample n v).edition = s.edition := by
  rw [bandSample_hot h]
  split
  · rfl
  · exact State.emit_edition ..

/-! ### Rails -/

theorem railSample_other {n : Nat} (h5 : n ≠ 5) (h6 : n ≠ 6) (s : State) (before : Int) (known : Bool) :
    s.railSample n before known = s.powerSample := if_neg (by simp [h5, h6])

/-- Two samples of a core rail are below the limit while the other plate's is not: the plate fails. -/
theorem railSample_core {s : State} {p : Nat} (hp : p < 2) {before : Int} (hb : s.undervolt before = true)
    (hv : s.undervolt (s.sensor (coreRail p)).value = true) (hw : (s.sensor (coreRail (1 - p))).failed = false)
    (ho : s.undervolt (s.sensor (coreRail (1 - p))).value = false) (hoff : s.plateOffered p = true) :
    s.railSample (5 + p) before true = s.powerSample.failPlate p := by
  have hcore : 5 + p = 5 ∨ 5 + p = 6 := by omega
  have hkey : 96 + (5 + p) = coreRail p := (Nat.add_assoc ..).symm
  have hlow : (true && s.undervolt before && s.undervolt (s.sensor (coreRail p)).value &&
      !(s.sensor (coreRail (1 - p))).failed && !s.undervolt (s.sensor (coreRail (1 - p))).value &&
      s.plateOffered p) = true := by simp [hb, hv, hw, ho, hoff]
  unfold State.railSample
  dsimp only
  rw [if_pos hcore, Nat.add_sub_cancel_left, hkey]
  exact if_pos hlow

/-- The second sample below the limit fails the plate (R414). -/
theorem bitAt_railSample {s : State} {r : SensorReading} {n : Fin 9} {p : Fin 2} {before : Int} (hn : n.val = 5 + p.val)
    (hbefore : before < (s.mss.vSet : Int) - 100) (hnow : r.value < (s.mss.vSet : Int) - 100)
    (hworks : (s.sensor (coreRail (1 - p.val))).failed = false)
    (hother : (s.mss.vSet : Int) - 100 ≤ (s.sensor (coreRail (1 - p.val))).value)
    (hoff : s.plateOffered p.val = true) :
    bitAt ((sampled (.rail n) r s).railSample (5 + p.val) before true).mss.plateFailed.toNat p.val = true := by
  have hkey : coreRail p.val = sensorKey (.rail n) := by
    rw [sensorKey, hn]
    exact Nat.add_assoc ..
  have hne : coreRail (1 - p.val) ≠ sensorKey (.rail n) := by
    rw [← hkey]
    unfold coreRail
    omega
  have hown : ((sampled (.rail n) r s).sensor (coreRail p.val)).value = r.value := by
    rw [hkey, sensor_sampled]
    rfl
  have hlast := sensor_sampled_other (.rail n) r s hne
  rw [railSample_core (s := sampled (.rail n) r s) p.isLt (decide_eq_true hbefore)
    (decide_eq_true (by rwa [hown])) (by rwa [hlast]) (decide_eq_false (Int.not_lt.mpr (by rwa [hlast]))) hoff]
  exact bitAt_failPlate _ p

/-! ### A stack that is hot, and not critical -/

theorem sensorSampleEffect_stack_hot {n : Fin 10} {r : SensorReading} {s : State} (h : works (.stack n) r s)
    (hhot : quarter s.edition.tHbmHot ≤ r.value) (hcrit : r.value < quarter s.edition.tHbmCrit) :
    sensorSampleEffect (.stack n) r s =
      if (s.band n.val).double then (sampled (.stack n) r s).setBand n.val ⟨true, none⟩
      else ((sampled (.stack n) r s).setBand n.val ⟨true, none⟩).emit srcMss 0x0504 [] := by
  have hed := edition_bandSample_hot (s := sampled (.stack n) r s) (n := n.val) hhot
  have hlow : ¬ quarter ((sampled (.stack n) r s).bandSample n.val r.value).edition.tHbmCrit ≤ r.value := by
    rw [hed]
    exact Int.not_le.mpr hcrit
  have hband := bandSample_hot (s := sampled (.stack n) r s) (n := n.val) hhot
  rw [sensorSampleEffect_stack h]
  exact (if_neg hlow).trans hband

/-! ### A sample leaves the windows of the other sensors -/

theorem sensing_sensorSampleEffect {x : SensorId} (h5 : x ≠ .rail 5) (h6 : x ≠ .rail 6) (r : SensorReading)
    (s : State) : sensing (sensorSampleEffect x r s) = sensing (sampled x r s) := by
  cases ho : (s.sensor (sensorKey x)).failed with
  | true => rw [sensorSampleEffect_failed ho]
  | false =>
    cases hr : readingFails x r with
    | true => rw [sensorSampleEffect_fails ho hr, sensing_emit]
    | false =>
      have h : works x r s := ⟨ho, hr⟩
      cases x with
      | junction p n =>
        rw [sensorSampleEffect_junction h]
        exact sensing_ite (sensing_critical ..) rfl
      | stack n =>
        rw [sensorSampleEffect_stack h]
        exact sensing_ite ((sensing_critical ..).trans (sensing_bandSample ..)) (sensing_bandSample ..)
      | bed n => rw [sensorSampleEffect_bed h]
      | rail n =>
        have h5' : n.val ≠ 5 := fun hn => h5 (congrArg SensorId.rail (Fin.ext hn))
        have h6' : n.val ≠ 6 := fun hn => h6 (congrArg SensorId.rail (Fin.ext hn))
        rw [sensorSampleEffect_rail h, railSample_other h5' h6']
        rfl
      | droop n =>
        rw [sensorSampleEffect_droop h]
        rfl

/-! ### GEAR_POLICY_TICK -/

/-- The tick at which the policy judges. -/
def ticked (s : State) : State := (s.advanceTo s.nextTick).trackCalm

theorem ticked_regs (s : State) : (ticked s).regs = s.regs := State.advanceTo_regs ..

theorem ticked_mem (s : State) : (ticked s).mem = s.mem := State.advanceTo_mem ..

theorem ticked_edition (s : State) : (ticked s).edition = s.edition := State.advanceTo_edition ..

theorem ticked_choice (s : State) : (ticked s).mss.choice = s.mss.choice := by
  simp [ticked, State.trackCalm]

/-- The droop counts and HOT begin anew for the next interval. -/
def intervalBegun (s : State) : State := { s with mss := { s.mss with droops := [0, 0], hotSeen := false } }

/-- What the policy does at a tick, by what it finds. -/
def policyMove (s : State) : State :=
  if s.hot then
    (if s.mss.choice.toNat ≤ s.regs.gearNow.toNat then
      s.chooseGear (min (s.regs.gearNow.toNat + 1) s.edition.gearSlow.toNat) causeHot else s)
  else if s.calm then s.chooseGear (max (s.regs.gearNow.toNat - 1) s.edition.gearFast.toNat) causeCalm
  else s

theorem exec_gearPolicyTick (s : State) : exec .gearPolicyTick s =
    if s.mssRuns then .next (intervalBegun (policyMove (ticked s))) else .next s := rfl

/-- What a tick leaves: the gear in force, board time and memory. -/
def untouched (s : State) : BitVec 2 × DWord × Memory := (s.regs.gearNow, s.boardTime, s.mem)

theorem untouched_chooseGear (s : State) (g : Nat) (cause : Fin 4) :
    untouched (s.chooseGear g cause) = untouched s := by
  obtain ⟨req, reqs, h⟩ := chooseGear_steps s g cause
  rw [h]
  rfl

theorem choice_chooseGear (s : State) (g : Nat) (cause : Fin 4) :
    (s.chooseGear g cause).mss.choice = BitVec.ofNat 2 g := by
  obtain ⟨req, reqs, h⟩ := chooseGear_steps s g cause
  rw [h]

theorem untouched_policyMove (s : State) : untouched (policyMove s) = untouched s := by
  unfold policyMove
  split
  · split
    · exact untouched_chooseGear ..
    · rfl
  · split
    · exact untouched_chooseGear ..
    · rfl

theorem policyMove_hot {s : State} (h : s.hot = true) (hc : s.mss.choice.toNat ≤ s.regs.gearNow.toNat) :
    policyMove s = s.chooseGear (min (s.regs.gearNow.toNat + 1) s.edition.gearSlow.toNat) causeHot := by
  rw [policyMove, if_pos h, if_pos hc]

theorem policyMove_calm {s : State} (h : s.hot = false) (hc : s.calm = true) :
    policyMove s = s.chooseGear (max (s.regs.gearNow.toNat - 1) s.edition.gearFast.toNat) causeCalm := by
  rw [policyMove, h, if_neg Bool.false_ne_true, if_pos hc]

theorem policyMove_neither {s : State} (h : s.hot = false) (hc : s.calm = false) : policyMove s = s := by
  rw [policyMove, h, hc, if_neg Bool.false_ne_true, if_neg Bool.false_ne_true]

/-! ### The commands -/

theorem exec_sensorSample (x : SensorId) (r : SensorReading) (s : State) : exec (.sensorSample x r) s =
    if s.mssRuns then .next (sensorSampleEffect x r s).trackPolicy else .next s := rfl

/-- Every sensor's window closes (R408). -/
def windowsClosed (s : State) : State :=
  { s with mss := { s.mss with sensors := smapMap .reset Sensor.closeWindow s.mss.sensors } }

theorem exec_telemetryWindow (s : State) : exec .telemetryWindow s =
    if s.mssRuns then .next (windowsClosed (s.advanceTo ((s.boardTime.toNat / 4000000 + 1) * 4000000)))
    else .next s := rfl

section
variable {s : State}

theorem sensorSample_runs (h : s.mssRuns = true) (x : SensorId) (r : SensorReading) :
    exec (.sensorSample x r) s = .next (sensorSampleEffect x r s).trackPolicy := by rw [exec_sensorSample, if_pos h]

theorem gearPolicyTick_runs (h : s.mssRuns = true) :
    exec .gearPolicyTick s = .next (intervalBegun (policyMove (ticked s))) := by rw [exec_gearPolicyTick, if_pos h]

theorem telemetryWindow_runs (h : s.mssRuns = true) : exec .telemetryWindow s =
    .next (windowsClosed (s.advanceTo ((s.boardTime.toNat / 4000000 + 1) * 4000000))) := by
  rw [exec_telemetryWindow, if_pos h]

variable (h : ¬ s.mssRuns = true)
include h

theorem sensorSample_off (x : SensorId) (r : SensorReading) : exec (.sensorSample x r) s = .next s := by
  rw [exec_sensorSample, if_neg h]

theorem gearPolicyTick_off : exec .gearPolicyTick s = .next s := by rw [exec_gearPolicyTick, if_neg h]

theorem telemetryWindow_off : exec .telemetryWindow s = .next s := by rw [exec_telemetryWindow, if_neg h]

end

/-- Settles O51: a sample by its sensor and by whether that works, a tick by whether the device is hot or calm, and the
window by its next multiple. -/
theorem sensorsAndGears : Obligations.SensorsAndGears := by
  unfold Obligations.SensorsAndGears
  intro s runs u w
  have hu : u = ticked s := rfl
  clear_value u
  subst hu
  have hruns : runs → s.mssRuns = true := (mssRuns_iff s).mpr
  refine ⟨fun h => ?off, fun x r h => ?sample, fun h hhot hcalm => ?neither, fun h => ?tick, fun h => ?window⟩
  case off =>
    have hoff := mt (mssRuns_iff s).mp h
    exact ⟨fun x r => sensorSample_off hoff x r, gearPolicyTick_off hoff, telemetryWindow_off hoff⟩
  case neither =>
    rw [gearPolicyTick_runs (hruns h), policyMove_neither hhot hcalm]
    rfl
  case tick =>
    have hleft := untouched_policyMove (ticked s)
    simp only [untouched, Prod.mk.injEq, ticked_regs, ticked_mem] at hleft
    obtain ⟨hgear, htime, hmem⟩ := hleft
    refine ⟨_, gearPolicyTick_runs (hruns h), rfl, rfl, hgear, htime, hmem, fun hhot hchoice => ?_,
      fun hhot hcalm => ?_⟩
    · rw [policyMove_hot hhot (by rwa [ticked_choice, ticked_regs]), ticked_regs, ticked_edition]
      exact choice_chooseGear ..
    · rw [policyMove_calm hhot hcalm, ticked_regs, ticked_edition]
      exact choice_chooseGear ..
  case window =>
    have hmss : w.mss = s.mss := State.advanceTo_mss ..
    rw [telemetryWindow_runs (hruns h), ← hmss]
    rfl
  case sample =>
    rw [sensorSample_runs (hruns h)]
    intro k old new v
    refine ⟨⟨_, rfl, fun h5 h6 => ?windows⟩, fun ho => ?failed, fun ho hr => ?fails, ?bed, ?junction, ?droop, ?rail,
      ?core, ?stack⟩
    case windows =>
      rw [trackPolicy_sensors]
      exact congrArg Prod.fst (sensing_sensorSampleEffect h5 h6 r s)
    case failed =>
      rw [sensorSampleEffect_failed ho]
      rfl
    case fails =>
      rw [sensorSampleEffect_fails ho hr]
      exact ⟨_, rfl, emits_emit ..⟩
    case bed =>
      rintro n rfl ho hr
      rw [sensorSampleEffect_bed ⟨ho, hr⟩]
      rfl
    case junction =>
      rintro p n rfl ho hr
      rw [sensorSampleEffect_junction ⟨ho, hr⟩]
      refine ⟨fun hlow => ?_, fun hcrit hp hnew => ?_⟩
      · rw [if_neg (show ¬ quarter s.edition.tCrit ≤ r.value from Int.not_le.mpr hlow)]
        rfl
      · obtain ⟨f, hcode, hsource, hfaults⟩ := faults_critical (s := sampled (.junction p n) r s) 0x0506
          (sensorKey (.junction p n)) r.value (quarter s.edition.tCrit) hp hnew
        rw [if_pos (show quarter s.edition.tCrit ≤ r.value from hcrit)]
        refine ⟨_, f, rfl, ?_, hcode, hsource⟩
        rw [trackPolicy_faults, hfaults]
        rfl
    case droop =>
      rintro n rfl ho hr
      rw [sensorSampleEffect_droop ⟨ho, hr⟩]
      rfl
    case rail =>
      rintro n rfl h5 h6 ho hr
      rw [sensorSampleEffect_rail ⟨ho, hr⟩, railSample_other h5 h6]
      exact ⟨_, rfl, rfl⟩
    case core =>
      rintro n p rfl hn ho hr other limit ⟨y, hy, hkey⟩ hbefore hnow hworks hother hoff -
      have hknown : (s.mss.sensors.any fun q => q.1 == sensorKey (.rail n)) = true :=
        List.any_eq_true.mpr ⟨y, hy, beq_iff_eq.mpr hkey⟩
      rw [sensorSampleEffect_rail ⟨ho, hr⟩, hknown, hn]
      refine ⟨_, rfl, ?_⟩
      rw [trackPolicy_plateFailed]
      exact bitAt_railSample hn hbefore hnow hworks hother hoff
    case stack =>
      rintro n rfl ho hr hhot hcrit v
      rw [sensorSampleEffect_stack_hot ⟨ho, hr⟩ hhot hcrit]
      refine ⟨fun hd => ?_, fun hd => ?_⟩
      · rw [if_pos hd]
        rfl
      · rw [if_neg (ne_true_of_eq_false hd)]
        exact ⟨_, rfl, emits_emit ..⟩

end Sys2Proof.Proofs
end

section
/-! PROOF. The grain source (R300, R301): what the two health tests find in samples, and what each command does. -/

namespace Sys2Proof.Proofs
open Sys2Proof Sys2Proof.Machine Sys2Proof.Laws

/-! ### The repetition count -/

theorem runsOf_append (l r : List Byte) (z : Nat × Nat × Option Byte) : runsOf (l ++ r) z = runsOf r (runsOf l z) := by
  induction l generalizing z with
  | nil => rfl
  | cons b l ih => exact ih _

/-- The longest run so far only grows. -/
theorem le_runsOf (l : List Byte) (z : Nat × Nat × Option Byte) : z.1 ≤ (runsOf l z).1 := by
  induction l generalizing z with
  | nil => exact Nat.le_refl _
  | cons b l ih => exact (Nat.le_max_left z.1 _).trans (ih (_, _, _))

/-- Equal samples prolong the run that they follow on. -/
theorem le_runsOf_replicate (b : Byte) {m k : Nat} (h : k ≤ m) (n : Nat) :
    k + n ≤ (runsOf (List.replicate n b) (m, k, some b)).1 := by
  induction n generalizing m k with
  | zero => exact h
  | succ n ih =>
    have hrun : runsOf (List.replicate (n + 1) b) (m, k, some b) =
        runsOf (List.replicate n b) (max m (k + 1), k + 1, some b) := by
      rw [List.replicate_succ, runsOf]
      simp
    rw [hrun, Nat.add_comm n 1, ← Nat.add_assoc]
    exact ih (Nat.le_max_right ..)

/-- A first sample begins a run of at least one. -/
theorem le_runsOf_replicate_first (b : Byte) (n : Nat) (z : Nat × Nat × Option Byte) :
    n + 1 ≤ (runsOf (List.replicate (n + 1) b) z).1 := by
  rw [List.replicate_succ, runsOf]
  refine le_trans ?_ (le_runsOf_replicate b (Nat.le_max_right ..) n)
  split <;> omega

theorem runsOf_lastSample (l : List Byte) (z : Nat × Nat × Option Byte) :
    (runsOf l z).2.2 = l.getLast?.or z.2.2 := by
  induction l generalizing z with
  | nil => rfl
  | cons b l ih =>
    rw [runsOf, ih, List.getLast?_cons]
    cases l.getLast? <;> rfl

/-- A piece of equal samples lies in the list as a whole. -/
theorem eq_append_replicate {l : List Byte} {i n : Nat} (hn : 0 < n) (hi : i + n ≤ l.length)
    (h : ∀ j < n, l[i + j]? = l[i]?) : ∃ b, l = l.take i ++ (List.replicate n b ++ l.drop (i + n)) := by
  have hlt : i < l.length := by omega
  refine ⟨l[i], ?_⟩
  have hpiece : (l.drop i).take n = List.replicate n l[i] := by
    refine List.eq_replicate_iff.mpr ⟨by simp; omega, fun b hb => ?_⟩
    obtain ⟨j, hj, rfl⟩ := List.mem_iff_getElem.mp hb
    have hjn : j < n := by simp at hj; omega
    have := h j hjn
    rw [List.getElem?_eq_getElem (by omega), List.getElem?_eq_getElem hlt] at this
    simpa using this
  rw [← hpiece, ← List.drop_drop, List.take_append_drop, List.take_append_drop]

theorem healthy_eq_false_of_run (g : Grain) {l : List Byte} {i : Nat} (hi : i + 41 ≤ l.length)
    (h : ∀ j < 41, l[i + j]? = l[i]?) : g.healthy l = false := by
  obtain ⟨b, hl⟩ := eq_append_replicate (by decide) hi h
  have hlong : 41 ≤ (runsOf l (0, g.run, g.lastSample)).1 := by
    rw [hl, runsOf_append, runsOf_append]
    exact (le_runsOf_replicate_first b 40 _).trans (le_runsOf ..)
  rw [Grain.healthy, decide_eq_false (Nat.not_lt.mpr hlong), Bool.false_and]

/-! ### The windows -/

theorem take_drop_mem_chunksFuel {n : Nat} {f w : Nat} {l : List Byte} (hw : n * w < l.length) (hf : w < f) :
    (l.drop (n * w)).take n ∈ chunksFuel f n l := by
  induction w generalizing f l with
  | zero =>
    obtain ⟨f, rfl⟩ := Nat.exists_eq_succ_of_ne_zero (Nat.ne_of_gt hf)
    obtain ⟨b, r, rfl⟩ := List.exists_cons_of_length_pos (Nat.zero_lt_of_lt hw)
    exact List.mem_cons_self
  | succ w ih =>
    obtain ⟨f, rfl⟩ := Nat.exists_eq_succ_of_ne_zero (Nat.ne_of_gt (Nat.zero_lt_of_lt hf))
    obtain ⟨b, r, rfl⟩ := List.exists_cons_of_length_pos (Nat.zero_lt_of_lt hw)
    have hdrop : (b :: r).drop (n * (w + 1)) = ((b :: r).drop n).drop (n * w) := by
      rw [List.drop_drop, Nat.mul_succ, Nat.add_comm]
    rw [hdrop]
    refine List.mem_cons_of_mem _ (ih ?_ (by omega))
    rw [List.length_drop]
    rw [Nat.mul_succ] at hw
    omega

theorem windowMatches_eq (l : List Byte) : windowMatches l = (l.filter fun b => l[0]? == some b).length := by
  cases l with
  | nil => rfl
  | cons b r =>
    rw [windowMatches]
    congr 2
    funext x
    simp [Bool.beq_comm (a := x)]

theorem healthy_eq_false_of_window (g : Grain) {l : List Byte} {w : Nat} (hw : 512 * w < l.length)
    (h : 410 ≤ (((l.drop (512 * w)).take 512).filter fun b => l[512 * w]? == some b).length) :
    g.healthy l = false := by
  have hmem : (l.drop (512 * w)).take 512 ∈ chunks 512 l :=
    take_drop_mem_chunksFuel hw (by omega)
  have hmatches : 410 ≤ windowMatches ((l.drop (512 * w)).take 512) := by
    rw [windowMatches_eq]
    simpa using h
  rw [Grain.healthy, Bool.and_eq_false_iff]
  refine .inr (List.all_eq_false.mpr ⟨_, hmem, ?_⟩)
  simpa using hmatches

/-! ### The commands -/

theorem exec_seedReady (l : List Byte) (s : State) : exec (.seedReady l) s = execSeedReady l s := rfl

theorem exec_grainHealthFailure (s : State) : exec .grainHealthFailure s = .next s.grainFails := rfl

theorem exec_grainRestart (l : List Byte) (s : State) : exec (.grainRestart l) s = execGrainRestart l s := rfl

theorem tested_lastSample (g : Grain) {l : List Byte} (h : l ≠ []) : (g.tested l).lastSample = l.getLast? := by
  rw [Grain.tested, runsOf_lastSample, List.getLast?_eq_some_getLast h]
  rfl

/-- The tested samples leave the run at their end, and their last one. -/
theorem tested_eq (g : Grain) {l : List Byte} (h : l ≠ []) :
    g.tested l = { g with run := (g.tested l).run, lastSample := l.getLast? } := by
  rw [← tested_lastSample g h]
  rfl

/-- Settles O50: a run of 41 and a window of 410 are what the health tests look for; the commands go by the tests. -/
theorem grainSource : Obligations.GrainSource := by
  unfold Obligations.GrainSource
  intro s failure
  have hfails : ∀ {c : Instr}, exec c s = .next s.grainFails → failure c := fun h => ⟨_, h, emits_emit ..⟩
  have hne : ∀ {l : List Byte}, l.length = 1024 → l ≠ [] := fun hl => List.ne_nil_of_length_pos (hl ▸ (by decide))
  refine ⟨fun l hl => ⟨?run, fun w hw => ?window⟩, ?seed, hfails (exec_grainHealthFailure s), ?restart⟩
  case run =>
    rintro ⟨i, hi, hrun⟩
    exact healthy_eq_false_of_run _ (hl ▸ hi) hrun
  case window => exact healthy_eq_false_of_window _ (by omega)
  case seed =>
    intro l may seed
    refine ⟨fun hmay hok => ⟨(s.grain.tested l).run, ?_⟩, fun hmay hbad => hfails ?_, fun hnot => ?_⟩
    · rw [exec_seedReady, execSeedReady, if_pos hmay, if_pos hok, tested_eq _ (hne hmay.1)]
      rfl
    · rw [exec_seedReady, execSeedReady, if_pos hmay, if_neg (ne_true_of_eq_false hbad)]
    · rw [exec_seedReady, execSeedReady, if_neg hnot]
  case restart =>
    intro l due
    refine ⟨fun hdue hok => ?_, fun hdue hbad => hfails ?_, fun hnot => ?_⟩
    · rw [exec_grainRestart, execGrainRestart, if_pos hdue, if_pos hok, tested_eq _ (hne hdue.1)]
      cases hfailed : s.grain.failed with
      | true => exact ⟨_, _, (s.grain.tested l).run, rfl, rfl, fun _ => emits_emit .., nofun⟩
      | false => exact ⟨_, _, (s.grain.tested l).run, rfl, rfl, nofun, fun _ => rfl⟩
    · rw [exec_grainRestart, execGrainRestart, if_pos hdue, if_neg (ne_true_of_eq_false hbad)]
    · rw [exec_grainRestart, execGrainRestart, if_neg hnot]

end Sys2Proof.Proofs
end

section
/-! PROOF. The power gates of the clusters (R344): what the host's writes and the events do, state by state of the gate,
and what power leaves of a cluster's stores (R202). -/

namespace Sys2Proof.Proofs
open Sys2Proof Sys2Proof.Machine Sys2Proof.Laws

/-! ### Dropped addresses -/

/-- A dropped key reads as an unlisted one; the others keep their values. -/
theorem smapGet_drop {α : Type} (d : α) (m : SMap α) (lo hi x : Nat) :
    smapGet d (smapDrop m lo hi) x = if lo ≤ x ∧ x < hi then d else smapGet d m x := by
  induction m with
  | nil => exact (ite_self d).symm
  | cons p r ih =>
    obtain ⟨y, v⟩ := p
    by_cases hy : lo ≤ y ∧ y < hi
    · have hgone : smapDrop ((y, v) :: r) lo hi = smapDrop r lo hi := by simp [smapDrop, hy]
      rw [hgone, ih, smapGet]
      by_cases hx : x = y
      · rw [if_pos (hx ▸ hy), if_pos (hx ▸ hy)]
      · rw [if_neg hx]
    · have hkept : smapDrop ((y, v) :: r) lo hi = (y, v) :: smapDrop r lo hi := by
        simp [smapDrop, List.filter_cons, hy]
      rw [hkept, smapGet, ih, smapGet]
      by_cases hx : x = y
      · rw [if_pos hx, if_neg (hx ▸ hy), if_pos hx]
      · rw [if_neg hx, if_neg hx]

theorem clusterStoreAddr_mod (c : ClusterLoc) : clusterStoreAddr c % 8 = 0 := by
  rw [clusterStoreAddr, storeBase]
  omega

section
variable (m : Memory) {c : ClusterLoc} {a : Nat}

theorem dropCluster_inside (h : clusterStoreAddr c ≤ a ∧ a < clusterStoreAddr c + 0x100_0000) :
    byteAt (m.dropCluster c) a = 0 ∧ markAt (m.dropCluster c) (a / 8) = .unwritten := by
  have hmod := clusterStoreAddr_mod c
  have hword : clusterStoreAddr c / 8 ≤ a / 8 ∧ a / 8 < (clusterStoreAddr c + 0x100_0000) / 8 := by omega
  refine ⟨?_, ?_⟩
  · have hbyte : smapGet 0 (m.dropCluster c).bytes a = 0 := (smapGet_drop ..).trans (if_pos h)
    rw [byteAt, hbyte, ite_self]
  · rw [markAt, Memory.dropCluster, smapGet_drop, smapGet_drop, if_pos hword, if_pos hword, ite_self]

theorem dropCluster_outside (h : a < clusterStoreAddr c ∨ clusterStoreAddr c + 0x100_0000 ≤ a) :
    byteAt (m.dropCluster c) a = byteAt m a ∧ markAt (m.dropCluster c) (a / 8) = markAt m (a / 8) := by
  have hmod := clusterStoreAddr_mod c
  have hbyte : ¬ (clusterStoreAddr c ≤ a ∧ a < clusterStoreAddr c + 0x100_0000) := by omega
  have hword : ¬ (clusterStoreAddr c / 8 ≤ a / 8 ∧ a / 8 < (clusterStoreAddr c + 0x100_0000) / 8) := by omega
  refine ⟨?_, ?_⟩
  · rw [byteAt, byteAt, wordOf, Memory.dropCluster, smapGet_drop, smapGet_drop, if_neg hbyte, if_neg hword]
  · rw [markAt, markAt, Memory.dropCluster, smapGet_drop, smapGet_drop, if_neg hword, if_neg hword]

end

/-! ### A gate that changes -/

section
variable {c : ClusterLoc} {s : State}

theorem gateTo_eq {x : GateState} (h : (s.gate c).state ≠ x) :
    s.gateTo c x = s.setGate c { s.gate c with state := x } := if_neg h

theorem gateTo_emits {x : GateState} (h : (s.gate c).state ≠ x) :
    { s with gates := smapPut .reset s.gates (clusterIdx c) ⟨x, (s.gate c).pending⟩ }.emits (s.gateTo c x)
      (srcCluster c 3) 0x010A [] := by
  rw [gateTo_eq h]
  exact emits_emit ..

end

/-! ### CLUSTER_ENABLE and CLUSTER_DISABLE -/

section
variable {c : ClusterLoc} {s : State}

theorem clusterEnable_eq (h : s.hostAnswers) :
    exec (.clusterEnable c) s = .next (clusterEnableEffect c s.halfGone) := hostWr_ready h

theorem clusterDisable_eq (h : s.hostAnswers) :
    exec (.clusterDisable c) s = .next (clusterDisableEffect c s.halfGone) := hostWr_ready h

theorem clusterEnableEffect_powered (h : (s.gate c).state = .on ∨ (s.gate c).state = .powering) :
    clusterEnableEffect c s = s := by
  rw [clusterEnableEffect]
  rcases h with h | h <;> rw [h]

theorem clusterEnableEffect_draining (h : (s.gate c).state = .draining) :
    clusterEnableEffect c s = s.gatePending c true := by rw [clusterEnableEffect, h]

theorem clusterEnableEffect_off (h : (s.gate c).state = .off) : clusterEnableEffect c s = s.gateTo c .powering := by
  rw [clusterEnableEffect, h]

theorem clusterDisableEffect_refused (h : s.seq.state ≠ .idle ∨ (s.gate c).state = .powering) :
    clusterDisableEffect c s = s.refuse (gateOffset (clusterIdx c)) := by
  rw [clusterDisableEffect]
  by_cases hi : s.seq.state = .idle
  · rw [if_neg (not_not.mpr hi), h.resolve_left (not_not.mpr hi)]
  · rw [if_pos hi]

theorem clusterDisableEffect_idle (h : s.seq.state = .idle) : clusterDisableEffect c s =
    match (s.gate c).state with
    | .on => s.gateTo c .draining
    | .draining => s.gatePending c false
    | .off => s
    | .powering => s.refuse (gateOffset (clusterIdx c)) := if_neg (not_not.mpr h)

end

/-- Settles O19, by the state of the gate. -/
theorem clusterGateWrites : Obligations.ClusterGateWrites := by
  unfold Obligations.ClusterGateWrites
  intro c s hready g put off refused
  rw [clusterEnable_eq hready, clusterDisable_eq hready]
  refine ⟨?powered, ?pending, ?enabled, ?refused, ?drained, ?dropped, ?already⟩
  case powered => exact fun h => congrArg _ (clusterEnableEffect_powered (s := s.halfGone) h)
  case pending =>
    intro h
    have hg : g = ⟨.draining, g.pending⟩ := by rw [← h]
    rw [clusterEnableEffect_draining (s := s.halfGone) h]
    exact congrArg (fun x => Host.Outcome.next (put { x with pending := true })) hg
  case enabled =>
    intro h
    have hne : (s.halfGone.gate c).state ≠ .powering := fun hp => GateState.noConfusion (h.symm.trans hp)
    rw [clusterEnableEffect_off (s := s.halfGone) h]
    exact ⟨_, rfl, gateTo_emits hne⟩
  case refused => exact fun h => congrArg _ (clusterDisableEffect_refused (s := s.halfGone) h)
  case drained =>
    intro hidle h
    have hne : (s.halfGone.gate c).state ≠ .draining := fun hp => GateState.noConfusion (h.symm.trans hp)
    rw [clusterDisableEffect_idle (s := s.halfGone) hidle, show (s.halfGone.gate c).state = .on from h]
    exact ⟨_, rfl, gateTo_emits hne⟩
  case dropped =>
    intro hidle h
    have hg : g = ⟨.draining, g.pending⟩ := by rw [← h]
    rw [clusterDisableEffect_idle (s := s.halfGone) hidle, show (s.halfGone.gate c).state = .draining from h]
    exact congrArg (fun x => Host.Outcome.next (put { x with pending := false })) hg
  case already =>
    intro hidle h
    rw [clusterDisableEffect_idle (s := s.halfGone) hidle, show (s.halfGone.gate c).state = .off from h]

/-! ### CLUSTER_DRAIN_END and CLUSTER_POWERED -/

theorem exec_clusterDrainEnd (c : ClusterLoc) (s : State) :
    exec (.clusterDrainEnd c) s = execClusterDrainEnd c s := rfl

theorem exec_clusterPowered (c : ClusterLoc) (s : State) : exec (.clusterPowered c) s = execClusterPowered c s := rfl

/-- Settles O20: the drain ends where it began, and what power leaves of the stores is what `dropCluster` does. -/
theorem clusterGateEvents : Obligations.ClusterGateEvents := by
  unfold Obligations.ClusterGateEvents
  intro c s g gates
  rw [exec_clusterDrainEnd, exec_clusterPowered, execClusterDrainEnd, execClusterPowered]
  refine ⟨fun h => ⟨_, if_pos h, emits_emit ..⟩, fun h => if_neg h, fun h => ?powered, fun h => if_neg h⟩
  have hne : ((s.clearCluster c).gate c).state ≠ .on := fun hon => GateState.noConfusion (h.symm.trans hon)
  exact ⟨_, s.mem.dropCluster c, if_pos h, gateTo_emits hne, rfl, rfl,
    fun a => ⟨dropCluster_inside s.mem, dropCluster_outside s.mem⟩⟩

end Sys2Proof.Proofs
end

section
/-! PROOF. Writes of a watch's word (R338, R362, R363): which are refused, and what an armed watch does at once. -/

namespace Sys2Proof.Proofs
open Sys2Proof Sys2Proof.Machine Sys2Proof.Laws

/-! ### The written word -/

/-- Bits outside a field leave it as it is. -/
theorem extract_or_of_clear {n lo w : Nat} {v bits : BitVec n} (h : bits.extractLsb' lo w = 0) :
    (v ||| bits).extractLsb' lo w = v.extractLsb' lo w := by
  rw [BitVec.extractLsb'_or, h]
  exact BitVec.or_zero

/-- The fields of a watch do not see ARMED and DISARM. -/
theorem fields_or (x : Watch) (v : DWord) {bits : DWord} (h0 : bits.extractLsb' 0 12 = 0)
    (h12 : bits.extractLsb' 12 2 = 0) (h14 : bits.extractLsb' 14 11 = 0) (h34 : bits.getLsbD 34 = false) :
    x.fields (v ||| bits).toNat = x.fields v.toNat := by
  have hmark : BitVec.ofNat 12 (v ||| bits).toNat = BitVec.ofNat 12 v.toNat := extract_or_of_clear (v := v) h0
  have hcmp : BitVec.ofNat 2 ((v ||| bits).toNat >>> 12) = BitVec.ofNat 2 (v.toNat >>> 12) := extract_or_of_clear h12
  have hvector : BitVec.ofNat 11 ((v ||| bits).toNat >>> 14) = BitVec.ofNat 11 (v.toNat >>> 14) :=
    extract_or_of_clear h14
  have hhit : bitAt (v ||| bits).toNat 34 = bitAt v.toNat 34 := by
    rw [bitAt_toNat, bitAt_toNat, BitVec.getLsbD_or, h34, Bool.or_false]
  rw [Watch.fields, Watch.fields, hmark, hcmp, hvector, hhit]

/-! ### What a word does -/

/-- The comparison of the new fields exists, and an armed watch keeps its fields. -/
def watchFits (x y : Watch) : Prop :=
  y.cmp ≠ 3 ∧ (x.armed = true → x.mark = y.mark ∧ x.cmp = y.cmp ∧ x.vector = y.vector)

theorem watchUnfit_iff (x y : Watch) : (y.cmp == 3 || (x.armed && !x.sameFields y)) = true ↔ ¬ watchFits x y := by
  cases ha : x.armed <;> simp [watchFits, Watch.sameFields, ha, or_iff_not_imp_left]

section
variable {w : Nat} {v : DWord} {s : State}

theorem watchWordEffect_eq : watchWordEffect w v s =
    if ((v.getLsbD 32 && v.getLsbD 33) ||
        ((s.watch w).fields v.toNat).cmp == 3 || ((s.watch w).armed && !(s.watch w).sameFields ((s.watch w).fields v.toNat)))
      then s.refuse (watchOffset w 0)
    else if v.getLsbD 33 then s.setWatch w { (s.watch w).fields v.toNat with armed := false }
    else if v.getLsbD 32 then s.armWatch w ((s.watch w).fields v.toNat)
    else s.setWatch w ((s.watch w).fields v.toNat) := by
  rw [watchWordEffect, bitAt_toNat, bitAt_toNat]

theorem watchWordEffect_both (harm : v.getLsbD 32 = true) (hdisarm : v.getLsbD 33 = true) :
    watchWordEffect w v s = s.refuse (watchOffset w 0) := by
  rw [watchWordEffect_eq, harm, hdisarm, Bool.and_self, Bool.or_assoc, Bool.true_or, if_pos rfl]

theorem watchWordEffect_unfit (h : ¬ watchFits (s.watch w) ((s.watch w).fields v.toNat)) :
    watchWordEffect w v s = s.refuse (watchOffset w 0) := by
  rw [watchWordEffect_eq, Bool.or_assoc, (watchUnfit_iff ..).mpr h, Bool.or_true, if_pos rfl]

section
variable (h : watchFits (s.watch w) ((s.watch w).fields v.toNat))
include h

theorem watchWordEffect_arm (harm : v.getLsbD 32 = true) (hdisarm : v.getLsbD 33 = false) :
    watchWordEffect w v s = s.armWatch w ((s.watch w).fields v.toNat) := by
  rw [watchWordEffect_eq, Bool.or_assoc, eq_false_of_ne_true (mt (watchUnfit_iff ..).mp (not_not.mpr h)), harm, hdisarm]
  rfl

theorem watchWordEffect_disarm (harm : v.getLsbD 32 = false) (hdisarm : v.getLsbD 33 = true) :
    watchWordEffect w v s = s.setWatch w { (s.watch w).fields v.toNat with armed := false } := by
  rw [watchWordEffect_eq, Bool.or_assoc, eq_false_of_ne_true (mt (watchUnfit_iff ..).mp (not_not.mpr h)), harm, hdisarm]
  rfl

end

end

/-! ### WATCH_ARM and WATCH_DISARM -/

/-- The word that WATCH_ARM writes. -/
abbrev armWord (v : DWord) : DWord := v ||| 0x1_0000_0000#64

/-- The word that WATCH_DISARM writes. -/
abbrev disarmWord (v : DWord) : DWord := v ||| 0x2_0000_0000#64

theorem watchArm_eq {s : State} (h : s.hostAnswers) (w : BitVec 8) (v : DWord) :
    exec (.watchArm w v) s = .next (watchWordEffect w.toNat (armWord v) s.halfGone) := hostWr_ready h

theorem watchDisarm_eq {s : State} (h : s.hostAnswers) (w : BitVec 8) (v : DWord) :
    exec (.watchDisarm w v) s = .next (watchWordEffect w.toNat (disarmWord v) s.halfGone) := hostWr_ready h

theorem fields_armWord (x : Watch) (v : DWord) : x.fields (armWord v).toNat = x.fields v.toNat :=
  fields_or x v (by decide) (by decide) (by decide) (by decide)

theorem fields_disarmWord (x : Watch) (v : DWord) : x.fields (disarmWord v).toNat = x.fields v.toNat :=
  fields_or x v (by decide) (by decide) (by decide) (by decide)

/-- Settles O26: a word is refused by its bits and by its fields; an armed watch fires where its condition holds. -/
theorem watchWrites : Obligations.WatchWrites := by
  unfold Obligations.WatchWrites
  intro w v s hready x y put fits refused holds e fired
  have hy : (s.halfGone.watch w.toNat).fields (armWord v).toNat = y := fields_armWord x v
  have hy' : (s.halfGone.watch w.toNat).fields (disarmWord v).toNat = y := fields_disarmWord x v
  have hdisarms : bitAt v.toNat 33 = (armWord v).getLsbD 33 := (bitAt_toNat v 33).trans (armWord_disarms v).symm
  have harms : bitAt v.toNat 32 = (disarmWord v).getLsbD 32 := (bitAt_toNat v 32).trans (disarmWord_arms v).symm
  rw [watchArm_eq hready, watchDisarm_eq hready, hdisarms, harms]
  have harm : fits → (armWord v).getLsbD 33 = false →
      watchWordEffect w.toNat (armWord v) s.halfGone = s.halfGone.armWatch w.toNat y := by
    intro hfits hdisarm
    rw [watchWordEffect_arm (hy ▸ hfits) (armWord_arms v) hdisarm, hy]
  refine ⟨fun hfits hdisarm hholds => ?quiet, fun hfits hdisarm hholds => ?fires, ?armRefused,
    fun hfits h => ?disarm, ?disarmRefused⟩
  case quiet =>
    rw [harm hfits hdisarm]
    exact congrArg _ (if_neg (ne_true_of_eq_false hholds))
  case fires =>
    have hfire : s.halfGone.armWatch w.toNat y = fired.signal y.vector.toNat := if_pos hholds
    rw [harm hfits hdisarm, hfire]
    exact ⟨fun he => congrArg _ (signal_unmasked (s := fired) he), fun he hp => congrArg _ (signal_masked (s := fired) he hp),
      fun he hp => congrArg _ (signal_pending (s := fired) he hp)⟩
  case armRefused =>
    rintro (hunfit | hdisarm)
    · exact congrArg _ (watchWordEffect_unfit (hy ▸ hunfit))
    · exact congrArg _ (watchWordEffect_both (armWord_arms v) hdisarm)
  case disarm =>
    rw [watchWordEffect_disarm (hy' ▸ hfits) h (disarmWord_disarms v), hy']
    rfl
  case disarmRefused =>
    rintro (hunfit | harm)
    · exact congrArg _ (watchWordEffect_unfit (hy' ▸ hunfit))
    · exact congrArg _ (watchWordEffect_both harm (disarmWord_disarms v))

end Sys2Proof.Proofs
end

section
/-! PROOF. Rings that a run keeps, and rings that drain (R342, R343); and an abort that meets a record for which no ring
has room (R335, R341). -/

namespace Sys2Proof.Proofs
open Sys2Proof Sys2Proof.Machine Sys2Proof.Laws

/-! ### A key written twice -/

/-- A write to a key below all others goes in front. -/
theorem smapPut_of_above {α : Type} [DecidableEq α] {d : α} {m : SMap α} {k : Nat} (h : smapAbove k m = true) (v : α) :
    smapPut d m k v = if v = d then m else (k, v) :: m := by
  cases m with
  | nil => rfl
  | cons p r =>
    have hlt : k < p.1 := by
      rw [smapAbove, Bool.and_eq_true, decide_eq_true_eq] at h
      exact h.1
    exact if_pos hlt

/-- Of two writes to one key the second stands. -/
theorem smapPut_put {α : Type} [DecidableEq α] {d : α} {m : SMap α} (h : smapWf d m = true) (k : Nat) (v w : α) :
    smapPut d (smapPut d m k v) k w = smapPut d m k w := by
  induction m with
  | nil => by_cases hv : v = d <;> simp [smapPut, hv]
  | cons p r ih =>
    obtain ⟨y, z⟩ := p
    simp only [smapWf, Bool.and_eq_true] at h
    obtain ⟨⟨-, habove⟩, hr⟩ := h
    rcases Nat.lt_trichotomy k y with hk | rfl | hk
    · by_cases hv : v = d <;> simp [smapPut, hk, hv]
    · by_cases hv : v = d
      · simp [smapPut, hv, smapPut_of_above habove]
      · simp [smapPut, hv]
    · have hlt : ¬ k < y := by omega
      have hne : k ≠ y := by omega
      simp [smapPut, hlt, hne, ih hr]

/-! ### The state of a ring -/

theorem rings_wf_of_canonical {s : State} (h : s.canonical = true) : smapWf Ring.reset s.rings = true := by
  cases hwf : smapWf Ring.reset s.rings with
  | true => rfl
  | false => simp [State.canonical, hwf] at h

section
variable {s : State} {n : Nat} {st : RingState}

theorem ringTo_emits (h : (s.ring n).state ≠ st) :
    (s.setRing n { s.ring n with state := st }).emits (s.ringTo n st) (srcRing n) 0x0245 [] := by
  have heq : s.ringTo n st = (s.setRing n { s.ring n with state := st }).emit (srcRing n) 0x0245 [] := if_neg h
  rw [heq]
  exact emits_emit ..

/-- A ring that is written and then changes its state holds what was written, in that state. -/
theorem setRing_ringTo_emits (hwf : smapWf Ring.reset s.rings = true) {r : Ring} (h : r.state ≠ st) :
    (s.setRing n { r with state := st }).emits ((s.setRing n r).ringTo n st) (srcRing n) 0x0245 [] := by
  have hread : (s.setRing n r).ring n = r := smapGet_put_self _ _ _ _ hwf
  have hput : (s.setRing n r).setRing n { r with state := st } = s.setRing n { r with state := st } := by
    rw [State.setRing, State.setRing, State.setRing, smapPut_put hwf]
  have hemits := ringTo_emits (s := s.setRing n r) (n := n) (st := st) (hread.symm ▸ h)
  rwa [hread, hput] at hemits

end

/-! ### RING_DISABLE -/

theorem gatesOn_iff (s : State) (n : BitVec 12) : s.gatesOn n.toNat = true ↔
    ∃ c, s.seq.cartoon = some c ∧ ∃ v ∈ c.variants, v.gate = true ∧ v.gateRing = n := by
  rw [State.gatesOn]
  cases s.seq.cartoon with
  | none => simp
  | some c => simp [BitVec.toNat_inj]

theorem ringNeeded_iff (s : State) (n : BitVec 12) : s.ringNeeded n.toNat = true ↔
    (n = s.regs.completionRing ∨ n = s.regs.eventRing ∨ n = s.regs.proofRing ∨ n = s.regs.seedRing) ∨
      ((s.ring n.toNat).kind = 0 ∧ ∃ c, s.seq.cartoon = some c ∧ ∃ v ∈ c.variants, v.gate = true ∧ v.gateRing = n) := by
  rw [← gatesOn_iff]
  simp [State.ringNeeded, BitVec.toNat_inj, or_assoc]

section
variable {n : Nat} {s : State}

theorem ringDisableEffect_refused (h : (s.busyRun && s.ringNeeded n) = true) :
    ringDisableEffect n s = s.refuse (ringControlOffset n) := if_pos h

section
variable (h : ¬ (s.busyRun && s.ringNeeded n) = true)
include h

theorem ringDisableEffect_off (hs : (s.ring n).state = .off) : ringDisableEffect n s = s := by
  simp only [ringDisableEffect, if_neg h, hs]

theorem ringDisableEffect_active (hs : (s.ring n).state = .active) :
    ringDisableEffect n s = (s.setRing n { s.ring n with started := s.copyRuns n }).ringTo n .draining := by
  simp only [ringDisableEffect, if_neg h, hs]

theorem ringDisableEffect_draining (hs : (s.ring n).state = .draining) :
    ringDisableEffect n s = s.setRing n { s.ring n with pending := false } := by
  simp only [ringDisableEffect, if_neg h, hs]

theorem ringDisableEffect_error (hs : (s.ring n).state = .error) :
    ringDisableEffect n s = s.ringTo n .draining := by
  simp only [ringDisableEffect, if_neg h, hs]

end

end

/-- Settles O46: whether a run needs the ring decides, and then the ring's state. -/
theorem runKeepsRings : Obligations.RunKeepsRings := by
  unfold Obligations.RunKeepsRings
  intro n s hready hcanon u r inRun gates named put
  have hwf : smapWf Ring.reset u.rings = true := rings_wf_of_canonical hcanon
  have hneeds : (u.busyRun && u.ringNeeded n.toNat) = true ↔ inRun ∧ (named ∨ gates) := by
    rw [Bool.and_eq_true, busyRun_iff, ringNeeded_iff]
    rfl
  have hdisable : exec (.ringDisable n) s = .next (ringDisableEffect n.toNat u) := hostWr_ready hready
  rw [hdisable]
  refine ⟨fun hrun hneeded => congrArg _ (ringDisableEffect_refused (hneeds.mpr ⟨hrun, hneeded⟩)), fun hnot => ?_⟩
  have htaken := mt hneeds.mp hnot
  refine ⟨fun h => congrArg _ (ringDisableEffect_off htaken h), ?_,
    fun h => congrArg _ (ringDisableEffect_draining htaken h)⟩
  rintro (h | h)
  · have hne : { r with started := u.copyRuns n.toNat }.state ≠ .draining := fun hd =>
      RingState.noConfusion (h.symm.trans hd)
    rw [if_pos h]
    exact ⟨_, congrArg _ (ringDisableEffect_active htaken h), setRing_ringTo_emits hwf hne⟩
  · have hne : r.state ≠ .draining := fun hd => RingState.noConfusion (h.symm.trans hd)
    rw [if_neg fun ha => RingState.noConfusion (h.symm.trans ha)]
    exact ⟨_, congrArg _ (ringDisableEffect_error htaken h), ringTo_emits (s := u) hne⟩

/-! ### ABORT_COMPLETE -/

/-- A completion record of step 0 that has closed. -/
def completionOfStep0 : Record :=
  { State.reset.mkRecord 0 srcSeq 0x0100 0 with step := 0, stroke := 0 }

/-- A run with an abort to complete, whose completion record still has to be written while the completion ring is OFF and
its holding buffer has no place left for it. -/
def abortWithoutRoom : State :=
  { State.reset with
    closed := [completionOfStep0]
    rings := [(0, { Ring.reset with held := List.replicate 252 completionOfStep0 })]
    seq := { Seq.reset with state := .running, cartoon := some noCartoon, abortPending := true } }

/-- The run state that an outcome leaves. -/
def runStateOf (o : Out) : Option RunState :=
  match o with
  | .next t => some t.seq.state
  | _ => none

theorem abortWithoutRoom_faults : runStateOf (exec (.abortComplete []) abortWithoutRoom) = some .faulted := by
  decide +kernel

/-- Refutes O36: a completion record that finds no room raises 0x0241 (R335, log entry 30) also while the records that
remain are written for an abort, and the device is FAULTED, not LOADED with its cartoon. -/
theorem not_abortStops : ¬ Obligations.AbortStops := by
  unfold Obligations.AbortStops
  intro h
  obtain ⟨-, -, -, -, -, hcomplete, -⟩ := h abortWithoutRoom
  obtain ⟨t, hexec, -, -, -, -, hstate⟩ := hcomplete rfl []
  have hfaulted := abortWithoutRoom_faults
  rw [hexec, runStateOf, hstate] at hfaulted
  exact absurd hfaulted (by decide)

end Sys2Proof.Proofs
end

section
/-! PROOF. REGISTER_WRITE (R321, R348–R351): the word at an offset of BAR0, the halves of a word, and accesses of another
shape. -/

namespace Sys2Proof.Proofs
open Sys2Proof Sys2Proof.Machine Sys2Proof.Laws

/-! ### The word at an offset -/

section
variable {off base n size : Nat}

theorem inArray_above (h : base + n * size ≤ off) : inArray off base n size = false := by
  rw [inArray, decide_eq_false (Nat.not_lt.mpr h), Bool.and_false]

theorem inArray_inside (h : base ≤ off) (h' : off < base + n * size) : inArray off base n size = true := by
  rw [inArray, decide_eq_true h, decide_eq_true h']
  rfl

end

section
variable {off : Nat} (v : DWord) (s : State)

/-- Behind the blocks at single offsets no register stands. -/
theorem singleWord_above (h : 0x5018 < off) : singleWord off v s = s := by
  unfold singleWord
  split
  case h_25 => rfl
  all_goals omega

/-- Behind the MSI-X table no register stands. -/
theorem wordWrite_above (h : 0x28_0000 ≤ off) : wordWrite off v s = s := by
  simp (disch := omega) only [wordWrite, inArray_above, Bool.false_eq_true, if_false, singleWord_above]

theorem wordWrite_mark (m : BitVec 12) :
    wordWrite (0x18_0000 + 8 * m.toNat) v s = s.updateMark m.toNat fun _ => v := by
  have hm := m.isLt
  have hindex : (0x18_0000 + 8 * m.toNat - 0x18_0000) / 8 = m.toNat := by omega
  simp (disch := omega) only [wordWrite, inArray_above, inArray_inside, Bool.false_eq_true, if_false, if_true, hindex]

theorem wordWrite_markAdd (m : BitVec 12) :
    wordWrite (0x18_8000 + 8 * m.toNat) v s = s.updateMark m.toNat (· + v) := by
  have hm := m.isLt
  have hindex : (0x18_8000 + 8 * m.toNat - 0x18_8000) / 8 = m.toNat := by omega
  simp (disch := omega) only [wordWrite, inArray_above, inArray_inside, Bool.false_eq_true, if_false, if_true, hindex]

end

/-! ### Writes that BAR0 takes -/

section
variable {s : State} (v : DWord)

theorem registerWrite_off (h : ¬ s.hostAnswers) (off : BitVec 26) (n : Nat) :
    exec (.registerWrite off n v) s = .next s := if_neg h

theorem registerWriteEffect_word (off : Nat) : registerWriteEffect off 8 v s = wordWrite off v s.halfGone := by
  rw [registerWriteEffect, if_pos rfl]
  rfl

theorem registerWriteEffect_half (off : Nat) :
    registerWriteEffect off 4 v s = halfWrite off v s.regs.heldWrite s.halfGone := by
  rw [registerWriteEffect, if_neg (by decide)]
  rfl

section
variable (h : s.hostAnswers)
include h

/-- A 64-bit write of an aligned offset. -/
theorem registerWrite_word {off : Nat} (hlt : off < 2 ^ 26) (hmod : off % 8 = 0) :
    exec (.registerWrite (BitVec.ofNat 26 off) 8 v) s = .next (wordWrite off v s.halfGone) := by
  have hoff : (BitVec.ofNat 26 off).toNat = off := Nat.mod_eq_of_lt hlt
  have hshape : bar0Shape off 8 = true := by simp [bar0Shape, hmod]
  have hexec : exec (.registerWrite (BitVec.ofNat 26 off) 8 v) s = _ := if_pos h
  rw [hexec, hoff, if_pos hshape, registerWriteEffect_word]

/-- A 32-bit write of an aligned offset. -/
theorem registerWrite_half {off : Nat} (hlt : off < 2 ^ 26) (hmod : off % 4 = 0) :
    exec (.registerWrite (BitVec.ofNat 26 off) 4 v) s = .next (halfWrite off v s.regs.heldWrite s.halfGone) := by
  have hoff : (BitVec.ofNat 26 off).toNat = off := Nat.mod_eq_of_lt hlt
  have hshape : bar0Shape off 4 = true := by simp [bar0Shape, hmod]
  have hexec : exec (.registerWrite (BitVec.ofNat 26 off) 4 v) s = _ := if_pos h
  rw [hexec, hoff, if_pos hshape, registerWriteEffect_half]

/-- Any other access. -/
theorem registerWrite_shape {off : BitVec 26} {n : Nat} (hbad : ¬ ((n = 4 ∨ n = 8) ∧ off.toNat % n = 0)) :
    exec (.registerWrite off n v) s = .next s.unsupported := by
  have hshape : ¬ bar0Shape off.toNat n = true := by simpa [bar0Shape] using hbad
  have hexec : exec (.registerWrite off n v) s = _ := if_pos h
  rw [hexec, if_neg hshape]

end

end

/-! ### Registers of their own -/

theorem abortDoneWord_eq (v : DWord) (s : State) : abortDoneWord v s = { s with regs := { s.regs with
    abortDone := s.regs.abortDone && !v.getLsbD 0, abortVector := v.extractLsb' 8 11, abortIrqEn := v.getLsbD 19 } } := by
  rw [abortDoneWord, bitAt_toNat, bitAt_toNat]
  rfl

/-- Settles O28: a write goes to the word at its offset, and each word has its own rule. -/
theorem registerWrites : Obligations.RegisterWrites := by
  unfold Obligations.RegisterWrites
  intro v s
  refine ⟨fun h off n => registerWrite_off v h off n, fun hready => ?_⟩
  intro u write refused
  have hword : ∀ {off} {t : State}, off < 2 ^ 26 ∧ off % 8 = 0 → wordWrite off v u = t → write off = .next t :=
    fun hoff ht => (registerWrite_word v hready hoff.1 hoff.2).trans (congrArg _ ht)
  refine ⟨hword (by decide) rfl, hword (by decide) rfl, hword (by decide) rfl, hword (by decide) rfl,
    fun hmod => hword (by decide) (if_pos hmod), fun hmod => hword (by decide) (if_neg hmod), hword (by decide) rfl,
    hword (by decide) (abortDoneWord_eq v u), fun hfree => hword (by decide) (if_neg (ne_true_of_eq_false hfree)),
    fun harmed => hword (by decide) (if_pos harmed), fun hstate => hword (by decide) (if_pos hstate),
    fun hstate => hword (by decide) (if_neg hstate), hword (by decide) rfl,
    fun off hlo hhi hmod => hword ⟨hhi, hmod⟩ (wordWrite_above v u hlo), fun m => ⟨?mark, ?markAdd⟩,
    fun off n hbad => registerWrite_shape v hready hbad, registerWrite_half v hready (off := 0x2008) (by decide) rfl,
    fun low hheld => ?high, fun hnone => ?alone⟩
  case mark =>
    have hm := m.isLt
    rw [exec_markWrite, execMarkWrite, hostWr_ready hready]
    exact hword (by omega) (wordWrite_mark v u m)
  case markAdd =>
    have hm := m.isLt
    rw [exec_markAdd, execMarkAdd, hostWr_ready hready]
    exact hword (by omega) (wordWrite_markAdd v u m)
  case high =>
    refine (registerWrite_half v hready (off := 0x200C) (by decide) rfl).trans ?_
    rw [hheld]
    rfl
  case alone =>
    refine (registerWrite_half v hready (off := 0x200C) (by decide) rfl).trans ?_
    rw [hnone]
    rfl

end Sys2Proof.Proofs
end

section
/-! PROOF. Settings that the host writes (R350–R373): the named rings, the aperture, REFUSED, the counters, the gauges and
the gear floor; and FAULT_CLEAR and COUNTER_CLEAR (R356, R366). -/

namespace Sys2Proof.Proofs
open Sys2Proof Sys2Proof.Machine Sys2Proof.Laws

/-! ### Named rings, the aperture, REFUSED -/

section
variable {v : DWord} {s : State}

theorem namedRingsEffect_quiet (h : s.quiet = true) : namedRingsEffect v s = { s with regs := { s.regs with
    completionRing := v.extractLsb' 0 12, eventRing := v.extractLsb' 16 12, proofRing := v.extractLsb' 32 12,
    seedRing := v.extractLsb' 48 12, seedReplay := v.getLsbD 63 } } := by
  rw [namedRingsEffect, if_pos h, bitAt_toNat]
  rfl

theorem namedRingsEffect_refused (h : ¬ s.quiet = true) : namedRingsEffect v s = s.refuse 0x3030 := if_neg h

theorem bar2ApertureEffect_taken (h : v.toNat % 8 ≤ 4) :
    bar2ApertureEffect v s = { s with regs := { s.regs with bar2Aperture := v.extractLsb' 0 3 } } :=
  if_neg (Nat.not_lt.mpr h)

theorem bar2ApertureEffect_refused (h : 4 < v.toNat % 8) : bar2ApertureEffect v s = s.refuse 0x3038 := if_pos h

theorem refusedClearEffect_set (h : v.getLsbD 0 = true) :
    refusedClearEffect v s = { s with regs := { s.regs with refused := false } } := by
  rw [refusedClearEffect, bitAt_toNat, if_pos h]

theorem refusedClearEffect_clear (h : v.getLsbD 0 = false) : refusedClearEffect v s = s := by
  rw [refusedClearEffect, bitAt_toNat, if_neg (ne_true_of_eq_false h)]

end

/-! ### Counters and gauges -/

section
variable {i g : Nat} {v : DWord} {s : State}

theorem laneGated_iff (s : State) (i : Nat) :
    s.laneGated i = true ↔ i < 2304 ∧ (smapGet Gate.reset s.gates (i / 32)).state ≠ .on := by
  simp [State.laneGated]

theorem generatorCounterEffect_taken (hq : s.quiet = true)
    (hon : i < 2304 → (smapGet Gate.reset s.gates (i / 32)).state = .on) :
    generatorCounterEffect i v s = { s with lanes := smapPut 0 s.lanes i v } := by
  have hopen : ¬ s.laneGated i = true := fun hgated => ((laneGated_iff s i).mp hgated).elim fun hi hoff => hoff (hon hi)
  exact if_neg (by simp [hq, hopen])

theorem generatorCounterEffect_refused
    (h : ¬ s.quiet = true ∨ (i < 2304 ∧ (smapGet Gate.reset s.gates (i / 32)).state ≠ .on)) :
    generatorCounterEffect i v s = s.refuse (laneOffset i) := by
  rw [← laneGated_iff] at h
  exact if_pos (by simpa using h)

theorem gaugeSettingEffect_eq : gaugeSettingEffect g v s =
    if !s.quiet || v.getLsbD 31 || isNan (v.extractLsb' 0 32) then s.refuse (gaugeOffset g)
    else { s with gauges := smapPut .reset s.gauges g ⟨v.extractLsb' 0 32, v.extractLsb' 32 16⟩ } := by
  rw [gaugeSettingEffect, bitAt_toNat]
  rfl

theorem gaugeSettingEffect_taken (hq : s.quiet = true) (hsign : v.getLsbD 31 = false)
    (hnan : isNan (v.extractLsb' 0 32) = false) : gaugeSettingEffect g v s =
    { s with gauges := smapPut .reset s.gauges g ⟨v.extractLsb' 0 32, v.extractLsb' 32 16⟩ } := by
  rw [gaugeSettingEffect_eq, hq, hsign, hnan]
  rfl

theorem gaugeSettingEffect_refused
    (h : ¬ s.quiet = true ∨ v.getLsbD 31 = true ∨ isNan (v.extractLsb' 0 32) = true) :
    gaugeSettingEffect g v s = s.refuse (gaugeOffset g) := by
  rw [gaugeSettingEffect_eq]
  exact if_pos (by simpa [or_assoc] using h)

end

/-! ### The gear floor -/

section
variable {v : DWord} {s : State} {cause : Fin 4}

theorem requestGear_same (h : BitVec.ofNat 2 s.gearWanted = s.regs.gearReq) : s.requestGear cause = s := if_pos h

/-- Another gear is requested from now on, and the decision is logged. -/
theorem requestGear_logs (h : BitVec.ofNat 2 s.gearWanted ≠ s.regs.gearReq) :
    { s with regs := { s.regs with gearReq := BitVec.ofNat 2 s.gearWanted },
             mss := { s.mss with gearReqs := ((s.boardTime, BitVec.ofNat 2 s.gearWanted) :: s.mss.gearReqs).take 64 }
      }.logs (s.requestGear cause) 0x0501 := by
  rw [State.requestGear, if_neg h]
  exact logs_decide ..

theorem gearFloorEffect_refused (h : s.edition.gearSlow.toNat < v.toNat % 4) :
    gearFloorEffect v s = s.refuse 0x1030 := if_pos h

theorem gearFloorEffect_taken (h : v.toNat % 4 ≤ s.edition.gearSlow.toNat) : gearFloorEffect v s =
    { s with regs := { s.regs with gearFloor := v.extractLsb' 0 2 } }.requestGear causeFloor :=
  if_neg (Nat.not_lt.mpr h)

end

/-- Settles O27, register by register: each write is its effect on the state whose waiting half is gone. -/
theorem settingWrites : Obligations.SettingWrites := by
  unfold Obligations.SettingWrites
  intro v s hready u refused quiet
  have hquiet : u.quiet = true ↔ quiet := quiet_iff u
  have hwr : ∀ {f : State → State} {t : State}, f u = t → hostWr f s = .next t :=
    fun h => (hostWr_ready hready).trans (congrArg _ h)
  refine ⟨fun hq => hwr (namedRingsEffect_quiet (hquiet.mpr hq)),
    fun hq => hwr (namedRingsEffect_refused (mt hquiet.mp hq)),
    fun h => hwr (bar2ApertureEffect_taken h), fun h => hwr (bar2ApertureEffect_refused h),
    fun h => hwr (refusedClearEffect_set h), fun h => hwr (refusedClearEffect_clear h),
    fun i hq hon => hwr (generatorCounterEffect_taken (hquiet.mpr hq) hon),
    fun i h => hwr (generatorCounterEffect_refused (h.imp_left (mt hquiet.mp))),
    fun g hq hsign hnan => hwr (gaugeSettingEffect_taken (hquiet.mpr hq) hsign hnan),
    fun g h => hwr (gaugeSettingEffect_refused (h.imp_left (mt hquiet.mp))), ?gear⟩
  intro w g
  refine ⟨fun h => hwr (gearFloorEffect_refused h), fun h hsame => hwr ?_, fun h hother => ⟨_, hwr rfl, ?_⟩⟩
  · rw [gearFloorEffect_taken (s := u) h]
    exact requestGear_same (s := w) hsame
  · rw [gearFloorEffect_taken (s := u) h]
    exact requestGear_logs (s := w) hother

/-! ### FAULT_CLEAR and COUNTER_CLEAR -/

/-- Skipping OUT descriptors changes what is to be skipped, and reports. -/
theorem reports_skipOut (s : State) : ∃ m, Reports { s with seq := { s.seq with outSkip := m } } s.skipOut :=
  ⟨_, reports_foldl (fun _ _ => reports_skipRing ..) _ _⟩

theorem skipOut_state (s : State) : s.skipOut.seq.state = s.seq.state := by
  obtain ⟨m, h⟩ := reports_skipOut s
  rw [h.run.seq]

theorem skipOut_cartoon (s : State) : s.skipOut.seq.cartoon = s.seq.cartoon := by
  obtain ⟨m, h⟩ := reports_skipOut s
  rw [h.run.seq]

/-- Without an active OUT ring nothing is skipped. -/
theorem skipOut_of_none {s : State} (h : ∀ p ∈ s.rings, p.2.kind = 1 → p.2.state ≠ .active) : s.skipOut = s := by
  have hnone : (s.rings.filter fun p => p.2.kind == 1 && p.2.state == .active) = [] := by
    simpa [List.filter_eq_nil_iff] using h
  rw [State.skipOut, hnone]
  rfl

section
variable {s : State}

theorem faultClearEffect_refused (h : s.seq.state ≠ .faulted ∨ s.seamRetraining = true) :
    faultClearEffect s = s.refuse 0x1038 := if_pos h

theorem faultClearEffect_taken (h : s.seq.state = .faulted) (hseam : s.seamRetraining = false) :
    faultClearEffect s = { s with seq := { s.seq with state := s.heldState } }.skipOut := by
  rw [faultClearEffect, if_neg]
  simp [h, hseam]

end

/-- Settles O37: FAULT_CLEAR by its two conditions; without an active OUT ring the skip at its end does nothing. -/
theorem faultAndCounterClear : Obligations.FaultAndCounterClear := by
  unfold Obligations.FaultAndCounterClear
  intro s hready u
  have hclear : exec .faultClear s = .next (faultClearEffect u) := hostWr_ready hready
  rw [hclear]
  refine ⟨fun h => congrArg _ (faultClearEffect_refused (s := u) h), fun h hseam => ⟨_, rfl, ?_, ?_⟩,
    fun h hseam hnone => ?_, hostWr_ready hready⟩
  all_goals rw [faultClearEffect_taken (s := u) h hseam]
  · exact skipOut_state _
  · exact skipOut_cartoon _
  · exact congrArg _ (skipOut_of_none hnone)

end Sys2Proof.Proofs
end

section
/-! PROOF. What does not show of a sealed device's memory (R186, R372, R393): BAR2 is closed, and outside debug mode so is
the store window. -/

namespace Sys2Proof.Proofs
open Sys2Proof Sys2Proof.Machine Sys2Proof.Laws

/-! ### BAR2 -/

section
variable {s : State} (h : s.sec.sealed = true)
include h

theorem bar2Open_sealed (a n : Nat) : s.bar2Open a n = false := by
  rw [State.bar2Open, h, Bool.not_true, Bool.and_false, Bool.false_and, Bool.false_and]

theorem bar2Effect_sealed (off : Nat) (x : HostAccess) : bar2Effect off x s = s.unsupported := by
  cases x with
  | read len => exact if_neg (ne_true_of_eq_false (bar2Open_sealed h ..))
  | write data => exact if_neg (ne_true_of_eq_false (bar2Open_sealed h ..))

theorem bar2Access_sealed (off : BitVec 36) (x : HostAccess) :
    exec (.bar2Access off x) s = if s.hostAnswers then .next s.unsupported else .next s := by
  rw [← bar2Effect_sealed h off.toNat x]
  rfl

end

/-! ### The store window -/

/-- The registers after an access through a window that is not open: a read delivers zeros, a write is refused. -/
def closedWindow (off : Nat) (x : HostAccess) (r : Regs) : Regs :=
  let unsupported := { r with readData := [], readPoisoned := false, unsupported := true }
  match x with
  | .read len =>
    if bar0Shape off len then
      { r with readLatch := none, readData := List.replicate len 0, readPoisoned := false, unsupported := false }
    else unsupported
  | .write data =>
    if bar0Shape off data.length then
      { r with refused := true, refusedAt := BitVec.ofNat 26 (windowOffset + off) }
    else unsupported

section
variable {s : State} (h : s.regs.debug = false)
include h

theorem windowOpen_closed : s.windowOpen = false := by rw [State.windowOpen, h, Bool.false_and]

theorem storeWindowEffect_closed (off : Nat) (x : HostAccess) :
    storeWindowEffect off x s = { s with regs := closedWindow off x s.regs } := by
  have hopen := windowOpen_closed h
  cases x with
  | read len =>
    have hopen' : { s with regs := { s.regs with readLatch := none } }.windowOpen = false := hopen
    have hread : windowRead off len s =
        { s with regs := { s.regs with readLatch := none } }.returned (List.replicate len 0) false := by
      rw [windowRead, hopen', Bool.false_and, if_neg Bool.false_ne_true]
    rw [storeWindowEffect, closedWindow, hread]
    split <;> rfl
  | write data =>
    have hwrite : windowWrite off data s = s.refuse (windowOffset + off) := by
      rw [windowWrite, hopen, if_neg Bool.false_ne_true]
    rw [storeWindowEffect, closedWindow, hwrite]
    split <;> rfl

end

/-- The registers after STORE_WINDOW_ACCESS outside debug mode, of a device that answers or does not. -/
def windowRegs (off : Nat) (x : HostAccess) (s : State) : Regs :=
  if s.hostAnswers then closedWindow off x (if acceptedWrite off x then s.halfGone.regs else s.regs) else s.regs

theorem storeWindowAccess_closed {s : State} (h : s.regs.debug = false) (off : BitVec 16) (x : HostAccess) :
    exec (.storeWindowAccess off x) s = .next { s with regs := windowRegs off.toNat x s } := by
  have hgone := storeWindowEffect_closed (s := s.halfGone) h off.toNat x
  have hkept := storeWindowEffect_closed h off.toNat x
  change (if acceptedWrite off.toNat x then hostWr (storeWindowEffect off.toNat x) s
    else if s.hostAnswers then .next (storeWindowEffect off.toNat x s) else .next s) = _
  rw [hostWr_eq, hgone, hkept, windowRegs]
  by_cases hready : s.hostAnswers
  · rw [if_pos hready, if_pos hready, if_pos hready]
    split <;> rfl
  · rw [if_neg hready, if_neg hready, if_neg hready, ite_self]

/-- Settles O33: in both cases the answer is computed without the memory. -/
theorem sealedMemoryHidden : Obligations.SealedMemoryHidden := by
  unfold Obligations.SealedMemoryHidden
  intro s t m
  refine ⟨fun off x hsealed hexec => ?bar2, fun off x hdebug hexec => ?window⟩
  case bar2 =>
    rw [bar2Access_sealed hsealed] at hexec
    rw [bar2Access_sealed (s := { s with mem := m }) hsealed]
    by_cases hready : s.hostAnswers
    · rw [if_pos hready] at hexec
      cases hexec
      exact ⟨if_pos hready, rfl⟩
    · rw [if_neg hready] at hexec
      cases hexec
      exact ⟨if_neg hready, rfl⟩
  case window =>
    rw [storeWindowAccess_closed hdebug] at hexec
    rw [storeWindowAccess_closed (s := { s with mem := m }) hdebug]
    cases hexec
    exact ⟨rfl, rfl⟩

end Sys2Proof.Proofs
end

section
/-! PROOF. The JTAG instructions and the addresses of the management bus (R415, R459, R497). -/

namespace Sys2Proof.Proofs
open Sys2Proof Sys2Proof.Machine Sys2Proof.Laws

/-- IDCODE as the sum of its fields, each at its place (R497). -/
theorem idcodeValue_toNat :
    idcodeValue.toNat = 0x1 * 2 ^ 28 + 0x8320 * 2 ^ 12 + Config.jep106.toNat * 2 + 1 := by
  have hcode := Config.jep106.isLt
  rw [idcodeValue, BitVec.toNat_ofNat, Nat.shiftLeft_eq, Nat.shiftLeft_eq, Nat.shiftLeft_eq]
  omega

theorem idcodeValue_fields : idcodeValue.extractLsb' 28 4 = 1#4 ∧ idcodeValue.extractLsb' 12 16 = 0x8320#16 ∧
    idcodeValue.extractLsb' 1 11 = Config.jep106 ∧ idcodeValue.extractLsb' 0 1 = 1#1 := by
  have hcode := Config.jep106.isLt
  have hfield : ∀ lo w, (idcodeValue.extractLsb' lo w).toNat =
      (0x1 * 2 ^ 28 + 0x8320 * 2 ^ 12 + Config.jep106.toNat * 2 + 1) / 2 ^ lo % 2 ^ w := fun lo w => by
    rw [BitVec.extractLsb'_toNat, idcodeValue_toNat, Nat.shiftRight_eq_div_pow]
  refine ⟨?_, ?_, ?_, ?_⟩ <;> refine BitVec.eq_of_toNat_eq ((hfield ..).trans ?_)
  · change _ = 1
    omega
  · change _ = 0x8320
    omega
  · omega
  · change _ = 1
    omega

/-- Settles O60: each instruction says what it selects; the addresses are taken while the MSS runs. -/
theorem jtagAndAddresses : Obligations.JtagAndAddresses := by
  unfold Obligations.JtagAndAddresses
  intro s runs jtag
  have hruns : s.mssRuns = true ↔ runs := mssRuns_iff s
  refine ⟨rfl, rfl, rfl, rfl, ⟨idcodeValue, rfl, idcodeValue_fields⟩, fun cells => rfl,
    fun e => ⟨fun h => if_pos (hruns.mpr h), fun h => if_neg (mt hruns.mp h)⟩,
    fun a => ⟨fun h hbind => if_pos ⟨hruns.mpr h, hbind⟩, fun h => if_neg ?_⟩⟩
  rintro ⟨hr, hbind⟩
  cases h with
  | inl hoff => exact hoff (hruns.mp hr)
  | inr hsmbus => exact Bool.false_ne_true (hbind.symm.trans hsmbus)

end Sys2Proof.Proofs
end

section
/-! PROOF. IDE keys and the TDI in a secured session (R379, R380). -/

namespace Sys2Proof.Proofs
open Sys2Proof Sys2Proof.Machine Sys2Proof.Laws

/-! ### Requests in a DOE session -/

section
variable {id : BitVec 32} {s : State} {f : State → State}

theorem inSession_doe (h : s.boot.phase = .ready) (ho : ∃ x ∈ s.sec.sessions, x.id = id ∧ x.open_ = true) :
    inSession .doe id f s = .next (f (s.touchDoe id)) :=
  inSession_in ((answers_doe s).mpr h) ((sessionOpen_iff ..).mpr ho)

theorem inSession_doe_out (h : s.boot.phase = .ready) (ho : ¬ ∃ x ∈ s.sec.sessions, x.id = id ∧ x.open_ = true) :
    inSession .doe id f s = .next { s with sec := { s.sec with doeAnswer := [3, 4] } } :=
  inSession_out ((answers_doe s).mpr h) (eq_false_of_ne_true (mt (sessionOpen_iff ..).mp ho))

theorem inSession_doe_off (h : ¬ s.boot.phase = .ready) : inSession .doe id f s = .next s :=
  spdmRequest_off (eq_false_of_ne_true (mt (answers_doe s).mp h))

end

/-! ### Keys and streams -/

theorem ideLocOk_iff (k : IdeKeyLoc) : ideLocOk k = true ↔ k.stream.toNat < 2 ∧ k.subStream.toNat < 3 := by
  simp [ideLocOk]

/-- The two key sets of one place have keys of their own. -/
theorem ideIndex_other (k : IdeKeyLoc) : ideIndex k k.keySet.toNat ≠ ideIndex k (1 - k.keySet.toNat) := by
  have hset := k.keySet.isLt
  rw [ideIndex, ideIndex]
  omega

theorem streamByte_eq (x : IdeStream) : streamByte x = (if x.bar0 then 1 else 0) + (if x.bar2 then 2 else 0) +
    (if x.pcrc then 4 else 0) + (if x.teeLimited then 8 else 0) := by
  rw [streamByte, boolNat, boolNat, boolNat, boolNat, mul_ite, mul_ite, mul_ite]

theorem ideKey_touchDoe (s : State) (id : BitVec 32) (n : Nat) : (s.touchDoe id).ideKey n = s.ideKey n := rfl

section
variable {k : IdeKeyLoc} {s : State}

theorem keyProgEffect_known (h : ideLocOk k = true) (w : BitVec 256) : keyProgEffect k w s =
    (s.setIdeKey (ideIndex k k.keySet.toNat) ⟨w, true, false⟩).doe [0] := if_pos h

theorem keyProgEffect_unknown (h : ¬ ideLocOk k = true) (w : BitVec 256) : keyProgEffect k w s = s.doe [3, 1] :=
  if_neg h

theorem kSetStopEffect_known (h : ideLocOk k = true) : kSetStopEffect k s =
    (s.setIdeKey (ideIndex k k.keySet.toNat) .none).doe [0] := if_pos h

theorem kSetStopEffect_unknown (h : ¬ ideLocOk k = true) : kSetStopEffect k s = s.doe [3, 1] := if_neg h

theorem kSetGoEffect_known (h : ideLocOk k = true) (hp : (s.ideKey (ideIndex k k.keySet.toNat)).programmed = true)
    (x : IdeStream) : kSetGoEffect k x s =
    (((s.setIdeKey (ideIndex k k.keySet.toNat)
        { s.ideKey (ideIndex k k.keySet.toNat) with inUse := true }).setIdeKey (ideIndex k (1 - k.keySet.toNat))
        { s.ideKey (ideIndex k (1 - k.keySet.toNat)) with inUse := false }).setStream k.stream.toNat x).doe [0] := by
  rw [kSetGoEffect, h, hp]
  rfl

theorem kSetGoEffect_refused
    (h : ¬ ideLocOk k = true ∨ (s.ideKey (ideIndex k k.keySet.toNat)).programmed = false) (x : IdeStream) :
    kSetGoEffect k x s = s.doe [3, 1] :=
  if_neg (by rcases h with h | h <;> simp [h])

end

/-- K_SET_GO once the session is renewed, with the keys written out. -/
theorem kSetGoEffect_touchDoe {k : IdeKeyLoc} {s : State} (h : ideLocOk k = true)
    (hp : (s.ideKey (ideIndex k k.keySet.toNat)).programmed = true) (x : IdeStream) (id : BitVec 32) :
    kSetGoEffect k x (s.touchDoe id) = { s with sec := { s.sec with
      sessions := (s.touchDoe id).sec.sessions
      ide := smapPut IdeKey.none (smapPut IdeKey.none s.sec.ide (ideIndex k k.keySet.toNat)
        { s.ideKey (ideIndex k k.keySet.toNat) with inUse := true }) (ideIndex k (1 - k.keySet.toNat))
        { s.ideKey (ideIndex k (1 - k.keySet.toNat)) with inUse := false }
      ideStreams := smapPut noStream s.sec.ideStreams k.stream.toNat x
      doeAnswer := [0] } } := by
  rw [kSetGoEffect_known (s := s.touchDoe id) h hp]
  simp only [ideKey_touchDoe, State.doe, State.setStream, State.setIdeKey]
  rfl

/-! ### The TDI -/

section
variable (s : State) (id : BitVec 32) (a b : TdiState)

theorem tdiTo_touchDoe : ((s.touchDoe id).tdiTo a).doe [0] = { s with sec := { s.sec with
    sessions := touchSession s.sec.sessions id s.refclk, tdi := a, doeAnswer := [0] } } := by
  dsimp only [State.doe, State.tdiTo, State.touchDoe]

theorem tdiMove_touchDoe : tdiMove a b (s.touchDoe id) = if s.sec.tdi = a then
      { s with sec := { s.sec with
        sessions := touchSession s.sec.sessions id s.refclk, tdi := b, doeAnswer := [0] } }
    else { s with sec := { s.sec with
      sessions := touchSession s.sec.sessions id s.refclk, doeAnswer := [3, 1] } } := by
  rw [← tdiTo_touchDoe]
  rfl

end

/-! ### The requests -/

section
variable (id : BitVec 32) (k : IdeKeyLoc) (s : State)

theorem exec_query : exec (.query id) s = inSession .doe id (fun s => s.doe (0 :: ([2, 0] ++
    [0, 1].map fun k => BitVec.ofNat 8 (streamByte (smapGet noStream s.sec.ideStreams k))))) s := rfl

theorem exec_keyProg (w : BitVec 256) : exec (.keyProg id k w) s = inSession .doe id (keyProgEffect k w) s := rfl

theorem exec_kSetGo (x : IdeStream) : exec (.kSetGo id k x) s = inSession .doe id (kSetGoEffect k x) s := rfl

theorem exec_kSetStop : exec (.kSetStop id k) s = inSession .doe id (kSetStopEffect k) s := rfl

theorem exec_getTdispVersion :
    exec (.getTdispVersion id) s = inSession .doe id (fun s => s.doe [0, 0x10]) s := rfl

theorem exec_getTdispCapabilities :
    exec (.getTdispCapabilities id) s = inSession .doe id (fun s => s.doe [0, 1, 7]) s := rfl

theorem exec_lockInterfaceRequest :
    exec (.lockInterfaceRequest id) s = inSession .doe id (tdiMove .unlocked .locked) s := rfl

theorem exec_startInterfaceRequest :
    exec (.startInterfaceRequest id) s = inSession .doe id (tdiMove .locked .run) s := rfl

theorem exec_stopInterfaceRequest :
    exec (.stopInterfaceRequest id) s = inSession .doe id (fun s => (s.tdiTo .unlocked).doe [0]) s := rfl

theorem exec_getDeviceInterfaceReport :
    exec (.getDeviceInterfaceReport id) s = inSession .doe id (fun s => s.doe (0 :: reportBytes s)) s := rfl

theorem exec_getDeviceInterfaceState : exec (.getDeviceInterfaceState id) s =
    inSession .doe id (fun s => s.doe [0, BitVec.ofNat 8 (tdiCode s.sec.tdi)]) s := rfl

end

/-- The requests of IDE_KM and TDISP in session `id`. -/
def ideRequest (id : BitVec 32) (i : Instr) : Prop :=
  i = .query id ∨ (∃ k w, i = .keyProg id k w) ∨ (∃ k x, i = .kSetGo id k x) ∨ (∃ k, i = .kSetStop id k) ∨
    i = .getTdispVersion id ∨ i = .getTdispCapabilities id ∨ i = .lockInterfaceRequest id ∨
    i = .getDeviceInterfaceReport id ∨ i = .getDeviceInterfaceState id ∨ i = .startInterfaceRequest id ∨
    i = .stopInterfaceRequest id

/-- Each of them is an effect in its session. -/
theorem ideRequest_inSession {id : BitVec 32} {i : Instr} (h : ideRequest id i) (s : State) :
    ∃ f, exec i s = inSession .doe id f s := by
  rcases h with rfl | ⟨k, w, rfl⟩ | ⟨k, x, rfl⟩ | ⟨k, rfl⟩ | rfl | rfl | rfl | rfl | rfl | rfl | rfl
  · exact ⟨_, exec_query ..⟩
  · exact ⟨_, exec_keyProg ..⟩
  · exact ⟨_, exec_kSetGo ..⟩
  · exact ⟨_, exec_kSetStop ..⟩
  · exact ⟨_, exec_getTdispVersion ..⟩
  · exact ⟨_, exec_getTdispCapabilities ..⟩
  · exact ⟨_, exec_lockInterfaceRequest ..⟩
  · exact ⟨_, exec_getDeviceInterfaceReport ..⟩
  · exact ⟨_, exec_getDeviceInterfaceState ..⟩
  · exact ⟨_, exec_startInterfaceRequest ..⟩
  · exact ⟨_, exec_stopInterfaceRequest ..⟩

/-- Settles O59: outside a session all of them answer alike; inside, each is its effect once the session is renewed. -/
theorem ideAndTdisp : Obligations.IdeAndTdisp := by
  unfold Obligations.IdeAndTdisp
  intro id s ready inside l told stream all
  refine ⟨fun i hi => ?anywhere, fun hready hin => ?_⟩
  case anywhere =>
    obtain ⟨f, hf⟩ := ideRequest_inSession hi s
    exact ⟨fun hoff => hf.trans (inSession_doe_off hoff), fun hready hout => hf.trans (inSession_doe_out hready hout)⟩
  have hin' : ∀ {i f t}, exec i s = inSession .doe id f s → f (s.touchDoe id) = t → exec i s = .next t :=
    fun hf ht => hf.trans ((inSession_doe hready hin).trans (congrArg _ ht))
  refine ⟨hin' (exec_query ..) ?query, hin' (exec_getTdispVersion ..) rfl, hin' (exec_getTdispCapabilities ..) rfl,
    hin' (exec_getDeviceInterfaceReport ..) rfl, hin' (exec_getDeviceInterfaceState ..) ?state,
    hin' (exec_lockInterfaceRequest ..) ?lock, hin' (exec_startInterfaceRequest ..) ?start,
    hin' (exec_stopInterfaceRequest ..) (tdiTo_touchDoe ..), fun k => ?keys⟩
  case query =>
    simp only [streamByte_eq]
    rfl
  case state =>
    change (s.touchDoe id).doe [0, BitVec.ofNat 8 (tdiCode s.sec.tdi)] = _
    cases s.sec.tdi <;> rfl
  case lock => exact tdiMove_touchDoe ..
  case start => exact tdiMove_touchDoe ..
  case keys =>
    have hknown := ideLocOk_iff k
    refine ⟨ideIndex_other k, ?unknown, fun hp x => hin' (exec_kSetGo ..) ?noKey,
      fun h w => hin' (exec_keyProg ..) ?prog, fun h => hin' (exec_kSetStop ..) ?stop,
      fun h hp x => hin' (exec_kSetGo ..) ?go⟩
    case noKey => exact kSetGoEffect_refused (s := s.touchDoe id) (.inr hp) x
    case prog =>
      rw [keyProgEffect_known (hknown.mpr h), State.doe, State.setIdeKey, State.touchDoe]
      rfl
    case stop =>
      rw [kSetStopEffect_known (hknown.mpr h), State.doe, State.setIdeKey, State.touchDoe]
      rfl
    case go => exact kSetGoEffect_touchDoe (hknown.mpr h) hp x id
    intro hun i hi
    have hunknown := mt hknown.mp hun
    rcases hi with ⟨w, rfl⟩ | ⟨x, rfl⟩ | rfl
    · exact hin' (exec_keyProg ..) (keyProgEffect_unknown hunknown w)
    · exact hin' (exec_kSetGo ..) (kSetGoEffect_refused (.inl hunknown) x)
    · exact hin' (exec_kSetStop ..) (kSetStopEffect_unknown hunknown)

end Sys2Proof.Proofs
end

section
/-! PROOF. Tenant commands: what is accepted, what it begins, and the responses that fall due (R382–R400). -/

namespace Sys2Proof.Proofs
open Sys2Proof Sys2Proof.Machine Sys2Proof.Laws

/-! ### What skipping OUT descriptors leaves -/

/-- What belongs to the tenant: the security state, the bytes of device memory, and the REFCLK count that responses
are due by. -/
def tenantPart (s : State) : Security × SMap Byte × DWord := (s.sec, s.mem.bytes, s.refclk)

theorem tenantPart_ite {p : Prop} [Decidable p] {s a b : State} (ha : tenantPart a = tenantPart s)
    (hb : tenantPart b = tenantPart s) : tenantPart (if p then a else b) = tenantPart s := by
  split <;> assumption

section
variable (s : State) (n : Nat)

@[simp] theorem tenantPart_emit (src code l) : tenantPart (s.emit src code l) = tenantPart s := by simp [tenantPart]

@[simp] theorem tenantPart_setRing (r) : tenantPart (s.setRing n r) = tenantPart s := rfl

@[simp] theorem tenantPart_hostWrite (a b) : tenantPart (s.hostWrite a b) = tenantPart s := rfl

@[simp] theorem tenantPart_signal : tenantPart (s.signal n) = tenantPart s := by
  unfold State.signal
  dsimp only
  split
  · split <;> rfl
  · rfl

@[simp] theorem tenantPart_ringVisible : tenantPart (s.ringVisible n) = tenantPart s := by
  have signalled (t : State) : tenantPart (t.ringSignal n) = tenantPart t := by simp [State.ringSignal]
  exact tenantPart_ite ((signalled _).trans rfl) rfl

@[simp] theorem tenantPart_skipRing (f k) : tenantPart (State.skipRing f k s) = tenantPart s := by
  induction f generalizing s with
  | zero => rfl
  | succ f ih =>
    unfold State.skipRing
    split
    · simp [ih, State.skipDescriptor, State.ringAdvance]
    · rfl

@[simp] theorem tenantPart_skipOut : tenantPart s.skipOut = tenantPart s :=
  foldl_keeps (fun _ _ => tenantPart_skipRing ..) ..

end

theorem tenantPart_discardCartoon (s : State) : tenantPart s.discardCartoon = tenantPart s := by
  unfold State.discardCartoon
  dsimp only
  split
  · exact tenantPart_skipOut _
  · rfl

theorem discardCartoon_seq (s : State) : s.discardCartoon.seq.cartoon = none ∧ s.discardCartoon.seq.state = .idle := by
  unfold State.discardCartoon
  dsimp only
  split
  · exact ⟨skipOut_cartoon _, skipOut_state _⟩
  · exact ⟨rfl, rfl⟩

/-! ### The key-store updates that wait -/

/-- Taking up an update changes which are under way and wait, and what the seal engine works for. -/
theorem nextJob_eq (s : State) : ∃ job waiting engine,
    s.nextJob = { s with sec := { s.sec with job := job, waiting := waiting, sealEngine := engine } } := by
  unfold State.nextJob
  split
  · exact ⟨_, _, _, rfl⟩
  · split <;> exact ⟨_, _, _, rfl⟩

theorem addJob_eq (s : State) (j : CommitJob) : ∃ job waiting engine,
    s.addJob j = { s with sec := { s.sec with job := job, waiting := waiting, sealEngine := engine } } :=
  nextJob_eq { s with sec := { s.sec with waiting := s.sec.waiting ++ [j] } }

/-- Behind an update or a scrub a new one waits. -/
theorem addJob_waits {s : State} (h : s.sec.job.isSome = true ∨ s.sec.scrub.isSome = true) (j : CommitJob) :
    s.addJob j = { s with sec := { s.sec with waiting := s.sec.waiting ++ [j] } } :=
  if_pos ((Bool.or_eq_true ..).mpr h)

/-- Alone it is taken up. -/
theorem addJob_taken {s : State} (hjob : s.sec.job = none) (hscrub : s.sec.scrub = none) (hwait : s.sec.waiting = [])
    {j : CommitJob} (hj : (j.purpose == .begin_ || j.purpose == .end_ || s.sec.tenant.isSome) = true) :
    s.addJob j = State.sealSync { s with sec := { s.sec with job := some { j with tenant := s.jobTenant j } } } := by
  have hnext : (s.sec.waiting ++ [j]).filter
      (fun j => j.purpose == .begin_ || j.purpose == .end_ || s.sec.tenant.isSome) = [j] := by
    rw [hwait]
    exact List.filter_cons_of_pos hj
  unfold State.addJob State.nextJob
  rw [if_neg (by simp [hjob, hscrub])]
  simp only [hnext]
  rw [← hwait]
  rfl

/-! ### The commands -/

section
variable (r : TenantReq) (s : State)

/-- When each command is accepted, once its header names it. -/
def beginAccepted : Bool :=
  s.sec.tenant.isNone && s.changeOk && decide (48 ≤ r.payload.length) && s.policyOk (r.payload.drop 48)

def endAccepted : Bool := s.sec.tenant.isSome && s.changeOk && r.payload.isEmpty

def rekeyAccepted : Bool :=
  s.isTenantSession r.session && s.sec.tenant.isSome && s.changeOk && r.payload.length == 32

def policyAccepted : Bool :=
  s.isTenantSession r.session && s.sec.tenant.isSome && s.quiet && s.policyOk r.payload

def bindAccepted : Bool :=
  s.sec.tenant.isSome && s.sec.tenantSession.isNone && !s.busyRun && s.bindProof r.session == some r.payload

theorem exec_tenantBegin : exec (.tenantBegin r) s = tenantCommand r 1 (beginAccepted r)
    (fun s => s.beginChange ⟨.begin_, r.session, some (beginTenant r.payload), false⟩) (fun _ => []) s := rfl

theorem exec_tenantEnd : exec (.tenantEnd r) s = tenantCommand r 2 (endAccepted r)
    (fun s => s.beginChange ⟨.end_, r.session, none, false⟩) (fun _ => []) s := rfl

theorem exec_rekey : exec (.rekey r) s = tenantCommand r 3 (rekeyAccepted r)
    (fun s => s.beginChange ⟨.rekey, r.session, s.sec.tenant.map fun t => rekeyed t r.payload, false⟩)
    (fun _ => []) s := rfl

theorem exec_policySet : exec (.policySet r) s =
    tenantCommand r 4 (policyAccepted r) (policySetEffect r) (fun _ => []) s := rfl

theorem exec_importBegin : exec (.importBegin r) s =
    tenantCommand r 5 (importOk r) (importEffect r) (fun _ => []) s := rfl

theorem exec_status : exec (.status r) s =
    tenantCommand r 6 (fun _ => r.payload.isEmpty) id (statusBytes r.session) s := rfl

theorem exec_bind : exec (.bind r) s = tenantCommand r 7 (bindAccepted r)
    (fun s => s.setTenantSession (some r.session)) (fun _ => []) s := rfl

end

/-! ### What a tenant command answers -/

section
variable {r : TenantReq} {op : Nat} {ok : State → Bool} {f : State → State} {p : State → List Byte} {s : State}

theorem opcodeNames_iff : opcodeNames r op = true ↔
    r.opcode.toNat = op ∧ r.payloadLen.toNat = r.payload.length := by simp [opcodeNames]

theorem tenantCommand_off (h : ¬ s.boot.phase = .ready) : tenantCommand r op ok f p s = .next s := if_neg h

variable (h : s.boot.phase = .ready) (ho : ∃ x ∈ s.sec.sessions, x.id = r.session ∧ x.open_ = true)
include h ho

theorem tenantCommand_accepted (hv : r.vendor = Config.pciVendor)
    (hn : r.opcode.toNat = op ∧ r.payloadLen.toNat = r.payload.length) (hok : ok (s.touchDoe r.session) = true) :
    tenantCommand r op ok f p s =
      .next ((f (s.touchDoe r.session)).respond r 0 (p (s.touchDoe r.session))) := by
  rw [tenantCommand_in h ((sessionOpen_iff ..).mpr ho) hv, opcodeNames_iff.mpr hn, hok]
  rfl

theorem tenantCommand_refused (hv : r.vendor = Config.pciVendor)
    (hno : ¬ ((r.opcode.toNat = op ∧ r.payloadLen.toNat = r.payload.length) ∧ ok (s.touchDoe r.session) = true)) :
    tenantCommand r op ok f p s = .next ((s.touchDoe r.session).respond r 1 []) := by
  rw [tenantCommand_in h ((sessionOpen_iff ..).mpr ho) hv, if_neg]
  rwa [Bool.and_eq_true, opcodeNames_iff]

end

/-! ### A device that is armed or runs -/

section
variable {r : TenantReq} {s : State}

theorem changeOk_of_busy (h : s.busyRun = true) : s.changeOk = false := by
  rw [State.changeOk, quiet_not_busy, h]
  rfl

theorem beginAccepted_of_busy (h : s.busyRun = true) : beginAccepted r s = false := by
  simp [beginAccepted, changeOk_of_busy h]

theorem endAccepted_of_busy (h : s.busyRun = true) : endAccepted r s = false := by
  simp [endAccepted, changeOk_of_busy h]

theorem rekeyAccepted_of_busy (h : s.busyRun = true) : rekeyAccepted r s = false := by
  simp [rekeyAccepted, changeOk_of_busy h]

theorem policyAccepted_of_busy (h : s.busyRun = true) : policyAccepted r s = false := by
  simp [policyAccepted, quiet_not_busy, h]

theorem importOk_of_busy (h : s.busyRun = true) : importOk r s = false := by
  simp [importOk, quiet_not_busy, h]

theorem bindAccepted_of_busy (h : s.busyRun = true) : bindAccepted r s = false := by
  simp [bindAccepted, h]

end

/-- Settles O57: no condition but STATUS's own holds of a busy device. -/
theorem runRefusesTenants : Obligations.RunRefusesTenants := by
  unfold Obligations.RunRefusesTenants
  intro r s c op hready hin hv hrun hc l due
  have hbusy : (s.touchDoe r.session).busyRun = true := (busyRun_iff s).mpr hrun
  have refused {n ok f p} (h : exec c s = tenantCommand r n ok f p s) (hok : ok (s.touchDoe r.session) = false) :
      exec c s = .next (due 1 []) :=
    h.trans (tenantCommand_refused hready hin hv fun hall => Bool.false_ne_true (hok.symm.trans hall.2))
  simp only [List.mem_cons, Prod.mk.injEq, List.not_mem_nil, or_false] at hc
  rcases hc with ⟨rfl, rfl⟩ | ⟨rfl, rfl⟩ | ⟨rfl, rfl⟩ | ⟨rfl, rfl⟩ | ⟨rfl, rfl⟩ | ⟨rfl, rfl⟩ | ⟨rfl, rfl⟩
  · exact ⟨fun _ => refused (exec_tenantBegin ..) (beginAccepted_of_busy hbusy), fun h => absurd h (by decide)⟩
  · exact ⟨fun _ => refused (exec_tenantEnd ..) (endAccepted_of_busy hbusy), fun h => absurd h (by decide)⟩
  · exact ⟨fun _ => refused (exec_rekey ..) (rekeyAccepted_of_busy hbusy), fun h => absurd h (by decide)⟩
  · exact ⟨fun _ => refused (exec_policySet ..) (policyAccepted_of_busy hbusy), fun h => absurd h (by decide)⟩
  · exact ⟨fun _ => refused (exec_importBegin ..) (importOk_of_busy hbusy), fun h => absurd h (by decide)⟩
  · exact ⟨fun _ => refused (exec_bind ..) (bindAccepted_of_busy hbusy), fun h => absurd h (by decide)⟩
  · refine ⟨fun h => absurd rfl h, fun _ hop hlen hp =>
      ⟨statusBytes r.session (s.touchDoe r.session), (exec_status r s).trans ?_⟩⟩
    exact tenantCommand_accepted hready hin hv (by simp [hop, hlen, hp]) (by simp [hp])

/-! ### When each command is accepted -/

section
variable {r : TenantReq} {s : State}

theorem changeOk_iff : s.changeOk = true ↔
    (s.seq.state = .idle ∨ s.seq.state = .loaded ∨ s.seq.state = .faulted) ∧ s.seamRetraining = false := by
  rw [State.changeOk, Bool.and_eq_true, quiet_iff, Bool.not_eq_true']

theorem isTenantSession_iff (id : BitVec 32) : s.isTenantSession id = true ↔ s.sec.tenantSession = some id := beq_iff_eq

theorem beginAccepted_iff : beginAccepted r s = true ↔ s.sec.tenant = none ∧
    ((s.seq.state = .idle ∨ s.seq.state = .loaded ∨ s.seq.state = .faulted) ∧ s.seamRetraining = false) ∧
    48 ≤ r.payload.length ∧ s.policyOk (r.payload.drop 48) = true := by
  rw [beginAccepted, Bool.and_eq_true, Bool.and_eq_true, Bool.and_eq_true, Option.isNone_iff_eq_none, changeOk_iff,
    decide_eq_true_iff, and_assoc, and_assoc]

theorem endAccepted_iff : endAccepted r s = true ↔ s.sec.tenant.isSome = true ∧
    ((s.seq.state = .idle ∨ s.seq.state = .loaded ∨ s.seq.state = .faulted) ∧ s.seamRetraining = false) ∧
    r.payload = [] := by
  rw [endAccepted, Bool.and_eq_true, Bool.and_eq_true, changeOk_iff, List.isEmpty_iff, and_assoc]

theorem rekeyAccepted_iff : rekeyAccepted r s = true ↔ s.sec.tenantSession = some r.session ∧
    s.sec.tenant.isSome = true ∧
    ((s.seq.state = .idle ∨ s.seq.state = .loaded ∨ s.seq.state = .faulted) ∧ s.seamRetraining = false) ∧
    r.payload.length = 32 := by
  rw [rekeyAccepted, Bool.and_eq_true, Bool.and_eq_true, Bool.and_eq_true, isTenantSession_iff, changeOk_iff,
    beq_iff_eq, and_assoc, and_assoc]

theorem policyAccepted_iff : policyAccepted r s = true ↔ s.sec.tenantSession = some r.session ∧
    s.sec.tenant.isSome = true ∧ (s.seq.state = .idle ∨ s.seq.state = .loaded ∨ s.seq.state = .faulted) ∧
    s.policyOk r.payload = true := by
  rw [policyAccepted, Bool.and_eq_true, Bool.and_eq_true, Bool.and_eq_true, isTenantSession_iff, quiet_iff,
    and_assoc, and_assoc]

theorem importOk_iff : importOk r s = true ↔ s.sec.tenantSession = some r.session ∧
    (s.seq.state = .idle ∨ s.seq.state = .loaded ∨ s.seq.state = .faulted) ∧ s.sec.importJob = none ∧
    r.payload.length = 8 ∧ ofLe r.payload % 64 = 0 ∧
    s.blobOk (blobHeader (s.hostRead (ofLe r.payload) 64)) = true := by
  rw [importOk, importAddr, Bool.and_eq_true, Bool.and_eq_true, Bool.and_eq_true, Bool.and_eq_true, Bool.and_eq_true,
    isTenantSession_iff, quiet_iff, Option.isNone_iff_eq_none, beq_iff_eq, beq_iff_eq, and_assoc, and_assoc, and_assoc,
    and_assoc]

/-- The proof is that of the installed tenant and of the session's transcript. -/
theorem bindProof_iff (id : BitVec 32) (b : List Byte) : s.bindProof id = some b ↔ ∃ t x, s.sec.tenant = some t ∧
    s.sec.sessions.find? (fun x => decide (x.id = id)) = some x ∧
    hmac384 (bindKey t) (leBytes 48 x.transcript.toNat) = b := by
  unfold State.bindProof
  change (match s.sec.tenant, s.sec.sessions.find? (fun x => decide (x.id = id)) with
    | some t, some x => some (hmac384 (bindKey t) (leBytes 48 x.transcript.toNat))
    | _, _ => none) = some b ↔ _
  cases s.sec.tenant <;> cases s.sec.sessions.find? (fun x => decide (x.id = id)) <;> simp

theorem bindAccepted_iff : bindAccepted r s = true ↔ s.sec.tenantSession = none ∧ s.busyRun = false ∧
    ∃ t x, s.sec.tenant = some t ∧ s.sec.sessions.find? (fun x => decide (x.id = r.session)) = some x ∧
      hmac384 (bindKey t) (leBytes 48 x.transcript.toNat) = r.payload := by
  rw [bindAccepted, Bool.and_eq_true, Bool.and_eq_true, Bool.and_eq_true, Option.isNone_iff_eq_none,
    Bool.not_eq_true', beq_iff_eq, bindProof_iff]
  constructor
  · rintro ⟨⟨⟨-, hnone⟩, hbusy⟩, hproof⟩
    exact ⟨hnone, hbusy, hproof⟩
  · rintro ⟨hnone, hbusy, t, x, ht, hproof⟩
    exact ⟨⟨⟨by rw [ht]; rfl, hnone⟩, hbusy⟩, t, x, ht, hproof⟩

end

/-! ### What an accepted change begins -/

/-- From `s` to `t` a tenant change begins: its update `j` is under way or waits. -/
def changeBegins (s t : State) (j : CommitJob) : Prop :=
  t.seq.cartoon = none ∧ t.seq.state = .idle ∧ t.sec.bar2Closed = true ∧
    ((s.sec.job = none ∧ s.sec.scrub = none ∧ s.sec.waiting = []) → t.sec.job = some j ∧ t.sec.waiting = []) ∧
    (s.sec.job.isSome = true ∨ s.sec.scrub.isSome = true → t.sec.job = s.sec.job ∧
      t.sec.waiting = s.sec.waiting ++ [j]) ∧
    t.sec.tenant = s.sec.tenant ∧ t.sec.sealed = s.sec.sealed ∧ t.sec.sessions = s.sec.sessions ∧
    t.sec.commitCount = s.sec.commitCount ∧ t.mem.bytes = s.mem.bytes ∧ t.sec.slots = s.sec.slots ∧
    t.sec.responses = s.sec.responses

/-- An update is taken up at once, or waits behind what is under way. -/
theorem addJob_begins {s : State} {j : CommitJob}
    (hj : (j.purpose == .begin_ || j.purpose == .end_ || s.sec.tenant.isSome) = true)
    (hown : s.jobTenant j = j.tenant) :
    ((s.sec.job = none ∧ s.sec.scrub = none ∧ s.sec.waiting = []) →
      (s.addJob j).sec.job = some j ∧ (s.addJob j).sec.waiting = []) ∧
    (s.sec.job.isSome = true ∨ s.sec.scrub.isSome = true →
      (s.addJob j).sec.job = s.sec.job ∧ (s.addJob j).sec.waiting = s.sec.waiting ++ [j]) := by
  constructor
  · rintro ⟨hjob, hscrub, hwait⟩
    rw [addJob_taken hjob hscrub hwait hj, hown]
    exact ⟨rfl, hwait⟩
  · intro h
    rw [addJob_waits h]
    exact ⟨rfl, rfl⟩

theorem beginChange_begins {s : State} {j : CommitJob}
    (hj : (j.purpose == .begin_ || j.purpose == .end_ || s.sec.tenant.isSome) = true)
    (hown : s.jobTenant j = j.tenant) : changeBegins s (s.beginChange j) j := by
  obtain ⟨hsec, hbytes, -⟩ : s.discardCartoon.sec = s.sec ∧ s.discardCartoon.mem.bytes = s.mem.bytes ∧ _ := by
    simpa only [tenantPart, Prod.mk.injEq] using tenantPart_discardCartoon s
  obtain ⟨hcartoon, hidle⟩ := discardCartoon_seq s
  let d : State := { s.discardCartoon with sec := { s.discardCartoon.sec with bar2Closed := true } }
  have hd : d.sec = { s.sec with bar2Closed := true } := congrArg (fun x : Security => { x with bar2Closed := true }) hsec
  have hsame : d.jobTenant j = j.tenant := by
    rw [← hown]
    unfold State.jobTenant
    rw [hd]
  obtain ⟨hfree, hwaits⟩ := addJob_begins (s := d) (by rw [hd]; exact hj) hsame
  rw [hd] at hfree hwaits
  obtain ⟨job, waiting, engine, hadd⟩ := addJob_eq d j
  rw [show s.beginChange j = d.addJob j from rfl]
  refine ⟨?_, ?_, ?_, hfree, hwaits, ?_⟩ <;> rw [hadd]
  · exact hcartoon
  · exact hidle
  · dsimp only
    rw [hd]
    exact ⟨rfl, rfl, rfl, rfl, hbytes, rfl, rfl⟩

theorem beginChange_refclk (s : State) (j : CommitJob) : (s.beginChange j).refclk = s.refclk := by
  obtain ⟨-, -, hclk⟩ : _ ∧ _ ∧ s.discardCartoon.refclk = s.refclk := by
    simpa only [tenantPart, Prod.mk.injEq] using tenantPart_discardCartoon s
  obtain ⟨job, waiting, engine, hadd⟩ :=
    addJob_eq { s.discardCartoon with sec := { s.discardCartoon.sec with bar2Closed := true } } j
  exact (congrArg State.refclk hadd).trans hclk

/-! ### The new policy -/

/-- The update that POLICY_SET begins. -/
def policyJob (r : TenantReq) (s : State) : CommitJob :=
  ⟨.policy, r.session, s.sec.tenant.map fun x => { x with policy := r.payload }, false⟩

theorem jobTenant_policyJob (r : TenantReq) (s : State) : s.jobTenant (policyJob r s) = (policyJob r s).tenant := by
  unfold State.jobTenant policyJob
  cases s.sec.tenant <;> rfl

section
variable {r : TenantReq} {s : State}

/-- The device once a cartoon that the policy does not approve is discarded. -/
def policyHeld (r : TenantReq) (s : State) : State := if s.cartoonApproved r.payload then s else s.discardCartoon

theorem tenantPart_policyHeld : tenantPart (policyHeld r s) = tenantPart s :=
  tenantPart_ite rfl (tenantPart_discardCartoon s)

theorem policySetEffect_eq : policySetEffect r s = (policyHeld r s).addJob (policyJob r s) := by
  have hsec : (policyHeld r s).sec = s.sec := congrArg Prod.fst tenantPart_policyHeld
  rw [policyJob, ← hsec]
  rfl

theorem cartoonApproved_iff {k : Cartoon} (h : s.seq.cartoon = some k) (p : List Byte) :
    s.cartoonApproved p = true ↔ k.digest.toNat ∈ policyDigests p := by
  rw [State.cartoonApproved, h]
  exact List.contains_iff_mem

theorem policySetEffect_approved (h : s.cartoonApproved r.payload = true) :
    policySetEffect r s = s.addJob (policyJob r s) := by
  rw [policySetEffect_eq, policyHeld, if_pos h]

/-- A cartoon that the policy does not approve is gone. -/
theorem policySetEffect_seq (h : ¬ s.cartoonApproved r.payload = true) :
    (policySetEffect r s).seq.cartoon = none ∧ (policySetEffect r s).seq.state = .idle := by
  obtain ⟨job, waiting, engine, hadd⟩ := addJob_eq s.discardCartoon (policyJob r s)
  rw [policySetEffect_eq, policyHeld, if_neg h, hadd]
  exact discardCartoon_seq s

end

/-! ### Responses -/

theorem length_leBytes (n x : Nat) : (leBytes n x).length = n := by
  induction n generalizing x with
  | zero => rfl
  | succ n ih => exact congrArg (· + 1) (ih _)

/-- A response carries the command's opcode and tag, and is due 400 µs after the request. -/
theorem respond_due {r : TenantReq} {s t : State} {op : Nat} (hclk : t.refclk = s.refclk) (hop : r.opcode.toNat = op)
    (result : Nat) (p : List Byte) : t.respond r result p = { t with sec := { t.sec with
      responses := t.sec.responses ++ [⟨s.refclk + 40000, r.session,
        leBytes 1 op ++ leBytes 1 result ++ leBytes 2 p.length ++ leBytes 4 r.tag.toNat ++ p⟩] } } := by
  rw [← hclk, ← hop]
  rfl

/-- The bits of STATUS as a sum. -/
theorem statusBytes_eq (id : BitVec 32) (s : State) : statusBytes id s =
    leBytes 28 ((if s.sec.sealed then 1 else 0) + (if s.sec.tenantSession = some id then 2 else 0) +
      (if s.sec.sealEngine.held = [] then 0 else 4) +
      (if s.sec.tenantSession = some id then 8 * importCode s.sec.importState + 2 ^ 64 * s.sec.importDone.toNat else 0) +
      2 ^ 16 * s.sec.commitCount.toNat + 2 ^ 96 * s.fingerprintNow) := by
  have hheld : boolNat s.sealBusy <<< 2 = if s.sec.sealEngine.held = [] then 0 else 4 := by
    unfold State.sealBusy
    cases s.sec.sealEngine.held <;> rfl
  have hsealed : boolNat s.sec.sealed = if s.sec.sealed then 1 else 0 := rfl
  dsimp only [statusBytes]
  refine congrArg (leBytes 28) ?_
  by_cases hown : s.sec.tenantSession = some id
  · rw [hheld, hsealed, (isTenantSession_iff id).mpr hown, if_pos hown, if_pos hown]
    simp only [boolNat, if_true, Nat.shiftLeft_eq]
    omega
  · rw [hheld, hsealed, eq_false_of_ne_true (mt (isTenantSession_iff id).mp hown), if_neg hown, if_neg hown]
    simp only [boolNat, Bool.false_eq_true, if_false, Nat.shiftLeft_eq]
    omega

/-- The oldest response is sent when it is due. -/
def sentResponse (d : DueResponse) (rest : List DueResponse) (s : State) : State :=
  { (s.advanceRef d.due).doe d.bytes with sec := { ((s.advanceRef d.due).doe d.bytes).sec with responses := rest } }

theorem tenantResponseEffect_eq (d : DueResponse) (rest : List DueResponse) (s : State) :
    tenantResponseEffect d rest s = if d.bytes[1]? = some 1 then
      (sentResponse d rest s).emit srcMss 0x0420 [f64 (d.bytes[0]?.getD 0).toNat] else sentResponse d rest s := by
  have hsecond : nth 0 d.bytes 1 = 1 ↔ d.bytes[1]? = some 1 := by
    unfold nth
    cases d.bytes[1]? <;> simp
  unfold tenantResponseEffect
  simp only [hsecond]
  rfl

theorem sentResponse_sec (d : DueResponse) (rest : List DueResponse) (s : State) :
    (sentResponse d rest s).sec = { s.sec with doeAnswer := d.bytes, responses := rest } := by
  rw [sentResponse, advanceRef_eq]
  rfl

/-- Settles O56: each command is refused or has its effect in its session, and its response falls due. -/
theorem tenantCommands : Obligations.TenantCommands := by
  unfold Obligations.TenantCommands
  intro r s ready inside l u due quiet free change named own ours p begins held beginOk endOk rekeyOk policyOk header
    importOk' proof bindOk newTenant any
  have isCommand : ∀ i, any i → ∃ op ok f pay, exec i s = tenantCommand r op ok f pay s := by
    rintro i (rfl | rfl | rfl | rfl | rfl | rfl | rfl)
    · exact ⟨_, _, _, _, exec_tenantBegin r s⟩
    · exact ⟨_, _, _, _, exec_tenantEnd r s⟩
    · exact ⟨_, _, _, _, exec_rekey r s⟩
    · exact ⟨_, _, _, _, exec_policySet r s⟩
    · exact ⟨_, _, _, _, exec_importBegin r s⟩
    · exact ⟨_, _, _, _, exec_status r s⟩
    · exact ⟨_, _, _, _, exec_bind r s⟩
  have refused {i op ok f pay} {c : Prop} (h : exec i s = tenantCommand r op ok f pay s) (hok : ok u = true ↔ c) :
      held i op c := fun hready hin hv hno =>
    (h.trans (tenantCommand_refused hready hin hv (mt (And.imp_right hok.mp) hno))).trans
      (congrArg _ (respond_due rfl rfl ..))
  have accepted {i op ok f pay} (h : exec i s = tenantCommand r op ok f pay s) (hready : ready) (hin : inside)
      (hv : ours) (hn : named op) (hok : ok u = true) (hclk : (f u).refclk = s.refclk) :
      exec i s = .next (due (f u) op 0 (pay u)) :=
    (h.trans (tenantCommand_accepted hready hin hv hn hok)).trans (congrArg _ (respond_due hclk hn.1 ..))
  have change_begins {j : CommitJob} (hj : (j.purpose == .begin_ || j.purpose == .end_ || s.sec.tenant.isSome) = true)
      (hown : u.jobTenant j = j.tenant) : changeBegins u (u.beginChange j) j := beginChange_begins hj hown
  refine ⟨fun i hi => ?answers, refused (exec_tenantBegin r s) beginAccepted_iff, refused (exec_tenantEnd r s) endAccepted_iff,
    refused (exec_rekey r s) rekeyAccepted_iff, refused (exec_policySet r s) policyAccepted_iff,
    refused (exec_importBegin r s) importOk_iff, refused (exec_status r s) List.isEmpty_iff,
    refused (exec_bind r s) bindAccepted_iff,
    fun hready hin hv hn hok => ⟨_, accepted (exec_tenantBegin r s) hready hin hv hn (beginAccepted_iff.mpr hok)
      (beginChange_refclk ..), change_begins rfl rfl⟩,
    fun hready hin hv hn hok => ⟨_, accepted (exec_tenantEnd r s) hready hin hv hn (endAccepted_iff.mpr hok)
      (beginChange_refclk ..), change_begins rfl rfl⟩,
    fun hready hin hv hn hok => ⟨_, accepted (exec_rekey r s) hready hin hv hn (rekeyAccepted_iff.mpr hok)
      (beginChange_refclk ..), change_begins ?installed ?rekeyed⟩,
    fun hready hin hv hn hok => ⟨_, accepted (exec_policySet r s) hready hin hv hn (policyAccepted_iff.mpr hok)
      ?policyClock, ?policy⟩,
    fun hready hin hv hn hok => accepted (exec_importBegin r s) hready hin hv hn (importOk_iff.mpr hok) rfl,
    fun hready hin hv hn hok => ⟨_, accepted (exec_status r s) hready hin hv hn (List.isEmpty_iff.mpr hok) rfl,
      length_leBytes .., statusBytes_eq ..⟩,
    fun hready hin hv hn hok => accepted (exec_bind r s) hready hin hv hn (bindAccepted_iff.mpr hok) rfl,
    fun hnone => ?noResponse, fun d rest hdue => ?response⟩
  case answers =>
    obtain ⟨op, ok, f, pay, h⟩ := isCommand i hi
    exact ⟨fun hoff => h.trans (tenantCommand_off hoff),
      fun hready hout => h.trans (tenantCommand_out hready (eq_false_of_ne_true (mt (sessionOpen_iff ..).mp hout))),
      fun hready hin hv => h.trans (tenantCommand_vendor hready ((sessionOpen_iff ..).mpr hin) hv)⟩
  case installed =>
    obtain ⟨-, hsome, -⟩ := hok
    exact hsome
  case rekeyed =>
    change (match CommitFor.rekey, s.sec.tenant.map (rekeyed · p) with
      | .rekey, some n => s.sec.tenant.map fun t => { t with tmk := n.tmk, generation := t.generation + 1 }
      | .policy, some n => s.sec.tenant.map fun t => { t with policy := n.policy }
      | _, t => t) = s.sec.tenant.map (rekeyed · p)
    cases s.sec.tenant <;> rfl
  case policyClock =>
    obtain ⟨job, waiting, engine, hadd⟩ := addJob_eq (policyHeld r u) (policyJob r u)
    rw [policySetEffect_eq, hadd]
    exact congrArg (fun x => x.2.2) (tenantPart_policyHeld (r := r) (s := u))
  case policy =>
    obtain ⟨-, hsome, -⟩ := hok
    obtain ⟨hsec, hbytes, -⟩ : (policyHeld r u).sec = u.sec ∧ (policyHeld r u).mem.bytes = u.mem.bytes ∧ _ := by
      simpa only [tenantPart, Prod.mk.injEq] using tenantPart_policyHeld (r := r) (s := u)
    have hown : (policyHeld r u).jobTenant (policyJob r u) = (policyJob r u).tenant := by
      rw [← jobTenant_policyJob]
      unfold State.jobTenant
      rw [hsec]
    obtain ⟨hfree, hwaits⟩ := addJob_begins (s := policyHeld r u) (j := policyJob r u) (by rw [hsec]; exact hsome) hown
    rw [hsec, ← policySetEffect_eq] at hfree hwaits
    obtain ⟨job, waiting, engine, hadd⟩ := addJob_eq (policyHeld r u) (policyJob r u)
    rw [← policySetEffect_eq] at hadd
    refine ⟨fun h => (hfree h).1, hwaits, ?_, ?_, ?_, fun k hk happroved => ?_,
      fun k hk hnot => policySetEffect_seq (mt (cartoonApproved_iff (s := u) hk p).mp hnot)⟩
    · rw [hadd]
      dsimp only
      rw [hsec]
    · rw [hadd]
      dsimp only
      rw [hsec]
    · rw [hadd]
      exact hbytes
    · rw [policySetEffect_approved ((cartoonApproved_iff (s := u) hk p).mpr happroved)]
      obtain ⟨job, waiting, engine, hadd⟩ := addJob_eq u (policyJob r u)
      rw [hadd]
  case noResponse =>
    change (match s.sec.responses with | d :: rest => _ | [] => _) = _
    rw [hnone]
  case response =>
    have hexec : exec .tenantResponse s = .next (tenantResponseEffect d rest s) := by
      change execTenantResponse s = _
      rw [execTenantResponse, hdue]
    have hsec := sentResponse_sec d rest s
    refine ⟨_, sentResponse d rest s, hexec, ?_⟩
    rw [tenantResponseEffect_eq]
    split
    · next hrefused =>
      rw [State.emit_sec, hsec]
      exact ⟨rfl, rfl, rfl, rfl, fun h => absurd hrefused h, fun _ => emits_emit ..⟩
    · next hnot =>
      rw [hsec]
      refine ⟨rfl, rfl, rfl, rfl, fun _ => ?_, fun h => absurd h hnot⟩
      rw [sentResponse, advanceRef_eq]
      exact ⟨rfl, rfl⟩

end Sys2Proof.Proofs
end

section
/-! PROOF. The SPDM requests that need no session, on either channel (R374–R377). -/

namespace Sys2Proof.Proofs
open Sys2Proof Sys2Proof.Machine Sys2Proof.Laws

/-! ### Either channel -/

section
variable (c : Chan) (s : State)

@[simp] theorem answers_setSessions (l : List Session) : (s.setSessions c l).answers c = s.answers c := by
  cases c <;> rfl

@[simp] theorem spdm_setSessions (l : List Session) : (s.setSessions c l).spdm c = s.spdm c := by
  cases c <;> rfl

@[simp] theorem sessionsOf_setSessions (l : List Session) : (s.setSessions c l).sessionsOf c = l := by
  cases c <;> rfl

end

section
variable {c : Chan} {s : State} {f : State → State} {id : BitVec 32} {q : Option (BitVec 32)}

theorem negotiated_off (h : s.answers c = false) : negotiated c f s = .next s := spdmRequest_off h

theorem negotiatedIn_off (h : s.answers c = false) : negotiatedIn c q f s = .next s := negotiated_off h

theorem negotiatedIn_early (h : s.answers c = true) (ha : (s.spdm c).algorithms = false) :
    negotiatedIn c q f s = .next (s.answerError c errUnexpected) := negotiated_early h ha

theorem negotiatedIn_plain (h : s.answers c = true) (ha : (s.spdm c).algorithms = true) :
    negotiatedIn c none f s = .next (f s) := negotiated_up h ha

/-- Inside an open session a request is answered as outside, once the session is renewed. -/
theorem negotiatedIn_open (h : s.answers c = true) (ha : (s.spdm c).algorithms = true)
    (ho : sessionOpen (s.sessionsOf c) id = true) : negotiatedIn c (some id) f s =
      negotiatedIn c none f (s.setSessions c (touchSession (s.sessionsOf c) id s.refclk)) := by
  rw [negotiatedIn_plain (by simp [h]) (by simp [ha]), negotiatedIn, negotiated_up h ha]
  exact congrArg _ (if_pos ho)

theorem negotiatedIn_closed (h : s.answers c = true) (ha : (s.spdm c).algorithms = true)
    (ho : sessionOpen (s.sessionsOf c) id = false) :
    negotiatedIn c (some id) f s = .next (s.answerError c errUnexpected) := by
  rw [negotiatedIn, negotiated_up h ha]
  exact congrArg _ (if_neg (by rw [ho]; exact Bool.false_ne_true))

end

/-! ### What each request is -/

section
variable (c : Chan) (q : Option (BitVec 32)) (s : State)

theorem exec_getVersion : exec (.getVersion c) s =
    spdmRequest c (fun s => (s.setSpdm c ⟨true, false, false⟩).answerOk c [0x12]) s := rfl

theorem exec_getCapabilities : exec (.getCapabilities c) s = spdmRequest c (fun s =>
    if (s.spdm c).version then
      (s.setSpdm c { s.spdm c with capabilities := true }).answerOk c (leBytes 4 (capabilityBits c))
    else s.answerError c errUnexpected) s := rfl

theorem exec_negotiateAlgorithms (o : AlgOffer) :
    exec (.negotiateAlgorithms c o) s = spdmRequest c (negotiateEffect c o) s := rfl

theorem exec_getDigests : exec (.getDigests c q) s =
    negotiatedIn c q (fun s => s.answerOk c (leBytes 1 1 ++ sha384 s.certChain)) s := rfl

theorem exec_getCertificate (k : BitVec 8) (o n : BitVec 16) : exec (.getCertificate c q k o n) s =
    negotiatedIn c q (getCertificateEffect c k.toNat o.toNat n.toNat) s := rfl

theorem exec_getMeasurements (k : BitVec 8) (b : Bool) (n : BitVec 256) : exec (.getMeasurements c q k b n) s =
    negotiatedIn c q (getMeasurementsEffect c k.toNat b n) s := rfl

theorem exec_challenge (k : BitVec 8) (n : BitVec 256) :
    exec (.challenge c k n) s = negotiated c (challengeEffect c k.toNat n) s := rfl

theorem exec_doeDiscovery (k : BitVec 8) :
    exec (.doeDiscovery k) s = spdmRequest .doe (fun s => s.answerOk .doe (doeProtocol k.toNat)) s := rfl

end

/-- The requests that may come inside a session: GET_DIGESTS, GET_CERTIFICATE and GET_MEASUREMENTS. -/
def sessionRequest (c : Chan) (f : Option (BitVec 32) → Instr) : Prop :=
  f = (fun q => .getDigests c q) ∨ (∃ k o n, f = fun q => .getCertificate c q k o n) ∨
    (∃ k b n, f = fun q => .getMeasurements c q k b n)

theorem sessionRequest_negotiatedIn {c : Chan} {f : Option (BitVec 32) → Instr} (h : sessionRequest c f) :
    ∃ g, ∀ q s, exec (f q) s = negotiatedIn c q g s := by
  rcases h with rfl | ⟨k, o, n, rfl⟩ | ⟨k, b, n, rfl⟩
  · exact ⟨_, fun q s => exec_getDigests c q s⟩
  · exact ⟨_, fun q s => exec_getCertificate c q s k o n⟩
  · exact ⟨_, fun q s => exec_getMeasurements c q s k b n⟩

/-! ### What they answer -/

section
variable (c : Chan) (s : State)

theorem negotiateEffect_eq (o : AlgOffer) : negotiateEffect c o s =
    if (s.spdm c).capabilities = false then s.answer c [3, 4]
    else if offersAll o then (s.setSpdm c { s.spdm c with algorithms := true }).answer c [0]
    else (s.setSpdm c { s.spdm c with algorithms := false }).answer c [3, 1] := by
  unfold negotiateEffect
  cases (s.spdm c).capabilities <;> rfl

theorem getCertificateEffect_eq (k : BitVec 8) (o n : Nat) : getCertificateEffect c k.toNat o n s =
    if k = 0 ∧ o < ofLe (flashRead s.boot.flash chainBase 2) then
      s.answer c (0 :: (leBytes 2 (min n (ofLe (flashRead s.boot.flash chainBase 2) - o)) ++
        leBytes 2 (ofLe (flashRead s.boot.flash chainBase 2) - o - min n (ofLe (flashRead s.boot.flash chainBase 2) - o)) ++
        flashRead s.boot.flash (chainBase + o) (min n (ofLe (flashRead s.boot.flash chainBase 2) - o))))
    else s.answer c [3, 1] := by
  have hslot : (¬ (k.toNat ≠ 0 ∨ ofLe (flashRead s.boot.flash chainBase 2) ≤ o)) ↔
      k = 0 ∧ o < ofLe (flashRead s.boot.flash chainBase 2) := by
    rw [not_or, not_not, Nat.not_le]
    exact and_congr_left fun _ => ⟨fun h => BitVec.eq_of_toNat_eq h, fun h => by rw [h]; rfl⟩
  unfold getCertificateEffect
  rw [← ite_not]
  simp only [hslot]
  rfl

theorem challengeEffect_eq (k : BitVec 8) (n : BitVec 256) : challengeEffect c k.toNat n s =
    if k = 0 then State.answer { s with freeCount := s.freeCount + 1 } c
      (0 :: ((sha384 s.certChain ++ leBytes 32 (Config.spdmNonce s.freeCount).toNat ++ leBytes 32 n.toNat) ++
        signed_ (sha384 s.certChain ++ leBytes 32 (Config.spdmNonce s.freeCount).toNat ++ leBytes 32 n.toNat)))
    else s.answer c [3, 1] := by
  have hslot : k.toNat ≠ 0 ↔ ¬ k = 0 := not_congr ⟨fun h => BitVec.eq_of_toNat_eq h, fun h => by rw [h]; rfl⟩
  unfold challengeEffect
  simp only [hslot, ite_not]
  rfl

end

/-! ### Measurements -/

/-- The blocks of an answer, behind their number. -/
def measurementBody (s : State) (index : Nat) (l : List Nat) : List Byte :=
  leBytes 1 (if index = 0 then 9 else l.length) ++ l.flatMap s.measurementBlock

theorem measurementIndices_none {k : Nat} (h : 9 < k) (hall : k ≠ 0xFF) : measurementIndices k = none := by
  rw [measurementIndices, if_neg (by omega), if_neg hall, if_neg (by omega)]

theorem measurementIndices_one {k : Nat} (hlow : 1 ≤ k) (hhigh : k ≤ 9) : measurementIndices k = some [k] := by
  rw [measurementIndices, if_neg (by omega), if_neg (by omega), if_pos hhigh]

theorem measurementIndices_some {k : Nat} (h : k ≤ 9 ∨ k = 0xFF) : ∃ l, measurementIndices k = some l := by
  rcases h with h | rfl
  · cases k with
    | zero => exact ⟨_, rfl⟩
    | succ k => exact ⟨_, measurementIndices_one (by omega) h⟩
  · exact ⟨_, rfl⟩

section
variable {c : Chan} {s : State} {k : Nat} {l : List Nat}

theorem getMeasurementsEffect_none (h : measurementIndices k = none) (b : Bool) (n : BitVec 256) :
    getMeasurementsEffect c k b n s = s.answer c [3, 1] := by
  unfold getMeasurementsEffect
  rw [h]
  rfl

theorem getMeasurementsEffect_plain (h : measurementIndices k = some l) (n : BitVec 256) :
    getMeasurementsEffect c k false n s = s.answer c (0 :: measurementBody s k l) := by
  unfold getMeasurementsEffect
  rw [h]
  rfl

theorem getMeasurementsEffect_signed (h : measurementIndices k = some l) (n : BitVec 256) :
    getMeasurementsEffect c k true n s = State.answer { s with freeCount := s.freeCount + 1 } c
      (0 :: ((measurementBody s k l ++ leBytes 32 (Config.spdmNonce s.freeCount).toNat ++ leBytes 32 n.toNat) ++
        signed_ (measurementBody s k l ++ leBytes 32 (Config.spdmNonce s.freeCount).toNat ++ leBytes 32 n.toNat))) := by
  unfold getMeasurementsEffect
  rw [h]
  rfl

theorem measurementBody_one (h : k ≠ 0) : measurementBody s k [k] =
    [1] ++ leBytes 1 k ++ [1] ++ leBytes 2 (3 + (s.measurement k).2.length) ++
      [BitVec.ofNat 8 (s.measurement k).1] ++ leBytes 2 (s.measurement k).2.length ++ (s.measurement k).2 := by
  rw [measurementBody, if_neg h, List.flatMap_singleton]
  simp [State.measurementBlock, leBytes]

end

/-- The content of each block (R377), with the digests of what is not there as zeros. -/
def blockContent (s : State) : Nat → List Byte
  | 1 => leBytes 48 s.boot.romDigest.toNat
  | 2 => leBytes 48 s.boot.fwDigest.toNat
  | 3 => leBytes 4 s.boot.fwVersion.toNat ++ leBytes 1 s.boot.fwSlot.toNat
  | 4 => leBytes 48 s.edition.digest.toNat
  | 5 => leBytes 4 s.edition.number.toNat ++ leBytes 4 s.boot.editionFloor.toNat
  | 6 => leBytes 2 0x4230 ++ leBytes 8 s.boot.uniqueId.toNat ++ leBytes 1 s.boot.plates.toNat
      ++ leBytes 1 s.boot.boardSlot.toNat
  | 7 => leBytes 1 (if s.sec.sealed then 1 else 0) ++ leBytes 1 (if s.regs.debug then 1 else 0)
      ++ leBytes 16 s.fingerprintNow ++ leBytes 6 s.sec.commitCount.toNat
  | 8 => leBytes 48 (match s.seq.cartoon with | some k => k.digest.toNat | none => 0)
  | _ => match s.sec.tenant with
    | some t => sha384 (padTo 1800 0 (t.policy.take 1800))
    | none => leBytes 48 0

theorem measurement_content {s : State} {k : Nat} (hlow : 1 ≤ k) (hhigh : k ≤ 9) :
    (s.measurement k).2 = blockContent s k := by
  match k, hlow, hhigh with
  | 1, _, _ | 2, _, _ | 3, _, _ | 4, _, _ | 5, _, _ | 6, _, _ | 7, _, _ => rfl
  | 8, _, _ =>
    unfold State.measurement blockContent
    cases s.seq.cartoon <;> rfl
  | 9, _, _ =>
    unfold State.measurement State.policyDigestNow blockContent
    cases s.sec.tenant <;> rfl

/-- Settles O54: each request at its place in SPDM's order, on the channel's own negotiation and sessions. -/
theorem spdmRequests : Obligations.SpdmRequests := by
  unfold Obligations.SpdmRequests
  intro c s up told x withSpdm bits length chain drawn ownNonce withSign content inside late all touched early
  have htold : ∀ u b, told u b = u.answer c b := fun u b => by cases c <;> rfl
  have hspdm : ∀ y, withSpdm y = s.setSpdm c y := fun y => by cases c <;> rfl
  have hx : x = s.spdm c := by cases c <;> rfl
  have hall : all = s.sessionsOf c := by cases c <;> rfl
  have htouched : ∀ id, touched id = s.setSessions c (touchSession (s.sessionsOf c) id s.refclk) :=
    fun id => by cases c <;> rfl
  have hbits : bits = capabilityBits c := by cases c <;> rfl
  have hup : s.answers c = true ↔ up := by
    cases c
    · exact answers_doe s
    · exact mssRuns_iff s
  have hoff : ¬ up → s.answers c = false := fun h => eq_false_of_ne_true (mt hup.mp h)
  have hcontent : ∀ m, 1 ≤ m → m ≤ 9 → (s.measurement m).2 = content m := fun m hlow hhigh =>
    measurement_content (s := s) hlow hhigh
  clear_value told x withSpdm all touched bits
  refine ⟨fun i hi hno => ?off, fun h => ?version, fun h hv => ?capabilities, fun h hv => ?noVersion, fun o h => ?negotiate,
    fun i hi h ha => ?early, fun f id hf h ha => ?inside, fun h ha => ⟨?digests, fun k o n => ?certificate, fun k n => ?challenge,
      fun k n => ⟨fun hk hne b => ?noBlock, ?blocks⟩⟩, fun h k => ?discovery, fun h k => ?noDiscovery⟩
  case off =>
    have hdown := hoff hno
    rcases hi with (rfl | rfl | ⟨o, rfl⟩) | ⟨f, q, hf, rfl⟩ | ⟨k, n, rfl⟩
    · exact (exec_getVersion ..).trans (spdmRequest_off hdown)
    · exact (exec_getCapabilities ..).trans (spdmRequest_off hdown)
    · exact (exec_negotiateAlgorithms ..).trans (spdmRequest_off hdown)
    · obtain ⟨g, hg⟩ := sessionRequest_negotiatedIn hf
      exact (hg ..).trans (negotiatedIn_off hdown)
    · exact (exec_challenge ..).trans (negotiated_off hdown)
  case version =>
    rw [exec_getVersion, spdmRequest_up (hup.mpr h), htold, hspdm]
    rfl
  case capabilities =>
    rw [hx] at hv ⊢
    rw [exec_getCapabilities, spdmRequest_up (hup.mpr h), htold, hspdm, hbits, if_pos hv]
    rfl
  case noVersion =>
    rw [hx] at hv
    rw [exec_getCapabilities, spdmRequest_up (hup.mpr h), htold, hv]
    rfl
  case negotiate =>
    rw [exec_negotiateAlgorithms, spdmRequest_up (hup.mpr h), negotiateEffect_eq]
    simp only [htold, hspdm, hx]
    rfl
  case early =>
    rw [hx] at ha
    rw [htold]
    rcases hi with ⟨f, q, hf, rfl⟩ | ⟨k, n, rfl⟩
    · obtain ⟨g, hg⟩ := sessionRequest_negotiatedIn hf
      exact (hg ..).trans (negotiatedIn_early (hup.mpr h) ha)
    · exact (exec_challenge ..).trans (negotiated_early (hup.mpr h) ha)
  case inside =>
    rw [hx] at ha
    rw [htold, htouched, hall]
    obtain ⟨g, hg⟩ := sessionRequest_negotiatedIn hf
    rw [hg, hg]
    refine ⟨fun ho => negotiatedIn_open (hup.mpr h) ha ((sessionOpen_iff ..).mpr ho), fun ho =>
      negotiatedIn_closed (hup.mpr h) ha (eq_false_of_ne_true (mt (sessionOpen_iff ..).mp ?_))⟩
    rintro ⟨y, hy, hopen⟩
    exact ho y hy hopen
  case digests =>
    rw [hx] at ha
    rw [exec_getDigests, negotiatedIn_plain (hup.mpr h) ha, htold]
    rfl
  case certificate =>
    rw [hx] at ha
    rw [exec_getCertificate, negotiatedIn_plain (hup.mpr h) ha, getCertificateEffect_eq]
    simp only [htold]
    rfl
  case challenge =>
    rw [hx] at ha
    rw [exec_challenge, negotiated_up (hup.mpr h) ha, challengeEffect_eq, htold, htold]
    rfl
  case noBlock =>
    rw [hx] at ha
    have hnone := measurementIndices_none hk fun hff => hne (BitVec.eq_of_toNat_eq hff)
    rw [exec_getMeasurements, negotiatedIn_plain (hup.mpr h) ha, getMeasurementsEffect_none hnone, htold]
  case blocks =>
    rw [hx] at ha
    simp only [exec_getMeasurements, negotiatedIn_plain (hup.mpr h) ha, htold]
    by_cases hsome : k.toNat ≤ 9 ∨ k.toNat = 0xFF
    · obtain ⟨l, hl⟩ := measurementIndices_some hsome
      refine ⟨_, congrArg _ (getMeasurementsEffect_plain hl n), fun hk => ?_, fun hlow hhigh => ?_, fun _ =>
        ⟨_, rfl, congrArg _ (getMeasurementsEffect_signed hl n)⟩⟩
      · subst hk
        cases hl
        rfl
      · cases hl.symm.trans (measurementIndices_one hlow hhigh)
        refine ⟨BitVec.ofNat 8 (s.measurement k.toNat).1, ?_⟩
        rw [measurementBody_one (by omega), hcontent _ hlow hhigh]
        rfl
    · have hnone := measurementIndices_none (k := k.toNat) (by omega) (by omega)
      refine ⟨_, congrArg _ (getMeasurementsEffect_none hnone ..), fun hk => ?_, fun _ hhigh => absurd (.inl hhigh) hsome,
        fun hk => absurd (hk.imp_right fun hff => by rw [hff]; rfl) hsome⟩
      exact absurd (.inl (by rw [hk]; decide)) hsome
  case discovery =>
    rw [exec_doeDiscovery, spdmRequest_up ((answers_doe s).mpr h)]
    generalize k.toNat = m
    match m with
    | 0 | 1 | 2 => rfl
    | m + 3 =>
      rw [doeProtocol, if_neg (by omega)]
      rfl
  case noDiscovery =>
    exact (exec_doeDiscovery ..).trans (spdmRequest_off (eq_false_of_ne_true (mt (answers_doe s).mp h)))

end Sys2Proof.Proofs
end

section
/-! PROOF. Sessions open, live by their messages, and end (R375, R376, R378, R416, R479). -/

namespace Sys2Proof.Proofs
open Sys2Proof Sys2Proof.Machine Sys2Proof.Laws

/-! ### Lists of sessions -/

section
variable (l : List Session) (id : BitVec 32) (now : DWord)

/-- What a message does to its session alone is gone when the session is dropped. -/
theorem filter_touchSession : (touchSession l id now).filter (fun x => decide (x.id ≠ id)) =
    l.filter fun x => decide (x.id ≠ id) := by
  have htouch (x : Session) :
      (if x.id = id then { x with lastMessage := now } else x).id = x.id := by
    split <;> rfl
  rw [touchSession, List.filter_map]
  have hsame : (fun x : Session => decide (x.id ≠ id)) ∘
      (fun x => if x.id = id then { x with lastMessage := now } else x) = fun x => decide (x.id ≠ id) := by
    funext x
    simp only [Function.comp, htouch]
  rw [hsame]
  refine (List.map_congr_left fun x hx => ?_).trans (List.map_id _)
  exact if_neg (by simpa using (List.mem_filter.mp hx).2)

theorem updatedKeys_touchSession : updatedKeys (touchSession l id now) id =
    l.map fun x => if x.id = id then { x with lastMessage := now, keyUpdates := x.keyUpdates + 1 } else x := by
  rw [updatedKeys, touchSession, List.map_map]
  refine List.map_congr_left fun x _ => ?_
  by_cases h : x.id = id <;> simp [h]

end

/-! ### A session is dropped -/

/-- From `s` to `t` session `id` is dropped; a tenant session takes its import with it. -/
def sessionDropped (c : Chan) (id : BitVec 32) (s t : State) : Prop :=
  let tenantOne := c = .doe ∧ s.sec.tenantSession = some id
  t.sessionsOf c = (s.sessionsOf c).filter (fun x => decide (x.id ≠ id)) ∧
    t.sec.tenantSession = (if tenantOne then none else s.sec.tenantSession) ∧ t.mem = s.mem ∧
    t.sec.tenant = s.sec.tenant ∧ (¬ tenantOne → t.sec.importJob = s.sec.importJob ∧ t.closed = s.closed) ∧
    (tenantOne → t.sec.importJob = none ∧ (s.sec.importJob.isSome = true → t.sec.importState = .failed))

theorem dropSession_eq (c : Chan) (id : BitVec 32) (s : State) : s.dropSession c id =
    if c = .doe ∧ s.sec.tenantSession = some id then
      (s.setSessions c ((s.sessionsOf c).filter fun x => decide (x.id ≠ id))).endTenantSession
    else s.setSessions c ((s.sessionsOf c).filter fun x => decide (x.id ≠ id)) := by
  have hne : (fun x : Session => x.id != id) = fun x => decide (x.id ≠ id) := funext fun x => (decide_not ..).symm
  unfold State.dropSession
  simp only [hne]
  refine if_congr ?_ rfl rfl
  cases c
  · simp [State.isTenantSession, State.setSessions]
  · simp

/-- With the tenant session an import that runs ends as failed. -/
theorem endTenantSession_eq (s : State) : ∃ e : State, s.endTenantSession = e ∧ e.mem = s.mem ∧
    e.sec.sessions = s.sec.sessions ∧ e.sec.tenantSession = none ∧ e.sec.tenant = s.sec.tenant ∧ e.sec.importJob = none ∧
    (s.sec.importJob.isSome = true → e.sec.importState = .failed) := by
  refine ⟨_, rfl, ?_⟩
  unfold State.endTenantSession State.importFails
  cases hjob : s.sec.importJob with
  | none => simp [State.setTenantSession, hjob]
  | some j => simp [State.setTenantSession, hjob, State.sealSync]

theorem sessionDropped_dropSession (c : Chan) (id : BitVec 32) (s : State) :
    sessionDropped c id s (s.dropSession c id) := by
  rw [dropSession_eq]
  by_cases h : c = .doe ∧ s.sec.tenantSession = some id
  · obtain ⟨rfl, hown⟩ := h
    rw [if_pos ⟨rfl, hown⟩]
    obtain ⟨e, he, hmem, hsessions, hnone, htenant, hjob, hfailed⟩ :=
      endTenantSession_eq (s.setSessions .doe ((s.sessionsOf .doe).filter fun x => decide (x.id ≠ id)))
    rw [he]
    exact ⟨hsessions, hnone.trans (if_pos ⟨rfl, hown⟩).symm, hmem, htenant, fun hnot => absurd ⟨rfl, hown⟩ hnot,
      fun _ => ⟨hjob, hfailed⟩⟩
  · rw [if_neg h]
    refine ⟨sessionsOf_setSessions .., ?_⟩
    rw [if_neg h]
    cases c <;> exact ⟨rfl, rfl, rfl, fun _ => ⟨rfl, rfl⟩, fun hown => absurd hown h⟩

/-- The message that ends a session leaves no trace of its time. -/
theorem sessionDropped_touched {c : Chan} {id : BitVec 32} {s t : State}
    (h : sessionDropped c id (s.setSessions c (touchSession (s.sessionsOf c) id s.refclk)) t) :
    sessionDropped c id s t := by
  obtain ⟨hsessions, hrest⟩ := h
  rw [sessionsOf_setSessions, filter_touchSession] at hsessions
  refine ⟨hsessions, ?_⟩
  cases c <;> exact hrest

theorem sessionDropped_advanceRef {c : Chan} {id : BitVec 32} {s t : State} {n : DWord}
    (h : sessionDropped c id (s.advanceRef n) t) : sessionDropped c id s t := by
  rw [advanceRef_eq] at h
  cases c <;> exact h

/-! ### What each request is -/

section
variable (c : Chan) (id : BitVec 32) (s : State)

theorem exec_keyExchange (key : BitVec 384) :
    exec (.keyExchange c key) s = negotiated c (keyExchangeEffect c key) s := rfl

theorem exec_finishSession (b : Bool) (root : Option (BitVec 384)) (h : BitVec 384) :
    exec (.finishSession c id b root h) s = negotiated c (finishEffect c id b root h) s := rfl

theorem exec_heartbeat : exec (.heartbeat c id) s = inSession c id (fun s => s.answerOk c []) s := rfl

theorem exec_keyUpdate : exec (.keyUpdate c id) s =
    inSession c id (fun s => (s.setSessions c (updatedKeys (s.sessionsOf c) id)).answerOk c []) s := rfl

theorem exec_endSession :
    exec (.endSession c id) s = inSession c id (fun s => (s.dropSession c id).answerOk c []) s := rfl

theorem exec_sessionTimeout : exec (.sessionTimeout c id) s = match (s.sessionsOf c).find? (fun x => x.id == id) with
    | some x => .next ((s.advanceRef (x.lastMessage + BitVec.ofNat 64 edges120s)).dropSession c id)
    | none => .next s := rfl

end

/-! ### FINISH and KEY_EXCHANGE -/

section
variable {c : Chan} {id : BitVec 32} {s : State} {root : Option (BitVec 384)} {h : BitVec 384}

theorem begunSession_iff (l : List Session) (id : BitVec 32) :
    (l.any fun x => x.id == id && !x.open_) = true ↔ ∃ x ∈ l, x.id = id ∧ x.open_ = false := by simp

theorem requesterOk_iff (hroot : c = .mctp → s.boot.recovery = false) :
    s.requesterOk c root = true ↔ c = .doe ∨ root = some s.edition.mgmtRoot := by
  cases c with
  | doe => simp [State.requesterOk]
  | mctp =>
    rw [State.requesterOk, State.mgmtRoot, hroot rfl]
    cases root <;> simp

theorem finishEffect_unknown (hb : ¬ ∃ x ∈ s.sessionsOf c, x.id = id ∧ x.open_ = false) (b : Bool) :
    finishEffect c id b root h s = s.answer c [3, 4] := by
  rw [← begunSession_iff] at hb
  rw [finishEffect, eq_false_of_ne_true hb]
  rfl

variable (hb : ∃ x ∈ s.sessionsOf c, x.id = id ∧ x.open_ = false)
include hb

theorem finishEffect_badMac : finishEffect c id false root h s = (s.dropSession c id).answer c [3, 6] := by
  rw [← begunSession_iff] at hb
  rw [finishEffect, hb]
  rfl

theorem finishEffect_badRoot (hroot : s.requesterOk c root = false) : finishEffect c id true root h s =
    ((s.dropSession c id).emit srcMss 0x0511 []).answer c [3, 1] := by
  rw [← begunSession_iff] at hb
  rw [finishEffect, hb, hroot]
  rfl

theorem finishEffect_opens (hroot : s.requesterOk c root = true) : finishEffect c id true root h s =
    (s.setSessions c (openSession (s.sessionsOf c) id h s.refclk)).sendCpers.answer c [0] := by
  rw [← begunSession_iff] at hb
  rw [finishEffect, hb, hroot]
  rfl

end

/-- A new session is not open yet; its answer is signed. -/
theorem keyExchangeEffect_begins {c : Chan} {s : State} {key : BitVec 384}
    (h : (s.sessionsOf c).length < maxSessions c) : ∃ u : State,
    u = s.setSessions c (s.sessionsOf c ++ [⟨s.sec.nextSession, false, key, 0, s.refclk, 0⟩]) ∧
    keyExchangeEffect c key s =
      State.answer { u with freeCount := s.freeCount + 1, sec := { u.sec with nextSession := s.sec.nextSession + 1 } } c
      (0 :: ((leBytes 4 s.sec.nextSession.toNat ++ [60] ++ leBytes 32 (Config.spdmNonce s.freeCount).toNat) ++
        signed_ (leBytes 4 s.sec.nextSession.toNat ++ [60] ++ leBytes 32 (Config.spdmNonce s.freeCount).toNat))) := by
  refine ⟨_, rfl, ?_⟩
  rw [keyExchangeEffect, if_neg (Nat.not_le.mpr h)]
  cases c <;> rfl

/-- Settles O55: on either channel, over the sessions of that channel. -/
theorem sessions : Obligations.Sessions := by
  unfold Obligations.Sessions
  intro c id s up told negotiated' all put most isOpen begun others onIt touched tenantOne dropped
  have htold : ∀ u b, told u b = u.answer c b := fun u b => by cases c <;> rfl
  have hput : ∀ l, put l = s.setSessions c l := fun l => by cases c <;> rfl
  have hneg : negotiated' = (s.spdm c).algorithms := by cases c <;> rfl
  have hall : all = s.sessionsOf c := by cases c <;> rfl
  have hmost : most = maxSessions c := by cases c <;> rfl
  have hup : s.answers c = true ↔ up := by
    cases c
    · exact answers_doe s
    · exact mssRuns_iff s
  have hoff : ¬ up → s.answers c = false := fun h => eq_false_of_ne_true (mt hup.mp h)
  have hdropped : ∀ t, sessionDropped c id s t → dropped t := fun t h => by cases c <;> exact h
  have hopen : sessionOpen (s.sessionsOf c) id = true ↔ isOpen := (sessionOpen_iff ..).trans (by rw [← hall])
  have hbegun : begun → ∃ x ∈ s.sessionsOf c, x.id = id ∧ x.open_ = false := fun h => by rwa [← hall]
  have hon : ∀ f, onIt f = (s.sessionsOf c).map fun x => if x.id = id then f x else x := fun f => by rw [← hall]
  have hothers : others = (s.sessionsOf c).filter fun x => decide (x.id ≠ id) := by rw [← hall]
  clear_value told put all most
  refine ⟨fun key h ha => ?exchange, fun root tr h ha => ?finish, fun h ho => ?inside, fun i hi h ho => ?outside,
    fun i hi => ?unnegotiated, fun i hi h => ?off, fun h => ?timeout, fun h => ?noSession⟩
  case exchange =>
    rw [hneg] at ha
    rw [exec_keyExchange, negotiated_up (hup.mpr h) ha, hmost, hall]
    refine ⟨fun hfew => ?_, fun hmany => ?_⟩
    · obtain ⟨u, hu, heff⟩ := keyExchangeEffect_begins (key := key) hfew
      rw [heff, hput, htold, hu]
      rfl
    · rw [keyExchangeEffect, if_pos hmany, htold]
      rfl
  case finish =>
    rw [hneg] at ha
    simp only [exec_finishSession, negotiated_up (hup.mpr h) ha, htold]
    refine ⟨fun hb hright => ?_, fun hb => ?_, fun hb hmctp hrec hroot => ?_, fun hb b => ?_⟩
    · have hok : s.requesterOk c root = true := by
        rcases hright with rfl | ⟨hrec, hroot⟩
        · rfl
        · exact (requesterOk_iff fun _ => hrec).mpr (.inr hroot)
      rw [finishEffect_opens (hbegun hb) hok, hput, hon]
      rfl
    · exact ⟨_, congrArg _ (finishEffect_badMac (hbegun hb)), hdropped _ (sessionDropped_dropSession ..)⟩
    · have hbad : s.requesterOk c root = false := by
        refine eq_false_of_ne_true fun hok => ?_
        rcases (requesterOk_iff fun _ => hrec).mp hok with hdoe | hright
        · exact absurd (hdoe.symm.trans hmctp) (by decide)
        · exact hroot hright
      have hplain : s.dropSession c id = put others := by
        rw [dropSession_eq, if_neg (by rintro ⟨hdoe, -⟩; exact absurd (hdoe.symm.trans hmctp) (by decide)), hput, hothers]
      refine ⟨_, congrArg _ (finishEffect_badRoot (hbegun hb) hbad), ?_⟩
      rw [hplain]
      exact emits_emit ..
    · rw [finishEffect_unknown (by rwa [← hall])]
  case inside =>
    have hin (f) := inSession_in (f := f) (hup.mpr h) (hopen.mpr ho)
    rw [exec_heartbeat, exec_keyUpdate, exec_endSession, hin, hin, hin, htold, htold, hput, hput]
    simp only [htold]
    refine ⟨?_, ?_, _, rfl, hdropped _ (sessionDropped_touched (sessionDropped_dropSession ..))⟩
    · rw [hon]
      rfl
    · rw [hon, sessionsOf_setSessions, updatedKeys_touchSession]
      cases c <;> rfl
  case outside =>
    have hout (f) := inSession_out (f := f) (hup.mpr h) (eq_false_of_ne_true (mt hopen.mp ho))
    rw [htold]
    rcases hi with rfl | rfl | rfl
    · exact (exec_heartbeat ..).trans (hout _)
    · exact (exec_keyUpdate ..).trans (hout _)
    · exact (exec_endSession ..).trans (hout _)
  case unnegotiated =>
    rw [hneg, htold]
    rcases hi with ⟨k, rfl⟩ | ⟨b, root, tr, rfl⟩
    · rw [exec_keyExchange]
      exact ⟨fun h ha => negotiated_early (hup.mpr h) ha, fun h => negotiated_off (hoff h)⟩
    · rw [exec_finishSession]
      exact ⟨fun h ha => negotiated_early (hup.mpr h) ha, fun h => negotiated_off (hoff h)⟩
  case off =>
    rcases hi with rfl | rfl | rfl
    · exact (exec_heartbeat ..).trans (spdmRequest_off (hoff h))
    · exact (exec_keyUpdate ..).trans (spdmRequest_off (hoff h))
    · exact (exec_endSession ..).trans (spdmRequest_off (hoff h))
  case timeout =>
    rw [exec_sessionTimeout]
    cases hfind : (s.sessionsOf c).find? (fun x => x.id == id) with
    | none =>
      obtain ⟨x, hx, hid⟩ := h
      rw [hall] at hx
      exact absurd (beq_iff_eq.mpr hid) (List.find?_eq_none.mp hfind x hx)
    | some x => exact ⟨_, rfl, hdropped _ (sessionDropped_advanceRef (sessionDropped_dropSession ..))⟩
  case noSession =>
    have hfind : (s.sessionsOf c).find? (fun x => x.id == id) = none :=
      List.find?_eq_none.mpr fun x hx => by simpa using h x (by rwa [hall])
    rw [exec_sessionTimeout, hfind]

end Sys2Proof.Proofs
end


section
/-! PROOF. Bytes that are placed in device memory are read back (R198). -/

namespace Sys2Proof.Proofs
open Sys2Proof Sys2Proof.Machine Sys2Proof.Laws

theorem smapGet_putList {α : Type} [DecidableEq α] (d : α) (l : List α) (m : SMap α) (k i : Nat)
    (h : smapWf d m = true) (hi : i < l.length) : smapGet d (smapPutList d m k l) (k + i) = nth d l i := by
  induction l generalizing m k i with
  | nil => exact absurd hi (Nat.not_lt_zero i)
  | cons v l ih =>
    have hwf := smapWf_put d m k v h
    cases i with
    | zero => exact (smapGet_putList_other d l _ _ _ (by omega)).trans (smapGet_put_self d m k v h)
    | succ i =>
      rw [smapPutList, show k + (i + 1) = k + 1 + i by omega]
      exact ih _ _ _ hwf (Nat.lt_of_succ_lt_succ hi)

theorem isEngineStore_iff (a : Nat) : isEngineStore a = true ↔
    ∃ p, (p = 0 ∨ p = 1) ∧ storeBase p ≤ a ∧ a < storeBase p + storeSize ∧
      0x80_0000 ≤ (a - storeBase p) % 0x100_0000 ∧ (a - storeBase p) % 0x100_0000 < 0xC8_0000 := by
  have hapart : a < storeBase 0 + storeSize → a < storeBase 1 := by
    unfold storeBase storeSize
    omega
  unfold isEngineStore storePlace
  by_cases h0 : storeBase 0 ≤ a ∧ a < storeBase 0 + storeSize
  · simp [h0, Nat.not_le.mpr (hapart h0.2)]
  · simp only [or_and_right, exists_or, exists_eq_left]
    by_cases h1 : storeBase 1 ≤ a ∧ a < storeBase 1 + storeSize
    · simp [h0, h1]
      tauto
    · simp [h0, h1]
      tauto

/-- The engine stores are made of whole words. -/
theorem isEngineStore_word (a : Nat) : isEngineStore (8 * wordOf a) = isEngineStore a := by
  rw [Bool.eq_iff_iff, isEngineStore_iff, isEngineStore_iff]
  refine exists_congr fun p => and_congr_right fun hp => ?_
  unfold storeBase storeSize wordOf
  omega

theorem byteAt_putWord {m : Memory} (h : m.wf = true) (w y : Nat) {bs : List Byte} (hlen : bs.length = 8) (mk : EccMark) :
    byteAt (putWord m w bs mk) y = if wordOf y = w then nth 0 bs (y - 8 * w) else byteAt m y := by
  obtain ⟨hbytes, -, hfresh, -⟩ := (memory_wf_iff m).mp h
  unfold byteAt putWord
  by_cases hy : wordOf y = w
  · subst hy
    have hget : smapGet 0 (smapPutList 0 m.bytes (8 * wordOf y) bs) y = nth 0 bs (y - 8 * wordOf y) := by
      have hin := smapGet_putList 0 bs m.bytes (8 * wordOf y) (y - 8 * wordOf y) hbytes
        (by rw [hlen]; unfold wordOf; omega)
      rwa [show 8 * wordOf y + (y - 8 * wordOf y) = y by unfold wordOf; omega] at hin
    rw [hget, if_pos rfl, isEngineStore_word]
    by_cases he : isEngineStore y = true
    · simp [he, smapGet_put_self _ _ _ _ hfresh]
    · simp [he]
  · have hget : smapGet 0 (smapPutList 0 m.bytes (8 * w) bs) y = smapGet 0 m.bytes y :=
      smapGet_putList_other _ _ _ _ _ (by rw [hlen]; unfold wordOf at hy; omega)
    rw [hget, if_neg hy]
    by_cases he : isEngineStore (8 * w) = true
    · simp [he, smapGet_put_other _ _ _ _ _ hy]
    · simp [he]

/-- Whole words from a word's first byte on. -/
theorem byteAt_putBytes {m : Memory} (h : m.wf = true) {a n f : Nat} {bs : List Byte} (ha : a % 8 = 0)
    (hlen : bs.length = 8 * n) (hf : n ≤ f) (y : Nat) : byteAt (putBytes f m a bs) y =
      if a ≤ y ∧ y < a + 8 * n then nth 0 bs (y - a) else byteAt m y := by
  induction n generalizing m a f bs with
  | zero =>
    obtain rfl := List.length_eq_zero_iff.mp hlen
    rw [if_neg (by omega)]
    cases f <;> rfl
  | succ n ih =>
    obtain ⟨f, rfl⟩ : ∃ g, f = g + 1 := ⟨f - 1, by omega⟩
    have hne : bs ≠ [] := List.ne_nil_of_length_pos (by omega)
    have htake : (bs.take 8).length = 8 := by
      rw [List.length_take]
      omega
    have hput : putBytes (f + 1) m a bs = putBytes f (putWord m (wordOf a) (bs.take 8) .good) (a + 8) (bs.drop 8) := by
      rw [putBytes, ha, putPiece, if_pos htake]
      exact hne
    rw [hput, ih (putWord_wf _ _ _ _ h) (by omega) (by rw [List.length_drop]; omega) (by omega),
      byteAt_putWord h _ _ htake]
    have hword : 8 * wordOf a = a := by
      unfold wordOf
      omega
    have hnth (i : Nat) : nth 0 (bs.take 8) i = if i < 8 then nth 0 bs i else 0 := by
      unfold nth
      rw [List.getElem?_take]
      split <;> rfl
    have hdrop (i : Nat) : nth 0 (bs.drop 8) i = nth 0 bs (8 + i) := by
      unfold nth
      rw [List.getElem?_drop]
    by_cases hfirst : wordOf y = wordOf a
    · have hy : a ≤ y ∧ y < a + 8 := by
        unfold wordOf at hfirst
        omega
      rw [if_neg (by omega), if_pos hfirst, if_pos (by omega), hword, hnth, if_pos (by omega)]
    · have hy : ¬ (a ≤ y ∧ y < a + 8) := by
        unfold wordOf at hfirst
        omega
      rw [if_neg hfirst, hdrop]
      by_cases hin : a + 8 ≤ y ∧ y < a + 8 + 8 * n
      · rw [if_pos hin, if_pos (by omega), show 8 + (y - (a + 8)) = y - a by omega]
      · rw [if_neg hin, if_neg (by omega)]

theorem byteAt_wholeBlocks (t : Bool) (a n : Nat) (m : Memory) (y : Nat) :
    byteAt (wholeBlocks t a n m) y = byteAt m y := by
  unfold wholeBlocks
  split
  · refine foldl_keeps (p := fun m => byteAt m y) (fun m i => ?_) m _
    dsimp only
    split <;> rfl
  · rfl

@[simp] theorem touched_mem (s : State) (a n : Nat) : (s.touched a n).mem = s.mem := by
  unfold State.touched
  dsimp only
  split <;> split <;> rfl

@[simp] theorem reportCorrected_mem (s : State) (reader w : Nat) : (s.reportCorrected reader w).mem = s.mem := by
  have hcount : (s.countCorrected (8 * w)).mem = s.mem := by
    unfold State.countCorrected
    split <;> rfl
  unfold State.reportCorrected State.noteCorrected
  dsimp only
  split
  · rw [State.emit_mem]
    exact hcount
  · exact hcount

theorem placeBytes_mem (s : State) (writer a : Nat) (bs : List Byte) :
    (s.placeBytes writer a bs).mem = wholeBlocks s.sec.tenant.isSome a bs.length (s.mem.put a bs) :=
  (foldl_keeps (fun s w => reportCorrected_mem s writer w) ..).trans (touched_mem ..)

theorem byteAt_placeBytes {s : State} (h : s.mem.wf = true) (writer : Nat) {a n : Nat} {bs : List Byte}
    (ha : a % 8 = 0) (hlen : bs.length = 8 * n) {x : Nat} (hx : x < 8 * n) :
    byteAt (s.placeBytes writer a bs).mem (a + x) = nth 0 bs x := by
  rw [placeBytes_mem, byteAt_wholeBlocks, Memory.put, byteAt_putBytes h ha hlen (by omega), if_pos (by omega),
    Nat.add_sub_cancel_left]

end Sys2Proof.Proofs
end

section
/-! PROOF. Key-store updates and imports (R386–R397). -/

namespace Sys2Proof.Proofs
open Sys2Proof Sys2Proof.Machine Sys2Proof.Laws

/-! ### A slot -/

theorem length_foldl_shaBlock (l : List (List Byte)) {h : List Nat} (hh : h.length = 8) :
    (l.foldl shaBlock h).length = 8 := by
  induction l generalizing h with
  | nil => exact hh
  | cons b l ih => exact ih rfl

theorem length_sha384 (b : List Byte) : (sha384 b).length = 48 := by
  have hwords := length_foldl_shaBlock (chunks 128 (shaPad b)) (h := sha384Init) rfl
  have hbytes (x : Nat) : (beBytes 8 x).length = 8 := (List.length_reverse ..).trans (length_leBytes ..)
  rw [sha384, List.length_flatMap, List.map_congr_left fun x _ => hbytes x, List.map_const', List.sum_replicate,
    List.length_take, hwords]
  rfl

theorem length_makeSlot (t : Option Tenant) (n : Nat) : (makeSlot t n).length = 4096 := by
  unfold makeSlot
  dsimp only
  cases t with
  | none => simp only [List.length_append, length_sha384, length_leBytes, List.length_replicate]
  | some t =>
    simp only [List.length_append, length_sha384, length_leBytes, List.length_replicate, padTo, List.length_take]
    omega

/-! ### What an update leaves -/

section
variable (s : State) (j : CommitJob)

theorem nextJob_sec_same : s.nextJob.sec.slots = s.sec.slots ∧ s.nextJob.sec.tenant = s.sec.tenant ∧
    s.nextJob.sec.commitCount = s.sec.commitCount := by
  obtain ⟨job, waiting, engine, h⟩ := nextJob_eq s
  rw [h]
  exact ⟨rfl, rfl, rfl⟩

/-- The state in which a completed update is in force (R390). -/
def updated (j : CommitJob) (s : State) : State := ((s.sealSegment .keyStore).programCommit j).commitInForce j

theorem updated_eq : updated j s = State.sealSync { s.sealSegment .keyStore with sec := { (s.sealSegment .keyStore).sec with
    slots := smapPutList 0xFF s.sec.slots (4096 * (1 - s.sec.activeSlot.toNat))
      (makeSlot j.tenant (s.sec.commitCount.toNat + 1))
    cell0 := if (s.sec.commitCount.toNat + 1) % 2 = 0 then
      commitCell (s.sec.commitCount.toNat + 1) (1 - s.sec.activeSlot.toNat) j.tenant.isSome else s.sec.cell0
    cell1 := if (s.sec.commitCount.toNat + 1) % 2 = 1 then
      commitCell (s.sec.commitCount.toNat + 1) (1 - s.sec.activeSlot.toNat) j.tenant.isSome else s.sec.cell1
    commitCount := BitVec.ofNat 48 (s.sec.commitCount.toNat + 1)
    activeSlot := BitVec.ofNat 1 (1 - s.sec.activeSlot.toNat), tenant := j.tenant, sealed := j.tenant.isSome
    job := none } } := by
  dsimp only [updated, State.programCommit, State.putSlot, State.putCell, State.commitInForce, State.nextCommit,
    State.idleSlot, State.sealSegment]
  rfl

/-- A completed update changes the tenant and the seal; BAR2, memory, time and the sessions stay as they were. -/
theorem updated_same : (updated j s).sec.tenant = j.tenant ∧ (updated j s).sec.sealed = j.tenant.isSome ∧
    (updated j s).sec.job = none ∧ (updated j s).sec.bar2Closed = s.sec.bar2Closed ∧ (updated j s).mem = s.mem ∧
    (updated j s).boardTime = s.boardTime ∧ (updated j s).sec.sessions = s.sec.sessions ∧
    (updated j s).sec.tenantSession = s.sec.tenantSession := by
  rw [updated_eq]
  exact ⟨rfl, rfl, rfl, rfl, rfl, rfl, rfl, rfl⟩

theorem commitDone_eq : commitDone j s = match j.purpose with
    | .begin_ => (((if (updated j s).doeSession j.session then (updated j s).setTenantSession (some j.session)
        else updated j s).leaveDebug).startScrub 0x0400)
    | .end_ => (updated j s).endTenantSession.startScrub 0x0401
    | .rekey => (updated j s).startScrub 0x0402
    | .policy => ((updated j s).emit srcMss 0x0403 []).nextJob := rfl

variable {j} in
theorem policyUpdate_eq (h : j.purpose = .policy) :
    commitDone j s = ((updated j s).emit srcMss 0x0403 []).nextJob := by
  rw [commitDone_eq, h]

/-- An update whose slot has been given up fails. -/
theorem commitFails_putSlot (b : List Byte) : (s.putSlot s.idleSlot b).commitFails =
    State.nextJob (State.emit { s with sec := { s.sec with
      slots := smapPutList 0xFF s.sec.slots (4096 * (1 - s.sec.activeSlot.toNat)) b, job := none
      bar2Closed := s.sec.sealed || s.sec.waiting.any fun x => x.purpose != .policy } } srcMss 0x0406 []) := by
  dsimp only [State.commitFails, State.bar2Reopens, State.putSlot, State.idleSlot]

/-- After a tenant change the scrub starts; what the update wrote stands. -/
def scrubBegins (j : CommitJob) (c t : State) : Prop :=
  t.sec.slots = c.sec.slots ∧ t.sec.cell0 = c.sec.cell0 ∧ t.sec.cell1 = c.sec.cell1 ∧
    t.sec.commitCount = c.sec.commitCount ∧ t.sec.activeSlot = c.sec.activeSlot ∧ t.sec.tenant = c.sec.tenant ∧
    t.sec.sealed = c.sec.sealed ∧ t.sec.job = c.sec.job ∧ t.sec.bar2Closed = c.sec.bar2Closed ∧ t.mem = c.mem ∧
    t.sec.scrub = some ⟨c.boardTime, some (match j.purpose with
      | .begin_ => 0x0400 | .end_ => 0x0401 | _ => 0x0402)⟩ ∧
    (j.purpose = .begin_ → t.regs.debug = false ∧
      (c.doeSession j.session = true → t.sec.tenantSession = some j.session)) ∧
    (j.purpose = .end_ → t.sec.tenantSession = none) ∧
    (j.purpose = .rekey → t.sec.tenantSession = c.sec.tenantSession)

theorem scrubBegins_commitDone (h : j.purpose ≠ .policy) : scrubBegins j (updated j s) (commitDone j s) := by
  rw [commitDone_eq]
  generalize updated j s = c
  cases hp : j.purpose with
  | begin_ =>
    dsimp only
    by_cases ho : c.doeSession j.session = true
    · rw [if_pos ho]
      simp [scrubBegins, hp, State.startScrub, State.leaveDebug, State.setTenantSession]
    · rw [if_neg ho]
      simp [scrubBegins, hp, State.startScrub, State.leaveDebug, ho]
  | end_ =>
    unfold State.endTenantSession State.importFails
    dsimp only
    split <;> simp [scrubBegins, hp, State.startScrub, State.sealSync, State.setTenantSession]
  | rekey => simp [scrubBegins, hp, State.startScrub]
  | policy => exact absurd hp h

theorem keyStoreCommit_eq (o : CommitOutcome) (h : s.sec.job = some j) : exec (.keyStoreCommit o) s =
    if j.stopped = false ∧ outcomeOk o s.boot.pwrFail then .next (keyStoreEffect o j s) else .next s := by
  change execKeyStoreCommit o s = _
  rw [execKeyStoreCommit, h]

theorem commitCut_eq (step : Nat) (ended : Bool) : commitCut step ended j s = { s with sec := { s.sec with
    slots := if step = 0 then s.sec.slots else smapPutList 0xFF s.sec.slots (4096 * s.idleSlot)
      (if step < 4 then List.replicate 4096 0xFF else makeSlot j.tenant s.nextCommit)
    cell0 := if step < 4 then s.sec.cell0 else if s.nextCommit % 2 = 0 then
      (if step = 5 && ended then commitCell s.nextCommit s.idleSlot j.tenant.isSome else BitVec.allOnes 64) else s.sec.cell0
    cell1 := if step < 4 then s.sec.cell1 else if s.nextCommit % 2 = 1 then
      (if step = 5 && ended then commitCell s.nextCommit s.idleSlot j.tenant.isSome else BitVec.allOnes 64) else s.sec.cell1
    job := some { j with stopped := true } } } := by
  unfold commitCut
  dsimp only
  by_cases h0 : step = 0
  · subst h0
    rfl
  by_cases h4 : step < 4
  · simp only [if_neg h0, if_pos h4]
    rfl
  simp only [if_neg h0, if_neg h4]
  cases step = 5 && ended with
  | false => rfl
  | true =>
    by_cases hn : s.nextCommit % 2 = 0
    · simp [State.putCell, State.putSlot, hn]
    · simp [State.putCell, State.putSlot, Nat.mod_two_ne_zero.mp hn]

end

section
variable (s : State) (j : CommitJob) (step : Nat) (ended : Bool)

/-- A power failure stops the update, and touches nothing but the slot and the cell that it writes. -/
theorem commitCut_same : commitCut step ended j s = { s with sec := { s.sec with
    slots := (commitCut step ended j s).sec.slots, cell0 := (commitCut step ended j s).sec.cell0
    cell1 := (commitCut step ended j s).sec.cell1, job := some { j with stopped := true } } } := by
  rw [commitCut_eq]

theorem commitCut_slots_other {a : Nat} (h : a < 4096 * s.idleSlot ∨ 4096 * (s.idleSlot + 1) ≤ a) :
    smapGet 0xFF (commitCut step ended j s).sec.slots a = smapGet 0xFF s.sec.slots a := by
  have hother (b : List Byte) (hb : b.length = 4096) :
      smapGet 0xFF (smapPutList 0xFF s.sec.slots (4096 * s.idleSlot) b) a = smapGet 0xFF s.sec.slots a :=
    smapGet_putList_other _ _ _ _ _ (by rw [hb]; omega)
  rw [commitCut_eq]
  dsimp only
  split
  · rfl
  · refine hother _ ?_
    split
    · exact List.length_replicate
    · exact length_makeSlot ..

theorem commitCut_cells : (commitCut step ended j s).sec.cell0 = (if step < 4 then s.sec.cell0
      else if s.nextCommit % 2 = 0 then (if step = 5 && ended then commitCell s.nextCommit s.idleSlot j.tenant.isSome
        else BitVec.allOnes 64) else s.sec.cell0) ∧
    (commitCut step ended j s).sec.cell1 = (if step < 4 then s.sec.cell1
      else if s.nextCommit % 2 = 1 then (if step = 5 && ended then commitCell s.nextCommit s.idleSlot j.tenant.isSome
        else BitVec.allOnes 64) else s.sec.cell1) := by
  rw [commitCut_eq]
  exact ⟨rfl, rfl⟩

/-- What every completed update leaves, whatever it was for. -/
theorem commitDone_leaves : (commitDone j s).sec.tenant = j.tenant ∧
    (commitDone j s).sec.commitCount = (updated j s).sec.commitCount ∧
    (commitDone j s).sec.slots = (updated j s).sec.slots := by
  obtain ⟨htenant, -⟩ := updated_same s j
  by_cases hp : j.purpose = .policy
  · obtain ⟨hslots, hsame, hcount⟩ := nextJob_sec_same ((updated j s).emit srcMss 0x0403 [])
    rw [State.emit_sec] at hslots hsame hcount
    rw [policyUpdate_eq s hp]
    exact ⟨hsame.trans htenant, hcount, hslots⟩
  · obtain ⟨hslots, -, -, hcount, -, hsame, -⟩ := scrubBegins_commitDone s j hp
    exact ⟨hsame.trans htenant, hcount, hslots⟩

end

/-! ### Imports -/

/-- The import is over, in a state. -/
def importEnded (s : State) (x : ImportState) : State :=
  State.sealSync { s with sec := { s.sec with importJob := none, importState := x } }

theorem importFails_emits {s : State} {j : ImportJob} (h : s.sec.importJob = some j) :
    (importEnded s .failed).emits s.importFails srcMss 0x0405 [f32 s.sec.importDone.toNat] := by
  have hfails : s.importFails = (importEnded s .failed).emit srcMss 0x0405 [f32 s.sec.importDone.toNat] := by
    unfold State.importFails
    rw [h]
    rfl
  rw [hfails]
  exact emits_emit ..

theorem exec_importSegment {s : State} {j : ImportJob} (h : s.sec.importJob = some j) (b : Bool) :
    exec (.importSegment b) s = .next (if b then s.importFails else importSegmentEffect j s) := by
  change execImportSegment b s = _
  rw [execImportSegment, h]

/-- The state once segment `i` has been written. -/
def segmentWritten (j : ImportJob) (s : State) (i : Nat) (b : List Byte) : State :=
  let w := s.sealSegment .tenantImport
  State.placeBytes { w with sec := { w.sec with importDone := BitVec.ofNat 32 (i + 1) } } srcMss
    (j.devAddr + 4096 * i) b

theorem byteAt_segmentWritten {j : ImportJob} {s : State} {i : Nat} {b : List Byte} (h : s.mem.wf = true)
    (ha : j.devAddr % 8 = 0) (hlen : b.length = 4096) {x : Nat} (hx : x < 4096) :
    byteAt (segmentWritten j s i b).mem (j.devAddr + 4096 * i + x) = nth 0 b x := by
  refine byteAt_placeBytes (a := j.devAddr + 4096 * i) (n := 512) ?_ srcMss (by omega) hlen hx
  exact h

theorem importSegmentEffect_some {s : State} {j : ImportJob} {b : List Byte}
    (h : s.openSegment j s.sec.importDone.toNat = some b) : importSegmentEffect j s =
      if s.sec.importDone.toNat + 1 = j.segments then
        (importEnded (segmentWritten j s s.sec.importDone.toNat b) .done).emit srcMss 0x0404 []
      else segmentWritten j s s.sec.importDone.toNat b := by
  have hopen : (s.sealSegment .tenantImport).openSegment j s.sec.importDone.toNat = some b := h
  unfold importSegmentEffect
  simp only [show (s.sealSegment .tenantImport).sec.importDone = s.sec.importDone from rfl, hopen]
  rfl

theorem importSegmentEffect_none {s : State} {j : ImportJob}
    (h : s.openSegment j s.sec.importDone.toNat = none) :
    importSegmentEffect j s = (s.sealSegment .tenantImport).importFails := by
  have hopen : (s.sealSegment .tenantImport).openSegment j s.sec.importDone.toNat = none := h
  unfold importSegmentEffect
  simp only [show (s.sealSegment .tenantImport).sec.importDone = s.sec.importDone from rfl, hopen]

/-- Settles O58: by the outcome of the update, and by whether the segment opens. -/
theorem keyStoreAndImports : Obligations.KeyStoreAndImports := by
  unfold Obligations.KeyStoreAndImports
  intro s n k
  refine ⟨fun j hj hgoes => ?update, fun o h => ?noUpdate, fun b h => ?noImport, fun j hj => ?importing⟩
  case noUpdate =>
    cases hj : s.sec.job with
    | none =>
      change execKeyStoreCommit o s = _
      rw [execKeyStoreCommit, hj]
    | some j =>
      rw [keyStoreCommit_eq _ _ o hj, if_neg]
      rintro ⟨hgoes, -⟩
      exact Bool.false_ne_true (hgoes.symm.trans (h j hj))
  case noImport =>
    change execImportSegment b s = _
    rw [execImportSegment, h]
  case update =>
    intro slot cell stored
    have hrun (o) (h : outcomeOk o s.boot.pwrFail = true) : exec (.keyStoreCommit o) s = .next (keyStoreEffect o j s) :=
      (keyStoreCommit_eq _ _ o hj).trans (if_pos ⟨hgoes, h⟩)
    have hstay (o) (h : outcomeOk o s.boot.pwrFail = false) : exec (.keyStoreCommit o) s = .next s :=
      (keyStoreCommit_eq _ _ o hj).trans (if_neg fun hall => Bool.false_ne_true (h.symm.trans hall.2))
    have hstored : stored = updated j s := (updated_eq s j).symm
    obtain ⟨htenant, hsealed, hjob, hbar2, hmem, htime, hsessions, hown⟩ := updated_same s j
    clear_value stored
    subst hstored
    refine ⟨fun hpower => ⟨fun hp => ?policy, fun hp => ?change, ?mismatch, fun st b => ?cut⟩,
      fun hpower => ⟨fun o ho => ?waits, fun st b hst => ?powerFail, fun st b hst => ?last⟩⟩
    case policy =>
      exact ⟨_, (hrun .done (by rw [hpower]; rfl)).trans (congrArg _ (policyUpdate_eq s hp)), emits_emit ..⟩
    case change =>
      refine ⟨commitDone j s, hrun .done (by rw [hpower]; rfl), ?_⟩
      have hscrub := scrubBegins_commitDone s j hp
      rw [scrubBegins, htenant, hsealed, hjob, hbar2, hmem, htime, State.doeSession, hsessions, hown] at hscrub
      obtain ⟨hslots, hcell0, hcell1, hcount, hactive, hten, hseal, hnone, hclosed, hbytes, hafter, hbegin, hend, hrekey⟩ :=
        hscrub
      exact ⟨hslots, hcell0, hcell1, hcount, hactive, hten, hseal, hnone, hclosed, hbytes, hafter,
        fun hb => (hbegin hb).imp_right fun hown ho => hown ((sessionOpen_iff ..).mpr ho), hend, hrekey⟩
    case mismatch =>
      exact ⟨_, (hrun .readBackMismatch (by rw [hpower]; rfl)).trans (congrArg _ (commitFails_putSlot ..)),
        emits_emit ..⟩
    case cut => exact hstay _ hpower
    case waits =>
      rcases ho with rfl | rfl <;> exact hstay _ (by rw [hpower]; rfl)
    case powerFail =>
      have hcut : keyStoreEffect (.powerFail st b) j s = commitCut st.val b j s := if_neg (by omega)
      obtain ⟨hcell0, hcell1⟩ := commitCut_cells s j st.val b
      refine ⟨commitCut st.val b j s, (hrun (.powerFail st b) hpower).trans (congrArg _ hcut), commitCut_same ..,
        fun a ha => commitCut_slots_other _ _ _ _ ha, fun hn => ?_, fun hn => ?_, fun hearly => ?_, fun hlate hb => ?_⟩
      · rw [hcell1, if_neg (c := s.nextCommit % 2 = 1) (by change n % 2 ≠ 1; omega), ite_self]
      · rw [hcell0, if_neg (c := s.nextCommit % 2 = 0) (by change n % 2 ≠ 0; omega), ite_self]
      · rw [hcell0, hcell1, if_pos hearly, if_pos hearly]
        exact ⟨rfl, rfl⟩
      · rw [hcell0, hcell1, hlate, hb]
        by_cases hn : n % 2 = 0
        · rw [if_pos hn]
          exact if_pos hn
        · rw [if_neg hn]
          exact if_pos (c := n % 2 = 1) (by omega)
    case last =>
      have hlast : keyStoreEffect (.powerFail st b) j s = commitDone j s := if_pos hst
      exact ⟨_, (hrun (.powerFail st b) hpower).trans (congrArg _ hlast), commitDone_leaves s j⟩
  case importing =>
    intro i w written ended
    refine ⟨⟨_, exec_importSegment hj true, importFails_emits hj⟩, fun hopen => ?bad, fun b hopen =>
      ⟨fun hi => ?segment, fun hi => ?lastSegment, fun hwf ha hlen x hx => ?bytes⟩⟩
    case bad =>
      refine ⟨_, exec_importSegment hj false, ?_⟩
      rw [if_neg Bool.false_ne_true, importSegmentEffect_none hopen]
      exact importFails_emits (s := w) hj
    case segment =>
      rw [exec_importSegment hj, if_neg Bool.false_ne_true, importSegmentEffect_some hopen, if_neg hi]
      rfl
    case lastSegment =>
      refine ⟨_, exec_importSegment hj false, ?_⟩
      rw [if_neg Bool.false_ne_true, importSegmentEffect_some hopen, if_pos hi]
      exact emits_emit ..
    case bytes => exact byteAt_segmentWritten hwf ha hlen hx

end Sys2Proof.Proofs
end

section
/-! PROOF. Management requests, and the mirror of the log (R408, R416–R428, R478). -/

namespace Sys2Proof.Proofs
open Sys2Proof Sys2Proof.Machine Sys2Proof.Laws

/-! ### Telemetry -/

section
variable {r : TelemetryReq} {f : State → List Byte} {s : State}

theorem telemetryRequest_off (h : s.mssRuns = false) : telemetryRequest r f s = .next s :=
  if_neg (by rw [h]; exact Bool.false_ne_true)

theorem telemetryRequest_busy (h : s.mssRuns = true) (hn : 8 ≤ r.outstanding.toNat) :
    telemetryRequest r f s = .next (s.mctp [2]) := by
  rw [telemetryRequest, if_pos h]
  exact congrArg _ (if_pos hn)

theorem telemetryRequest_answered (h : s.mssRuns = true) (hn : r.outstanding.toNat < 8) :
    telemetryRequest r f s = .next (s.mctp (0 :: f s)) := by
  rw [telemetryRequest, if_pos h]
  exact congrArg _ (if_neg (Nat.not_le.mpr hn))

end

theorem telemetry_request {r : TelemetryReq} {c : Instr} (h : c = .getStatus r ∨ ∃ x, c = .sensorRead r x) (s : State) :
    ∃ f, exec c s = telemetryRequest r f s := by
  rcases h with rfl | ⟨x, rfl⟩
  · exact ⟨statusAnswer, rfl⟩
  · exact ⟨sensorAnswer x, rfl⟩

/-! ### The other requests -/

theorem managed_iff {r : MgmtReq} {s : State} : s.managed r = true ↔
    r.pcie = false ∧ ∃ id, r.session = some id ∧ ∃ x ∈ s.mss.sessions, x.id = id ∧ x.open_ = true := by
  unfold State.managed
  cases r.session with
  | none => simp
  | some id =>
    rw [Bool.and_eq_true, Bool.not_eq_true']
    refine and_congr_right fun _ => (sessionOpen_iff ..).trans ⟨fun h => ⟨id, rfl, h⟩, ?_⟩
    rintro ⟨x, hx, h⟩
    cases hx
    exact h

theorem touchMgmt_of_session {r : MgmtReq} {id : BitVec 32} (h : r.session = some id) (s : State) :
    s.touchMgmt r = { s with mss := { s.mss with sessions := touchSession s.mss.sessions id s.refclk } } := by
  rw [State.touchMgmt, h]

section
variable (r : MgmtReq) (s : State)

theorem exec_logRead (n : DWord) : exec (.logRead r n) s =
    mgmtRequest r (fun s => s.mctp (0 :: entriesFrom s.logEntries 8 n.toNat)) s := rfl

theorem exec_setPowerCap (w : BitVec 16) : exec (.setPowerCap r w) s = mgmtRequest r (setPowerCapEffect w) s := rfl

theorem exec_editionRevert : exec (.editionRevert r) s = mgmtRequest r editionRevertEffect s := rfl

theorem exec_cperAck (n : DWord) : exec (.cperAck r n) s = mgmtRequest r (cperAckEffect n) s := rfl

end

theorem management_request {r : MgmtReq} {c : Instr} (h : (∃ n, c = .logRead r n) ∨ (∃ w, c = .setPowerCap r w) ∨
    c = .editionRevert r ∨ ∃ n, c = .cperAck r n) (s : State) : ∃ f, exec c s = mgmtRequest r f s := by
  rcases h with ⟨n, rfl⟩ | ⟨w, rfl⟩ | rfl | ⟨n, rfl⟩
  · exact ⟨_, exec_logRead r s n⟩
  · exact ⟨_, exec_setPowerCap r s w⟩
  · exact ⟨_, exec_editionRevert r s⟩
  · exact ⟨_, exec_cperAck r s n⟩

/-! ### LOG_READ -/

theorem length_smapGetList {α : Type} (d : α) (m : SMap α) (k n : Nat) : (smapGetList d m k n).length = n := by
  induction n generalizing k with
  | zero => rfl
  | succ n ih => exact congrArg (· + 1) (ih _)

theorem length_logBytes (e : LogEntry) : (logBytes e).length = 128 := by
  rw [logBytes, List.length_append, length_leBytes, length_leBytes]

/-- Every entry that the device holds has 128 bytes. -/
theorem length_logEntries {s : State} {e : Nat × List Byte} (h : e ∈ s.logEntries) : e.2.length = 128 := by
  unfold State.logEntries at h
  rw [List.mem_append, List.mem_append] at h
  rcases h with (h | h) | h
  · obtain ⟨p, -, rfl⟩ := List.mem_map.mp h
    exact length_smapGetList ..
  · split at h
    · cases h
    · obtain ⟨p, -, rfl⟩ := List.mem_map.mp h
      exact length_logBytes p
  · split at h
    · cases h
    · obtain ⟨p, -, rfl⟩ := List.mem_map.mp h
      exact length_logBytes p

/-- One step of the choice: the entry is kept out, or the better of two stays. -/
def entryStep (n : Nat) (best : Option (Nat × List Byte)) (e : Nat × List Byte) : Option (Nat × List Byte) :=
  if e.1 < n then best
  else match best with
    | some b => if e.1 < b.1 then some e else best
    | none => some e

theorem entryStep_some {n : Nat} {best : Option (Nat × List Byte)} {e x : Nat × List Byte}
    (h : entryStep n best e = some x) : best = some x ∨ e = x := by
  unfold entryStep at h
  split at h
  · exact .inl h
  · split at h
    · split at h
      · exact .inr (Option.some.inj h)
      · exact .inl h
    · exact .inr (Option.some.inj h)

/-- The entry that is chosen is one of the list. -/
theorem entryFrom_mem {l : List (Nat × List Byte)} {n : Nat} {e : Nat × List Byte} (h : entryFrom l n = some e) :
    e ∈ l := by
  have hfold : ∀ (r : List (Nat × List Byte)) (best : Option (Nat × List Byte)), (∀ x ∈ r, x ∈ l) →
      (∀ x, best = some x → x ∈ l) → ∀ x, r.foldl (entryStep n) best = some x → x ∈ l := by
    intro r
    induction r with
    | nil => exact fun best _ hbest => hbest
    | cons y r ih =>
      intro best hr hbest
      refine ih _ (fun x hx => hr x (List.mem_cons_of_mem _ hx)) fun x hx => ?_
      rcases entryStep_some hx with h | h
      · exact hbest x h
      · exact h ▸ hr y List.mem_cons_self
  exact hfold l none (fun _ hx => hx) (fun _ hx => nomatch hx) e h

theorem length_entriesFrom {l : List (Nat × List Byte)} (hl : ∀ e ∈ l, e.2.length = 128) (k n : Nat) :
    (entriesFrom l k n).length ≤ 128 * k := by
  induction k generalizing n with
  | zero => exact Nat.le_refl 0
  | succ k ih =>
    unfold entriesFrom
    split
    · next e he =>
      have hfirst := hl e (entryFrom_mem he)
      have hrest := ih (e.1 + 1)
      rw [List.length_append]
      omega
    · exact Nat.zero_le _

/-! ### The effects -/

section
variable {s : State}

theorem setPowerCapEffect_taken {w : BitVec 16} (h : w = 0 ∨ 300 ≤ w.toNat ∧ w.toNat ≤ s.edition.pLimit.toNat) :
    setPowerCapEffect w s = (({ s with mss := { s.mss with powerCap := w } } : State).decide_ 0x050B []).mctp [0] :=
  if_pos h

theorem setPowerCapEffect_refused {w : BitVec 16}
    (h : ¬ (w = 0 ∨ 300 ≤ w.toNat ∧ w.toNat ≤ s.edition.pLimit.toNat)) : setPowerCapEffect w s = s.mctp [1] :=
  if_neg h

theorem editionRevertEffect_refused (h : s.busyRun = true ∨ s.mss.fw.state ≠ .idle) :
    editionRevertEffect s = s.mctp [1] := by
  refine if_neg ?_
  rw [quiet_not_busy]
  rcases h with h | h <;> simp [h]

theorem editionRevertEffect_taken (hquiet : s.busyRun = false) (hidle : s.mss.fw.state = .idle)
    (hpower : s.boot.pwrFail = false) (hcan : s.canRevert = true) : editionRevertEffect s =
      ((s.revokePlace s.edition.place).emit srcMss 0x0551 [f8 (Config.revokeCause true).toNat]).mctp [0] := by
  refine if_pos ?_
  rw [quiet_not_busy, hquiet, hidle, hpower, hcan]
  rfl

end

/-! ### The mirror -/

/-- What the mirror of the log never changes. -/
def mirrorKeeps (s : State) : SMap Byte × Phase × Regs × SMap Ring := (s.mem.bytes, s.seq.phase, s.regs, s.rings)

section
variable (s : State)

@[simp] theorem mirrorKeeps_emit (src code l) : mirrorKeeps (s.emit src code l) = mirrorKeeps s := by
  simp [mirrorKeeps, (reports_emit s src code l).run.phase]

@[simp] theorem mirrorKeeps_mss (m : Mss) : mirrorKeeps { s with mss := m } = mirrorKeeps s := rfl

@[simp] theorem mirrorKeeps_mirrorAll (l : List LogEntry) : mirrorKeeps (s.mirrorAll l) = mirrorKeeps s :=
  foldl_keeps (p := mirrorKeeps) (f := State.mirrorOne) (fun _ _ => rfl) s l

@[simp] theorem mirrorKeeps_mssAlert : mirrorKeeps s.mssAlert = mirrorKeeps s := by
  unfold State.mssAlert State.signal
  dsimp only
  split
  · split <;> rfl
  · rfl

theorem mirrorKeeps_advanceRef (n : DWord) : mirrorKeeps (s.advanceRef n) = mirrorKeeps s := by
  simp [mirrorKeeps, State.advanceRef]

@[simp] theorem mirrorKeeps_mirrorTime : mirrorKeeps s.mirrorTime = mirrorKeeps s := by
  unfold State.mirrorTime
  split
  · rfl
  · exact mirrorKeeps_advanceRef ..

theorem mirrorKeeps_mirrorRound (f : MirrorFacts) : mirrorKeeps (mirrorRound f s) = mirrorKeeps s := by
  unfold mirrorRound
  split
  · rfl
  · split
    · split
      · simp [backupFails]
      · simp
    · split
      · simp [logDegrade]
      · simp

theorem mirrorKeeps_logMirrorEffect (f : MirrorFacts) : mirrorKeeps (logMirrorEffect f s) = mirrorKeeps s := by
  unfold logMirrorEffect
  simp only [mirrorKeeps_mss, mirrorKeeps_mirrorRound]
  split <;> simp [State.retireSector]

end

/-- Settles O52: telemetry by the count outstanding, the others by their session, the mirror by what a round keeps. -/
theorem managementRequests : Obligations.ManagementRequests := by
  unfold Obligations.ManagementRequests
  intro s runs answered refused
  have hruns : s.mssRuns = true ↔ runs := mssRuns_iff s
  have hoff : ¬ runs → s.mssRuns = false := fun h => eq_false_of_ne_true (mt hruns.mp h)
  refine ⟨fun r c hc => ?telemetry, fun r c hc => ?outside, fun r id hr hp hid hin => ?inside, fun f hr hpower => ?mirror,
    fun f h => ?noMirror⟩
  case telemetry =>
    obtain ⟨f, hf⟩ := telemetry_request hc s
    refine ⟨fun hr => ?_, fun hr => hf.trans (telemetryRequest_off (hoff hr))⟩
    by_cases hn : 8 ≤ r.outstanding.toNat
    · exact ⟨_, hf.trans (telemetryRequest_busy (hruns.mpr hr) hn), rfl, fun _ => rfl, fun h => absurd hn (by omega)⟩
    · exact ⟨_, hf.trans (telemetryRequest_answered (hruns.mpr hr) (by omega)), rfl, fun h => absurd h hn,
        fun _ => ⟨_, rfl⟩⟩
  case outside =>
    obtain ⟨f, hf⟩ := management_request hc s
    refine ⟨fun hr hno => hf.trans (mgmtRequest_out (hruns.mpr hr) (eq_false_of_ne_true (mt managed_iff.mp ?_))),
      fun hr => hf.trans (mgmtRequest_off (hoff hr))⟩
    rintro ⟨hp, id, hid, x, hx, hopen⟩
    rcases hno with hpcie | hclosed
    · exact Bool.false_ne_true (hp.symm.trans hpcie)
    · exact hclosed id hid x hx hopen
  case inside =>
    intro l u done
    have hin' {c f} (hf : exec c s = mgmtRequest r f s) : exec c s = .next (f u) :=
      hf.trans ((mgmtRequest_in (hruns.mpr hr) hp hid ((sessionOpen_iff ..).mpr hin)).trans
        (congrArg _ (congrArg f (touchMgmt_of_session hid s))))
    refine ⟨fun n => ⟨_, hin' (exec_logRead r s n), rfl, _, rfl, length_entriesFrom (fun e he => length_logEntries he) 8 _⟩,
      fun w => ⟨fun hw => ⟨_, logs_decide _ 0x050B [], (hin' (exec_setPowerCap r s w)).trans ?_⟩,
        fun hw => (hin' (exec_setPowerCap r s w)).trans ?_⟩, fun n => hin' (exec_cperAck r s n),
      fun h => (hin' (exec_editionRevert r s)).trans ?_,
      fun hbusy hidle hpower hcan => ⟨_, (hin' (exec_editionRevert r s)).trans ?_, emits_emit ..⟩⟩
    · exact congrArg _ (setPowerCapEffect_taken (s := u) hw)
    · exact congrArg _ (setPowerCapEffect_refused (s := u) hw)
    · exact congrArg _ (editionRevertEffect_refused (s := u) h)
    · exact congrArg _ (editionRevertEffect_taken (s := u) hbusy hidle hpower hcan)
  case mirror =>
    have hkeeps := mirrorKeeps_logMirrorEffect s f
    simp only [mirrorKeeps, Prod.mk.injEq] at hkeeps
    obtain ⟨hbytes, hphase, hregs, hrings⟩ := hkeeps
    exact ⟨_, if_pos ⟨hruns.mpr hr, hpower⟩, hbytes, hphase, hregs, rfl, hrings⟩
  case noMirror =>
    refine if_neg ?_
    rintro ⟨hr, hpower⟩
    rcases h with h | h
    · exact h (hruns.mp hr)
    · exact Bool.false_ne_true (hpower.symm.trans h)

end Sys2Proof.Proofs
end

section
/-! PROOF. The firmware update (R429–R431, R465, R489). -/

namespace Sys2Proof.Proofs
open Sys2Proof Sys2Proof.Machine Sys2Proof.Laws

section
variable {s : State}

theorem fwIn_iff (st : FwState) : fwIn st s = true ↔ s.mss.fw.state = st ∧ s.mss.fw.failed = false := by
  rw [fwIn, Bool.and_eq_true, beq_iff_eq, Bool.not_eq_true']

theorem fwUnderWay_iff : fwUnderWay s = true ↔
    s.mss.fw.state = .download ∨ s.mss.fw.state = .verify ∨ s.mss.fw.state = .apply := by
  rw [fwUnderWay, Bool.or_eq_true, Bool.or_eq_true, beq_iff_eq, beq_iff_eq, beq_iff_eq, or_assoc]

end

/-! ### What each request is -/

section
variable (r : MgmtReq) (s : State)

theorem exec_requestUpdate (n : BitVec 16) : exec (.requestUpdate r n) s =
    fwRequest r (fun s => fwIn .idle s && n == 1) (fun s => (s.fwTo .learn).mctpOk []) s := rfl

theorem exec_passComponentTable (c i : BitVec 16) : exec (.passComponentTable r c i) s =
    fwRequest r (fun s => fwIn .learn s && fwComponent c i) (fun s => (s.fwTo .readyXfer).mctpOk []) s := rfl

theorem exec_updateComponent (c i : BitVec 16) (n : BitVec 32) : exec (.updateComponent r c i n) s =
    fwRequest r (fun s => fwIn .readyXfer s && fwComponent c i && n != 0 && decide (n.toNat ≤ fwSlotSize))
      (updateComponentEffect n) s := rfl

theorem exec_transferComplete : exec (.transferComplete r) s =
    fwRequest r (fun s => fwIn .download s && decide (s.mss.fw.received = s.mss.fw.size.toNat))
      (fun s => (s.fwTo .verify).mctpOk []) s := rfl

theorem exec_verifyComplete : exec (.verifyComplete r) s =
    fwRequest r (fwIn .verify) (fun s => (s.fwTo .apply).mctpOk []) s := rfl

theorem exec_applyComplete : exec (.applyComplete r) s = fwRequest r (fwIn .apply) applyCompleteEffect s := rfl

theorem exec_activateFirmware : exec (.activateFirmware r) s =
    fwRequest r (fwIn .activate) activateFirmwareEffect s := rfl

theorem exec_cancelUpdateComponent : exec (.cancelUpdateComponent r) s =
    fwRequest r fwUnderWay (fun s => s.fwCancelled .readyXfer) s := rfl

theorem exec_cancelUpdate : exec (.cancelUpdate r) s =
    fwRequest r (fun s => s.mss.fw.state != .idle) cancelUpdateEffect s := rfl

theorem exec_firmwareData (off : BitVec 32) (block : List Byte) (ok : Bool) : exec (.firmwareData off block ok) s =
    if s.mssRuns ∧ fwIn .download s ∧ s.mss.fw.received < s.mss.fw.size.toNat ∧
      (off.toNat, block.length) = s.fwNext then .next (firmwareDataEffect block ok s) else .next s := rfl

end

/-- The three enquiries only answer. -/
theorem fw_enquiry {r : MgmtReq} {c : Instr}
    (h : c = .queryDeviceIdentifiers r ∨ c = .getFirmwareParameters r ∨ c = .pldmGetStatus r) (s : State) :
    ∃ f, exec c s = mgmtRequest r f s ∧ ∀ u, ∃ b, f u = u.mctp (0 :: b) := by
  rcases h with rfl | rfl | rfl <;> exact ⟨_, rfl, fun u => ⟨_, rfl⟩⟩

/-! ### What the effects are -/

/-- The update is where it was, but in another state with nothing received. -/
def fwReturned (x : FwState) (s : State) : State :=
  State.sealSync { s with mss := { s.mss with fw := { s.mss.fw with state := x, received := 0, failed := false } } }

/-- The block is programmed, and counted. -/
def fwProgrammed (block : List Byte) (s : State) : State :=
  { s.sealSegment .mss with
    boot := { s.boot with
      flash := flashProgram s.boot.flash (fwSlotAddr s.fwTarget + s.mss.fw.received) (fwMasked s.mss.fw.received block) }
    mss := { s.mss with fw := { s.mss.fw with received := s.mss.fw.received + block.length } } }

section
variable {s : State}

theorem fwFails_eq (h : s.mss.fw.state ≠ .activate) : s.fwFails = (fwReturned .idle s).emit srcMss 0x0542 [] := by
  unfold State.fwFails
  rw [beq_false_of_ne h]
  rfl

theorem firmwareDataEffect_stopped (h : s.boot.pwrFail = true) (block : List Byte) (ok : Bool) :
    firmwareDataEffect block ok s = s.fwStopped := if_pos h

variable (h : s.boot.pwrFail = false)
include h

theorem firmwareDataEffect_refused (block : List Byte) : firmwareDataEffect block false s = s.fwFails := by
  rw [firmwareDataEffect, h]
  rfl

theorem firmwareDataEffect_programmed (block : List Byte) : firmwareDataEffect block true s =
    if s.mss.fw.received + block.length = s.mss.fw.size.toNat && !(fwProgrammed block s).fwImageOk s.fwTarget then
      (fwProgrammed block s).fwFails else fwProgrammed block s := by
  rw [firmwareDataEffect, h]
  rfl

theorem updateComponentEffect_erases (n : BitVec 32) : updateComponentEffect n s = State.mctp (State.sealSync { s with
    boot := { s.boot with
      flash := smapDrop s.boot.flash (fwSlotAddr s.fwTarget) (fwSlotAddr s.fwTarget + 0x80_0000) }
    mss := { s.mss with fw := { s.mss.fw with state := .download, size := n, received := 0 } } }) [0] := by
  rw [updateComponentEffect, h]
  rfl

theorem activateFirmwareEffect_activates : ∃ f, activateFirmwareEffect s = State.mctp { s with
    boot := { s.boot with flash := f }
    mss := { s.mss with fw := { s.mss.fw with
      state := .idle, received := 0, pendingSlot := some (BitVec.ofNat 1 s.fwTarget) } } } [0] := by
  have happend (e : BootEntry) :
      s.appendBoot e = { s with boot := { s.boot with flash := appendEntry s.boot.flash e } } := by
    rw [State.appendBoot, h]
    rfl
  refine ⟨appendEntry s.boot.flash
    { currentOf s.boot.flash with kind := 3, fwSlot := 0xFF, fwPref := s.fwTarget }, ?_⟩
  rw [activateFirmwareEffect, h]
  simp only [happend, Bool.false_eq_true, if_false]
  rfl

end

/-! ### The image is applied -/

/-- How the update stands, and whether the MSS has raised its alert. -/
def fwStands (s : State) : FwUpdate × Bool := (s.mss.fw, s.mss.alert)

@[simp] theorem fwStands_emit (s : State) (src code l) : fwStands (s.emit src code l) = fwStands s := by
  rw [show s.emit src code l = _ from sameButEvents_emit s src code l]
  rfl

@[simp] theorem fwStands_writeCarried (s : State) (b : List Byte) : fwStands (s.writeCarried b) = fwStands s := by
  unfold State.writeCarried
  dsimp only
  split
  · rfl
  · split
    · exact fwStands_emit ..
    · split
      · exact fwStands_emit ..
      · rfl

theorem fwStands_mssAlert (s : State) : fwStands s.mssAlert = ((fwStands s).1, true) := by
  unfold State.mssAlert State.signal
  dsimp only
  split
  · split <;> rfl
  · rfl

/-- The VALID word is programmed, and the update goes on to its last state. -/
def fwMarkedValid (s : State) : State :=
  State.sealSync (State.fwTo { s with boot := { s.boot with
    flash := flashProgram s.boot.flash (fwSlotAddr s.fwTarget + 0xFF8) (List.replicate 8 0) } } .activate)

theorem applyCompleteEffect_applies {s : State} (h : s.boot.pwrFail = false) : ∃ t, applyCompleteEffect s = t ∧
    t.mss.fw = { s.mss.fw with state := .activate } ∧ t.mss.alert = true ∧ t.sec.mctpAnswer = [0] := by
  let l := State.carriedRecords ((fwMarkedValid s).emit srcMss 0x0541 []).mssAlert s.fwTarget
  have hl : applyCompleteEffect s =
      (List.foldl State.writeCarried ((fwMarkedValid s).emit srcMss 0x0541 []).mssAlert l).mctpOk [] := by
    rw [applyCompleteEffect, h, if_neg Bool.false_ne_true]
    dsimp only [l, fwMarkedValid]
  have hstands : fwStands (List.foldl State.writeCarried ((fwMarkedValid s).emit srcMss 0x0541 []).mssAlert l) =
      ((fwStands (fwMarkedValid s)).1, true) := by
    rw [foldl_keeps (p := fwStands) fwStands_writeCarried, fwStands_mssAlert, fwStands_emit]
  clear_value l
  generalize List.foldl State.writeCarried ((fwMarkedValid s).emit srcMss 0x0541 []).mssAlert l = t at hl hstands
  rw [fwStands, Prod.mk.injEq] at hstands
  obtain ⟨hfw, halert⟩ := hstands
  exact ⟨_, hl, hfw, halert, rfl⟩

/-! ### CANCEL_UPDATE -/

section
variable {s : State}

theorem cancelUpdateEffect_cancels (h : s.mss.fw.state ≠ .activate) :
    cancelUpdateEffect s = ((fwReturned .idle s).emit srcMss 0x0542 []).mctp [0] := if_neg h

theorem cancelUpdateEffect_erases (h : s.mss.fw.state = .activate) (hpower : s.boot.pwrFail = false) :
    cancelUpdateEffect s = (State.emit { fwReturned .idle s with boot := { s.boot with
      flash := flashErase s.boot.flash (fwSlotAddr s.fwTarget) } } srcMss 0x0542 []).mctp [0] := by
  rw [cancelUpdateEffect, if_pos h, hpower]
  rfl

theorem cancelUpdateEffect_refused (h : s.mss.fw.state = .activate) (hpower : s.boot.pwrFail = true) :
    cancelUpdateEffect s = s.mctp [1] := by
  rw [cancelUpdateEffect, if_pos h, hpower]
  rfl

end

/-- Settles O53: each request by its effect in the session, each block by whether it is the one asked for. -/
theorem firmwareUpdates : Obligations.FirmwareUpdates := by
  unfold Obligations.FirmwareUpdates
  intro r id s hruns hp hid hin l u fw answer into step slot base under ends stopped
  have hup : s.mssRuns = true := (mssRuns_iff s).mpr hruns
  have hmgmt {c f} (hf : exec c s = mgmtRequest r f s) : exec c s = .next (f u) :=
    hf.trans ((mgmtRequest_in hup hp hid ((sessionOpen_iff ..).mpr hin)).trans
      (congrArg _ (congrArg f (touchMgmt_of_session hid s))))
  have hok {c ok f} (hf : exec c s = fwRequest r ok f s) (h : ok u = true) : exec c s = .next (f u) :=
    (hmgmt hf).trans (congrArg _ (if_pos h))
  have hno {c ok f} (hf : exec c s = fwRequest r ok f s) (h : ¬ ok u = true) : exec c s = .next (answer u [1]) :=
    (hmgmt hf).trans (congrArg _ (if_neg h))
  have hin' (st : FwState) : fwIn st u = true ↔ fw.state = st ∧ fw.failed = false := fwIn_iff st
  have hstep {c ok x} {p : Prop} (hf : exec c s = fwRequest r ok (fun s => (s.fwTo x).mctpOk []) s)
      (h : ok u = true ↔ fw.failed = false ∧ p) : step c p x := by
    refine ⟨fun hgood hp' => hok hf (h.mpr ⟨hgood, hp'⟩), fun hbad => hno hf fun hall => ?_⟩
    obtain ⟨hgood, hp'⟩ := h.mp hall
    rcases hbad with hfailed | hnot
    · exact Bool.false_ne_true (hgood.symm.trans hfailed)
    · exact hnot hp'
  refine ⟨fun n => hstep (exec_requestUpdate r s n) ?request, fun c i => hstep (exec_passComponentTable r s c i) ?pass,
    hstep (exec_transferComplete r s) ?transfer, hstep (exec_verifyComplete r s) ?verify, fun c i n => ?component,
    fun off block ok => ?data, fun hst hgood hpower => ?apply, fun hst hgood hpower => ?applyStopped, fun h => ?applyRefused,
    fun hst hgood hpower => ?activate, fun hst hgood hpower => ?activateStopped, fun h => ?activateRefused,
    fun c hc => ?enquiry, fun h => ?cancelComponent, fun h => ?noComponent, fun hidle hact => ?cancel,
    fun hact hpower => ?cancelApplied, fun h => ?noCancel⟩
  case request =>
    rw [Bool.and_eq_true, hin', beq_iff_eq]
    tauto
  case pass =>
    rw [Bool.and_eq_true, hin', fwComponent, Bool.and_eq_true, beq_iff_eq, beq_iff_eq, fwIdentifier]
    tauto
  case transfer =>
    rw [Bool.and_eq_true, hin', decide_eq_true_iff]
    tauto
  case verify =>
    rw [hin']
    tauto
  case component =>
    intro ok
    have hiff : (fwIn .readyXfer u && fwComponent c i && n != 0 && decide (n.toNat ≤ fwSlotSize)) = true ↔ ok := by
      rw [Bool.and_eq_true, Bool.and_eq_true, Bool.and_eq_true, hin', fwComponent, Bool.and_eq_true, beq_iff_eq,
        beq_iff_eq, bne_iff_ne, decide_eq_true_iff, fwIdentifier, fwSlotSize]
      tauto
    refine ⟨fun h hpower => ?_, fun h hpower => ?_, fun h => hno (exec_updateComponent r s c i n) (mt hiff.mp h)⟩
    · exact (hok (exec_updateComponent r s c i n) (hiff.mpr h)).trans
        (congrArg _ (updateComponentEffect_erases (s := u) hpower n))
    · exact (hok (exec_updateComponent r s c i n) (hiff.mpr h)).trans (congrArg _ (if_pos hpower))
  case data =>
    intro due idled prog
    have hdue : (s.mssRuns = true ∧ fwIn .download s = true ∧ fw.received < fw.size.toNat ∧
        (off.toNat, block.length) = s.fwNext) ↔ due := by
      rw [fwIn_iff, State.fwNext, Prod.mk.injEq, and_iff_right hup, and_assoc]
      rfl
    have hrun (h : due) : exec (.firmwareData off block ok) s = .next (firmwareDataEffect block ok s) :=
      (exec_firmwareData ..).trans (if_pos (hdue.mpr h))
    have hidle {v : State} (hv : v.mss.fw.state = .download) : v.fwFails = (idled v).emit srcMss 0x0542 [] :=
      fwFails_eq (by rw [hv]; decide)
    have hdownload (h : due) : s.mss.fw.state = .download := by
      obtain ⟨hst, -⟩ := h
      exact hst
    refine ⟨fun h hpower hbad => ?_, fun h hpower hgood => ?_, fun h hpower => ?_, fun h =>
      (exec_firmwareData ..).trans (if_neg (mt hdue.mp h))⟩
    · have hfails := firmwareDataEffect_refused hpower block
      rw [hidle (hdownload h)] at hfails
      exact ⟨_, (hrun h).trans (congrArg _ (hbad ▸ hfails)), emits_emit ..⟩
    · subst hgood
      have hprog := firmwareDataEffect_programmed hpower block
      refine ⟨fun hmore => (hrun h).trans (congrArg _ (hprog.trans (if_neg ?_))), fun hwhole hbad => ?_⟩
      · rw [Bool.and_eq_true, decide_eq_true_iff, Bool.not_eq_true']
        rintro ⟨hwhole, hbad⟩
        rcases hmore with hmore | hmore
        · exact absurd hwhole (Nat.ne_of_lt hmore)
        · exact Bool.false_ne_true (hbad.symm.trans hmore)
      · have hfails := hprog.trans (if_pos (by
          rw [Bool.and_eq_true, decide_eq_true_iff, Bool.not_eq_true']
          exact ⟨hwhole, hbad⟩))
        rw [hidle (v := fwProgrammed block s) (hdownload h)] at hfails
        exact ⟨_, (hrun h).trans (congrArg _ hfails), emits_emit ..⟩
    · exact (hrun h).trans (congrArg _ (firmwareDataEffect_stopped hpower block ok))
  case apply =>
    obtain ⟨t, ht, hfw, halert, hanswer⟩ := applyCompleteEffect_applies (s := u) hpower
    refine ⟨t, (hok (exec_applyComplete r s) ((hin' _).mpr ⟨hst, hgood⟩)).trans (congrArg _ ht), ?_, hanswer, halert⟩
    rw [hfw]
  case applyStopped =>
    exact (hok (exec_applyComplete r s) ((hin' _).mpr ⟨hst, hgood⟩)).trans (congrArg _ (if_pos hpower))
  case applyRefused =>
    refine hno (exec_applyComplete r s) (mt (hin' _).mp ?_)
    rintro ⟨hst, hgood⟩
    rcases h with h | h
    · exact h hst
    · exact Bool.false_ne_true (hgood.symm.trans h)
  case activate =>
    obtain ⟨f, hf⟩ := activateFirmwareEffect_activates (s := u) hpower
    exact ⟨_, (hok (exec_activateFirmware r s) ((hin' _).mpr ⟨hst, hgood⟩)).trans (congrArg _ hf), rfl, rfl⟩
  case activateStopped =>
    exact (hok (exec_activateFirmware r s) ((hin' _).mpr ⟨hst, hgood⟩)).trans (congrArg _ (if_pos hpower))
  case activateRefused =>
    refine hno (exec_activateFirmware r s) (mt (hin' _).mp ?_)
    rintro ⟨hst, hgood⟩
    rcases h with h | h
    · exact h hst
    · exact Bool.false_ne_true (hgood.symm.trans h)
  case enquiry =>
    obtain ⟨f, hf, hanswer⟩ := fw_enquiry hc s
    obtain ⟨b, hb⟩ := hanswer u
    exact ⟨b, (hmgmt hf).trans (congrArg _ hb)⟩
  case cancelComponent => exact ⟨_, hok (exec_cancelUpdateComponent r s) (fwUnderWay_iff.mpr h), emits_emit ..⟩
  case noComponent => exact hno (exec_cancelUpdateComponent r s) (mt fwUnderWay_iff.mp h)
  case cancel =>
    exact ⟨_, (hok (exec_cancelUpdate r s) (bne_iff_ne.mpr hidle)).trans
      (congrArg _ (cancelUpdateEffect_cancels (s := u) hact)), emits_emit ..⟩
  case cancelApplied =>
    exact ⟨_, (hok (exec_cancelUpdate r s) (bne_iff_ne.mpr (by rw [show u.mss.fw.state = _ from hact]; decide))).trans
      (congrArg _ (cancelUpdateEffect_erases (s := u) hact hpower)), emits_emit ..⟩
  case noCancel =>
    rcases h with hidle | ⟨hact, hpower⟩
    · exact hno (exec_cancelUpdate r s) fun h => bne_iff_ne.mp h hidle
    · exact (hok (exec_cancelUpdate r s) (bne_iff_ne.mpr (by rw [show u.mss.fw.state = _ from hact]; decide))).trans
        (congrArg _ (cancelUpdateEffect_refused (s := u) hact hpower))

end Sys2Proof.Proofs
end

section
/-! PROOF. Resets, power, the watchdog and the function-level reset (R345, R352, R380, R406, R414, R457, R486–R501). -/

namespace Sys2Proof.Proofs
open Sys2Proof Sys2Proof.Machine Sys2Proof.Laws

/-! ### What a reset loses -/

/-- From `s` to `t` everything is lost but what a reset keeps (R457). -/
def losesState (s t : State) : Prop :=
  t.seq = Seq.reset ∧ t.regs = Regs.reset ∧ t.engines = [] ∧ t.marks = [] ∧ t.links = [] ∧
    t.rings = [] ∧ t.mem = { State.reset.mem with host := s.mem.host } ∧ t.opened = [] ∧ t.closed = [] ∧
    t.sec.tenant = none ∧ t.sec.slots = s.sec.slots ∧ t.sec.cell0 = s.sec.cell0 ∧ t.sec.cell1 = s.sec.cell1 ∧
    t.boot.flash = s.boot.flash ∧ t.boot.uniqueId = s.boot.uniqueId ∧ t.pending = s.pending

/-- Nothing but the clocks and the pins differs from the lost state. -/
theorem losesState_of_lost {s t : State}
    (h : t = { s.lost with refclk := t.refclk, boardTime := t.boardTime, boot := t.boot })
    (hflash : t.boot.flash = s.boot.flash) (hid : t.boot.uniqueId = s.boot.uniqueId) : losesState s t := by
  refine ⟨?_, ?_, ?_, ?_, ?_, ?_, ?_, ?_, ?_, ?_, ?_, ?_, ?_, hflash, hid, ?_⟩ <;> rw [h] <;> rfl

/-- The lost state with other pins. -/
theorem losesState_boot {s : State} {b : Boot} (hflash : b.flash = s.boot.flash) (hid : b.uniqueId = s.boot.uniqueId) :
    losesState s { s.lost with boot := b } := losesState_of_lost rfl hflash hid

/-! ### PGOOD -/

/-- The fall of a group's PGOOD in a device whose PERST_N is high, and in one whose PERST_N is low. -/
theorem exec_pgoodDeassert (g : Fin 6) (s : State) : ∃ t, exec (.pgoodDeassert g) s = .next t ∧
    t.boot.pgood = s.boot.pgood &&& ~~~(BitVec.ofNat 6 (2 ^ g.val)) ∧ (s.boot.perstLow = false → losesState s t) ∧
    (s.boot.perstLow = true → t.mem = s.mem ∧ t.boot.phase = s.boot.phase) ∧
    t.boot.latches = if g = 0 then ⟨none, none, false⟩ else s.boot.latches := by
  refine ⟨_, rfl, ?_⟩
  dsimp only
  cases hperst : s.boot.perstLow with
  | true =>
    by_cases hg : g = 0
    · rw [if_pos hg, if_pos hg]
      exact ⟨rfl, nofun, fun _ => ⟨rfl, rfl⟩, rfl⟩
    · rw [if_neg hg, if_neg hg]
      exact ⟨rfl, nofun, fun _ => ⟨rfl, rfl⟩, rfl⟩
  | false =>
    by_cases hg : g = 0
    · rw [if_pos hg, if_pos hg]
      exact ⟨rfl, fun _ => losesState_of_lost rfl rfl rfl, nofun, rfl⟩
    · rw [if_neg hg, if_neg hg]
      exact ⟨rfl, fun _ => losesState_of_lost rfl rfl rfl, nofun, rfl⟩

/-! ### The power-fail warning -/

section
variable {s : State}

/-- With no update under way and none that waits, none is taken up. -/
theorem nextJob_idle (hjob : s.sec.job = none) (hwait : s.sec.waiting = []) :
    s.nextJob.sec.job = none ∧ s.nextJob.sec.bar2Closed = s.sec.bar2Closed := by
  unfold State.nextJob
  split
  · exact ⟨hjob, rfl⟩
  · rw [hwait]
    exact ⟨hjob, rfl⟩

/-- A key-store update that fails leaves the tenant; where none waits BAR2 is closed as the seal has it. -/
theorem commitFails_sec (s : State) : s.commitFails.sec.tenant = s.sec.tenant ∧
    (s.sec.waiting = [] → s.commitFails.sec.job = none ∧ s.commitFails.sec.bar2Closed = s.sec.sealed) := by
  let u : State := State.emit (State.bar2Reopens { s with sec := { s.sec with job := none } }) srcMss 0x0406 []
  have hu : u.sec = { s.sec with
      job := none, bar2Closed := s.sec.sealed || s.sec.waiting.any fun j => j.purpose != .policy } := State.emit_sec ..
  rw [show s.commitFails = u.nextJob from rfl]
  clear_value u
  obtain ⟨-, htenant, -⟩ := nextJob_sec_same u
  refine ⟨htenant.trans (by rw [hu]), fun hwait => ?_⟩
  obtain ⟨hnone, hbar2⟩ := nextJob_idle (s := u) (congrArg Security.job hu) ((congrArg Security.waiting hu).trans hwait)
  refine ⟨hnone, hbar2.trans ((congrArg Security.bar2Closed hu).trans ?_)⟩
  rw [hwait]
  exact Bool.or_false _

/-- The update that has failed: the slot's marker is gone where it had been written. -/
def fwFailed (s : State) : State :=
  let applied := s.mss.fw.state == .activate
  State.sealSync { s with
    boot := { s.boot with flash := if applied then flashErase s.boot.flash (fwSlotAddr s.fwTarget) else s.boot.flash }
    mss := { s.mss with fw := { s.mss.fw with state := .idle, received := 0, failed := false } } }

/-- A firmware update that fails is idle again, and says so. -/
theorem fwFails_emits (s : State) : ∃ v : State, v.emits s.fwFails srcMss 0x0542 [] ∧ s.fwFails.mss.fw.state = .idle ∧
    s.fwFails.mss.fw.failed = false ∧ s.fwFails.sec.tenant = s.sec.tenant ∧ s.fwFails.sec.job = s.sec.job ∧
    s.fwFails.sec.bar2Closed = s.sec.bar2Closed := by
  have hfw := congrArg Prod.fst (fwStands_emit (fwFailed s) srcMss 0x0542 [])
  have hsec := State.emit_sec (fwFailed s) srcMss 0x0542 []
  rw [show s.fwFails = (fwFailed s).emit srcMss 0x0542 [] from rfl]
  generalize hu : (fwFailed s).emit srcMss 0x0542 [] = u at hfw hsec
  refine ⟨fwFailed s, hu ▸ emits_emit .., ?_⟩
  rw [hsec]
  exact ⟨congrArg FwUpdate.state hfw, congrArg FwUpdate.failed hfw, rfl, rfl, rfl⟩

/-- The warning is over, with its event. -/
def warningOver (s : State) : State :=
  State.emit { s with boot := { s.boot with pwrFail := false } } srcMss 0x0561 []

/-- What the warning stopped fails with its end. -/
def warningEnds (s : State) : State :=
  let v := if (warningOver s).sec.job.isSome then (warningOver s).commitFails else warningOver s
  if v.mss.fw.failed then v.fwFails else v

theorem warningOver_sec (s : State) : (warningOver s).sec = s.sec := State.emit_sec ..

theorem warningOver_fw (s : State) : (warningOver s).mss.fw = s.mss.fw :=
  congrArg Prod.fst (fwStands_emit { s with boot := { s.boot with pwrFail := false } } srcMss 0x0561 [])

/-- With no key-store update under way only a firmware update can have been stopped. -/
theorem warningEnds_noUpdate (hjob : s.sec.job = none) :
    warningEnds s = if s.mss.fw.failed then (warningOver s).fwFails else warningOver s := by
  unfold warningEnds
  rw [warningOver_sec, hjob]
  simp only [Option.isSome_none, Bool.false_eq_true, if_false, warningOver_fw]

/-- A key-store update that was stopped fails. -/
theorem warningEnds_update (hjob : s.sec.job.isSome = true) : (warningEnds s).sec.tenant = s.sec.tenant ∧
    (s.sec.waiting = [] → (warningEnds s).sec.job = none ∧ (warningEnds s).sec.bar2Closed = s.sec.sealed) := by
  obtain ⟨htenant, hdone⟩ := commitFails_sec (warningOver s)
  rw [warningOver_sec] at htenant hdone
  unfold warningEnds
  rw [warningOver_sec, if_pos hjob]
  dsimp only
  split
  · obtain ⟨-, -, -, -, hten, hsame, hbar2⟩ := fwFails_emits (warningOver s).commitFails
    rw [hten, hsame, hbar2]
    exact ⟨htenant, hdone⟩
  · exact ⟨htenant, hdone⟩

theorem pwrFailNDeassert_ends (h : (s.boot.pwrFail && s.mssRuns && s.boot.pgood == 0x3F) = true) :
    exec .pwrFailNDeassert s = .next (warningEnds s) := by
  change execPwrFailNDeassert s = _
  unfold execPwrFailNDeassert
  exact if_pos h

theorem pwrFailNDeassert_stays (h : ¬ (s.boot.pwrFail && s.mssRuns && s.boot.pgood == 0x3F) = true) :
    exec .pwrFailNDeassert s = .next { s with boot := { s.boot with pwrFail := false } } := by
  change execPwrFailNDeassert s = _
  unfold execPwrFailNDeassert
  exact if_neg h

end

/-! ### The function-level reset -/

/-- The rings and the security state. -/
def ringsAndSec (s : State) : SMap Ring × Security := (s.rings, s.sec)

section
variable {s t : State}

theorem ringsAndSec_of_sameButEvents (h : s.sameButEvents t) : ringsAndSec t = ringsAndSec s := by
  rw [h]
  rfl

theorem ringsAndSec_of_sends (h : s.sends t) : ringsAndSec t = ringsAndSec s := by
  rw [show t = { s with links := t.links } from h]
  rfl

theorem ringsAndSec_leaveRun (s : State) : ringsAndSec s.leaveRun = ringsAndSec s := by
  obtain ⟨u, hu, he, -⟩ := landedRest_steps (outOfRun s)
  have hm : ringsAndSec u = ringsAndSec s := by
    rw [hu]
    rfl
  exact (ringsAndSec_of_sameButEvents he).trans hm

theorem ringsAndSec_abortBetween (s : State) : ringsAndSec s.abortBetween = ringsAndSec s :=
  (ringsAndSec_leaveRun _).trans (ringsAndSec_of_sends (sends_sendStop ..))

theorem ringsAndSec_abortEffect (s : State) : ringsAndSec (abortEffect s) = ringsAndSec s := by
  unfold abortEffect
  split
  · rfl
  · split
    · exact ringsAndSec_abortBetween s
    · split
      · split
        · rfl
        · exact ringsAndSec_abortBetween s
      · exact ringsAndSec_abortBetween s
    · rfl
    · rfl
    · rfl

end

theorem smapGet_of_no_key {α : Type} {d : α} {m : SMap α} {k : Nat} (h : ∀ p ∈ m, p.1 ≠ k) : smapGet d m k = d := by
  induction m with
  | nil => rfl
  | cons p m ih =>
    rw [smapGet, if_neg fun hk => h p List.mem_cons_self hk.symm]
    exact ih fun q hq => h q (List.mem_cons_of_mem _ hq)

/-- What holds of the default and of every value that the change gives holds of every value of the map. -/
theorem smapGet_smapMap {α : Type} [DecidableEq α] {d : α} {f : α → α} {P : α → Prop} (hd : P d) (hf : ∀ v, P (f v))
    (m : SMap α) (k : Nat) : P (smapGet d (smapMap d f m) k) := by
  induction m with
  | nil => exact hd
  | cons p m ih =>
    rw [smapMap]
    split
    · exact ih
    · rw [smapGet]
      split
      · exact hf _
      · exact ih

/-- A ring that moves to a state is in it, the others are as they were. -/
theorem ringTo_rings {s : State} (h : smapWf Ring.reset s.rings = true) (n : Nat) (st : RingState) :
    smapWf Ring.reset (s.ringTo n st).rings = true ∧ ((s.ringTo n st).ring n).state = st ∧
      (∀ k, k ≠ n → (s.ringTo n st).ring k = s.ring k) ∧ (s.ringTo n st).sec = s.sec := by
  unfold State.ringTo State.ring
  dsimp only
  split
  · next hst => exact ⟨h, hst, fun _ _ => rfl, rfl⟩
  · rw [State.emit_rings, State.emit_sec]
    refine ⟨smapWf_put _ _ _ _ h, ?_, fun k hk => smapGet_put_other _ _ _ _ _ hk, rfl⟩
    exact congrArg Ring.state (smapGet_put_self _ _ _ _ h)

/-- A ring that is put OFF is OFF, the others are as they were. -/
theorem ringOff_rings {s : State} (h : smapWf Ring.reset s.rings = true) (n : Nat) :
    smapWf Ring.reset (s.ringOff n).rings = true ∧ ((s.ringOff n).ring n).state = .off ∧
      (∀ k, k ≠ n → (s.ringOff n).ring k = s.ring k) ∧ (s.ringOff n).sec = s.sec := by
  obtain ⟨hwf, hoff, hother, hsec⟩ := ringTo_rings (s := (s.setRing n { s.ring n with
    hostPtr := 0, devPtr := 0, pending := false, started := false }).forgetReady n) (smapWf_put _ _ _ _ h) n .off
  exact ⟨hwf, hoff, fun k hk => (hother k hk).trans (smapGet_put_other _ _ _ _ _ hk), hsec⟩

/-- Once all that are listed have been put OFF, each of them is OFF, and one that was OFF stays so. -/
theorem foldl_ringOff (l : List (Nat × Ring)) {s : State} (h : smapWf Ring.reset s.rings = true) :
    (∀ k, (∃ p ∈ l, p.1 = k) ∨ (s.ring k).state = .off →
      ((l.foldl (fun s p => s.ringOff p.1) s).ring k).state = .off) ∧
    (l.foldl (fun s p => s.ringOff p.1) s).sec = s.sec := by
  induction l generalizing s with
  | nil => exact ⟨fun k hk => hk.elim (fun ⟨_, hp, _⟩ => nomatch hp) id, rfl⟩
  | cons p l ih =>
    obtain ⟨hwf, hoff, hother, hsec⟩ := ringOff_rings h p.1
    obtain ⟨hall, hkept⟩ := ih hwf
    refine ⟨fun k hk => hall k ?_, hkept.trans hsec⟩
    by_cases hp : k = p.1
    · exact .inr (hp ▸ hoff)
    · rw [hother k hp]
      refine hk.imp_left ?_
      rintro ⟨q, hq, rfl⟩
      rcases List.mem_cons.mp hq with rfl | hq
      · exact absurd rfl hp
      · exact ⟨q, hq, rfl⟩

/-- Every ring is OFF when all that the device holds have been put OFF. -/
theorem ringsOff_state {s : State} (h : smapWf Ring.reset s.rings = true) (k : Nat) :
    ((s.rings.foldl (fun s p => s.ringOff p.1) s).ring k).state = .off := by
  obtain ⟨hall, -⟩ := foldl_ringOff s.rings h
  refine hall k ?_
  by_cases hk : ∃ p ∈ s.rings, p.1 = k
  · exact .inl hk
  · refine .inr (congrArg Ring.state (smapGet_of_no_key fun p hp hpk => hk ⟨p, hp, hpk⟩))

/-- The reset once the abort has begun and every ring is OFF: the watches are disarmed, and the loader is cleared. -/
def flrCleared (s : State) : State :=
  { s with
    watches := smapMap .reset (fun (w : Watch) => { w with armed := false }) s.watches
    regs := { s.regs with loadAddr := 0, loadSize := 0, loadBusy := false, loadFrom := 0, loadBytes := 0, loadStatus := 0,
                          loadReason := 0, heldWrite := none, readLatch := none } }

theorem flrEffect_eq (s : State) : flrEffect s =
    let u := flrCleared ((abortEffect s).rings.foldl (fun s p => s.ringOff p.1) (abortEffect s))
    if u.sec.tdi = .locked ∨ u.sec.tdi = .run then
      State.emit { u with sec := { u.sec with tdi := .error } } srcMss 0x0410 []
    else u := rfl

theorem flrEffect_leaves {s : State} (h : s.canonical = true) : (∀ n, ((flrEffect s).ring n).state = .off) ∧
    (∀ w, (smapGet Watch.reset (flrEffect s).watches w).armed = false) ∧ (flrEffect s).regs.loadBusy = false ∧
    (flrEffect s).regs.loadStatus = 0 ∧ (flrEffect s).regs.heldWrite = none ∧
    (s.sec.tdi = .run ∨ s.sec.tdi = .locked → (flrEffect s).sec.tdi = .error) := by
  have habort := ringsAndSec_abortEffect s
  rw [ringsAndSec, ringsAndSec, Prod.mk.injEq] at habort
  obtain ⟨hrings, hsec⟩ := habort
  have hwf : smapWf Ring.reset (abortEffect s).rings = true := hrings ▸ rings_wf_of_canonical h
  have hoff := ringsOff_state hwf
  obtain ⟨-, hkept⟩ := foldl_ringOff (abortEffect s).rings hwf
  rw [flrEffect_eq]
  generalize (abortEffect s).rings.foldl (fun s p => s.ringOff p.1) (abortEffect s) = u at hoff hkept
  have hsame : (flrCleared u).sec = s.sec := hkept.trans hsec
  have hwatches : ∀ w, (smapGet Watch.reset (flrCleared u).watches w).armed = false :=
    smapGet_smapMap (P := fun x : Watch => x.armed = false) rfl (fun _ => rfl) u.watches
  dsimp only
  rw [hsame]
  split
  · simp only [State.ring, State.emit_rings, State.emit_watches, State.emit_regs, State.emit_sec]
    exact ⟨hoff, hwatches, rfl, rfl, rfl, fun _ => trivial⟩
  · next hnot => exact ⟨hoff, hwatches, rfl, rfl, rfl, fun ht => absurd ht.symm hnot⟩

/-- Settles O48: by the source of the reset, the update that the warning stopped, and the phase of the boot. -/
theorem resetsAndPower : Obligations.ResetsAndPower := by
  unfold Obligations.ResetsAndPower
  intro s lost low high runs ends
  have hruns : s.mssRuns = true ↔ runs := mssRuns_iff s
  have hends : (s.boot.pwrFail && s.mssRuns && s.boot.pgood == 0x3F) = true ↔ ends := by
    rw [Bool.and_eq_true, Bool.and_eq_true, hruns, beq_iff_eq, and_assoc]
  refine ⟨⟨_, rfl, losesState_boot rfl rfl, rfl, rfl, rfl⟩, ⟨_, rfl, losesState_boot rfl rfl, rfl, rfl⟩,
    fun x => ⟨_, rfl, losesState_boot rfl rfl, rfl, rfl, rfl⟩, fun g => exec_pgoodDeassert g s, fun g => ?sequencing,
    ⟨fun hr hpower => ?falls, fun h => ?low⟩,
    ⟨fun h hjob hgood => ?rises, fun h hjob => ?stopsUpdate, fun h hjob hfailed => ?stopsFirmware, fun h => ?high⟩,
    fun h => ?restarts, fun h => ?bootsAgain, fun h => ?noWatchdog, fun hready hcanonical => ?flr, fun h => ?noFlr,
    fun p h => ⟨s.failPlate p.val, ?fails, bitAt_failPlate s p⟩, fun p h => ?noPlate⟩
  case sequencing =>
    change execSequencingViolation g s = _
    unfold execSequencingViolation
    cases s.boot.latches.sequencing <;> rfl
  case falls =>
    refine ⟨low.emit srcMss 0x0560 [], ?_, emits_emit ..⟩
    change execPwrFailNAssert s = _
    rw [execPwrFailNAssert, hruns.mpr hr, hpower]
    rfl
  case low =>
    change execPwrFailNAssert s = _
    rw [execPwrFailNAssert, if_neg]
    rw [Bool.and_eq_true, Bool.not_eq_true', hruns]
    exact h
  case rises =>
    refine ⟨_, pwrFailNDeassert_ends (hends.mpr h), ?_⟩
    rw [warningEnds_noUpdate hjob, hgood, if_neg Bool.false_ne_true]
    exact emits_emit ..
  case stopsUpdate =>
    obtain ⟨htenant, hdone⟩ := warningEnds_update hjob
    exact ⟨_, pwrFailNDeassert_ends (hends.mpr h), htenant, hdone⟩
  case stopsFirmware =>
    obtain ⟨v, hv, hidle, hgood, -⟩ := fwFails_emits (warningOver s)
    refine ⟨_, v, pwrFailNDeassert_ends (hends.mpr h), ?_⟩
    rw [warningEnds_noUpdate hjob, if_pos hfailed]
    exact ⟨hv, hidle, hgood⟩
  case high => exact pwrFailNDeassert_stays (mt hends.mp h)
  case restarts =>
    refine ⟨_, ?_, emits_emit ..⟩
    change execWatchdogExpiry s = _
    rw [execWatchdogExpiry, h]
  case bootsAgain =>
    have hexec : exec .watchdogExpiry s = .next { s.lost with
        refclk := s.refclk, boardTime := s.boardTime
        boot := { s.lost.boot with boardSlot := s.boot.boardSlot, slotHeld := s.boot.slotHeld } } := by
      change execWatchdogExpiry s = _
      rw [execWatchdogExpiry, h]
    exact ⟨_, hexec, losesState_of_lost rfl rfl rfl, rfl, rfl, rfl, rfl, rfl⟩
  case noWatchdog =>
    change execWatchdogExpiry s = _
    rcases h with h | h <;> rw [execWatchdogExpiry, h]
  case flr => exact ⟨_, if_pos hready, flrEffect_leaves hcanonical⟩
  case noFlr => exact if_neg h
  case fails => exact if_pos h
  case noPlate => exact if_neg (by rw [h]; exact Bool.false_ne_true)

end Sys2Proof.Proofs
end
